-- ==== Sys2Proof/Word.lean ====
section
/-! DEFINITION. Word types and sparse tables: the plain data every other file is written in.
A table holds a fixed number of like things by index; entries equal to what an unlisted index reads as are left out,
and indices rise strictly, so that equal contents are equal data. -/

namespace Sys2Proof

/-- One byte of a packet, a frame or a memory. -/
abbrev Byte := BitVec 8
/-- A 16-bit word. -/
abbrev Word16 := BitVec 16
/-- A 32-bit word. -/
abbrev Word32 := BitVec 32
/-- A cycle number of the domain angle: 40 bits (R13, R71). -/
abbrev Cycle := BitVec 40
/-- An angle in au, 1/65,536 of a cycle (R13). -/
abbrev Angle := BitVec 16

/-- A table: rising indices, each with an entry that differs from the default. -/
abbrev Tbl (α : Type) := List (Nat × α)

namespace Tbl

/-- The entry at index `k`; `d` where nothing is listed. -/
def get {α : Type} (d : α) : Tbl α → Nat → α
  | [], _ => d
  | (j, v) :: rest, k => if j = k then v else get d rest k

/-- The table without index `k`. -/
def erase {α : Type} : Tbl α → Nat → Tbl α
  | [], _ => []
  | (j, v) :: rest, k => if j = k then rest else (j, v) :: erase rest k

/-- The table with `v` listed at index `k`, whatever `v` is. -/
def insert {α : Type} : Tbl α → Nat → α → Tbl α
  | [], k, v => [(k, v)]
  | (j, w) :: rest, k, v =>
    if j = k then (k, v) :: rest
    else if k < j then (k, v) :: (j, w) :: rest
    else (j, w) :: insert rest k v

/-- The table with entry `k` set to `v`: not listed when `v` is what an unlisted index reads as. -/
def set {α : Type} [DecidableEq α] (d : α) (t : Tbl α) (k : Nat) (v : α) : Tbl α :=
  if v = d then erase t k else insert t k v

/-- The table with entry `k` changed by `f`. -/
def modify {α : Type} [DecidableEq α] (d : α) (t : Tbl α) (k : Nat) (f : α → α) : Tbl α :=
  set d t k (f (get d t k))

/-- Set entries `k`, `k + 1`, … to the given values. -/
def setRange {α : Type} [DecidableEq α] (d : α) (t : Tbl α) (k : Nat) : List α → Tbl α
  | [] => t
  | v :: vs => setRange d (set d t k v) (k + 1) vs

/-- The entries at `k`, `k + 1`, …, `n` of them. -/
def getRange {α : Type} (d : α) (t : Tbl α) (k : Nat) : Nat → List α
  | 0 => []
  | n + 1 => get d t k :: getRange d t (k + 1) n

/-- Every index of `l` changed by `f`. -/
def modifyAll {α : Type} [DecidableEq α] (d : α) (t : Tbl α) (l : List Nat) (f : Nat → α → α) : Tbl α :=
  l.foldl (fun t k => modify d t k (f k)) t

/-- Every listed entry changed by `f`; an entry that becomes the default is dropped. -/
def mapVals {α : Type} [DecidableEq α] (d : α) (t : Tbl α) (f : α → α) : Tbl α :=
  (t.map (fun e => (e.1, f e.2))).filter (fun e => e.2 ≠ d)

/-- The entries whose index satisfies `p`. -/
def keep {α : Type} (t : Tbl α) (p : Nat → Bool) : Tbl α := t.filter (fun e => p e.1)

/-- Every listed index is above `b`, indices rise, and no entry equals the default. -/
def wfFrom {α : Type} [DecidableEq α] (d : α) : Nat → Tbl α → Bool
  | _, [] => true
  | b, (j, v) :: rest => decide (b ≤ j) && decide (v ≠ d) && wfFrom d (j + 1) rest

/-- The canonical form of a table. -/
def wf {α : Type} [DecidableEq α] (d : α) (t : Tbl α) : Bool := wfFrom d 0 t

end Tbl

end Sys2Proof
end

