-- ==== Sys2Proof/Syntax.lean ====
section
/-! DEFINITION. The commands: one constructor per row of spec/opcode_table.json, and the data their operands are made of.
Every command's first operand `dt` is the time since the command before it, in ticks of 10 ns (R96: every arrival is
stamped; DESIGN CHOICE, log 1). A command packet is an operand of its opcode's row (log 5). -/

namespace Sys2Proof

/-- The lanes (R159 LANE). -/
inductive Lane where
  | h | e0 | e1 | w0 | w1
  deriving DecidableEq, Repr

/-- The serial ports (R159 PORT). -/
inductive Port where
  | maint | drop
  deriving DecidableEq, Repr

/-- A side of the module on the ring (R256). -/
inductive Side where
  | east | west
  deriving DecidableEq, Repr

/-- The path a packet came on (R36); `ring` is a packet forwarded here by another position (R145, R291). -/
inductive Path where
  | laneH (till : Word16)
  | maint
  | drop
  | ring (src : Byte) (rtill : Word16)
  deriving DecidableEq, Repr

/-- A well-formed command packet (R132) without its opcode, which the row's constructor gives, and without LENGTH,
which is the number of parameter bytes (R133). -/
structure Packet where
  path      : Path
  flags     : Word16
  tag       : Word32
  target    : Byte
  till      : Word16
  execAngle : Angle
  execCycle : Word32
  params    : List Byte
  deriving DecidableEq, Repr

/-- A reply or an event (R140); LENGTH is the number of payload bytes. -/
structure Reply where
  opcode   : Word16
  rflags   : Word16
  tag      : Word32
  position : Byte
  status   : Word16
  hubEpoch : Word16
  detail   : Word16
  cycle    : Cycle
  angle    : Angle
  payload  : List Byte
  deriving DecidableEq, Repr

/-- The patterns a channel can show (R159, R190). -/
inductive Pattern where
  | off | steady | flashA | flashB | dim
  deriving DecidableEq, Repr

/-- The switching modes (R159, R188). -/
inductive Mode where
  | zeroCross | phaseExact | dc
  deriving DecidableEq, Repr

/-- What a source makes a channel show: a pattern, in a mode, with a conduction angle when dimmed (R159). -/
structure Shown where
  pattern : Pattern
  mode    : Mode
  dim     : Word16
  deriving DecidableEq, Repr

/-- KIND of a bus phase record (R88). -/
inductive BusKind where
  | none | ac | dc
  deriving DecidableEq, Repr

/-- A bus phase record as TIME_READ returns it (R88). -/
structure BusRec where
  pos     : Angle
  neg     : Angle
  kind    : BusKind
  settled : Bool
  deriving DecidableEq, Repr

/-- One bin of a swatch: signed mean and tolerance, in mA (R211). -/
structure SwBin where
  mean : Int
  tol  : Nat
  deriving DecidableEq, Repr

/-- A swatch: the bus kind it was learned on (`none`: no swatch) and its bins (R211). -/
structure Swatch where
  kind : BusKind
  bins : List SwBin
  deriving DecidableEq, Repr

/-- One path's calibration: offset and gain, both in 1/10,000 of full scale and of nominal (R244). -/
structure CalPath where
  offset : Int
  gain   : Nat
  deriving DecidableEq, Repr

/-- Header of a frame from a slice (R229). `good`: its CRC-32C verifies and its LEN agrees with its length. -/
structure SliceHdr where
  good  : Bool
  epoch : Byte
  seq   : Word16
  ack   : Word16
  deriving DecidableEq, Repr

/-- Header of a frame from the hub to a slice (R229). `good`: its CRC-32C verifies and its LEN agrees with its length. -/
structure HubHdr where
  good  : Bool
  epoch : Byte
  seq   : Word16
  deriving DecidableEq, Repr

/-- One load block in the order of R56 (R230). The firmware's bytes are those of the ACTIVE bank (R23); the calibration
carries the link delay in ticks (R231). -/
inductive LoadBlock where
  | firmware
  | calibration (paths : List CalPath) (delay : Nat)
  | swatch (pos : Nat) (s : Swatch)
  | fallback (patterns : List Pattern)
  | startPattern (patterns : List Shown)
  deriving DecidableEq, Repr

/-- One switching action of a plan entry at a slice position (R230). -/
structure PlanAct where
  pos  : Nat
  act  : Shown
  due  : Nat
  deriving DecidableEq, Repr

/-- The content of a PLAN frame (R230, R245, R473): entries, a calibration table, the stored fallback pattern, FA (0) or FB (1),
a position's LEAK_MA, FLOOR_MA, SETTLE and swatch mode, or its learned swatch. -/
inductive PlanBody where
  | entries (acts : List PlanAct)
  | calibration (paths : List CalPath)
  | fallback (patterns : List Pattern)
  | flash (gen : Nat) (period on phase : Nat)
  | values (pos leak floor settle mode : Nat)
  | swatch (pos : Nat) (s : Swatch)
  deriving DecidableEq, Repr

/-- The content of a TIME frame (R230). -/
structure TimeBody where
  cycle  : Cycle
  angle  : Angle
  tick   : Nat
  half   : Nat
  period : Nat
  bus    : BusRec
  deriving DecidableEq, Repr

/-- A REQUEST to a slice (R230). -/
inductive SliceReq where
  | readSwatch (pos : Nat)
  | setMode (pos : Nat) (freeze : Bool)
  | openWire (pos : Nat)
  | adcTest
  | ramTest
  | echo
  deriving DecidableEq, Repr

/-- The REPLY to a REQUEST (R230). -/
inductive SliceAns where
  | swatch (state : Nat) (s : Swatch)
  | done
  | echo
  deriving DecidableEq, Repr

/-- Header of a slot frame (R275). -/
structure RingHdr where
  loop     : Nat
  held     : Bool
  src      : Byte
  dst      : Byte
  srcEpoch : Word16
  dstEpoch : Word16
  seq      : Word16
  rtill    : Word16
  weft     : Word32
  deriving DecidableEq, Repr

/-- Header of a link-control frame (R265). -/
structure LinkHdr where
  lane     : Lane
  srcEpoch : Word16
  deriving DecidableEq, Repr

/-- The forms of the domain (R172, R257). -/
inductive Form where
  | none | dual | single | foldedChain | wrappedDual
  deriving DecidableEq, Repr

/-- The tracker's states (R76). -/
inductive Tracker where
  | free | locking | locked | flywheel | synthetic | domain | domainHold
  deriving DecidableEq, Repr

/-- A weft header (R274). -/
structure WeftHdr where
  loop      : Nat
  half      : Bool
  step      : Bool
  reference : Byte
  positions : Byte
  refEpoch  : Word16
  form      : Form
  tracker   : Tracker
  cycle     : Cycle
  hops      : Byte
  stepAngle : Angle
  pathDelay : Word32
  period    : Word32
  deriving DecidableEq, Repr

/-- A transfer block as received (R359), every byte of it. -/
abbrev Block := List Byte

/-- UPDATE_CTL's fixed part (R366). -/
structure UpdHdr where
  cause   : Byte
  gateway : Byte
  late    : Bool
  session : Word32
  deriving DecidableEq, Repr

/-- An escrow copy (R44, section 4 of spec/02). -/
structure Escrow where
  position : Byte
  revision : Word32
  /-- last hub epoch recorded for that position -/
  epoch    : Word16
  bytes    : List Byte
  mac      : List Byte
  deriving DecidableEq, Repr

/-- The supplies (R300). -/
inductive Supply where
  | mains | backup
  deriving DecidableEq, Repr

/-- The reset causes of R65, coded as RESET_CAUSE in R161. -/
inductive ResetCause where
  | powerOn | watchdog | lockstepTeller | lockstepKeeper | fatal | trial | unwind | ring | hostWarm | hostCold
  deriving DecidableEq, Repr

/-- Why a fatal error is declared (R443), with DETAIL of R446. -/
inductive FatalCause where
  | ecc (address : Word32)
  | firmware
  deriving DecidableEq, Repr

/-- Which health or known-answer test failed (R392, R393, R400). -/
inductive HealthTest where
  | rct | apt | kat
  deriving DecidableEq, Repr

/-- What becomes of a load attempt (R56, R244): the slice has converted its paths 1,024 times, with for each of the entries 2
to 39 of the auxiliary sequence (R243) the sum of its codes; its last block is acknowledged; or a block has failed. -/
inductive LoadOutcome where
  | measured (sums : List Int)
  | done
  | failed
  deriving DecidableEq, Repr

/-- A fault that a memory test has found (R442): the slice of SLICE_RAM (any other target's memory is the hub's), the byte address
in the memory, the XOR of the expected and the read byte, the March element. -/
structure MemFault where
  slice   : Nat
  address : Nat
  bits    : Byte
  element : Nat
  deriving DecidableEq, Repr

/-- What the hardware of a self-test has found (R434-R442): of a memory target every fault and the units tested, of LANE_PRBS31 for each
lane tested its bit errors, or none where it never reached block lock, and the bits checked, and of SLICE_ADC for each slice
tested the 19 paths' sums of 64 codes on REF_ZERO and on REF_POS. -/
structure BistFound where
  units  : Nat
  memory : List MemFault
  lanes  : List (Option Nat × Nat)
  paths  : List (List (Int × Int))
  deriving DecidableEq, Repr

/-- The commands, in the table's order. -/
inductive Instr where
  /-- CAPABILITY_READ (R144). -/
  | capabilityRead (dt : Nat) (p : Packet)
  /-- STATUS_READ (R162). -/
  | statusRead (dt : Nat) (p : Packet)
  /-- TIME_READ (R74). -/
  | timeRead (dt : Nat) (p : Packet)
  /-- TILL_OPEN (R116). -/
  | tillOpen (dt : Nat) (p : Packet)
  /-- TILL_CLOSE (R160). -/
  | tillClose (dt : Nat) (p : Packet)
  /-- TILL_READ (R114). -/
  | tillRead (dt : Nat) (p : Packet)
  /-- SCHEDULE_CANCEL (R163). -/
  | scheduleCancel (dt : Nat) (p : Packet)
  /-- TAG_QUERY (R150). -/
  | tagQuery (dt : Nat) (p : Packet)
  /-- RESET (R164). -/
  | reset (dt : Nat) (p : Packet)
  /-- CONFIG_WRITE (R165). -/
  | configWrite (dt : Nat) (p : Packet)
  /-- CONFIG_READ (R160). -/
  | configRead (dt : Nat) (p : Packet)
  /-- CHANNEL_SET (R199). -/
  | channelSet (dt : Nat) (p : Packet)
  /-- ASPECT_DEFINE (R198). -/
  | aspectDefine (dt : Nat) (p : Packet)
  /-- ASPECT_SHOW (R168). -/
  | aspectShow (dt : Nat) (p : Packet)
  /-- ASPECT_DELETE (R198). -/
  | aspectDelete (dt : Nat) (p : Packet)
  /-- FLASH_SET (R192). -/
  | flashSet (dt : Nat) (p : Packet)
  /-- CHANNEL_READ (R166). -/
  | channelRead (dt : Nat) (p : Packet)
  /-- SWATCH_LEARN (R213). -/
  | swatchLearn (dt : Nat) (p : Packet)
  /-- SWATCH_READ (R211). -/
  | swatchRead (dt : Nat) (p : Packet)
  /-- SWATCH_MODE (R216). -/
  | swatchMode (dt : Nat) (p : Packet)
  /-- RESPONSE_SET (R170). -/
  | responseSet (dt : Nat) (p : Packet)
  /-- FAULT_READ (R170). -/
  | faultRead (dt : Nat) (p : Packet)
  /-- FAULT_CLEAR (R170). -/
  | faultClear (dt : Nat) (p : Packet)
  /-- OPEN_WIRE_TEST (R251). -/
  | openWireTest (dt : Nat) (p : Packet)
  /-- RING_STATUS (R172). -/
  | ringStatus (dt : Nat) (p : Packet)
  /-- LANE_STATUS (R171). -/
  | laneStatus (dt : Nat) (p : Packet)
  /-- RING_ENUMERATE (R264). -/
  | ringEnumerate (dt : Nat) (p : Packet)
  /-- ESCROW_PUSH (R171). -/
  | escrowPush (dt : Nat) (p : Packet)
  /-- LEDGER_READ (R173). -/
  | ledgerRead (dt : Nat) (p : Packet)
  /-- LEDGER_SET (R310). -/
  | ledgerSet (dt : Nat) (p : Packet)
  /-- STANDBY_ENTER (R324). -/
  | standbyEnter (dt : Nat) (p : Packet)
  /-- ENERGY_READ (R350). -/
  | energyRead (dt : Nat) (p : Packet)
  /-- TARIFF_AT (R334). -/
  | tariffAt (dt : Nat) (p : Packet)
  /-- DEMAND_SET (R336). -/
  | demandSet (dt : Nat) (p : Packet)
  /-- DEMAND_READ (R338). -/
  | demandRead (dt : Nat) (p : Packet)
  /-- BOUNDARY_READ (R347). -/
  | boundaryRead (dt : Nat) (p : Packet)
  /-- UPDATE_OPEN (R357). -/
  | updateOpen (dt : Nat) (p : Packet)
  /-- BLOCK_PUT (R361). -/
  | blockPut (dt : Nat) (p : Packet)
  /-- UPDATE_STATUS (R388). -/
  | updateStatus (dt : Nat) (p : Packet)
  /-- PREPARE (R375). -/
  | prepare (dt : Nat) (p : Packet)
  /-- COMMIT (R380). -/
  | commit (dt : Nat) (p : Packet)
  /-- CONFIRM (R386). -/
  | confirm (dt : Nat) (p : Packet)
  /-- UNWIND (R387). -/
  | unwind (dt : Nat) (p : Packet)
  /-- UPDATE_ABORT (R389). -/
  | updateAbort (dt : Nat) (p : Packet)
  /-- RECOVER_ACTIVATE (R391). -/
  | recoverActivate (dt : Nat) (p : Packet)
  /-- RANDOM (R402). -/
  | random (dt : Nat) (p : Packet)
  /-- ENTROPY_STATUS (R178). -/
  | entropyStatus (dt : Nat) (p : Packet)
  /-- DOMAIN_KEY_WRITE (R404). -/
  | domainKeyWrite (dt : Nat) (p : Packet)
  /-- COSIGN_KEY_SET (R411). -/
  | cosignKeySet (dt : Nat) (p : Packet)
  /-- UART_SET (R181). -/
  | uartSet (dt : Nat) (p : Packet)
  /-- UART_STATUS (R180). -/
  | uartStatus (dt : Nat) (p : Packet)
  /-- UART_BREAK (R425). -/
  | uartBreak (dt : Nat) (p : Packet)
  /-- BIST_RUN (R434). -/
  | bistRun (dt : Nat) (p : Packet)
  /-- DUMP_SUMMARY (R448). -/
  | dumpSummary (dt : Nat) (p : Packet)
  /-- DUMP_RELEASE (R451). -/
  | dumpRelease (dt : Nat) (p : Packet)
  /-- DOORBELL (R119). -/
  | doorbell (dt : Nat) (till prod epoch : Word16)
  /-- ATTACH (R127). -/
  | attach (dt : Nat) (sysPage : BitVec 14)
  /-- DETACH (R129). -/
  | detach (dt : Nat)
  /-- KEEPALIVE (R128). -/
  | keepalive (dt : Nat) (ms : Word16)
  /-- PX_REQUEST (R109). -/
  | pxRequest (dt : Nat) (first count : Word16) (expect new : BitVec 2) (seq : Word16)
  /-- PENDING_CLEAR (R111). -/
  | pendingClear (dt : Nat) (first : Nat) (data : List Byte)
  /-- WR (R103). -/
  | wr (dt : Nat) (offset : Word32) (data : List Byte) (good : Bool)
  /-- RD (R297). -/
  | rd (dt : Nat) (tag : Nat) (offset : Word32) (len : Word16) (good : Bool)
  /-- HOST_HELLO (R297). -/
  | hostHello (dt : Nat) (good : Bool)
  /-- KEEPALIVE_EXPIRY (R128). -/
  | keepaliveExpiry (dt : Nat)
  /-- REPORT_ENTRY_PLACE (R125). -/
  | reportEntryPlace (dt : Nat) (till : Word16)
  /-- PAGE_ECC (R106). -/
  | pageEcc (dt : Nat) (source : Byte) (word : Word32)
  /-- POWER_ON (R47). -/
  | powerOn (dt : Nat) (supply : Supply)
  /-- BOOT_CHECK (R50). -/
  | bootCheck (dt : Nat) (digestsOk : Bool)
  /-- VAULT_STAGE (R52). -/
  | vaultStage (dt : Nat)
  /-- SLICE_RELOAD (R56). -/
  | sliceReload (dt : Nat) (slice : Nat) (outcome : LoadOutcome)
  /-- HELLO_WAIT_EXPIRY (R471). -/
  | helloWaitExpiry (dt : Nat) (slice : Nat)
  /-- FIRST_LAMP_CONTROL (R53). -/
  | firstLampControl (dt : Nat)
  /-- RING_READY (R59). -/
  | ringReady (dt : Nat) (east west : Option Escrow)
  /-- HUB_WARM_RESET (R64). -/
  | hubWarmReset (dt : Nat) (cause : ResetCause)
  /-- LOCKSTEP_TELLER (R20). -/
  | lockstepTeller (dt : Nat)
  /-- LOCKSTEP_KEEPER (R21). -/
  | lockstepKeeper (dt : Nat)
  /-- KEEPER_STALL (R22). -/
  | keeperStall (dt : Nat)
  /-- KEEPER_HEARTBEAT_RETURN (R22). -/
  | keeperHeartbeatReturn (dt : Nat)
  /-- HUB_WATCHDOG (R22). -/
  | hubWatchdog (dt : Nat)
  /-- FATAL_ERROR (R444). -/
  | fatalError (dt : Nat) (cause : FatalCause)
  /-- HUB_OVERTEMP (R315). -/
  | hubOvertemp (dt : Nat) (temp : Int)
  /-- VERDICT (R217). -/
  | verdict (dt : Nat) (slice : Nat) (hdr : SliceHdr) (bin : Nat) (cyc : Word16) (codes : Word32)
  /-- SLICE_SILENT (R217). -/
  | sliceSilent (dt : Nat) (slice : Nat)
  /-- SAMPLES (R235). -/
  | samples (dt : Nat) (slice : Nat) (hdr : SliceHdr) (bin : Nat) (steps : List (List Word16))
  /-- XING (R78). -/
  | xing (dt : Nat) (slice : Nat) (hdr : SliceHdr) (rising : Bool) (stamp : Nat)
  /-- SLICE_REPLY (R233). -/
  | sliceReply (dt : Nat) (slice : Nat) (hdr : SliceHdr) (ofSeq : Word16) (ans : SliceAns)
  /-- TRIP (R186). -/
  | trip (dt : Nat) (slice : Nat) (hdr : SliceHdr) (pos : Option Nat)
  /-- SLICE_HELLO (R236). -/
  | sliceHello (dt : Nat) (slice : Nat) (good : Bool) (cause : Byte)
  /-- SLICE_LINK_DEADLINE (R234). -/
  | sliceLinkDeadline (dt : Nat) (slice : Nat) (seq : Word16)
  /-- SLICE_LINK_SILENCE (R236). -/
  | sliceLinkSilence (dt : Nat) (slice : Nat)
  /-- SLICE_REISSUE (R238). -/
  | sliceReissue (dt : Nat) (slice : Nat)
  /-- CALIBRATION_UPDATE (R245). -/
  | calibrationUpdate (dt : Nat) (slice : Nat)
  /-- TIME_FRAME_SEND (R230). -/
  | timeFrameSend (dt : Nat)
  /-- PLAN_DISPATCH (R95). -/
  | planDispatch (dt : Nat) (id : Nat)
  /-- LOAD (R56). -/
  | load (dt : Nat) (slice : Nat) (hdr : HubHdr) (start : Bool) (block : LoadBlock)
  /-- PLAN (R232). -/
  | plan (dt : Nat) (slice : Nat) (hdr : HubHdr) (body : PlanBody)
  /-- TIME (R231). -/
  | timeFrame (dt : Nat) (slice : Nat) (hdr : HubHdr) (body : TimeBody)
  /-- SLICE_REQUEST (R230). -/
  | sliceRequest (dt : Nat) (slice : Nat) (hdr : HubHdr) (req : SliceReq)
  /-- LINK_RESET_SEQUENCE (R236). -/
  | linkResetSequence (dt : Nat) (slice : Nat)
  /-- SLICE_HUB_SILENCE (R24). -/
  | sliceHubSilence (dt : Nat) (slice : Nat)
  /-- SLICE_HELLO_TIMER (R230). -/
  | sliceHelloTimer (dt : Nat) (slice : Nat)
  /-- STORED_FALLBACK_HALF_CYCLE (R475). -/
  | storedFallbackHalfCycle (dt : Nat) (slice : Nat)
  /-- SLICE_BIN_END (R210). -/
  | sliceBinEnd (dt : Nat) (slice : Nat) (bin : Nat) (codes : List (List Int))
  /-- SWATCH_TRACK (R216). -/
  | swatchTrack (dt : Nat) (slice : Nat) (pos : Nat)
  /-- OVERCURRENT_TRIP (R186). -/
  | overcurrentTrip (dt : Nat) (channel : Nat) (peak : Nat)
  /-- THERMAL_CUT (R247). -/
  | thermalCut (dt : Nat) (slice : Nat)
  /-- OPEN_WIRE_CHANNEL_TEST (R251). -/
  | openWireChannelTest (dt : Nat) (channel : Nat)
  /-- SWATCH_LEARN_BEGIN (R213). -/
  | swatchLearnBegin (dt : Nat) (channel : Nat)
  /-- SWATCH_LEARN_DONE (R215). -/
  | swatchLearnDone (dt : Nat) (channel : Nat)
  /-- FLYWHEEL_ENTRY (R77). -/
  | flywheelEntry (dt : Nat)
  /-- ALTERNATE_TAKEOVER (R83). -/
  | alternateTakeover (dt : Nat)
  /-- PRIMARY_RETURN (R83). -/
  | primaryReturn (dt : Nat) (stamp : Nat)
  /-- DOMAIN_HOLD_ENTRY (R77). -/
  | domainHoldEntry (dt : Nat)
  /-- CYCLE_START (R72). -/
  | cycleStart (dt : Nat)
  /-- CYCLE_CHECKPOINT (R52). -/
  | cycleCheckpoint (dt : Nat)
  /-- HALF_CYCLE_BOUNDARY (R84). -/
  | halfCycleBoundary (dt : Nat) (means : List Int)
  /-- PLAN_ENTRY_ACTION (R188). -/
  | planEntryAction (dt : Nat) (id : Nat)
  /-- ZERO_CROSS_TIMEOUT (R188). -/
  | zeroCrossTimeout (dt : Nat) (channel : Nat)
  /-- FLASH_BOUNDARY (R191). -/
  | flashBoundary (dt : Nat)
  /-- DIM_FIRING (R197). -/
  | dimFiring (dt : Nat) (channel : Nat)
  /-- FALLBACK_APPLY (R223). -/
  | fallbackApply (dt : Nat) (slice : Nat)
  /-- VITAL_OK_RESUME (R225). -/
  | vitalOkResume (dt : Nat)
  /-- MAINS_VALID (R300). -/
  | mainsValid (dt : Nat) (dv : Word16)
  /-- MAINS_INVALID (R300). -/
  | mainsInvalid (dt : Nat) (dv : Word16)
  /-- BACKUP_VALID (R300). -/
  | backupValid (dt : Nat) (cv : Word16)
  /-- BACKUP_INVALID (R300). -/
  | backupInvalid (dt : Nat) (cv : Word16)
  /-- TO_MAINS (R301). -/
  | toMains (dt : Nat)
  /-- BACKUP_INTEGRATE (R310). -/
  | backupIntegrate (dt : Nat) (groats : Word32)
  /-- BACKUP_CHECKPOINT (R310). -/
  | backupCheckpoint (dt : Nat)
  /-- BACKUP_REFILL (R310). -/
  | backupRefill (dt : Nat)
  /-- THERMAL_MODEL (R311). -/
  | thermalModel (dt : Nat) (slice : Nat) (hub : Int)
  /-- STANDBY_COUNTDOWN (R324). -/
  | standbyCountdown (dt : Nat)
  /-- STANDBY_CHECKPOINT (R308). -/
  | standbyCheckpoint (dt : Nat)
  /-- HALF_CYCLE_COMMIT (R330). -/
  | halfCycleCommit (dt : Nat)
  /-- PERSISTENCE_PASS (R340). -/
  | persistencePass (dt : Nat)
  /-- DEMAND_CLOSE (R337). -/
  | demandClose (dt : Nat)
  /-- TARIFF_CHANGE (R334). -/
  | tariffChange (dt : Nat)
  /-- LINK_UP (R253). -/
  | linkUp (dt : Nat) (lane : Lane) (fec : Bool)
  /-- LANE_LOCK_LOSS (R255). -/
  | laneLockLoss (dt : Nat) (lane : Lane)
  /-- UNWRAP (R284). -/
  | unwrap (dt : Nat) (side : Side)
  /-- HELLO (R266). -/
  | hello (dt : Nat) (hdr : LinkHdr) (position claim variant flags name : Byte) (epochSeen : Word16)
  /-- HELLO_SEND (R266). -/
  | helloSend (dt : Nat)
  /-- HELLO_TIMEOUT (R266). -/
  | helloTimeout (dt : Nat) (side : Side)
  /-- ECHO (R267). -/
  | echo (dt : Nat) (lane : Lane) (tickSent : Nat)
  /-- ECHO_REPLY (R267). -/
  | echoReply (dt : Nat) (lane : Lane) (tickSent turn : Nat)
  /-- AUTH_A (R268). -/
  | authA (dt : Nat) (hdr : LinkHdr) (na : List Byte)
  /-- AUTH_B (R268). -/
  | authB (dt : Nat) (hdr : LinkHdr) (nb mb : List Byte)
  /-- AUTH_C (R268). -/
  | authC (dt : Nat) (hdr : LinkHdr) (ma : List Byte)
  /-- AUTH_RETRY (R268). -/
  | authRetry (dt : Nat) (side : Side)
  /-- DOMAIN_JOIN (R260). -/
  | domainJoin (dt : Nat)
  /-- ENUM (R260). -/
  | enumerate (dt : Nat) (hdr : LinkHdr) (count : Byte) (wWard : Bool) (all384 : Bool) (ringSize highest : Nat)
  /-- ENUM_DONE (R260). -/
  | enumDone (dt : Nat) (hdr : LinkHdr) (positions : Byte) (form : Form) (refList : List Byte)
  /-- ENUM_REFUSE (R263). -/
  | enumRefuse (dt : Nat) (hdr : LinkHdr) (cause : Byte)
  /-- ENUM_TIMEOUT (R261). -/
  | enumTimeout (dt : Nat) (highest : Nat)
  /-- SLOT_NOTICE (R280). -/
  | slotNotice (dt : Nat) (hdr : LinkHdr) (weft : Word32) (slot loop : Byte)
  /-- ESCROW_ACK (R295). -/
  | escrowAck (dt : Nat) (hdr : LinkHdr) (revision : Word32)
  /-- WEFT_HEADER (R91). -/
  | weftHeader (dt : Nat) (lane : Lane) (h : WeftHdr)
  /-- WEFT_HEADER_SEND (R274). -/
  | weftHeaderSend (dt : Nat)
  /-- REFERENCE_TAKEOVER (R287). -/
  | referenceTakeover (dt : Nat)
  /-- INSERTION (R272). -/
  | insertion (dt : Nat) (duration : Nat)
  /-- RING_FRAME_FORWARD (R272). -/
  | ringFrameForward (dt : Nat) (lane : Lane) (ty : Byte) (hdr : RingHdr) (payload : List Byte) (good : Bool) (inserted : Bool) (reach : Nat)
  /-- REQUEST (R291). -/
  | request (dt : Nat) (hdr : RingHdr) (opcode : Word16) (p : Packet)
  /-- RING_REPLY (R292). -/
  | ringReply (dt : Nat) (hdr : RingHdr) (r : Reply)
  /-- RING_REPLY_TIMEOUT (R290). -/
  | ringReplyTimeout (dt : Nat) (till : Word16)
  /-- BLOCK (R368). -/
  | block (dt : Nat) (side : Side) (hdr : RingHdr) (b : Block)
  /-- ESCROW (R295). -/
  | escrow (dt : Nat) (side : Side) (hdr : RingHdr) (position : Byte) (epoch : Word16) (revision total offset : Word32) (data mac : List Byte)
  /-- PRESENCE (R289). -/
  | presence (dt : Nat) (hdr : RingHdr) (position variant : Byte) (epoch : Word16)
  /-- CHANGE (R283). -/
  | change (dt : Nat) (hdr : RingHdr) (cause subject : Byte) (epoch : Word16)
  /-- EVENT (R299). -/
  | event (dt : Nat) (hdr : RingHdr) (r : Reply)
  /-- OPEN (R367). -/
  | updOpen (dt : Nat) (hdr : RingHdr) (u : UpdHdr) (clean : Bool) (manifest : List Byte)
  /-- NEED (R369). -/
  | need (dt : Nat) (side : Side) (hdr : RingHdr) (u : UpdHdr) (first count : Word32)
  /-- BLOCK_STALL (R369). -/
  | blockStall (dt : Nat)
  /-- VOTE_CALL (R376). -/
  | voteCall (dt : Nat) (hdr : RingHdr) (u : UpdHdr) (angle : Angle) (cycle : Cycle)
  /-- VOTE (R377). -/
  | vote (dt : Nat) (hdr : RingHdr) (u : UpdHdr) (yes : Bool)
  /-- VOTE_CLOSE (R377). -/
  | voteClose (dt : Nat)
  /-- RELEASE (R378). -/
  | voteRelease (dt : Nat) (hdr : RingHdr) (u : UpdHdr)
  /-- UPDATE_CTL_COMMIT (R381). -/
  | updateCtlCommit (dt : Nat) (hdr : RingHdr) (u : UpdHdr) (cycle : Cycle)
  /-- COMMIT_INSTANT (R381). -/
  | commitInstant (dt : Nat)
  /-- TRIAL_PASS (R383). -/
  | trialPass (dt : Nat)
  /-- TRIAL_RESEND (R383). -/
  | trialResend (dt : Nat)
  /-- TRIAL (R385). -/
  | trial (dt : Nat) (hdr : RingHdr) (u : UpdHdr) (cycle : Cycle)
  /-- TRIAL_DEADLINE (R385). -/
  | trialDeadline (dt : Nat)
  /-- UPDATE_CTL_CONFIRM (R386). -/
  | updateCtlConfirm (dt : Nat) (hdr : RingHdr) (u : UpdHdr) (readBurnt : Nat)
  /-- CONFIRMED (R386). -/
  | confirmed (dt : Nat) (hdr : RingHdr) (u : UpdHdr)
  /-- CONFIRM_DEADLINE (R386). -/
  | confirmDeadline (dt : Nat)
  /-- UPDATE_CTL_UNWIND (R387). -/
  | updateCtlUnwind (dt : Nat) (hdr : RingHdr) (u : UpdHdr)
  /-- UNWOUND (R387). -/
  | unwound (dt : Nat) (hdr : RingHdr) (u : UpdHdr)
  /-- ABORT (R389). -/
  | updAbort (dt : Nat) (hdr : RingHdr) (u : UpdHdr)
  /-- HEALTH_TEST_FAIL (R397). -/
  | healthTestFail (dt : Nat) (test : HealthTest)
  /-- ENTROPY_RESTART (R398). -/
  | entropyRestart (dt : Nat)
  /-- STARTUP_TEST_DONE (R396). -/
  | startupTestDone (dt : Nat) (failure : Option HealthTest)
  /-- RESEED (R395). -/
  | reseed (dt : Nat)
  /-- ENTROPY_REQUEST_DEADLINE (R402). -/
  | entropyRequestDeadline (dt : Nat)
  /-- CHARACTER (R417). -/
  | character (dt : Nat) (port : Port) (c : BitVec 9) (startOne stopOne noisy : Bool)
  /-- RECEIVE_TIMEOUT (R420). -/
  | receiveTimeout (dt : Nat) (port : Port)
  /-- BREAK (R426). -/
  | serialBreak (dt : Nat) (port : Port) (bits lpo : Nat)
  /-- DROP_WAKE (R431). -/
  | dropWake (dt : Nat) (c : BitVec 9) (stopOne noisy : Bool)
  /-- DROP_RESUME (R432). -/
  | dropResume (dt : Nat)
  /-- BIST_DONE (R441). -/
  | bistDone (dt : Nat) (found : BistFound)
  /-- NOT_WELL_FORMED_PACKET (R133). -/
  | notWellFormedPacket (dt : Nat) (opcode : Word16) (p : Packet)
  /-- UNDEFINED_OPCODE (R156). -/
  | undefinedOpcode (dt : Nat) (opcode : Word16) (p : Packet)
  /-- RESERVE_ARMED (R304). -/
  | reserveArmed (dt : Nat) (groats : Word32)
  /-- SLICE_WATCHDOG (R64). -/
  | sliceWatchdog (dt : Nat) (slice : Nat)
  /-- SLICE_SUPPLY_LOSS (R303). -/
  | sliceSupplyLoss (dt : Nat) (slice : Nat)
  /-- ENUM_REFUSE_SEND (R263). -/
  | enumRefuseSend (dt : Nat)
  /-- REPLY_SENT_IN_FULL (R181). -/
  | replySentInFull (dt : Nat) (port : Port)
  /-- UART_BREAK_END (R425). -/
  | uartBreakEnd (dt : Nat) (port : Port)
  /-- VAULT_SCRUB (R317). -/
  | vaultScrub (dt : Nat)
  /-- INRUSH_WINDOW_END (R186). -/
  | inrushWindowEnd (dt : Nat) (channel : Nat)
  deriving DecidableEq, Repr

end Sys2Proof
end

