-- ==== Sys2Proof/Decode.lean ====
section
/-! DEFINITION. The commands of this block have no encoding of a word's bits: no row of spec/opcode_table.json gives
bits. A command packet's bytes and its opcode are read where packets are taken (Machine/Codec.lean, Operands.lean). -/

namespace Sys2Proof

/-- The command that a word spells by the table's bits. The table gives no row any bits, so no word spells one. -/
def decodeTableWord (_nbits _w : Nat) : Option Instr := none

end Sys2Proof
end

