-- ==== Sys2Proof/Config.lean ====
section
/-! DEFINITION. What an implementation fixes and the free values: constants without a body, of which no proof can
know the value (log 8, log 9). -/

namespace Sys2Proof.Config

/-- Byte `i` of the `n`-th drawing of random output: nonces, session numbers, RANDOM (R395, R401). Free value. -/
opaque randomByte : Nat → Nat → Byte

/-- Byte of the factory release in flash bank 0 at a bank offset (R28, R363). Free value. -/
opaque factoryFlash : Nat → Byte

/-- The vendor's Ed25519 public key in the boot ROM (R410). Free value. -/
opaque vendorKey : List Byte

/-- Does an Ed25519 signature verify under RFC 8032 (R410)? Arguments: public key, message, signature.
The standard's function, not written out here: free (log 9). -/
opaque ed25519Verify : List Byte → List Byte → List Byte → Bool

/-- Content of the CORE section, which is not published, and of SLICE_TRACE samples that no frame has brought (R447), by drawing
number. Free value. -/
opaque coreByte : Nat → Nat → Byte

/-- A value in mA, mV or another unit that the spec leaves open, by drawing number. Free value. -/
opaque freeInt : Nat → Int

/-- A loss after one cycle of a filter: its value before, the cycle's loss, the cycle's length in ticks, the time constant
in s. R311 gives the time constants and not the filter's arithmetic. Free value. -/
opaque filter : Nat → Nat → Nat → Nat → Nat

/-- A path's offset in 1/10,000 of full scale (R244, R245): of the path's number, and of how many conversions there were and the
sum of their codes with the path on REF_ZERO, on REF_POS, and of both references directly. The spec gives no formula and the
references' trim is fused into the part. Free value. -/
opaque calOffset : Nat → Nat × Int → Nat × Int → Nat × Int → Nat × Int → Int

/-- A path's gain in 1/10,000 of nominal, of the same operands (R244, R245). Free value. -/
opaque calGain : Nat → Nat × Int → Nat × Int → Nat × Int → Nat × Int → Nat

/-- The heatsink's temperature in 0.01 °C of a THS code (R248). The spec gives the thermistor and not the divider that its code is
a ratio of. Free value. -/
opaque ntcTemp : Nat → Int

/-- `n` random bytes of drawing number `k`. -/
def randomBytes (k : Nat) : Nat → List Byte
  | 0 => []
  | n + 1 => randomBytes k n ++ [randomByte k n]

end Sys2Proof.Config
end

