-- ==== Sys2Proof/Machine/State.lean ====
section
/-! DEFINITION. The state of the module as plain data: every register, counter, queue, table and mode the spec names.
Each field's comment gives its width, the rule that names it and its value at reset. -/

namespace Sys2Proof.Machine
open Sys2Proof

/-- The three variants (R3). -/
inductive Variant where
  | um384 | um192 | um96s
  deriving DecidableEq, Repr

/-- Where the module stands in start-up, standby and power loss (R47, R50, R305, R324). -/
inductive Stage where
  | unpowered | rails | boot | bootRom | vault | reload | lock | lamps | ready | standby | holdup
  deriving DecidableEq, Repr

/-- The clock in the always-on block and the angle tracker (spec/03). -/
structure Clock where
  /-- Timestamp tick | 64 bits | R71 03 | 0 -/
  tick : BitVec 64
  /-- Angle | 16 bits | R71 03 | 0 -/
  angle : Angle
  /-- Sub-au remainder of the angle, in parts of PERIOD (the model's own) | Nat | R71 03 | 0 DESIGN CHOICE log 1 -/
  frac : Nat
  /-- Cycle number | 40 bits | R71, R52 03/02 | 65536 (checkpoint 0 plus 65,536) -/
  cycle : Cycle
  /-- Tracker STATE | 3 bits, enumerated | R74, R76 03 | FREE (0b000) -/
  tracker : Tracker
  /-- ALT_REF | 1 bit | R74 03 | 0 -/
  altRef : Bool
  /-- STEPPED | 1 bit | R74 03 | 0 -/
  stepped : Bool
  /-- PERIOD, ticks of the last complete cycle | 32 bits | R74 03 | 0x001E8480 -/
  period : Word32
  /-- Length the tracker set for the cycle in progress | 32 bits | R78 03 | 0x001E8480 DESIGN CHOICE log 3 -/
  cycleLen : Word32
  /-- Last measured period of the reference or of the domain, in ticks | 32 bits | R78, R79 03 | 0x001E8480 DESIGN CHOICE log 3 -/
  measured : Word32
  /-- Slice whose bus the tracker follows | 8 bits | R83 03 | 0 -/
  ref : Nat
  /-- Ticks since the cycle in progress began | Nat | R74, R78 03 | 0 -/
  cycleTicks : Nat
  /-- Consecutive crossings within ±64 au | count to 8 | R77 03 | 0 -/
  lockRun : Nat
  /-- Ticks of the last consecutive valid positive crossings in FLYWHEEL, newest first | up to 4 ticks | R77 03 | empty -/
  fly : List Nat
  /-- Tick of the last valid positive crossing of the reference bus | tick or none | R77, R78 03 | none -/
  lastRef : Option Nat
  /-- Turn at which FLYWHEEL was entered | au of turn | R83 03 | 0 -/
  flyFrom : Nat
  /-- Cycles begun since power-on: with the angle, the turn, on which durations in au are counted, whatever the cycle number
  becomes at a rebase (the model's own) | count | R99 03 | 0 -/
  wraps : Nat
  /-- Turn at which the last step or rebase cut a cycle, and turn at which the next began (the model's own) | 2 x au of turn |
  R81, R93, R99 03 | 0, 0 -/
  cut : Nat × Nat
  /-- Half-cycle of the turn at whose start the boundary was last handled (the model's own) | count | R84 03 | 0 -/
  halfDone : Nat
  /-- 4,096 au interval of the turn in which the last TIME frames were sent (the model's own) | count | R230 09 | 0 -/
  timeDone : Nat
  /-- The primary (or a newly named one) is to be taken at its next valid positive crossing | flag | R83 03 | 0 -/
  takePrimary : Bool
  /-- Offset subtracted from the alternate's crossings | 16 bits | R83 03 | 0 -/
  altOffset : Angle
  /-- Weft times since the last weft header | count | R77, R287 03/10 | 0 -/
  headerGap : Nat
  /-- A rebase is due at the next angle-0 weft header | flag | R89, R90 03 | 0 -/
  rebaseDue : Bool
  /-- A step is due at the next angle-0 weft header | flag | R80 03 | 0 -/
  stepDue : Bool
  /-- Cut angle of a step that the next angle-0 weft header of this reference carries | 16 bits, optional | R92 03 | none -/
  stepSent : Option Angle
  deriving DecidableEq, Repr

/-- What the hub keeps of one slice's lamp bus (R75, R84, R88). -/
structure Bus where
  /-- Bus phase record (POS_XING, NEG_XING, KIND, SETTLED) | 16+16+2+1 bits | R88 03 | 0x0000, 0x8000, 0b00, 0 -/
  phase : BusRec
  /-- Angles of the positive crossings of the last 8 cycles with their turns, newest first | 8 x 16 bits | R88 03 | empty -/
  posHist : List (Angle × Nat)
  /-- Angles of the negative crossings of the last 8 cycles with their turns, newest first | 8 x 16 bits | R88 03 | empty -/
  negHist : List (Angle × Nat)
  /-- Consecutive crossings within ±64 au of the running value | count to 8 | R88 03 | 0 -/
  settleRun : Nat
  /-- Tick of the last positive crossing that met R75's first condition | tick or none | R75 03 | none -/
  lastPos : Option Nat
  /-- Interval that ended with that crossing, in ticks; 0 with none before it | ticks | R75, R78 03 | 0 -/
  posGap : Nat
  /-- Tick of the last negative crossing that met R75's first condition | tick or none | R75 03 | none -/
  lastNeg : Option Nat
  /-- Turn of the last valid crossing, until 4 half-cycles have passed | au of turn, optional | R84, R88 03 | none -/
  seen : Option Nat
  /-- Turn at which the record last became settled | au of turn | R83, R88 03 | 0 -/
  settledAt : Nat
  /-- Ticks of half-cycles in a row with their mean in the DC band and no valid crossing | count to 16,000,000 | R84 03 | 0 -/
  dcRun : Nat
  /-- Ticks of half-cycles in a row with their mean in the reversed band and no valid crossing | count to 16,000,000 | R84 03 | 0 -/
  revRun : Nat
  /-- The bus is reversed | flag | R84 03 | 0 -/
  reversed : Bool
  /-- CROSSINGS_ON_DC is in force | flag | R87 03 | 0 -/
  crossOnDc : Bool
  /-- Mean voltage of the last two half-cycles, in 0.1 V | 2 x s16 | R87 03 | 0 -/
  mean0 : Int
  mean1 : Int
  /-- Even steps in a row in which VBUS_A and VBUS_B differ by more than 8 V | count to 8 | R241 09 | 0 -/
  vbusDiff : Nat
  deriving DecidableEq, Repr

/-- A buffer-descriptor ring's till, or a schedule or ring till (R114). -/
structure Till where
  /-- KIND | 8 bits | R114 04 | 0x00 -/
  kind : Byte
  /-- STATE | 8 bits | R114 04 | 0x00 CLOSED -/
  state : Byte
  /-- EPOCH | 16 bits | R114 04 | 0 -/
  epoch : Word16
  /-- LINK | 16 bits | R114 04 | 0 -/
  link : Word16
  /-- COUNT | 32 bits | R114 04 | 0 -/
  count : Word32
  /-- ERRORS, saturating | 16 bits | R114 04 | 0 -/
  errors : Word16
  /-- LOST, saturating | 16 bits | R114, R125 04 | 0 -/
  lost : Word16
  /-- RING_BASE | 32 bits | R114 04 | 0 -/
  base : Word32
  /-- RING_LEN | 16 bits | R114 04 | 0 -/
  len : Word16
  /-- PROD | 16 bits | R114, R119 04 | 0 -/
  prod : Word16
  /-- CONS | 16 bits | R114, R119 04 | 0 -/
  cons : Word16
  /-- Execute-at, absolute au (schedule) or deadline tick (ring) | 56 / 64 bits | R114 04 | 0 -/
  due : Nat
  /-- Tag of the command or request | 32 bits | R114 04 | 0 -/
  tag : Word32
  deriving DecidableEq, Repr

/-- An entry waiting for a report buffer (R125, R130). -/
structure Waiting where
  till  : Word16
  entry : Reply
  /-- host epoch when the entry was produced (R117, R130) -/
  epoch : Word16
  deriving DecidableEq, Repr

/-- What a till has lost since its last OVERFLOW entry (R125, R126). -/
structure Loss where
  count : Word32
  cycle : Cycle
  angle : Angle
  deriving DecidableEq, Repr

/-- The host window, lane H and the doorbell page (spec/04, section 12 of spec/10). -/
structure Window where
  /-- Window contents, general pages and dump area | 64 MiB of bytes | R101 04 | unlisted bytes read 0, DESIGN CHOICE log 4 -/
  mem : List Host.Cell
  /-- Passbook: two bits per page | 16,384 x 2 bits | R108 04 | all 0b00 (Free) -/
  passbook : Tbl (BitVec 2)
  /-- Till table | 65,536 descriptors of 32 bytes | R114 04 | zeroed -/
  tills : Tbl Till
  /-- Entries waiting in the module | up to 1,024 per till, 4,096 in all | R125 04 | empty -/
  waiting : List Waiting
  /-- Entries dropped per till since its last OVERFLOW | per till | R125, R126 04 | empty -/
  losses : Tbl Loss
  /-- KEEPALIVE limit in ms | 16 bits | R111 04 | 0 -/
  keepalive : Word16
  /-- Keep-alive deadline tick | tick or none | R128 04 | none -/
  keepDeadline : Option Nat
  /-- ATTACH_STATE | 8 bits, flag | R111 04 | DETACHED (0x00) -/
  attached : Bool
  /-- DETACH_CAUSE | 8 bits | R111 04 | 0x04 HUB_RESET -/
  detachCause : Byte
  /-- NOTICE_SEQ | 64 bits | R111 04 | 0 -/
  noticeSeq : BitVec 64
  /-- PX_SEQ_ECHO | 16 bits | R111 04 | 0 -/
  pxSeqEcho : Word16
  /-- PX_CODE | 8 bits | R109, R111 04 | 0x00 -/
  pxCode : Byte
  /-- FAIL_PAGE | 16 bits | R111 04 | 0 -/
  failPage : Word16
  /-- DB_ERRORS, saturating | 32 bits | R111, R122 04 | 0 -/
  dbErrors : Word32
  /-- DB_LAST_TILL | 16 bits | R111 04 | 0 -/
  dbLastTill : Word16
  /-- DB_LAST_REASON | 8 bits | R111, R122 04 | 0x00 -/
  dbLastReason : Byte
  /-- WRITE_VIOLATIONS, saturating | 32 bits | R103, R111 04 | 0 -/
  violations : Word32
  /-- LAST_VIOL_PAGE | 16 bits | R103, R111 04 | 0 -/
  lastViol : Word16
  /-- PENDING: bit n for report till 0x1000 + n | 4,096 bits | R111 04 | 0 -/
  pendingBits : Tbl Bool
  /-- Lane H enumerated (HOST_HELLO answered) | flag | R297 10 | 0 -/
  enumerated : Bool
  /-- Writes applied since attach (COUNT of RDC) | 32 bits | R296 10 | 0 -/
  applied : Word32
  /-- Lane H frames discarded for a bad CRC (COUNT of H_NOTICE), saturating | 32 bits | R296 10 | 0 -/
  badCrc : Word32
  /-- Failing 8-byte words already reported (window offset / 8) | set | R107 04 | empty -/
  eccWords : Tbl Bool
  /-- Doorbells of a command till that still cover an untaken descriptor: PROD and arrival stamp, oldest first | per till |
  R119, R123 04 | empty -/
  rung : Tbl (List (Word16 × Nat))
  /-- A report till stopped at a descriptor whose OWN is 0, until its next doorbell | per till | R119 04 | 0 -/
  stopped : Tbl Bool
  deriving DecidableEq, Repr

/-- What a packet's arrival settles for its replies: the host epoch, whether TILL names an open report till, and the default
report till (R114, R130, R140, R149). -/
structure Origin where
  epoch : Word16
  named : Bool
  link  : Word16
  deriving DecidableEq, Repr

/-- A packet that has arrived and is not yet taken (R39, R123, R419). -/
structure Arrived where
  opcode : Word16
  packet : Packet
  stamp  : Nat
  /-- it is well formed and holds no poisoned word (R106, R133) -/
  good   : Bool
  origin : Origin
  deriving DecidableEq, Repr

/-- A reply in the reply memory with what a RETRY is compared with (R149, R150). -/
structure Stored where
  path   : Path
  /-- host epoch of the packet's arrival -/
  epoch  : Word16
  opcode : Word16
  packet : Packet
  /-- `none` while the packet is taken and its reply not yet produced -/
  reply  : Option Reply
  deriving DecidableEq, Repr

/-- A lane H packet taken whose reply, or an earlier packet's on the same command till, is still to come (R125). -/
structure Ticket where
  till   : Word16
  opcode : Word16
  packet : Packet
  /-- the report till of its reply -/
  report : Word16
  /-- the reply, once produced, and the host epoch then -/
  reply  : Option (Reply × Word16)
  deriving DecidableEq, Repr

/-- Where the FINAL event of an ACCEPTED packet goes: on lane H the report till of its reply (R143). -/
structure FinalRef where
  path   : Path
  opcode : Word16
  tag    : Word32
  till   : Word16
  deriving DecidableEq, Repr

/-- The Teller pair's queues (spec/05). -/
structure Teller where
  /-- Packets complete and not yet taken, in arrival order | list | R39, R123, R419 | empty -/
  queue : List Arrived
  /-- Reply memory of lane H, newest first | 4,096 entries | R149 05 | empty -/
  memH : List Stored
  /-- Reply memory of MAINT, newest first | 256 entries | R149 05 | empty -/
  memMaint : List Stored
  /-- Reply memory of DROP, newest first | 256 entries | R149 05 | empty -/
  memDrop : List Stored
  /-- Last 256 reply and event headers, newest first | 256 x 32 bytes | R447 16 | empty -/
  log : List Reply
  /-- Lane H replies held to the order in which their packets were taken | list | R125 04 | empty -/
  tickets : List Ticket
  /-- Origin of the packet taken last | 16 bits, flag, 16 bits | R114, R130, R140 | 0, 0, 0 -/
  cur : Origin
  deriving DecidableEq, Repr

/-- One action of a plan entry in the hub's plan (R93, R199). -/
structure Plan where
  /-- serial number, order of taking (R138) -/
  id    : Nat
  /-- schedule till, for a timed command (R113) -/
  till  : Option Word16
  /-- instant as absolute au, cycle × 65,536 + angle (R93) -/
  due   : Nat
  /-- channel entries; for FLASH_SET empty -/
  acts  : List (Nat × Shown)
  /-- flash generator settings of a FLASH_SET: generator 0 A or 1 B, PERIOD, ON, PHASE -/
  flash : Option (Nat × Nat × Nat × Nat)
  /-- sent to its slices (R95) -/
  sent  : Bool
  /-- slices for which it is held back to the crossing after its instant (R238) -/
  held  : List Nat
  deriving DecidableEq, Repr

/-- A flash generator's settings (R191). -/
structure Gen where
  period : Nat
  on     : Nat
  phase  : Nat
  deriving DecidableEq, Repr

/-- One lamp channel's drive (spec/07). -/
structure Chan where
  /-- Last command that took effect (R202 rank 4) | pattern, mode, angle or none | R199, R202 07 | none -/
  cmd : Option Shown
  /-- Start pattern as applied | pattern and angle or none | R53 02 | none -/
  start : Option Shown
  /-- Fallback in force on the channel as applied: 0 none, 2 head, 3 module | SOURCE code | R202, R223 08 | 0 -/
  fb : Nat
  /-- Pattern of that fallback as applied | pattern | R201, R473 | OFF -/
  fbPat : Pattern
  /-- Switch closed | flag | R184, R190 07 | 0 (every gate driver off) -/
  closed : Bool
  /-- Turn-ons in a row that ended in a trip | count to 3 | R186 07 | 0 -/
  tripRun : Nat
  /-- Switch opened by a trip until the next turn-on | flag | R186 07 | 0 -/
  tripOpen : Bool
  /-- Kept off after three trips until a source takes effect | flag | R186 07 | 0 -/
  tripped : Bool
  /-- Tick at which the inrush window opened, while it is open (threshold 32 A; else 8 A) | tick or none | R186 07 | none -/
  inrush : Option Nat
  /-- Thermal cut holds the channel off | flag | R247 09 | 0 -/
  cut : Bool
  /-- Waits for the next on part after its bus came back | flag | R196 07 | 0 -/
  waitOn : Bool
  /-- ZERO_CROSS actions waiting for a crossing, oldest first: state and turn of the instant | list | R188 07 | empty -/
  zc : List (Shown × Nat)
  /-- Flash edges waiting for a crossing, oldest first: turn of the boundary, and on or off | list | R188, R190 07 | empty -/
  edge : List (Nat × Bool)
  /-- The next turn-on is one from off: since the last the channel showed OFF, an off part or a suppressed on part, or
  changed to DIM | flag | R186, R208 | 1 -/
  fresh : Bool
  /-- What the channel's own last move made it: the on part of a flash, or STEADY | flag | R190, R209 | 0 -/
  lit : Bool
  /-- Turn at which the SETTLE half-cycles after the last turn-on from off end | au of turn | R208 08 | 0 -/
  settle : Nat
  /-- Tick at which the last edge's gate-drive ramp began, and whether it is the DC ramp | optional | R189, R208 | none -/
  ramp : Option (Nat × Bool)
  /-- DEFICIENT verdicts in a row | count | R217 08 | 0 -/
  darkRun : Nat
  /-- LEAK verdicts in a row | count | R217 08 | 0 -/
  leakRun : Nat
  /-- Verdict messages counted since the last DEFICIENT | count to 128 | R219 08 | 0 -/
  sinceDark : Nat
  /-- A PASS among them | flag | R219 08 | 0 -/
  passDark : Bool
  /-- Verdict messages counted since the last LEAK | count to 128 | R219 08 | 0 -/
  sinceLeak : Nat
  /-- A PASS under the leak rule among them | flag | R219 08 | 0 -/
  passLeak : Bool
  deriving DecidableEq, Repr

/-- The hub's lamp state (spec/07). -/
structure Lamps where
  /-- Channel state | 384, 192 or 96 channels | R184 07 | all off -/
  chans : Tbl Chan
  /-- Flash generator A | PERIOD, ON, PHASE | R191, R193 07 | 100, 50, 0 -/
  genA : Gen
  /-- Flash generator B | PERIOD, ON, PHASE | R191, R193 07 | 100, 50, 50 -/
  genB : Gen
  /-- Flash generator FA in force | PERIOD, ON, PHASE | R193 07 | 100, 50, 0 -/
  genFA : Gen
  /-- Flash generator FB in force | PERIOD, ON, PHASE | R193 07 | 100, 50, 50 -/
  genFB : Gen
  /-- Settings waiting for their new period start, per generator 0 A, 1 B, 2 FA, 3 FB, oldest first | list | R192, R473 |
  empty -/
  genNext : Tbl (List Gen)
  /-- Aspect objects: defined contents | 4,096 | R198 07 | all undefined -/
  aspects : Tbl (List (Nat × Shown))
  /-- Plan entries not yet due | list | R93 03 | empty -/
  plans : List Plan
  /-- Next plan serial (the model's own) | Nat | R138 05 | 0 DESIGN CHOICE log 3 -/
  nextPlan : Nat
  /-- Half-cycle index last reached by the flash generators | 41 bits | R191 07 | 131072 (2 x CYCLE) -/
  half : Nat
  /-- What a flashing start pattern still adds to h, per generator 2 FA, 3 FB, from a rebase until its next period | count
  below PERIOD | R55 02 | 0 -/
  shift : Tbl Nat
  /-- A flashing start pattern has ended its own last period and waits, dark, for the domain's next period, per generator 2
  FA, 3 FB | 2 flags | R55 02 | 0 -/
  joining : Tbl Bool
  deriving DecidableEq, Repr

/-- A fault record (R219, R220). -/
structure FaultRec where
  active  : Bool
  latched : Bool
  /-- response committed at detection (R222) -/
  response : Nat
  /-- cycle of the first detection (R169) -/
  cycle   : Cycle
  /-- tick of the detection, for VITAL_OK's CHANNEL (R226) -/
  tick    : Nat
  deriving DecidableEq, Repr

/-- A SWATCH_LEARN in progress (R213). -/
structure LearnJob where
  ref     : FinalRef
  cycles  : Nat
  /-- channel, whether learning has begun, result once known -/
  chans   : List (Nat × Bool × Option Nat)
  /-- a slice restarted (R237) -/
  restarted : Bool
  deriving DecidableEq, Repr

/-- The samples of one bin gathered for learning: how many, their sum and the sum of their squares, in µA (R213, R214). -/
structure BinSum where
  count : Nat
  sum   : Int
  sq    : Nat
  deriving DecidableEq, Repr

/-- An OPEN_WIRE_TEST in progress (R251). -/
structure WireJob where
  ref   : FinalRef
  chans : List (Nat × Option Nat)
  restarted : Bool
  deriving DecidableEq, Repr

/-- Proving and the fallback engine at the hub (spec/08). -/
structure Proving where
  /-- Fault records, key 4 x channel + KIND - 1 | one per channel and KIND | R219 08 | none -/
  records : Tbl FaultRec
  /-- SWATCH_LEARN commands running | list | R213 08 | empty -/
  learns : List LearnJob
  /-- OPEN_WIRE_TEST commands running | list | R251 09 | empty -/
  wires : List WireJob
  /-- Samples of the channels that learn, key 128 x channel + bin | per bin | R213, R214 08 | none -/
  gather : Tbl BinSum
  /-- Module fallback committed for a cause other than a record (lockstep, stall, fatal, reset, standby) | flag | R20, R22, R63, R324 | 0 -/
  coreFb : Bool
  /-- Keeper stall latched | flag | R22 01 | 0 -/
  stall : Bool
  /-- A lockstep mismatch is in force | flag | R20, R21 01 | 0 -/
  lockstep : Bool
  /-- A fatal error is declared | flag | R225, R443 | 0 -/
  fatal : Bool
  /-- Both supplies lost, or standby: toggling held off | flag | R225 08 | 0 -/
  dark : Bool
  /-- R51 not yet met since the last hub reset | flag | R51 02 | 1 -/
  hold : Bool
  /-- Charge pump toggling (VITAL-OK driven closed) | flag | R225 08 | 0 -/
  toggling : Bool
  /-- Tick of the last toggle edge | tick | R225 08 | 0 -/
  lastToggle : Nat
  deriving DecidableEq, Repr

/-- The content of an acknowledged frame to a slice (R230). -/
inductive HubMsg where
  | load (start : Bool) (block : LoadBlock)
  | plan (body : PlanBody)
  | request (req : SliceReq)
  deriving DecidableEq, Repr

/-- A frame sent to a slice and awaiting its acknowledgement or reply (R233, R234). -/
structure Unacked where
  seq      : Word16
  msg      : HubMsg
  sends    : Nat
  deadline : Nat
  /-- what a REQUEST serves: a packet awaiting its reply -/
  serves   : Option (Word16 × Packet)
  deriving DecidableEq, Repr

/-- A slice as the hub keeps it (spec/09). -/
structure HubSlice where
  /-- Slice epoch | 8 bits | R68 02 | 0x00 (no epoch known); 0x01 at power-on's first load -/
  epoch : Byte
  /-- Loaded and running | flag | R56 02 | 0 -/
  loaded : Bool
  /-- Held failed | flag | R58 02 | 0 -/
  failed : Bool
  /-- Failed load attempts in a row | count to 4 | R58 02 | 0 -/
  attempts : Nat
  /-- HELLO awaited before the first LOAD, with its deadline tick | tick or none | R471 09 | none -/
  awaitHello : Option Nat
  /-- Load in progress: 0 none, 1 firmware sent and paths being converted, 2 every block sent | 0-2 | R56, R244 | 0 -/
  loadStep : Nat
  /-- The start pattern is due at the next zero crossing of the bus | flag | R47, R53 02 | 0 -/
  startDue : Bool
  /-- Runs its stored fallback pattern | flag | R24, R161 | 0 -/
  stored : Bool
  /-- Hub's sequence number on the link | 16 bits | R229 09 | 0 -/
  seq : Word16
  /-- Last slice SEQ received, for gaps | 16 bits | R235 09 | 0 -/
  rxSeq : Word16
  /-- Gaps in slice SEQ | count | R235 09 | 0 -/
  gaps : Nat
  /-- Frames outstanding | up to 8 | R232 09 | empty -/
  unacked : List Unacked
  /-- Frames in a row with a stale epoch | count to 3 | R236 09 | 0 -/
  stale : Nat
  /-- Turn of the last valid frame | au of turn | R236 09 | 0 -/
  lastFrame : Nat
  /-- Turn of the last bin's end for which a verdict was on time or its deadline was missed | au of turn | R210, R217 08 | 0 -/
  judged : Nat
  /-- Link delay in ticks | ticks | R231 09 | 0 -/
  delay : Nat
  /-- Calibration table: per path offset and gain, ISENSE 0-15, VBUS_A, VBUS_B | 18 paths | R244 09 | empty -/
  cal : List CalPath
  /-- Table sent, which the hub applies from the slice's next cycle on | 18 paths, optional | R245, R246 09 | none -/
  calNext : Option (List CalPath)
  /-- Auxiliary conversions since the last table, by entry: how many and their sum | 64 entries | R243, R245 09 | none -/
  aux : Tbl (Nat × Int)
  /-- Turn at which they began | au of turn | R245 09 | 0 -/
  auxFrom : Nat
  /-- The second current burst of the last bin delivered, which waits for the next VBUS_A: its bin, its VBUS_A in mV and its
  currents in µA | optional | R242, R329 12 | none -/
  carry : Option (Nat × Int × List Int)
  /-- Sample words of the last cycle, by bin | 128 x 4 steps | R447 16 | none -/
  trace : Tbl (List (List Word16))
  /-- Calibrated current samples of the cycle, by position: how many and the sum of their squares in µA² | 16 | R311 11 | none -/
  heat : Tbl (Nat × Nat)
  /-- Turn-ons of the cycle that cost 0.3 mJ and that cost 3 mJ | 2 counts | R311 11 | 0, 0 -/
  ons : Nat × Nat
  /-- Cycle of the turn for which the thermal model last ran (the model's own) | count | R311 11 | 0 -/
  modelAt : Nat
  /-- Open-wire test under way on the link: position, and the OWMON codes under pull-up and under pull-down, how many and
  their sum | optional | R251 09 | none -/
  wire : Option (Nat × (Nat × Nat) × (Nat × Nat))
  /-- On-time verdicts in a row since the last missed deadline | count to 128 | R217, R219 08 | 0 -/
  verdicts : Nat
  /-- On-time verdicts since the last hub reset, up to 128 | count | R51 02 | 0 -/
  r51 : Nat
  /-- Re-issue due at the first zero crossing after the reload | flag | R238 09 | 0 -/
  reissue : Bool
  /-- A reload came after the last missed verdict | flag | R221 08 | 0 -/
  reloaded : Bool
  /-- Lamp bus | record and judgement | R88 03 | as Bus -/
  bus : Bus
  /-- TDIE code | 14 bits | R240 09 | 0 PRESUMED none: DESIGN CHOICE log 3 -/
  tdie : Nat
  /-- THS code | 14 bits | R240, R248 09 | 0 DESIGN CHOICE log 3 -/
  ths : Nat
  /-- T_est in 0.01 °C | signed | R311 11 | 0 DESIGN CHOICE log 3 -/
  tEst : Int
  /-- P_1, loss filtered at 1 s, in nW | Nat | R311 11 | 0 DESIGN CHOICE log 3 -/
  p1 : Nat
  /-- P_20, loss filtered at 20 s, in nW | Nat | R311 11 | 0 DESIGN CHOICE log 3 -/
  p20 : Nat
  /-- The model has run since the slice's load | flag | R311 11 | 0 -/
  warm : Bool
  /-- Stretch factor | 1, 2 or 4 | R312 11 | 1 -/
  stretch : Nat
  /-- Stretch factor in force per generator, since its last on part began | 4 x (1, 2 or 4) | R313 11 | 1 -/
  stretchNow : Tbl Nat
  deriving DecidableEq, Repr

/-- A channel's floor half-cycle in progress at its slice (R212): the pattern and rule it began with, whether either has
changed, whether it holds a judged bin and whether a sample exceeded FLOOR_MA. -/
structure FloorHalf where
  pattern : Pattern
  rule    : Nat
  mixed   : Bool
  judged  : Bool
  seen    : Bool
  deriving DecidableEq, Repr

/-- What a slice keeps of its VBUS_A conversions to find crossings (R75, R242): the last one, in tick and mV, the ticks of the last
below −10 V and above +10 V, and a crossing found whose far side is still to come: its polarity and tick. -/
structure Swing where
  last : Option (Nat × Int)
  low  : Option Nat
  high : Option Nat
  cand : Option (Bool × Nat)
  deriving DecidableEq, Repr

/-- A slice's own state, on its side of the link (spec/09). -/
structure OwnSlice where
  /-- Epoch the slice holds, 0x00 when none | 8 bits | R236 09 | 0x00 -/
  epoch : Byte
  /-- HELLO cause | 8 bits | R230 09 | 0x01 POWER -/
  cause : Byte
  /-- Last hub SEQ taken in order | 16 bits | R232 09 | 0 -/
  lastSeq : Word16
  /-- Slice's sequence number | 16 bits | R229 09 | 0 -/
  seq : Word16
  /-- Load blocks taken in the load in progress, by kind 1 to 5 | count | R56 02 | 0 -/
  blocks : Nat
  /-- The load is complete and the firmware runs | flag | R56 02 | 0 -/
  running : Bool
  /-- Runs alone on its stored fallback | flag | R24 01 | 0 -/
  alone : Bool
  /-- Calibration table | 18 paths | R245 09 | empty -/
  cal : List CalPath
  /-- Link delay given in the load, in ticks | ticks | R231 09 | 0 -/
  delay : Nat
  /-- Table that takes effect at the next cycle | optional | R245 09 | none -/
  calNext : Option (List CalPath)
  /-- Working swatches by position | 16 x 128 bins | R211 08 | none -/
  swatches : Tbl Swatch
  /-- The learned swatches as loaded, by position | 16 x 128 bins | R211, R216 | none -/
  base : Tbl Swatch
  /-- Swatch state by position: 0 NONE, 2 TRACKING, 3 FROZEN | 16 x 2 bits | R169, R216 | NONE -/
  swState : Tbl Nat
  /-- Stored fallback pattern by position | 16 patterns | R201 07 | OFF -/
  stored : List Pattern
  /-- Start pattern by position | 16 patterns | R53 02 | OFF -/
  start : List Shown
  /-- FA and FB as last held | 2 generators | R475 07 | R193's defaults -/
  fa : Gen
  fb : Gen
  /-- Pattern by position, FA and FB that the slice runs alone, from the moment it applied them until the hub's patterns take
  over | 16 patterns, 2 generators | R24, R57, R475 | OFF, R193's defaults -/
  alonePat : List Pattern
  aloneFa : Gen
  aloneFb : Gen
  /-- Last C:A, tick, h, period and bus record of a TIME frame | 40+16+64+41+32 bits | R230 09 | 0 -/
  time : TimeBody
  /-- Half-cycle index counted alone | 41 bits | R475 07 | 0 -/
  half : Nat
  /-- Plan entries held | up to 32 per frame | R230 09 | empty -/
  plans : List PlanAct
  /-- Open-wire test at this position, and how many of its four test bins have passed | optional | R251 09 | none -/
  wire : Option (Nat × Nat)
  /-- Floor half-cycle in progress by position | 16, optional | R212 08 | none -/
  floor : Tbl (Option FloorHalf)
  /-- This cycle does not move a tracked swatch: a judged bin was not PASS, or it is not whole, or it has moved it, by position |
  16 flags | R216 08 | 0 -/
  dirty : Tbl Bool
  /-- Sum of the two samples of each bin of the cycle, key 128 x position + bin, in µA | 2,048 bins | R205, R216 08 | 0 -/
  vals : Tbl Int
  /-- Rule and pattern in force at the start of the bin in progress, by position | 16, optional | R209, R212 08 | none -/
  atStart : Tbl (Option (Nat × Pattern))
  /-- Rule that each bin of the last cycle was judged under, key 128 x position + bin; 0 not judged | 2,048 x 0-4 | R209,
  R219 08 | 0 -/
  judgedBy : Tbl Nat
  /-- Last judged bin by position: bin, its end in absolute au, sum of its two samples in µA | 16, optional | R220 08 | none -/
  last : Tbl (Option (Nat × Nat × Int))
  /-- Last TDIE code | 14 bits | R240, R247 09 | 0 DESIGN CHOICE log 3 -/
  tdie : Nat
  /-- The bus voltage as its crossings are found | see Swing | R75, R242 | no conversion -/
  swing : Swing
  /-- Bins still not judged after an angle step | count to 3 | R208 08 | 0 -/
  skip : Nat
  /-- Turn of the last valid frame from the hub | au of turn | R24 01 | 0 -/
  heard : Nat
  deriving DecidableEq, Repr

/-- State of one lane (R171, R253, R255). -/
structure LaneSt where
  /-- STATE: 0 DOWN, 1 TRAINING, 2 UP, 3 IDLE_BY_FORM, 4 PRBS_TEST | 8 bits | R171 06 | 0 -/
  state : Nat
  /-- FEC in force | flag | R253 10 | 0 -/
  fec : Bool
  /-- LOCK_LOSSES | 32 bits | R171 06 | 0 -/
  losses : Word32
  /-- FEC_CORRECTED | 32 bits | R171 06 | 0 -/
  corrected : Word32
  /-- FEC_UNCORRECTED | 32 bits | R171 06 | 0 -/
  uncorrected : Word32
  /-- Link delay in ns, measured | optional | R267 10 | none -/
  delay : Option Nat
  /-- ECHO round trips less TURN, in ns, newest first | up to 8 | R267 10 | empty -/
  echoes : List Nat
  /-- Tick by which the link training in progress must end | tick or none | R253 10 | none -/
  train : Option Nat
  deriving DecidableEq, Repr

/-- The authentication of a span (R268, R269, R406). -/
inductive Auth where
  | none | sentA | sentB | done | keyless
  deriving DecidableEq, Repr

/-- A span to one neighbour (R257, R268). -/
structure Span where
  /-- Authentication state | enumerated | R268 10 | none -/
  auth : Auth
  /-- Nonce NA of the exchange | 128 bits | R268 10 | 0 -/
  na : List Byte
  /-- Nonce NB of the exchange | 128 bits | R268 10 | 0 -/
  nb : List Byte
  /-- Deadline tick of the exchange (200 ms) or of the next attempt (1 s) | tick or none | R268 10 | none -/
  deadline : Option Nat
  /-- Number of the attempt | count | R406 14 | 0 -/
  attempt : Nat
  /-- MAC mismatches in a row | count to 2 | R408 14 | 0 -/
  mismatches : Nat
  /-- Authenticated under CURRENT (not PREVIOUS) | flag | R407 14 | 0 -/
  current : Bool
  /-- Broken: turned at (either lane down, or no authentication) | flag | R257 10 | 1 -/
  broken : Bool
  /-- HELLO times for which an arrived ENUM_REFUSE still counts, 2 at each arrival | count | R263 10 | 0 -/
  refused : Nat
  /-- Neighbour's last HELLO: POSITION, CLAIM, VARIANT, FLAGS, NAME_FOR_YOU, EPOCH_SEEN | 6 bytes+ | R265 10 | none -/
  hello : Option (Byte × Byte × Byte × Byte × Byte × Word16)
  /-- Neighbour's hub epoch | 16 bits | R268 10 | 0 -/
  epoch : Word16
  /-- Weft times without HELLO | count to 64 | R266 10 | 0 -/
  helloGap : Nat
  /-- Neighbour acknowledged our configuration under CURRENT | flag | R295, R407 | 0 -/
  acked : Bool
  /-- Escrow transfer being received: bytes staged and header | optional | R295 10 | none -/
  staging : Option (Byte × Word16 × Word32 × Word32 × List Byte)
  deriving DecidableEq, Repr

/-- A frame waiting to be inserted or held at the seam (R272, R273). -/
structure RingOut where
  ty      : Byte
  hdr     : RingHdr
  payload : List Byte
  deriving DecidableEq, Repr

/-- The Spasyn ring (spec/10). -/
structure Ring where
  /-- Lanes H, E0, E1, W0, W1 | 5 lanes | R171 06 | DOWN -/
  lanes : Tbl LaneSt
  /-- E-side span | see Span | R257 10 | broken -/
  east : Span
  /-- W-side span | see Span | R257 10 | broken -/
  west : Span
  /-- Own position, none when unpositioned | 8 bits | R172 06 | 0xFF (none) -/
  position : Option Nat
  /-- POSITIONS enumerated | 8 bits | R172 06 | 0 -/
  positions : Nat
  /-- FORM | 8 bits | R172, R257 | NONE (0x00) -/
  form : Form
  /-- REFERENCE position | 8 bits | R172 06 | 0xFF -/
  reference : Byte
  /-- This module sends weft headers (domain reference) | flag | R274, R287 10 | 0 -/
  isRef : Bool
  /-- REF_LIST of the last ENUM_DONE | 4 x 8 bits | R286 10 | 0, 1, 2, 3 -/
  refList : List Byte
  /-- VARIANT of each position, as HELLO and PRESENCE last told it; 0 not told | 64 x 8 bits | R8, R257, R276 10 | 0 -/
  variants : Tbl Byte
  /-- Spans known to be broken, key 256 x lower position + higher position | set | R257, R282, R284 10 | empty -/
  breaks : Tbl Bool
  /-- POSITIONS of a complete enumeration still to be stored as RING_SIZE | 8 bits, optional | R261 10 | none -/
  sizeDue : Option Nat
  /-- The domain angle is adopted again at the next angle-0 weft header | flag | R280 10 | 0 -/
  readopt : Bool
  /-- Enumeration in progress at this anchor: direction W-ward, deadline tick | optional | R260, R261 10 | none -/
  enum : Option (Bool × Nat)
  /-- FINAL events of RING_ENUMERATE due | list | R171 06 | none -/
  enumRef : List FinalRef
  /-- E-ward count taken in the enumeration in progress | optional | R261 10 | none -/
  counted : Option Nat
  /-- RING_ENUMERATE made this gateway the anchor | flag | R264 10 | 0 -/
  anchor : Bool
  /-- This module refuses enumeration (65th) | flag | R263 10 | 0 -/
  refusing : Bool
  /-- Reported UNPOSITIONED | flag | R262, R298 | 0 -/
  unpositioned : Bool
  /-- ESCROW_E current | 1 bit | R172 06 | 0 -/
  escrowE : Bool
  /-- ESCROW_W current | 1 bit | R172 06 | 0 -/
  escrowW : Bool
  /-- ESCROW_SPLIT | 1 bit | R60, R172 | 0 -/
  split : Bool
  /-- E1W1_IDLE | 1 bit | R8, R172 | 0 -/
  e1w1Idle : Bool
  /-- MUTED | 1 bit | R172, R279 | 0 -/
  muted : Bool
  /-- OFFSET_NS | s16 | R91, R172 | 0 -/
  offset : Int
  /-- SELVAGE_TOUCHES, saturating | 32 bits | R172, R278 | 0 -/
  touches : Word32
  /-- SLOT_VIOLATIONS, saturating | 32 bits | R172 06 | 0 -/
  slotViolations : Word32
  /-- WRAPS, saturating | 32 bits | R172 06 | 0 -/
  wraps : Word32
  /-- PEER_RESTARTS, saturating | 16 bits | R172 06 | 0 -/
  peerRestarts : Word16
  /-- Path delay D per loop, in ns | 2 x 32 bits | R271 10 | 0 -/
  delay0 : Nat
  delay1 : Nat
  /-- Headers in a row with the offset at 0.5 µs or less | count to 8 | R279 10 | 0 -/
  calmRun : Nat
  /-- WEFT of the last SLOT_NOTICE | 32 bits or none | R280 10 | none -/
  lastNotice : Option Word32
  /-- Weft from which a forced mute may end | optional | R280 10 | none -/
  muteUntil : Option Nat
  /-- No insertion until the next weft header | flag | R283 10 | 0 -/
  quiet : Bool
  /-- Hub epochs last seen, per position | 64 x 16 bits | R289 10 | 0 (none known) -/
  epochs : Tbl Word16
  /-- Last SEQ taken from each source, per loop (key 256 x loop + source) | 2 x 64 x 16 bits | R276 10 | none -/
  lastSeq : Tbl (Option Word16)
  /-- Own frame count per loop | 2 x 16 bits | R275 10 | 0 -/
  txSeq : Tbl Word16
  /-- Frames waiting to be inserted, oldest first | list | R272, R281 10 | empty -/
  txq : List RingOut
  /-- Tick until which what was sent or waits in the forward buffer keeps a lane's output busy | per lane code | R272 10 | 0 -/
  busyTill : Tbl Nat
  /-- Frames discarded on a full forward buffer | count | R272 10 | 0 -/
  fwdLost : Nat
  /-- Frames held at the seam, oldest first | list | R273 10 | empty -/
  seam : List RingOut
  /-- Watch records of forwarded ACCEPTED packets: position, the ring till that held the request, FINAL target | up to
  4,096 | R141, R293 10 | empty -/
  watches : List (Nat × Word16 × FinalRef)
  /-- Forwarded packets with their ring till | list | R145, R290 | empty -/
  forwards : List (Word16 × Word16 × Packet)
  /-- Own unsolicited events held for relay, oldest first | up to 1,024 | R299 10 | empty -/
  held : List Reply
  /-- Events lost before relay since the last OVERFLOW | optional | R299, R126 | none -/
  heldLoss : Option Loss
  /-- ESCROW_PUSH commands in progress: FINAL target, E side and W side still awaited | list | R171 06 | empty -/
  pushRef : List (FinalRef × Bool × Bool)
  /-- Neighbours still to be sent the configuration (E, W) | 2 flags | R294 10 | 0, 0 -/
  pushE : Bool
  pushW : Bool
  deriving DecidableEq, Repr

/-- Supplies and ledger (spec/11). -/
structure Power where
  /-- MAINS_VALID | flag | R300 11 | 0 -/
  mains : Bool
  /-- Tick since which mains has been valid without a break | tick | R301, R310 | 0 -/
  mainsSince : Nat
  /-- BACKUP_VALID | flag | R300 11 | 0 -/
  backup : Bool
  /-- ON_BACKUP | flag | R301 11 | 0 -/
  onBackup : Bool
  /-- Mains rms of the last half-cycle, 0.1 V | 16 bits | R326 11 | 0 -/
  mainsDv : Word16
  /-- Backup input, 0.01 V | 16 bits | R326 11 | 0 -/
  backupCv : Word16
  /-- HOLDUP account | groats, u32 | R304, R309 11 | 0 -/
  holdup : Word32
  /-- Reserve ARMED | flag | R304 11 | 0 -/
  armed : Bool
  /-- BACKUP account | groats, u32 | R309, R310 11 | 0 (no checkpoint held) -/
  account : Word32
  /-- Ledger STATE: 0 NORMAL, 1 LEAN, 2 STANDBY_ARMED | 8 bits | R173, R322 | 0 DESIGN CHOICE log 3 -/
  ledger : Nat
  /-- Start tick of the STANDBY_ARMED countdown | tick | R322 11 | 0 -/
  countFrom : Nat
  /-- An expired countdown waits for mains to be invalid | flag | R324 11 | 0 -/
  countDone : Bool
  /-- STANDBY_ENTER answered, entry due once its reply has gone | flag | R324 11 | 0 -/
  standbyDue : Bool
  /-- DEFERRED, saturating | 32 bits | R173 06 | 0 -/
  deferred : Word32
  /-- Hub die temperature, 0.01 °C | signed | R309 11 | 0 DESIGN CHOICE log 3 -/
  hubTemp : Int
  deriving DecidableEq, Repr

/-- Eight tariffs' energy and the rest of a boundary record (R346). -/
structure Boundary where
  seq         : Word32
  cycle       : Cycle
  angle       : Angle
  events      : Byte
  oldTariff   : Nat
  newTariff   : Nat
  supplies    : List Byte
  demandFlags : Byte
  demandTariff : Nat
  demandW     : Nat
  maxW        : Nat
  maxCycle    : Nat
  moduleE     : List Nat
  sliceE      : List Nat
  gaps        : List Nat
  backup      : Word32
  hubEpoch    : Word16
  deriving DecidableEq, Repr

/-- A journal record in the vault (R341). -/
structure Journal where
  valid   : Word16
  seq     : Word32
  cycle   : Cycle
  angle   : Angle
  /-- index, OLD, NEW -/
  entries : List (Nat × BitVec 64 × BitVec 64)
  crcGood : Bool
  deriving DecidableEq, Repr

/-- Energy metering in DDR (spec/12). -/
structure Meter where
  /-- Counters k in DDR | 3,354 x 64 bits | R335 12 | 0; DEMAND_CFG INTERVAL 45,000 -/
  counters : Tbl (BitVec 64)
  /-- Remainders below 1 mWh, in µJ | 3,272 counters | R331 12 | 0 -/
  rem : Tbl Nat
  /-- Counters changed since the last pass | set | R340 12 | empty -/
  changed : Tbl Bool
  /-- Sum of v x i, in nW, of a channel's samples in a half-cycle, key 2 x channel + half | signed | R329, R330 12 | 0 -/
  acc : Tbl Int
  /-- A bin's two products one cycle earlier, the pattern shown and where its half-cycle began, key 128 x channel + bin | nW | R330 12 | none -/
  prev : Tbl (Option (Int × Int × Pattern × Nat))
  /-- Bins delivered and not yet committed, key 128 x slice + bin | set | R330 12 | empty -/
  seen : Tbl Bool
  /-- The DDR block passes its CRC | flag | R343 12 | 0 -/
  ddrGood : Bool
  /-- Half-cycle in progress began at (absolute au), while metering runs | optional | R343, R344 | none -/
  halfStart : Option Nat
  /-- Tick at which it began | tick | R329, R337 12 | 0 -/
  halfTick : Nat
  /-- Tariff under which it is counted | 3 bits | R334 12 | 0 -/
  halfTariff : Nat
  /-- Half-cycle ended and not yet committed: its end (absolute au), its ticks, its tariff | optional | R330 12 | none -/
  ended : Option (Nat × Nat × Nat)
  /-- Last committed boundary, absolute au | 56 bits | R344, R350 | 0 -/
  committed : Nat
  /-- Tariff in force during the half-cycle that ended there | 3 bits | R345 12 | 0 -/
  lastTariff : Nat
  /-- Cycle of the last demand close judged | 40 bits | R336, R338 12 | 0 -/
  lastClose : Nat
  /-- Open boundary records, oldest first | list | R344 12 | empty -/
  opened : List Boundary
  /-- What a start has settled for the record of the first boundary counted | optional | R349 12 | none -/
  startRec : Option Boundary
  /-- Boundary from which uncounted half-cycles add to GAPS: a hub reset or standby | optional | R330 12 | none -/
  gapFrom : Option Nat
  /-- VAULT_FAULT found at redo, for the next boundary record | flag | R342 12 | 0 -/
  vaultFault : Bool
  /-- Cycles since the last persistence pass | count | R340 12 | 0 -/
  sincePass : Nat
  deriving DecidableEq, Repr

/-- The phases of an update session (R176, R353). -/
inductive Phase where
  | idle | receiving | assembled | prepared | committed | trial | confirmed | unwound | aborted
  deriving DecidableEq, Repr

/-- The configuration's items of a position, schema major 1 (R372); unlisted elements have their defaults. -/
structure Items where
  /-- REF_SLICE | 2 x 8 bits | R372 13 | 0, 0xFF -/
  refPrimary : Nat
  refAlternate : Nat
  /-- HEAD per channel | 16 bits | R372 13 | 0xFFFF -/
  head : Tbl Nat
  /-- FALLBACK per channel | 8 bits | R372 13 | OFF -/
  fallback : Tbl Pattern
  /-- START per channel (pattern and DIM_ANGLE); none: the fallback pattern | 32 bits | R372 13 | none -/
  start : Tbl (Option (Pattern × Word16))
  /-- BUS_KIND per slice: 0 AC, 1 DC, 2 AUTO | 8 bits | R372 13 | AUTO -/
  busKind : Tbl Nat
  /-- FLASH FA and FB | 2 x 48 bits | R193, R372 | 100,50,0 and 100,50,50 -/
  fa : Gen
  fb : Gen
  /-- RESPONSE per channel | 8 bits | R372 13 | HEAD_FALLBACK -/
  response : Tbl Nat
  /-- LIMITS per channel: LEAK_MA, FLOOR_MA | 2 x 16 bits | R228, R372 | 15, 10 -/
  limits : Tbl (Nat × Nat)
  /-- TOLERANCE per channel: TOL_PCT, TOL_MIN, SETTLE, swatch mode | 4 x 8 bits | R228, R372 | 20, 10, 0, TRACK -/
  tolerance : Tbl (Nat × Nat × Nat × Nat)
  /-- SWATCH per channel, learned | 385 bytes | R211, R372 | none -/
  swatch : Tbl Swatch
  /-- REF_LIST | 4 x 8 bits | R372 13 | 0, 1, 2, 3 -/
  refList : List Byte
  /-- RING_SIZE | 8 bits | R372 13 | 0 -/
  ringSize : Nat
  /-- FEC: RING_FEC, H_FEC | 2 x 8 bits | R372 13 | 0, 0 -/
  ringFec : Bool
  hFec : Bool
  /-- LEDGER: BACKUP_CAPACITY, P3_RESERVE, LEAN_BELOW, STANDBY_AFTER | 3 x 32 + 16 bits | R328, R372 | 0, 0, 0, 0 -/
  capacity : Word32
  p3Reserve : Word32
  leanBelow : Word32
  standbyAfter : Word16
  /-- SENSE_RANGE per channel: 0 NARROW, 1 WIDE | 8 bits | R250, R372 | WIDE -/
  sense : Tbl Nat
  /-- SLICE_OPTS per slice: ADC_ALIGN, THS_FITTED | 2 x 8 bits | R250, R372 | RIGHT, 1 -/
  sliceOpts : Tbl (Nat × Nat)
  deriving DecidableEq, Repr

/-- A flash bank (R363). -/
structure Bank where
  /-- The bank holds the factory release wherever it has not been erased -/
  factory  : Bool
  /-- Manifest as written; empty before any was written (R364) -/
  manifest : List Byte
  /-- SESSION number as written -/
  session  : Word32
  /-- SETTINGS of that session: CLEAN -/
  clean    : Bool
  /-- Held-block map: each transfer block held, as received (R364, R369) -/
  held     : Tbl (Option (List Byte))
  /-- Settings area: the migrated configuration, decoded (R370) -/
  settings : Option Items
  /-- 64 KiB sectors of the parts area erased in this session -/
  erased   : Tbl Bool
  /-- 64 KiB sectors of the parts area ever erased -/
  wiped    : Tbl Bool
  /-- Parts area bytes written; an erased byte reads 0xFF -/
  parts    : Tbl Byte
  deriving DecidableEq, Repr

/-- The session record (R352, R353, R379). -/
structure Session where
  /-- SESSION | 32 bits | R176 06 | 0 (none) -/
  id : Word32
  /-- PHASE | 8 bits | R176 06 | IDLE (0x00) -/
  phase : Phase
  /-- SETTINGS: CLEAN | 8 bits | R176 06 | 0 CARRY -/
  clean : Bool
  /-- Position of the session's gateway | 8 bits | R366 13 | 0 -/
  gateway : Byte
  /-- The session was opened at this module | flag | R177 06 | 0 -/
  opener : Bool
  /-- Roster of positions | up to 64 | R352 13 | empty -/
  roster : List Nat
  /-- Own last cause | 16 bits | R358 13 | 0x0000 -/
  cause : Byte
  /-- Running parts already match: CURRENT | flag | R365 13 | 0 -/
  isCurrent : Bool
  /-- Wefts since the last new block | count to 64 | R369 13 | 0 -/
  stall : Nat
  /-- Side the last block came from | optional | R369 13 | none -/
  lastFrom : Option Side
  /-- Vote close, absolute au, while a vote is open | optional | R375 13 | none -/
  voteClose : Option Nat
  /-- Votes counted: position, yes, cause | list | R377 13 | empty -/
  votes : List (Nat × Bool × Byte)
  /-- COMMIT_CYCLE | 40 bits | R380 13 | none -/
  commitCycle : Option Cycle
  /-- Commit instant, absolute au | optional | R381 13 | none -/
  commitAt : Option Nat
  /-- The commit was late | flag | R382 13 | 0 -/
  late : Bool
  /-- TRIAL reports: position and cause | list | R385 13 | empty -/
  trials : List (Nat × Byte)
  /-- CONFIRM has been sent | flag | R386, R387 | 0 -/
  confirmSent : Bool
  /-- Deadline of CONFIRM, absolute au | optional | R386 13 | none -/
  confirmBy : Option Nat
  /-- CONFIRMED reports: position and cause | list | R386 13 | empty -/
  confirms : List (Nat × Byte)
  /-- UNWOUND reports | list | R387 13 | empty -/
  unwounds : List Nat
  /-- At the gateway: it unwinds itself at the next angle 0. Elsewhere: UNWOUND, or TRIAL after a failed trial boot, is still
  to be sent | flag | R384, R387 13 | 0 -/
  unwindDue : Bool
  /-- Failure recorded at the gateway: position and cause | optional | R385, R388 | none -/
  failure : Option (Nat × Byte)
  /-- FINAL events due: PREPARE, COMMIT, CONFIRM, UNWIND | list | R176 06 | empty -/
  finals : List FinalRef
  /-- Slices that were loaded before the commit | list | R383 13 | empty -/
  before : List Nat
  /-- Another session whose OPEN was refused because this one was open | 32 bits, optional | R367 13 | none -/
  busyFor : Option Word32
  /-- A hub reset has come and the module has not been ring ready since | flag | R379 13 | 0 -/
  restarted : Bool
  deriving DecidableEq, Repr

/-- Firmware update (spec/13). -/
structure Update where
  /-- Session record (key store) | see Session | R353, R412 | IDLE -/
  session : Session
  /-- Flash bank 0 | 32 MiB | R28, R363 13 | the factory release: unlisted bytes are Config.factoryFlash -/
  bank0 : Bank
  /-- Flash bank 1 | 32 MiB | R28, R363 13 | erased -/
  bank1 : Bank
  /-- Bank 1 is ACTIVE (bank-select record) | flag | R28, R381 13 | 0 -/
  swapped : Bool
  /-- Bank-select state: 0 SETTLED, 1 TRIAL_PENDING, 2 TRIAL_PASSED | enumerated | R384 13 | SETTLED -/
  select : Nat
  /-- Boot count of TRIAL_PENDING | 0 or 1 | R384 13 | 0 -/
  bootCount : Nat
  /-- Fuses burnt | 0-255 | R362 13 | 0 DESIGN CHOICE log 3 -/
  fuses : Nat
  /-- FW_VERSION of the running images | 32 bits | R144 05 | 0x01000000 DESIGN CHOICE log 3 -/
  fwVersion : Word32
  /-- SEC_VERSION of the running images | 16 bits | R144 05 | 0 DESIGN CHOICE log 3 -/
  secVersion : Word16
  /-- SCHEMA of the running images | 16 bits | R144, R372 | 0x0100 DESIGN CHOICE log 3 -/
  schema : Word16
  /-- Weft times counted by the update protocol's repeats of 64 | count | R383 13 | 0 -/
  wefts : Nat
  deriving DecidableEq, Repr

/-- A request waiting at the entropy unit (R401, R402). -/
structure EntReq where
  stamp    : Nat
  deadline : Nat
  /-- 0 link authentication E, 1 W, 2 session number, 3 RANDOM -/
  consumer : Nat
  bytes    : Nat
  serves   : Option (Word16 × Packet)
  deriving DecidableEq, Repr

/-- Entropy unit (spec/14). -/
structure Entropy where
  /-- STATE: 0 STARTUP, 1 HEALTHY, 2 RESTARTING, 3 LATCHED | 8 bits | R178, R396 | STARTUP -/
  state : Nat
  /-- RESTARTS | 0-3 | R178, R398 | 0 -/
  restarts : Nat
  /-- RCT_FAILS, saturating | 32 bits | R178, R397 | 0 -/
  rct : Word32
  /-- APT_FAILS, saturating | 32 bits | R178, R397 | 0 -/
  apt : Word32
  /-- DRBG instantiated | flag | R395 14 | 0 -/
  drbg : Bool
  /-- Generate requests since the last reseed | count to 1,024 | R395 14 | 0 -/
  generated : Nat
  /-- Tick of the last reseed | tick | R395 14 | 0 -/
  reseedAt : Nat
  /-- Pool outputs waiting | 0-4 | R394 14 | 0 -/
  pool : Nat
  /-- Tick from which raw bits count towards the next pool output | tick | R394 14 | 0 -/
  poolAt : Nat
  /-- Tick at which the next restart begins | tick or none | R398 14 | none -/
  restartAt : Option Nat
  /-- Start-up test running | flag | R393 14 | 0 -/
  testing : Bool
  /-- The health test that failed first in the start-up test running | RCT, APT or none | R396, R400 14 | none -/
  failing : Option HealthTest
  /-- A request waits behind a reseed | list | R401, R402 | empty -/
  waiting : List EntReq
  deriving DecidableEq, Repr

/-- What a port does once the replies ahead of it have gone: new settings (OVERSAMPLE, DIVIDER, MODE, ADDRESS, MASK,
SLEEP_RATE), or a break of so many bit times (R181, R425). -/
inductive PortJob where
  | set (oversample divider mode : Nat) (address mask : Byte) (sleep : Nat)
  | brk (bits : Nat)
  deriving DecidableEq, Repr

/-- A serial port (spec/15). The DROP driver is on while a reply or a break is to be sent (R423). -/
structure Uart where
  /-- OVERSAMPLE | 16, 8 or 3 | R180, R414 | 16 -/
  oversample : Nat
  /-- DIVIDER | 12 bits | R180, R414 | 26 -/
  divider : Nat
  /-- ADDR9 | 1 bit | R180, R414 | MAINT 0, DROP 1 -/
  addr9 : Bool
  /-- LOOPBACK | 1 bit | R180, R414 | 0 -/
  loopback : Bool
  /-- ECHO | 1 bit | R180, R414 | 0 -/
  echo : Bool
  /-- ADDRESS | 8 bits | R180, R414 | MAINT 0x00, DROP 0xFF (no claim) -/
  address : Byte
  /-- MASK | 8 bits | R180, R414 | MAINT 0x00, DROP 0xFF -/
  mask : Byte
  /-- SLEEP_RATE | 0-4 | R180, R414 | MAINT 0, DROP 4 -/
  sleep : Nat
  /-- NOISE, saturating | 32 bits | R180 06 | 0 -/
  noise : Word32
  /-- OVR, saturating | 32 bits | R180, R419 | 0 -/
  ovr : Word32
  /-- FRAMING, saturating | 32 bits | R180 06 | 0 -/
  framing : Word32
  /-- BREAKS, saturating | 32 bits | R180, R426 | 0 -/
  breaks : Word32
  /-- LAST_BREAK_BITS | 16 bits | R180, R426 | 0 -/
  lastBits : Word16
  /-- LAST_BREAK_LPO | 32 bits | R180, R426 | 0 -/
  lastLpo : Word32
  /-- FRAMES_DISCARDED, saturating | 32 bits | R148, R180 | 0 -/
  discarded : Word32
  /-- FRAMES_CRC_BAD, saturating | 32 bits | R180, R421 | 0 -/
  crcBad : Word32
  /-- Holding register: a character and its stamp | 9 bits, optional | R418, R419 15 | none -/
  holding : Option (BitVec 9 × Nat)
  /-- Frame being received, unstuffed bytes in order; one more than a buffer holds marks a frame that is too long | up to
  65,537 bytes | R147, R148, R419 | none -/
  frame : Option (List Byte)
  /-- The last character was the escape 0xDB | flag | R147 05 | 0 -/
  escaped : Bool
  /-- The frame holds a bad escape | flag | R148 05 | 0 -/
  badEscape : Bool
  /-- Frames complete and not taken | up to 2 buffers | R419 15 | 0 -/
  full : Nat
  /-- Receive deadline tick of the frame in progress | tick or none | R420 15 | none -/
  deadline : Option Nat
  /-- DROP: this module is selected | flag | R429 15 | 0 -/
  selected : Bool
  /-- Replies waiting to be sent, oldest first | list | R423 15 | empty -/
  txq : List Reply
  /-- A transmitted break in progress, in bit times | optional | R425 15 | none -/
  brk : Option Nat
  /-- Settings and breaks that wait, each with the number of replies that go first, oldest first | list | R181, R425 | empty -/
  jobs : List (Nat × PortJob)
  /-- DROP: tick from which the running receiver takes characters after a wake | tick or none | R432 15 | none -/
  resumeAt : Option Nat
  deriving DecidableEq, Repr

/-- A dump summary part, or the header of a DDR dump (R446, R448). -/
structure DumpRec where
  seq      : Word32
  cause    : Byte
  flags    : Byte
  hubEpoch : Word16
  cycle    : Cycle
  angle    : Angle
  tick     : BitVec 64
  fw       : Word32
  sec      : Word16
  schema   : Word16
  variant  : Byte
  position : Byte
  tracker  : Byte
  supply   : Byte
  detail   : Word32
  bist     : Byte
  bistSel  : Word16
  bistUnit : Word32
  sections : Nat
  bytes    : Nat
  ledger   : List Byte
  ring     : List Byte
  log      : List Byte
  /-- FAULT_COUNT as the part was written -/
  count    : Word16
  deriving DecidableEq, Repr

/-- Self-test and dumps (spec/16). -/
structure Diag where
  /-- BIST_RUN in progress: FINAL target, TARGET, SELECT | optional | R433 16 | none -/
  bist : Option (FinalRef × Nat × Word16)
  /-- The window page that MODULE_DDR tests now, LOCKED | optional page number | R104, R436 16 | none -/
  unit : Option Nat
  /-- A dump whose header is still to be written | optional | R444 16 | none -/
  writing : Option DumpRec
  /-- A dump is held in DDR with a good header: its SEQ | 32 bits or none | R445 16 | none -/
  dump : Option Word32
  /-- Summary part FIRST | 2 KiB | R448 16 | not HELD -/
  first : Option DumpRec
  /-- Summary part LAST | 2 KiB | R448 16 | not HELD -/
  last : Option DumpRec
  /-- FAULT_COUNT, saturating | 16 bits | R448 16 | 0 -/
  faults : Word16
  /-- SEQ of the last fault | 32 bits | R446 16 | 0 -/
  seq : Word32
  deriving DecidableEq, Repr

/-- How a stored configuration is sealed (R59, R62). -/
inductive Seal where
  | unsealed
  | mac (bytes : List Byte)
  deriving DecidableEq, Repr

/-- A configuration as a region of the vault holds it (R371, R474). -/
structure StoredConfig where
  position : Byte
  /-- SCHEMA of the images that stored it (R474) -/
  schema   : Word16
  revision : Word32
  items    : Items
  sealed   : Seal
  deriving DecidableEq, Repr

/-- The vault (R29, R412). -/
structure Vault where
  /-- Configuration of this position (region 0) | 192 KiB | R29 01 | blank (factory, R62) -/
  config : Option StoredConfig
  /-- Escrow copy of the E-side neighbour's configuration | 192 KiB | R29 01 | blank -/
  escrowE : Option Escrow
  /-- Escrow copy of the W-side neighbour's configuration | 192 KiB | R29 01 | blank -/
  escrowW : Option Escrow
  /-- Tally cells, key 4k + cell | 256 KiB, 16-bit cells | R339 12 | 0; CUR_TARIFF 0, DEMAND_CFG 45,000 -/
  cells : Tbl Word16
  /-- Metering journal record | 64 KiB region | R341 12 | VALID 0x0000 -/
  journal : Journal
  /-- Boundary records, newest first | 16 slots of 512 bytes | R347 12 | none -/
  records : List Boundary
  /-- SEQ of the last boundary record | 32 bits | R346 12 | 0 DESIGN CHOICE log 3 -/
  recordSeq : Word32
  /-- HUB_EPOCH | 16 bits | R412 14 | 0x0000 -/
  hubEpoch : Word16
  /-- HOST_EPOCH | 16 bits | R412 14 | 0x0000 -/
  hostEpoch : Word16
  /-- Cycle checkpoint | 40 bits or none | R52, R412 | none (counts as 0) -/
  checkpoint : Option Cycle
  /-- BACKUP checkpoint | 32 bits or none | R310, R412 | none (counts as 0) -/
  backupPoint : Option Word32
  /-- CURRENT domain key | 256 bits or none | R403, R412 | none -/
  current : Option (List Byte)
  /-- ALTERNATE domain key | 256 bits or none | R403, R412 | none -/
  alternate : Option (List Byte)
  /-- ALT_PENDING | 1 bit | R412 14 | 0 -/
  altPending : Bool
  /-- COSIGN public key | 256 bits or none | R411, R412 | none -/
  cosign : Option (List Byte)
  deriving DecidableEq, Repr

/-- The content of a frame from a slice (R230): VERDICT's codes by position, SAMPLES' words by step. -/
inductive SliceMsg where
  | verdict (bin : Nat) (cycle : Word16) (codes : List Nat)
  | samples (bin : Nat) (steps : List (List Word16))
  | xing (rising : Bool) (stamp : Nat)
  | reply (seq : Word16) (ans : SliceAns)
  | trip (pos : Option Nat)
  | hello (cause : Byte)
  deriving DecidableEq, Repr

/-- Something the module puts on a link, a port or a lane: what a partner can observe. -/
inductive Out where
  | reply (path : Path) (till : Word16) (r : Reply)
  | rdc (tag : Nat) (status : Nat) (offset : Nat) (len : Nat) (data : List Byte) (count : Word32)
  | hNotice (count : Word32)
  | hHello
  | linkReset (slice : Nat)
  | toSlice (slice : Nat) (epoch : Byte) (seq : Word16) (msg : HubMsg)
  | time (slice : Nat) (epoch : Byte) (seq : Word16) (body : TimeBody)
  | fromSlice (slice : Nat) (epoch : Byte) (seq ack : Word16) (msg : SliceMsg)
  | link (lane : Lane) (ty : Byte) (payload : List Byte)
  | ring (lane : Lane) (ty : Byte) (hdr : RingHdr) (payload : List Byte)
  | weft (lane : Lane) (h : WeftHdr)
  | serial (port : Port) (chars : List Byte)
  | echoChar (port : Port) (c : BitVec 9)
  | brk (port : Port) (bits : Nat)
  deriving DecidableEq, Repr

/-- The hardware: everything but the queue of commands. -/
structure Module where
  /-- VARIANT | enumerated | R3, R144 | UM-384 DESIGN CHOICE log 2 -/
  variant : Variant
  /-- Start-up stage | enumerated | R47 02 | unpowered DESIGN CHOICE log 2 -/
  stage : Stage
  /-- Shelf state | flag | R62 02 | 0 (found at stage 7) -/
  shelf : Bool
  /-- The stored configuration was valid when it was last loaded, so that its items are in force | flag | R59, R62 02 | 0 -/
  inUse : Bool
  /-- RESET_CAUSE: first unread cause, 0x00 when read | 8 bits | R65, R161 | 0x01 -/
  firstCause : Byte
  /-- LATEST_CAUSE | 8 bits | R65, R161 | 0x01 -/
  latestCause : Byte
  /-- UNREAD, saturating | 8 bits | R161 06 | 1 -/
  unread : Nat
  /-- A reset waits for its reply and for R63 | optional cause | R63, R164 | none -/
  resetDue : Option ResetCause
  clk : Clock
  win : Window
  tel : Teller
  lamps : Lamps
  prov : Proving
  /-- Slices as the hub keeps them | 24, 12 or 6 | R17 01 | see HubSlice -/
  hub : Tbl HubSlice
  /-- Slices' own state | 24, 12 or 6 | R17 01 | see OwnSlice -/
  own : Tbl OwnSlice
  ring : Ring
  pow : Power
  meter : Meter
  upd : Update
  ent : Entropy
  maint : Uart
  drop : Uart
  diag : Diag
  vault : Vault
  /-- Items in force where a stored change waits for a cycle start or a load | as Items | R473 06 | defaults -/
  live : Items
  /-- CONFIG_WRITE staging: EXPECT_REV, TOTAL, bytes | optional | R165 06 | none -/
  staging : Option (Word32 × Nat × List Byte)
  /-- Free values drawn so far (the model's own) | Nat | log 8 | 0 DESIGN CHOICE log 8 -/
  free : Nat
  /-- Outputs put on links, lanes and ports, oldest first (the model's own) | list | log 10 | empty DESIGN CHOICE log 10 -/
  out : List Out
  deriving DecidableEq, Repr

/-- Why the machine stops with a fault: a physical command names a part that this variant does not have, to which the
spec gives no effect (log 11). Safe: a claim about a next state assumes nothing of it. -/
inductive Fault where
  /-- Raised by the slice commands for a slice position at or above the variant's count (R3, R17). Safe. -/
  | noSuchSlice (slice : Nat)
  /-- Raised by the channel commands for a channel at or above the variant's count (R3). Safe. -/
  | noSuchChannel (channel : Nat)
  /-- Raised by the lane commands for a ring lane that the variant does not fit (R3). Safe. -/
  | noSuchLane (lane : Lane)
  deriving DecidableEq, Repr

/-- Why a command has no meaning. -/
inductive Refusal where
  /-- A command that the model does not give a meaning yet; no arm answers it now. Safe. -/
  | notModelled (mnemonic : String)
  deriving DecidableEq, Repr

namespace Variant
/-- Slices of the variant (R3). -/
def slices : Variant → Nat
  | um384 => 24 | um192 => 12 | um96s => 6
/-- Channels of the variant (R3). -/
def channels : Variant → Nat
  | um384 => 384 | um192 => 192 | um96s => 96
/-- VARIANT code (R144). -/
def code : Variant → Byte
  | um384 => 1 | um192 => 2 | um96s => 3
/-- Energy metering present (R3). -/
def metering : Variant → Bool
  | um96s => false | _ => true
/-- Ring lanes present (R3). -/
def hasRing : Variant → Bool
  | um96s => false | _ => true
/-- LANES field: bit 0 H, bit 1 E0, bit 2 E1, bit 3 W0, bit 4 W1 (R144). -/
def lanes : Variant → BitVec 5
  | um384 => 0b11111 | um192 => 0b01011 | um96s => 0b00001
end Variant

/-- Is a lane fitted (R3)? -/
def Variant.fits (v : Variant) : Lane → Bool
  | .h => true
  | .e0 | .w0 => v.hasRing
  | .e1 | .w1 => match v with | .um384 => true | _ => false

/-! ### Reset -/

/-- The default generators (R193). -/
def genAReset : Gen := ⟨100, 50, 0⟩
/-- The default of B and FB (R193). -/
def genBReset : Gen := ⟨100, 50, 50⟩

/-- A bus phase record at reset (R88). -/
def BusRec.reset : BusRec := ⟨0, 0x8000, .none, false⟩
/-- What the hub keeps of a bus at a slice's load (R75, R88). -/
def Bus.reset : Bus :=
  { phase := BusRec.reset, posHist := [], negHist := [], settleRun := 0, lastPos := none, posGap := 0, lastNeg := none, seen := none, settledAt := 0,
    dcRun := 0, revRun := 0, reversed := false, crossOnDc := false, mean0 := 0, mean1 := 0, vbusDiff := 0 }
/-- A closed till (R114). -/
def Till.closed : Till :=
  { kind := 0, state := 0, epoch := 0, link := 0, count := 0, errors := 0, lost := 0, base := 0, len := 0, prod := 0,
    cons := 0, due := 0, tag := 0 }
/-- Nothing lost (R125). -/
def Loss.zero : Loss := ⟨0, 0, 0⟩
/-- A channel that nothing has driven: its gate driver off. -/
def Chan.reset : Chan :=
  { cmd := none, start := none, fb := 0, fbPat := .off, closed := false, tripRun := 0, tripOpen := false, tripped := false,
    inrush := none, cut := false, waitOn := false, zc := [], edge := [], fresh := true, lit := false, settle := 0, ramp := none, darkRun := 0, leakRun := 0, sinceDark := 0,
    passDark := false, sinceLeak := 0, passLeak := false }
/-- No fault record (R219). -/
def FaultRec.none : FaultRec := ⟨false, false, 0, 0, 0⟩
/-- A slice as the hub keeps it before its first load. -/
def HubSlice.reset : HubSlice :=
  { epoch := 0, loaded := false, failed := false, attempts := 0, awaitHello := none, loadStep := 0, startDue := false,
    stored := false, seq := 0, rxSeq := 0,
    gaps := 0, unacked := [], stale := 0, lastFrame := 0, judged := 0, delay := 0, cal := [], calNext := none, aux := [], auxFrom := 0,
    carry := none, trace := [], heat := [], ons := (0, 0), modelAt := 0, wire := none,
    verdicts := 0, r51 := 0, reissue := false,
    reloaded := false, bus := Bus.reset, tdie := 0, ths := 0, tEst := 0, p1 := 0, p20 := 0, warm := false, stretch := 1,
    stretchNow := [] }
/-- A TIME frame's content when none has come. -/
def TimeBody.zero : TimeBody := ⟨0, 0, 0, 0, 2000000, BusRec.reset⟩
/-- A slice after a restart of its own: no epoch (R236). -/
def OwnSlice.reset (cause : Byte) : OwnSlice :=
  { epoch := 0, cause := cause, lastSeq := 0, seq := 0, blocks := 0, running := false, alone := false, cal := [],
    delay := 0, calNext := none, swatches := [], base := [], swState := [], stored := List.replicate 16 .off,
    start := List.replicate 16 ⟨.off, .zeroCross, 0⟩, fa := genAReset, fb := genBReset, alonePat := List.replicate 16 .off,
    aloneFa := genAReset, aloneFb := genBReset, time := TimeBody.zero, half := 0,
    plans := [], wire := none, floor := [], dirty := [], vals := [], atStart := [], judgedBy := [], last := [],
    tdie := 0, swing := ⟨none, none, none, none⟩, skip := 0, heard := 0 }
/-- A lane that is down (R171). -/
def LaneSt.down : LaneSt := ⟨0, false, 0, 0, 0, none, [], none⟩
/-- A span before its link is up. -/
def Span.reset : Span :=
  { auth := .none, na := [], nb := [], deadline := none, attempt := 0, mismatches := 0, current := false, broken := true,
    refused := 0, hello := none, epoch := 0, helloGap := 0, acked := false, staging := none }

/-- The clock at power-on with a given cycle number (R52, R71, R74). -/
def Clock.powerOn (c : Cycle) : Clock :=
  { tick := 0, angle := 0, frac := 0, cycle := c, tracker := .free, altRef := false, stepped := false, period := 2000000,
    cycleLen := 2000000, measured := 2000000, ref := 0, cycleTicks := 0, lockRun := 0, fly := [], lastRef := none, flyFrom := 0,
    wraps := 0, cut := (0, 0), halfDone := 0, timeDone := 0, takePrimary := false, altOffset := 0, headerGap := 0, rebaseDue := false, stepDue := false,
    stepSent := none }

/-- The window at power-on (R64, R111). -/
def Window.powerOn : Window :=
  { mem := [], passbook := [], tills := [], waiting := [], losses := [], keepalive := 0, keepDeadline := none,
    attached := false, detachCause := 4, noticeSeq := 0, pxSeqEcho := 0, pxCode := 0, failPage := 0, dbErrors := 0,
    dbLastTill := 0, dbLastReason := 0, violations := 0, lastViol := 0, pendingBits := [], enumerated := false,
    applied := 0, badCrc := 0, eccWords := [], rung := [], stopped := [] }

/-- The Teller's queues after a hub reset (R66, R149). -/
def Teller.reset : Teller := ⟨[], [], [], [], [], [], ⟨0, false, 0⟩⟩

/-- Lamps after a hub reset: nothing commanded, A and B as FA and FB (R54, R193, R198). -/
def Lamps.reset (fa fb : Gen) (half : Nat) : Lamps :=
  { chans := [], genA := fa, genB := fb, genFA := fa, genFB := fb, genNext := [], aspects := [], plans := [],
    nextPlan := 0, half := half, shift := [], joining := [] }

/-- Proving after a hub reset (R51, R219). -/
def Proving.reset : Proving :=
  { records := [], learns := [], wires := [], gather := [], coreFb := false, stall := false, lockstep := false, fatal := false,
    dark := false, hold := true, toggling := false, lastToggle := 0 }

/-- The ring before any lane is up (R172). -/
def Ring.reset : Ring :=
  { lanes := [], east := Span.reset, west := Span.reset, position := none, positions := 0, form := .none,
    reference := 0xFF, isRef := false, refList := [0, 1, 2, 3], variants := [], breaks := [], sizeDue := none, readopt := false,
    enum := none, enumRef := [], counted := none, anchor := false,
    refusing := false, unpositioned := false, escrowE := false, escrowW := false, split := false, e1w1Idle := false,
    muted := false, offset := 0, touches := 0, slotViolations := 0, wraps := 0, peerRestarts := 0, delay0 := 0,
    delay1 := 0, calmRun := 0, lastNotice := none, muteUntil := none, quiet := false, epochs := [], lastSeq := [],
    txSeq := [], txq := [], busyTill := [], fwdLost := 0, seam := [], watches := [], forwards := [], held := [],
    heldLoss := none, pushRef := [], pushE := false, pushW := false }

/-- Supplies and ledger unpowered (R300, R309). -/
def Power.reset : Power :=
  { mains := false, mainsSince := 0, backup := false, onBackup := false, mainsDv := 0, backupCv := 0, holdup := 0,
    armed := false, account := 0, ledger := 0, countFrom := 0, countDone := false, standbyDue := false, deferred := 0,
    hubTemp := 0 }

/-- The DDR counters before any start: INTERVAL 45,000 in DEMAND_CFG, everything else 0 (R335, R336). -/
def Meter.countersReset : Tbl (BitVec 64) := [(3295, 45000)]
/-- The tally cells of the same counters (R339). -/
def Vault.cellsReset : Tbl Word16 := [(13180, 45000)]

/-- Metering unpowered (spec/12). -/
def Meter.reset : Meter :=
  { counters := Meter.countersReset, rem := [], changed := [], acc := [], prev := [], seen := [], ddrGood := false,
    halfStart := none, halfTick := 0, halfTariff := 0, ended := none, committed := 0, lastTariff := 0, lastClose := 0,
    opened := [], startRec := none, gapFrom := none, vaultFault := false, sincePass := 0 }

/-- No update session (R353). -/
def Session.idle : Session :=
  { id := 0, phase := .idle, clean := false, gateway := 0, opener := false, roster := [], cause := 0, isCurrent := false,
    stall := 0, lastFrom := none, voteClose := none, votes := [], commitCycle := none, commitAt := none, late := false,
    trials := [], confirmSent := false, confirmBy := none, confirms := [], unwounds := [], unwindDue := false,
    failure := none, finals := [], before := [], busyFor := none,
    restarted := false }
/-- A flash bank with nothing written. -/
def Bank.blank : Bank := ⟨false, [], 0, false, [], none, [], [], []⟩
/-- A bank with the factory release (R28). -/
def Bank.release : Bank := { Bank.blank with factory := true }
/-- Firmware update at delivery (spec/13). -/
def Update.reset : Update :=
  { session := Session.idle, bank0 := Bank.release, bank1 := Bank.blank, swapped := false, select := 0, bootCount := 0,
    fuses := 0, fwVersion := 0x01000000, secVersion := 0, schema := 0x0100, wefts := 0 }

/-- Entropy unit at power-on (R396, R398). -/
def Entropy.reset : Entropy :=
  { state := 0, restarts := 0, rct := 0, apt := 0, drbg := false, generated := 0, reseedAt := 0, pool := 0, poolAt := 0,
    restartAt := none, testing := false, failing := none, waiting := [] }

/-- A port at a hub reset: settings of R414, counters zero. -/
def Uart.reset (addr9 : Bool) (address mask : Byte) (sleep : Nat) : Uart :=
  { oversample := 16, divider := 26, addr9 := addr9, loopback := false, echo := false, address := address, mask := mask,
    sleep := sleep, noise := 0, ovr := 0, framing := 0, breaks := 0, lastBits := 0, lastLpo := 0, discarded := 0,
    crcBad := 0, holding := none, frame := none, escaped := false, badEscape := false, full := 0, deadline := none,
    selected := false, txq := [], brk := none, jobs := [], resumeAt := none }
/-- MAINT at a hub reset (R414). -/
def Uart.maintReset : Uart := Uart.reset false 0 0 0
/-- DROP at a hub reset, with the claimed position or 0xFF (R414). -/
def Uart.dropReset (claim : Byte) : Uart := Uart.reset true claim 0xFF 4

/-- No test and no dump (spec/16). -/
def Diag.reset : Diag := ⟨none, none, none, none, none, none, 0, 0⟩

/-- The default items (R372). -/
def Items.default : Items :=
  { refPrimary := 0, refAlternate := 0xFF, head := [], fallback := [], start := [], busKind := [], fa := genAReset,
    fb := genBReset, response := [], limits := [], tolerance := [], swatch := [], refList := [0, 1, 2, 3], ringSize := 0,
    ringFec := false, hFec := false, capacity := 0, p3Reserve := 0, leanBelow := 0, standbyAfter := 0, sense := [],
    sliceOpts := [] }

/-- The vault as delivered: blank, so that the module starts in the shelf state (R62). -/
def Vault.blank : Vault :=
  { config := none, escrowE := none, escrowW := none, cells := Vault.cellsReset, journal := ⟨0, 0, 0, 0, [], false⟩,
    records := [], recordSeq := 0, hubEpoch := 0, hostEpoch := 0, checkpoint := none, backupPoint := none, current := none,
    alternate := none, altPending := false, cosign := none }

/-- The module as delivered, unpowered, with every register at its Reset value (log 2). -/
def Module.reset : Module :=
  { variant := .um384, stage := .unpowered, shelf := false, inUse := false, firstCause := 1, latestCause := 1, unread := 1,
    resetDue := none, clk := Clock.powerOn 65536, win := Window.powerOn, tel := Teller.reset,
    lamps := Lamps.reset genAReset genBReset 131072, prov := Proving.reset, hub := [], own := [], ring := Ring.reset,
    pow := Power.reset, meter := Meter.reset, upd := Update.reset, ent := Entropy.reset, maint := Uart.maintReset,
    drop := Uart.dropReset 0xFF, diag := Diag.reset, vault := Vault.blank, live := Items.default, staging := none, free := 0, out := [] }

/-- The machine: the queue of commands that wait, first in, first out, and the module. -/
structure State where
  /-- Commands waiting (the model's own queue) | list | log 1 | empty -/
  pending : List Instr
  /-- The module -/
  m : Module
  deriving DecidableEq, Repr

/-- The machine right after reset. -/
def State.reset : State := ⟨[], Module.reset⟩

end Sys2Proof.Machine
end

