-- ==== Sys2Proof/Machine/Codec.lean ====
section
/-! DEFINITION. Byte layouts and the check values over them: little-endian fields (R14), CRC-32C (R133), SHA-256 and
HMAC-SHA-256 (R15, R59). -/

namespace Sys2Proof.Machine
open Sys2Proof

/-- `n` bytes of `x`, least significant first (R14). -/
def leBytes : Nat → Nat → List Byte
  | 0, _ => []
  | n + 1, x => BitVec.ofNat 8 x :: leBytes n (x / 256)

/-- The number that little-endian bytes spell (R14). -/
def leNat : List Byte → Nat
  | [] => 0
  | b :: bs => b.toNat + 256 * leNat bs

/-- An `n`-byte two's-complement field of `x` (R152 sN). -/
def leInt (n : Nat) (x : Int) : List Byte := leBytes n (x % (2 ^ (8 * n) : Nat)).toNat

/-- `n` reserved bytes (R16, R152 rN). -/
def rsv (n : Nat) : List Byte := List.replicate n 0

/-- One byte of a number. -/
def u8 (x : Nat) : List Byte := leBytes 1 x
/-- A 16-bit field. -/
def u16 (x : Nat) : List Byte := leBytes 2 x
/-- A 32-bit field. -/
def u32 (x : Nat) : List Byte := leBytes 4 x
/-- A 40-bit field. -/
def u40 (x : Nat) : List Byte := leBytes 5 x
/-- A 64-bit field. -/
def u64 (x : Nat) : List Byte := leBytes 8 x

/-- A Bool as a bit. -/
def bit (b : Bool) : Nat := if b then 1 else 0

/-- `n` bytes from offset `o`, as a number; bytes past the end count as 0. -/
def fieldAt (bs : List Byte) (o n : Nat) : Nat := leNat ((bs.drop o).take n)

/-- A 16-bit two's-complement number. -/
def toS16 (x : Nat) : Int := if x < 32768 then (x : Int) else (x : Int) - 65536

/-- `bs` with zeros up to `n` bytes. -/
def padTo (n : Nat) (bs : List Byte) : List Byte := bs ++ rsv (n - bs.length)

/-- Zero padding to a multiple of 4 bytes. -/
def pad4 (bs : List Byte) : List Byte := bs ++ rsv ((4 - bs.length % 4) % 4)

/-- `x + 1`, held at the highest value (a saturating counter). -/
def satInc {w : Nat} (x : BitVec w) : BitVec w := if x = BitVec.allOnes w then x else x + 1

/-- `x + n`, held at the highest value. -/
def satAdd {w : Nat} (x : BitVec w) (n : Nat) : BitVec w :=
  if x.toNat + n < 2 ^ w then BitVec.ofNat w (x.toNat + n) else BitVec.allOnes w

/-- The next epoch: after the highest value comes 1 (R69). -/
def nextEpoch {w : Nat} (x : BitVec w) : BitVec w := if x = BitVec.allOnes w then 1 else x + 1

/-! ### CRC-32C -/

/-- One bit step of the reflected Castagnoli polynomial. -/
def crcStep (c : BitVec 32) : BitVec 32 :=
  if c.getLsbD 0 then (c >>> 1) ^^^ 0x82F63B78 else c >>> 1

/-- One byte of CRC-32C. -/
def crcByte (c : BitVec 32) (b : Byte) : BitVec 32 :=
  (List.range 8).foldl (fun c _ => crcStep c) (c ^^^ b.setWidth 32)

/-- CRC-32C of bytes (R133): initial value and final XOR all ones, reflected. -/
def crc32c (bs : List Byte) : BitVec 32 := (bs.foldl crcByte 0xFFFFFFFF) ^^^ 0xFFFFFFFF

/-! ### SHA-256 and HMAC (FIPS 180-4, RFC 2104: the standards of R15) -/

/-- The first 64 primes, from whose roots FIPS 180-4 takes its constants. -/
def shaPrimes : List Nat :=
  [2, 3, 5, 7, 11, 13, 17, 19, 23, 29, 31, 37, 41, 43, 47, 53, 59, 61, 67, 71, 73, 79, 83, 89, 97, 101,
   103, 107, 109, 113, 127, 131] ++
  [137, 139, 149, 151, 157, 163, 167, 173, 179, 181, 191, 193, 197, 199, 211, 223, 227, 229, 233, 239,
   241, 251, 257, 263, 269, 271, 277, 281, 283, 293, 307, 311]
/-- The largest number that is `r` with lower bits below bit `n` added and whose `k`-th power is at most `x`. -/
def rootBits (k x : Nat) : Nat → Nat → Nat
  | 0, r => r
  | n + 1, r => rootBits k x n (if (r + 2 ^ n) ^ k ≤ x then r + 2 ^ n else r)
/-- The first 32 bits of the fraction of the `k`-th root of `p`. -/
def rootFraction (k p : Nat) : Word32 := BitVec.ofNat 32 (rootBits k (p * 2 ^ (32 * k)) 36 0)
/-- The constant words: from the cube roots. -/
def shaWords : List Word32 := shaPrimes.map (rootFraction 3)
/-- The hash value before the first block: from the square roots of the first eight. -/
def shaInit : List Word32 := (shaPrimes.take 8).map (rootFraction 2)

/-- A big-endian 32-bit word of four bytes. -/
def beWord (bs : List Byte) : BitVec 32 := BitVec.ofNat 32 (bs.foldl (fun a b => a * 256 + b.toNat) 0)

/-- Big-endian bytes of a number. -/
def beBytes (n x : Nat) : List Byte := (leBytes n x).reverse

/-- Cut bytes into groups of `n`; `fuel` bounds the groups. -/
def chunks {α : Type} (n : Nat) : Nat → List α → List (List α)
  | 0, _ => []
  | fuel + 1, bs => if bs.isEmpty then [] else bs.take n :: chunks n fuel (bs.drop n)

/-- The exclusive or of `x` rotated right by each number of a list, over `y`. -/
def turns (y : Word32) (l : List Nat) (x : Word32) : Word32 := l.foldl (fun z r => z ^^^ x.rotateRight r) y
/-- The schedule's next word after the sixteen of a window. -/
def shaNext (win : List Word32) : Word32 :=
  let at_ := fun i => win.getD i 0
  at_ 0 + at_ 9 + turns (at_ 1 >>> 3) [7, 18] (at_ 1) + turns (at_ 14 >>> 10) [17, 19] (at_ 14)
/-- The eight working words after one step with the sum `k` of its constant and its schedule word. -/
def shaStep (l : List Word32) (k : Word32) : List Word32 :=
  let at_ := fun i => l.getD i 0
  let up := k + at_ 7 + turns 0 [6, 11, 25] (at_ 4) + (at_ 6 ^^^ (at_ 4 &&& (at_ 5 ^^^ at_ 6)))
  let down := turns 0 [2, 13, 22] (at_ 0) + ((at_ 0 &&& (at_ 1 ||| at_ 2)) ||| (at_ 1 &&& at_ 2))
  (up + down) :: (l.take 3 ++ (at_ 3 + up) :: (l.drop 4).take 3)
/-- The steps of one block, a window of sixteen schedule words moving along it. -/
def shaSteps : List Word32 → List Word32 → List Word32 → List Word32
  | [], _, l => l
  | k :: ks, win, l => shaSteps ks (win.drop 1 ++ [shaNext win]) (shaStep l (k + win.headD 0))
/-- The hash value after one more block of 64 bytes. -/
def shaBlock (l : List Word32) (block : List Byte) : List Word32 :=
  List.zipWith (· + ·) (shaSteps shaWords ((chunks 4 16 block).map beWord) l) l

/-- SHA-256 of a byte string, as 32 bytes in the standard's order (R15). -/
@[irreducible] def sha256 (bs : List Byte) : List Byte :=
  let padded := bs ++ [0x80] ++ rsv ((119 - bs.length % 64) % 64) ++ beBytes 8 (8 * bs.length)
  (((chunks 64 (padded.length / 64) padded).foldl shaBlock shaInit).map (fun w => beBytes 4 w.toNat)).flatten

/-- HMAC-SHA-256 (R44, R59, R268). -/
@[irreducible] def hmac (key msg : List Byte) : List Byte :=
  let k := padTo 64 (if key.length ≤ 64 then key else sha256 key)
  sha256 (k.map (· ^^^ 0x5C) ++ sha256 (k.map (· ^^^ 0x36) ++ msg))

end Sys2Proof.Machine

/-! ### Codes and layouts of the commands' data -/

namespace Sys2Proof
open Sys2Proof.Machine

/-- Code of a tracker state (R76). -/
def Tracker.code : Tracker → Nat
  | .free => 0 | .locking => 1 | .locked => 2 | .flywheel => 3 | .synthetic => 4 | .domain => 5 | .domainHold => 6

/-- Code of a reset cause (R161). -/
def ResetCause.code : ResetCause → Byte
  | .powerOn => 1 | .watchdog => 2 | .lockstepTeller => 3 | .lockstepKeeper => 4 | .fatal => 5 | .trial => 6
  | .unwind => 7 | .ring => 8 | .hostWarm => 9 | .hostCold => 10

/-- Code of a form (R172). -/
def Form.code : Form → Nat
  | .none => 0 | .dual => 1 | .single => 2 | .foldedChain => 3 | .wrappedDual => 4

/-- LANE code (R159). -/
def Lane.code : Lane → Nat
  | .h => 0 | .e0 => 1 | .e1 => 2 | .w0 => 3 | .w1 => 4

/-- PATTERN code (R159). -/
def Pattern.code : Pattern → Nat
  | .off => 0 | .steady => 1 | .flashA => 2 | .flashB => 3 | .dim => 4

/-- The pattern of a code (R159). -/
def Pattern.ofCode : Nat → Option Pattern
  | 0 => some .off | 1 => some .steady | 2 => some .flashA | 3 => some .flashB | 4 => some .dim | _ => none

/-- MODE code (R159). -/
def Mode.code : Mode → Nat
  | .zeroCross => 0 | .phaseExact => 1 | .dc => 2

/-- The mode of a code (R159). -/
def Mode.ofCode : Nat → Option Mode
  | 0 => some .zeroCross | 1 => some .phaseExact | 2 => some .dc | _ => none

/-- KIND code of a bus (R88). -/
def BusKind.code : BusKind → Nat
  | .none => 0 | .ac => 1 | .dc => 2

/-- The 32 header bytes of a reply with a CRC field of 0 (R140). -/
def Reply.header (r : Reply) (crc : Nat) : List Byte :=
  u16 r.opcode.toNat ++ u16 r.rflags.toNat ++ u32 r.tag.toNat ++ u8 r.position.toNat ++ rsv 1 ++ u16 r.status.toNat ++
  u32 r.payload.length ++ u16 r.hubEpoch.toNat ++ u16 r.detail.toNat ++ u40 r.cycle.toNat ++ u16 r.angle.toNat ++
  rsv 1 ++ u32 crc

/-- A reply's bytes, header, CRC and payload (R140). -/
def Reply.bytes (r : Reply) : List Byte :=
  r.header (crc32c (r.header 0 ++ r.payload)).toNat ++ r.payload

/-- A packet's bytes, header, CRC and parameter block (R132, R133). -/
def Packet.bytes (opcode : Word16) (p : Packet) : List Byte :=
  let hdr := fun crc =>
    u16 opcode.toNat ++ u16 p.flags.toNat ++ u32 p.tag.toNat ++ u8 p.target.toNat ++ rsv 1 ++ u16 p.till.toNat ++
    u32 p.params.length ++ u16 p.execAngle.toNat ++ u32 p.execCycle.toNat ++ rsv 2 ++ u32 crc ++ rsv 4
  hdr (crc32c (hdr 0 ++ p.params)).toNat ++ p.params

end Sys2Proof
end

