-- ==== Sys2Proof/Machine/Ops.lean ====
section
/-! DEFINITION. Named operations over the module that several commands share: time, pages and window bytes, replies and
events, tills, the fallback engine and VITAL-OK, and the hub reset. -/

namespace Sys2Proof.Machine
open Sys2Proof

/-! ### Outcomes -/

/-- The result of a command's meaning. -/
abbrev Result := Host.Outcome State Fault Refusal

/-- The clock after `dt` ticks: the tick counts, the angle follows the length of the cycle in progress and stays at
65,535 until the wrap, which is a command of its own; `frac` then keeps what has passed since (R71, R72; log 1). -/
def Clock.advance (c : Clock) (dt : Nat) : Clock :=
  let total := c.frac + dt * 65536
  let len := c.cycleLen.toNat
  let a := c.angle.toNat + total / len
  { c with
    tick := c.tick + BitVec.ofNat 64 dt
    cycleTicks := c.cycleTicks + dt
    angle := if a < 65536 then BitVec.ofNat 16 a else 65535
    frac := if a < 65536 then total % len else total - (65535 - c.angle.toNat) * len }

/-- The module after `dt` ticks; unpowered, no clock runs (R71). -/
def Module.elapse (m : Module) (dt : Nat) : Module :=
  match m.stage with
  | .unpowered => m
  | _ => { m with clk := m.clk.advance dt }

/-- A command that changes the module `dt` ticks after the command before it. -/
def State.on (s : State) (dt : Nat) (f : Module → Module) : Result :=
  .next { s with m := f (s.m.elapse dt) }

/-- The same for a command that names a slice position. -/
def State.onSlice (s : State) (dt slice : Nat) (f : Module → Module) : Result :=
  if slice < s.m.variant.slices then s.on dt f else .fault (.noSuchSlice slice)

/-- The same for a command that names a channel. -/
def State.onChannel (s : State) (dt channel : Nat) (f : Module → Module) : Result :=
  if channel < s.m.variant.channels then s.on dt f else .fault (.noSuchChannel channel)

/-- The same for a command that names a lane. -/
def State.onLane (s : State) (dt : Nat) (lane : Lane) (f : Module → Module) : Result :=
  if s.m.variant.fits lane then s.on dt f else .fault (.noSuchLane lane)

/-! ### Time -/

/-- The tick now. -/
def Module.now (m : Module) : Nat := m.clk.tick.toNat

/-- A C:A as one number of au. -/
def Clock.au (c : Clock) : Nat := c.cycle.toNat * 65536 + c.angle.toNat

/-- The C:A now, in au. -/
def Module.au (m : Module) : Nat := m.clk.au

/-- The turn: how far the angle has advanced since power-on, in au. A step moves it to the start of the next cycle, a rebase
leaves it running on, so that a duration in au ends where R99 says. -/
def Clock.turn (c : Clock) : Nat := c.wraps * 65536 + c.angle.toNat
/-- A deadline at the turn `d` has expired: the tick is past the first one of that au (R97-R99; log 94). -/
def Clock.pastTurn (c : Clock) (d : Nat) : Bool := decide (d < c.turn) || (decide (d = c.turn) && decide (65536 ≤ c.frac))
/-- The turn of an instant that lies `ago` au back, or of the last cut where that came later (R81, R93). -/
def Clock.turnAgo (c : Clock) (ago : Nat) : Nat := max c.cut.2 (c.turn - ago)

/-- Is the current tick at or before the instant of the C:A `d` (R93, R97)? The tick in which the angle reached its
present value is the first of that au. -/
def Clock.byInstant (c : Clock) (d : Nat) : Bool :=
  decide (c.au < d) || (decide (c.au = d) && decide (c.frac < 65536))

/-- The half-cycle index h of the present C:A (R191). -/
def Clock.half (c : Clock) : Nat := 2 * c.cycle.toNat + (if c.angle.toNat < 32768 then 0 else 1)

/-- Has a deadline tick expired (R98)? -/
def Module.expired (m : Module) (deadline : Nat) : Bool := decide (deadline < m.now)

/-! ### Module status -/

/-- STATE of the capability descriptor (R144): STARTING, RUNNING, SHELF, BOOT_ROM. The spec gives the codes and not the stage at
which STARTING ends: here RUNNING begins at ring ready (log 72). -/
def Module.stateCode (m : Module) : Nat :=
  match m.stage with
  | .bootRom => 3
  | .ready => if m.shelf then 2 else 1
  | .lamps => if m.shelf then 2 else 0
  | _ => 0

/-- The module is RUNNING (R144). -/
def Module.running (m : Module) : Bool := m.stateCode == 1

/-- The cores run: packets can be taken and events produced (R49, R324). -/
def Module.coresUp (m : Module) : Bool :=
  match m.stage with
  | .reload | .lock | .lamps | .ready => true
  | _ => false

/-- The module is ring ready (stage 7 has ended, R47) and not in the shelf state. -/
def Module.ringReady (m : Module) : Bool := m.stage == .ready && !m.shelf

/-- Own position as a field: 0xFF when none (R140, R172). A UM-96S is position 0 (R7). -/
def Module.positionByte (m : Module) : Byte :=
  if m.variant.hasRing then (match m.ring.position with | some p => BitVec.ofNat 8 p | none => 0xFF) else 0

/-- Is `t` this module's own position? -/
def Module.ownPosition (m : Module) (t : Byte) : Bool := t != 0xFF && t == m.positionByte

/-- Lane H is in block lock. -/
def Module.laneHUp (m : Module) : Bool := (Tbl.get LaneSt.down m.ring.lanes 0).state == 2

/-- The module is a gateway: its lane H is connected and enumerated (R35). -/
def Module.gateway (m : Module) : Bool := m.win.enumerated && m.laneHUp

/-- The ACTIVE bank (R28). -/
def Update.active (u : Update) : Bank := if u.swapped then u.bank1 else u.bank0
/-- The ESCROW bank (R28). -/
def Update.escrow (u : Update) : Bank := if u.swapped then u.bank0 else u.bank1
/-- Replace the ESCROW bank. -/
def Update.setEscrow (u : Update) (b : Bank) : Update := if u.swapped then { u with bank0 := b } else { u with bank1 := b }

/-- The items of the position's configuration, defaults when none is stored (R372); during a trial the new images read
their bank's settings area (R370). -/
def Module.items (m : Module) : Items :=
  let stored := match m.vault.config with | some c => c.items | none => Items.default
  if m.upd.select = 0 then stored
  else match m.upd.active.settings with | some i => i | none => stored

/-- The items in force from the store: the defaults while the stored configuration is not valid (R59, R62). -/
def Module.effective (m : Module) : Items := if m.inUse then m.items else Items.default

/-- The stored revision, 0 when nothing is stored. -/
def Module.revision (m : Module) : Word32 :=
  match m.vault.config with | some c => c.revision | none => 0

/-- Present slices: fitted and not held failed (R51, R58). -/
def Module.present (m : Module) (n : Nat) : Bool :=
  decide (n < m.variant.slices) && !(Tbl.get HubSlice.reset m.hub n).failed

/-- A slice as the hub keeps it. -/
def Module.slice (m : Module) (n : Nat) : HubSlice := Tbl.get HubSlice.reset m.hub n
/-- Change what the hub keeps of a slice. -/
def Module.setSlice (m : Module) (n : Nat) (f : HubSlice → HubSlice) : Module :=
  { m with hub := Tbl.modify HubSlice.reset m.hub n f }
/-- A slice's own state. -/
def Module.ownOf (m : Module) (n : Nat) : OwnSlice := Tbl.get (OwnSlice.reset 1) m.own n
/-- Change a slice's own state. -/
def Module.setOwn (m : Module) (n : Nat) (f : OwnSlice → OwnSlice) : Module :=
  { m with own := Tbl.modify (OwnSlice.reset 1) m.own n f }
/-- A channel. -/
def Module.chan (m : Module) (c : Nat) : Chan := Tbl.get Chan.reset m.lamps.chans c
/-- Change a channel. -/
def Module.setChan (m : Module) (c : Nat) (f : Chan → Chan) : Module :=
  { m with lamps := { m.lamps with chans := Tbl.modify Chan.reset m.lamps.chans c f } }
/-- A till. -/
def Module.till (m : Module) (t : Word16) : Till := Tbl.get Till.closed m.win.tills t.toNat
/-- Change a till. -/
def Module.setTill (m : Module) (t : Word16) (f : Till → Till) : Module :=
  { m with win := { m.win with tills := Tbl.modify Till.closed m.win.tills t.toNat f } }
/-- Put an output. -/
def Module.put (m : Module) (o : Out) : Module := { m with out := m.out ++ [o] }
/-- The channels of slice `n`. -/
def sliceChans (n : Nat) : List Nat := (List.range 16).map (fun p => 16 * n + p)
/-- Apply `f` for each number of a list in order. -/
def Module.each (m : Module) (l : List Nat) (f : Nat → Module → Module) : Module := l.foldl (fun m k => f k m) m

/-! ### Pages and window bytes (spec/04) -/

/-- Bytes of the window. -/
def windowSize : Nat := 0x4000000

/-- A window byte; unlisted bytes read 0 (log 4). -/
def Memory.read (mem : List Host.Cell) (a : Nat) : Byte := Tbl.get (0 : Byte) mem a
/-- Write a window byte, keeping the canonical form. -/
def Memory.write (mem : List Host.Cell) (a : Nat) (b : Byte) : List Host.Cell := Tbl.set (0 : Byte) mem a b
/-- Write bytes from `a` on. -/
def Memory.writes (mem : List Host.Cell) (a : Nat) (bs : List Byte) : List Host.Cell := Tbl.setRange (0 : Byte) mem a bs
/-- Read `n` bytes from `a` on. -/
def Memory.reads (mem : List Host.Cell) (a n : Nat) : List Byte := Tbl.getRange (0 : Byte) mem a n
/-- The memory's canonical form: addresses rise strictly and no byte is listed that reads as an unlisted one. -/
def Memory.wf (mem : List Host.Cell) : Bool := Tbl.wf (0 : Byte) mem

/-- The page of a window offset (R101). -/
def pageOf (offset : Nat) : Nat := offset / 4096
/-- First page of the dump area (R101). -/
def dumpFirst : Nat := 16128
/-- A page's code in the passbook; pages 0 and 1 always read 0b00 (R102). -/
def Window.code (w : Window) (page : Nat) : BitVec 2 := if page < 2 then 0 else Tbl.get 0 w.passbook page
/-- Set a page's code (R104); control pages never change (R102). -/
def Window.setCode (w : Window) (page : Nat) (c : BitVec 2) : Window :=
  if page < 2 then w else { w with passbook := Tbl.set 0 w.passbook page c }
/-- Every page that `len` bytes from `offset` touch holds `code` and lies in the window. -/
def Window.allOwned (w : Window) (offset len : Nat) (code : BitVec 2) : Bool :=
  decide (offset + len ≤ windowSize) &&
    (List.range ((offset % 4096 + len + 4095) / 4096)).all (fun i => w.code (pageOf offset + i) == code)

/-- A discarded host write is counted (R103). -/
def Window.violate (w : Window) (page : Nat) : Window :=
  { w with violations := satInc w.violations, lastViol := BitVec.ofNat 16 page }

/-! ### Replies and events (spec/05) -/

/-- EVENT in RFLAGS (R140). -/
def rfEvent : Word16 := 2
/-- FINAL in RFLAGS. -/
def rfFinal : Word16 := 4
/-- LATE_EXECUTED in RFLAGS. -/
def rfLate : Word16 := 8
/-- HEADER_SUSPECT in RFLAGS. -/
def rfSuspect : Word16 := 16
/-- RELAYED in RFLAGS. -/
def rfRelayed : Word16 := 32
/-- DUPLICATE in RFLAGS. -/
def rfDuplicate : Word16 := 1

/-- A reply as this module produces it now (R73, R140). -/
def Module.mkReply (m : Module) (opcode rflags : Word16) (tag : Word32) (status detail : Word16) (payload : List Byte) :
    Reply :=
  { opcode := opcode, rflags := rflags, tag := tag, position := m.positionByte, status := status,
    hubEpoch := m.vault.hubEpoch, detail := detail, cycle := m.clk.cycle, angle := m.clk.angle, payload := payload }

/-- A reply or event goes into the log of the last 256 (R447). -/
def Module.logEntry (m : Module) (r : Reply) : Module :=
  { m with tel := { m.tel with log := (r :: m.tel.log).take 256 } }

/-- There is room for one more entry of a till (R125). -/
def Module.room (m : Module) (till : Word16) : Bool :=
  decide ((m.win.waiting.filter (fun w => w.till == till)).length < 1024) && decide (m.win.waiting.length < 4096)

/-- An entry for a report till, produced under a host epoch, waits in the module, or is dropped and counted when there is no room (R125). -/
def Module.deliver (m : Module) (till : Word16) (r : Reply) (epoch : Word16) : Module :=
  if m.room till then { m with win := { m.win with waiting := m.win.waiting ++ [⟨till, r, epoch⟩] } }
  else
    let l := Tbl.get Loss.zero m.win.losses till.toNat
    let l' : Loss := if l.count = 0 then ⟨1, m.clk.cycle, m.clk.angle⟩ else { l with count := satInc l.count }
    let m := { m with win := { m.win with losses := Tbl.set Loss.zero m.win.losses till.toNat l' } }
    m.setTill till (fun t => if t.state = 0 then t else { t with lost := satInc t.lost })

/-- An OVERFLOW entry takes its place among the waiting ones once room has returned (R125, R126). -/
def Module.overflow (m : Module) (till : Word16) : Module :=
  let l := Tbl.get Loss.zero m.win.losses till.toNat
  if l.count ≠ 0 ∧ m.room till then
    let m := { m with win := { m.win with losses := Tbl.erase m.win.losses till.toNat } }
    let r := m.mkReply 0x8002 rfEvent 0 0 0
      (u16 till.toNat ++ u8 m.positionByte.toNat ++ rsv 1 ++ u32 l.count.toNat ++ u40 l.cycle.toNat ++
        u16 l.angle.toNat ++ rsv 1)
    (m.logEntry r).deliver till r m.vault.hostEpoch
  else m
/-- The OVERFLOW entries of every till for which room has returned; where the room of the module is short, in the order of
the till IDs (R125; log 63). -/
def Module.overflows (m : Module) : Module :=
  (m.win.losses.map (fun e => e.1)).foldl (fun m t => m.overflow (BitVec.ofNat 16 t)) m

/-- A report till that TILL may name: an open one; a STALE one was open before the host was detached (R129, R140). -/
def Module.opensReport (m : Module) (t : Word16) : Bool := (m.till t).kind == 3 && (m.till t).state == 1
/-- What a packet's arrival on a path settles for its replies (R114, R130, R140, R149). -/
def Module.origin (m : Module) (p : Packet) : Origin :=
  match p.path with
  | .laneH cmd => ⟨m.vault.hostEpoch, m.opensReport p.till, if cmd = 0 then 1 else (m.till cmd).link⟩
  | _ => ⟨m.vault.hostEpoch, false, 0⟩
/-- TILL of the packet that is being taken names an open report till: as it stands now, or as it stood at the packet's
arrival where the host has been detached since (R129, R140; log 64). -/
def Module.namesReport (m : Module) (p : Packet) : Bool :=
  if m.win.attached && m.tel.cur.epoch == m.vault.hostEpoch then m.opensReport p.till else m.tel.cur.named
/-- The report till of the packet that is being taken: the one it names, or the default (R140). -/
def Module.reportOf (m : Module) (p : Packet) : Word16 :=
  if p.till ≠ 0 && m.namesReport p then p.till else m.tel.cur.link

/-- The loop and hop count of a unicast frame (R258). -/
def Module.loopFor (m : Module) (dst : Byte) : Nat :=
  match m.ring.form, m.ring.position with
  | .dual, some p =>
    let n := m.ring.positions
    let e := (dst.toNat + n - p) % n
    if n - e < e then 1 else 0
  | _, _ => 0

/-- Queue a frame for insertion on the ring; its loop, SEQ, source epoch and WEFT are those of its insertion (R258, R272,
R275). -/
def Module.ringSend (m : Module) (ty dst : Byte) (dstEpoch rtill : Word16) (payload : List Byte) : Module :=
  let hdr : RingHdr :=
    { loop := 0, held := false, src := m.positionByte, dst := dst, srcEpoch := m.vault.hubEpoch, dstEpoch := dstEpoch,
      seq := 0, rtill := rtill, weft := 0 }
  { m with ring := { m.ring with txq := m.ring.txq ++ [⟨ty, hdr, payload⟩] } }

/-- A port of the module. -/
def Module.port (m : Module) : Port → Uart
  | .maint => m.maint
  | .drop => m.drop
/-- Change a port. -/
def Module.setPort (m : Module) (p : Port) (f : Uart → Uart) : Module :=
  match p with
  | .maint => { m with maint := f m.maint }
  | .drop => { m with drop := f m.drop }

/-- A reply returns on the path its packet came on, on lane H in its report till (R36, R140). -/
def Module.send (m : Module) (path : Path) (report : Word16) (r : Reply) : Module :=
  let m := m.logEntry r
  match path with
  | .laneH _ => m.deliver report r m.vault.hostEpoch
  | .maint => m.setPort .maint (fun u => { u with txq := u.txq ++ [r] })
  | .drop => m.setPort .drop (fun u => { u with txq := u.txq ++ [r] })
  | .ring src rtill => m.ringSend 3 src (Tbl.get 0 m.ring.epochs src.toNat) rtill r.bytes

/-- Most entries of a reply memory (R149). -/
def memRoom : Path → Nat
  | .laneH _ => 4096
  | _ => 256

/-- The reply memory of a path; forwarded packets have none here (R149: the entry module keeps it). -/
def Teller.mem (t : Teller) : Path → List Stored
  | .laneH _ => t.memH
  | .maint => t.memMaint
  | .drop => t.memDrop
  | .ring _ _ => []

/-- Replace the reply memory of a path. -/
def Teller.setMem (t : Teller) (p : Path) (l : List Stored) : Teller :=
  match p with
  | .laneH _ => { t with memH := l.take 4096 }
  | .maint => { t with memMaint := l.take 256 }
  | .drop => { t with memDrop := l.take 256 }
  | .ring _ _ => t

/-- The key of R149: on lane H the host epoch, command till and tag; on a port the tag. -/
def Stored.sameKey (e : Stored) (epoch : Word16) (p : Packet) : Bool :=
  match p.path with
  | .laneH _ => e.path == p.path && e.epoch == epoch && e.packet.tag == p.tag
  | _ => e.packet.tag == p.tag

/-- A taken packet is noted with no reply yet (R150), which takes an entry of its memory (log 65); on lane H the replies to
later packets of its command till wait for its own (R125). -/
def Module.noteTaken (m : Module) (opcode : Word16) (p : Packet) : Module :=
  let tel := m.tel.setMem p.path (⟨p.path, m.tel.cur.epoch, opcode, p, none⟩ :: m.tel.mem p.path)
  match p.path with
  | .laneH t => { m with tel := { tel with tickets := tel.tickets ++ [⟨t, opcode, p, m.reportOf p, none⟩] } }
  | _ => { m with tel := tel }

/-- Fill the first open ticket of a packet; none when it holds no ticket. -/
def fillTicket (opcode : Word16) (p : Packet) (r : Reply × Word16) : List Ticket → Option (List Ticket)
  | [] => none
  | t :: ts =>
    if t.opcode == opcode && t.packet == p && t.reply == none then some ({ t with reply := some r } :: ts)
    else (fillTicket opcode p r ts).map (t :: ·)

/-- Tickets of till `t` that can be released in order, and those that stay (R125). -/
def splitTickets (t : Word16) : Bool → List Ticket → List Ticket × List Ticket
  | _, [] => ([], [])
  | blocked, k :: ks =>
    if k.till == t then
      if !blocked && k.reply.isSome then
        let r := splitTickets t blocked ks
        (k :: r.1, r.2)
      else
        let r := splitTickets t true ks
        (r.1, k :: r.2)
    else
      let r := splitTickets t blocked ks
      (r.1, k :: r.2)

/-- A closing command till closes when every packet taken from it has its reply (R160). -/
def Module.settleClosing (m : Module) (t : Word16) : Module :=
  if (m.till t).state == 2 && !(m.tel.tickets.any (fun k => k.till == t)) &&
     !(m.tel.queue.any (fun a => a.packet.path == Path.laneH t)) then
    m.setTill t (fun _ => Till.closed)
  else m

/-- Lane H replies go to their report tills as far as those to the packets taken before them from the same command till have
(R125), each with the host epoch of its production (R130). -/
def Module.release (m : Module) (t : Word16) (tickets : List Ticket) : Module :=
  let s := splitTickets t false tickets
  let m := { m with tel := { m.tel with tickets := s.2 } }
  let m := s.1.foldl (fun m k => match k.reply with
    | some r => (m.logEntry r.1).deliver k.report r.1 r.2
    | none => m) m
  m.settleClosing t

/-- A reply to the packet that is being taken goes out on its path (R36, R140). -/
def Module.emit (m : Module) (opcode : Word16) (p : Packet) (r : Reply) : Module :=
  match p.path with
  | .laneH t => m.release t (m.tel.tickets ++ [⟨t, opcode, p, m.reportOf p, some (r, m.vault.hostEpoch)⟩])
  | path => m.send path p.till r

/-- The reply to the packet that is being taken is stored in the reply memory under the epoch of its arrival, and goes out
(R149). -/
def Module.answerWith (m : Module) (opcode : Word16) (p : Packet) (r : Reply) : Module :=
  let m := { m with tel := m.tel.setMem p.path (⟨p.path, m.tel.cur.epoch, opcode, p, some r⟩ :: m.tel.mem p.path) }
  m.emit opcode p r

/-- A reply to a packet taken before: it takes the place of the entry that noted the packet, and goes out on its path (R36,
R140, R149). -/
def Module.completeWith (m : Module) (opcode : Word16) (p : Packet) (r : Reply) : Module :=
  let noted := fun (e : Stored) => e.opcode == opcode && e.packet == p && e.reply == none
  let l := m.tel.mem p.path
  let m := match l.find? noted with
    | some e => { m with tel := m.tel.setMem p.path ({ e with reply := some r } :: l.eraseP noted) }
    | none => m
  match p.path with
  | .laneH t =>
    (match fillTicket opcode p (r, m.vault.hostEpoch) m.tel.tickets with
     | some l => m.release t l
     | none => m)
  | path => m.send path p.till r

/-- Answer the packet that is being taken with a reply of this module's own (R140). -/
def Module.answer (m : Module) (opcode : Word16) (p : Packet) (rflags status detail : Word16) (payload : List Byte) :
    Module :=
  m.answerWith opcode p (m.mkReply opcode rflags p.tag status detail payload)
/-- The same for a packet taken before. -/
def Module.complete (m : Module) (opcode : Word16) (p : Packet) (rflags status detail : Word16) (payload : List Byte) :
    Module :=
  m.completeWith opcode p (m.mkReply opcode rflags p.tag status detail payload)

/-- The FINAL event of an ACCEPTED packet (R143). -/
def Module.final (m : Module) (f : FinalRef) (status detail : Word16) (payload : List Byte) : Module :=
  m.send f.path f.till (m.mkReply f.opcode (rfEvent ||| rfFinal) f.tag status detail payload)

/-- Where the FINAL of a packet that is being taken goes (R143). -/
def Module.finalRef (m : Module) (opcode : Word16) (p : Packet) : FinalRef :=
  ⟨p.path, opcode, p.tag, match p.path with | .laneH _ => m.reportOf p | _ => p.till⟩

/-- An unsolicited event: a gateway, and a UM-96S, which is a domain of its own (R7), places it on till 0x0001, any other
module holds it for relay on the ring (R158, R299); nothing is produced while the cores do not run. -/
def Module.event (m : Module) (code : Word16) (payload : List Byte) : Module :=
  if m.coresUp then
    let r := m.mkReply code rfEvent 0 0 0 payload
    let m := m.logEntry r
    if m.gateway || !m.variant.hasRing then m.deliver 1 r m.vault.hostEpoch
    else if m.ringReady && !m.ring.muted && m.ring.held.isEmpty then m.ringSend 9 0xFE 0 0 r.bytes
    else if m.ring.held.length < 1024 then { m with ring := { m.ring with held := m.ring.held ++ [r] } }
    else
      let l : Loss := match m.ring.heldLoss with
        | some l => { l with count := satInc l.count }
        | none => ⟨1, m.clk.cycle, m.clk.angle⟩
      { m with ring := { m.ring with heldLoss := some l } }
  else m

/-- The C:A of an event's layout: 40-bit cycle, 16-bit angle. -/
def Module.ca (m : Module) : List Byte := u40 m.clk.cycle.toNat ++ u16 m.clk.angle.toNat

/-! ### Till allocation (R113) -/

/-- The first closed till from `id` on, within `fuel` of them. -/
def Window.firstFree (w : Window) : Nat → Nat → Option Nat
  | _, 0 => none
  | id, fuel + 1 => if (Tbl.get Till.closed w.tills id).state == 0 then some id else firstFree w (id + 1) fuel

/-- A free schedule till (0x2000-0xBFFF). -/
def Module.freeSched (m : Module) : Option Word16 := (m.win.firstFree 0x2000 40960).map (BitVec.ofNat 16)
/-- A free ring till (0xC000-0xFFFF). -/
def Module.freeRing (m : Module) : Option Word16 := (m.win.firstFree 0xC000 16384).map (BitVec.ofNat 16)
/-- How many tills of a range are in use. -/
def Window.used (w : Window) (lo n : Nat) : Nat :=
  (w.tills.filter (fun e => decide (lo ≤ e.1) && decide (e.1 < lo + n) && e.2.state != 0)).length

/-! ### The fallback engine and VITAL-OK (R20-R22, R222-R226) -/

/-- Key of a fault record: KIND is 1 DARK, 2 FALSE_LIT, 3 SLICE_SILENT, 4 OPEN_WIRE (R217, R219). -/
def recKey (ch kind : Nat) : Nat := 4 * ch + (kind - 1)
/-- A channel's record of a KIND. -/
def Module.record (m : Module) (ch kind : Nat) : FaultRec := Tbl.get FaultRec.none m.prov.records (recKey ch kind)
/-- RESPONSE configured for a channel: 0 REPORT, 1 HEAD_FALLBACK, 2 MODULE_FALLBACK, 3 DROP_VITAL (R228). -/
def Module.response (m : Module) (ch : Nat) : Nat := Tbl.get 1 m.live.response ch
/-- The head of a channel, 0xFFFF none (R372). -/
def Module.head (m : Module) (ch : Nat) : Nat := Tbl.get 0xFFFF m.live.head ch
/-- Do two channels belong to one head? A channel with no head is a head of one (R222). -/
def Module.sameHead (m : Module) (a b : Nat) : Bool := a == b || (m.head a != 0xFFFF && m.head a == m.head b)
/-- Some latched record has response 2 or more: module fallback (R224). -/
def Module.recordFallback (m : Module) : Bool := m.prov.records.any (fun e => e.2.latched && decide (2 ≤ e.2.response))
/-- Some latched record has response DROP_VITAL (R225). -/
def Module.dropVital (m : Module) : Bool := m.prov.records.any (fun e => e.2.latched && e.2.response == 3)
/-- Module fallback is in force (R20, R22, R63, R224, R324). -/
def Module.moduleFallback (m : Module) : Bool :=
  m.prov.coreFb || m.prov.stall || m.prov.lockstep || m.prov.fatal || m.recordFallback
/-- Head fallback is in force for a channel (R222, R224). -/
def Module.headFallback (m : Module) (ch : Nat) : Bool :=
  m.prov.records.any (fun e => e.2.latched && e.2.response == 1 && m.sameHead (e.1 / 4) ch)
/-- The fallback committed for a channel, as SOURCE: 3 module, 2 head, 0 none (R202). -/
def Module.fallbackFor (m : Module) (ch : Nat) : Nat :=
  if m.moduleFallback then 3 else if m.headFallback ch then 2 else 0

/-- A condition under which the charge pump does not toggle (R225), by CAUSE of R226: 0 none. -/
def Module.vitalCause (m : Module) : Nat :=
  if m.prov.fatal then 5 else if m.prov.lockstep then 2 else if m.prov.stall then 3 else if m.prov.dark then 4
  else if m.dropVital then 1 else 0
/-- No condition of R225 holds and R51 has been met since the last hub reset. -/
def Module.vitalFree (m : Module) : Bool := m.vitalCause == 0 && !m.prov.hold

/-- Of the channels with a DROP_VITAL record, the one detected earliest, lowest number first (R226). -/
def Module.vitalChannel (m : Module) : Nat :=
  let l := m.prov.records.filter (fun e => e.2.latched && e.2.response == 3)
  match l with
  | [] => 0xFFFF
  | e :: es => (es.foldl (fun b e => if e.2.tick < b.2.tick then e else b) e).1 / 4

/-- Toggling stops in the tick in which a condition begins; the VITAL_OK event reports the opening (R225, R226). -/
def Module.vitalStop (m : Module) : Module :=
  if m.prov.toggling && !m.vitalFree then
    let m' := { m with prov := { m.prov with toggling := false, lastToggle := m.now } }
    m'.event 0x8303 (u8 0 ++ u8 m.vitalCause ++ u16 m.vitalChannel ++ m.ca ++ rsv 5)
  else m

/-! ### Supply bits and ledger (R173, R301, R322) -/

/-- SUPPLY bits (R173). -/
def Power.bits (p : Power) : Nat := bit p.mains + 2 * bit p.backup + 4 * bit p.onBackup

/-- BACKUP as it reads: 0 while BACKUP_CAPACITY is 0 (R310). -/
def Module.backupGroats (m : Module) : Word32 := if m.items.capacity = 0 then 0 else m.pow.account

/-- The state R322 gives for the supplies and the account. -/
def Module.ledgerFor (m : Module) : Nat :=
  let i := m.items
  if m.pow.onBackup && (i.capacity == 0 || decide (m.pow.account.toNat < i.leanBelow.toNat)) then
    (if i.standbyAfter == 0 then 1 else 2)
  else 0

/-- LEDGER_STATE event (R327). -/
def Module.ledgerEvent (m : Module) (state cause slice stretch dropped : Nat) : Module :=
  m.event 0x8502 (u8 state ++ u8 cause ++ u8 slice ++ u8 stretch ++ m.ca ++ rsv 1 ++ u16 dropped ++ rsv 2)

/-- The ledger state is judged afresh; a change is reported and a countdown starts or is dropped (R322, R323, R327). -/
def Module.judgeLedger (m : Module) (cause : Nat) : Module :=
  let st := m.ledgerFor
  if st == m.pow.ledger then m
  else
    let m := { m with pow := { m.pow with ledger := st, countFrom := m.now, countDone := false } }
    m.ledgerEvent st cause 0xFF 0 0
/-- The same where CONFIG_WRITE changed the LEDGER item, for which R327 lists no CAUSE: a free value (log 22). -/
def Module.judgeLedgerFree (m : Module) : Module :=
  { m with free := m.free + 1 }.judgeLedger (Config.freeInt m.free).toNat

/-! ### What a channel shows (R202) -/

/-- The bus of a channel's slice. -/
def Module.busOf (m : Module) (ch : Nat) : Bus := (m.slice (ch / 16)).bus

/-- The mode of a fallback or start pattern: ZERO_CROSS on an AC bus, DC on a DC bus (R201, which speaks of fallback patterns on
these two only; on a dead bus it is ZERO_CROSS: log 70). -/
def Module.autoMode (m : Module) (ch : Nat) : Mode :=
  match (m.busOf ch).phase.kind with
  | .dc => .dc
  | _ => .zeroCross

/-- A channel's fallback pattern as it was applied (R201, R473). -/
def Module.fallbackShown (m : Module) (ch : Nat) : Shown := ⟨(m.chan ch).fbPat, m.autoMode ch, 0⟩
/-- A channel's start pattern as it would be applied now (R53). -/
def Module.startShown (m : Module) (ch : Nat) : Shown :=
  match Tbl.get Option.none m.effective.start ch with
  | some s => ⟨s.1, m.autoMode ch, s.2⟩
  | none => ⟨Tbl.get .off m.effective.fallback ch, m.autoMode ch, 0⟩
/-- A slice's stored fallback pattern for a channel, as the slice applied it (R24, R57, R201). -/
def Module.storedShown (m : Module) (ch : Nat) : Shown :=
  ⟨(m.ownOf (ch / 16)).alonePat.getD (ch % 16) .off, m.autoMode ch, 0⟩

/-- What a channel shows, and its SOURCE (R202). -/
def Module.shown (m : Module) (ch : Nat) : Shown × Nat :=
  let c := m.chan ch
  if (m.slice (ch / 16)).stored then (m.storedShown ch, 4)
  else if c.fb ≠ 0 then (m.fallbackShown ch, c.fb)
  else
    match c.cmd, c.start with
    | some s, _ => (s, 0)
    | none, some s => (s, 1)
    | none, none => (⟨.off, .zeroCross, 0⟩, 1)

end Sys2Proof.Machine
end

