-- ==== Sys2Proof/Machine/Tally.lean ====
section
/-! DEFINITION. Energy metering: the counters in DDR, the tally cells and their journal, the boundary records, demand
and tariffs (spec/12). -/

namespace Sys2Proof.Machine
open Sys2Proof

/-! ### Counters (R335, R339) -/

/-- Counter `k` in DDR. -/
def Meter.counter (t : Meter) (k : Nat) : Nat := (Tbl.get (0 : BitVec 64) t.counters k).toNat
/-- Set a counter in DDR; the next pass will write it. -/
def Meter.setCounter (t : Meter) (k v : Nat) : Meter :=
  { t with counters := Tbl.set 0 t.counters k (BitVec.ofNat 64 v), changed := Tbl.set false t.changed k true }
/-- Set counters from a list. -/
def Meter.setCounters (t : Meter) (l : List (Nat × Nat)) : Meter := l.foldl (fun t e => t.setCounter e.1 e.2) t

/-- Counter `k` as its four tally cells hold it, cell 0 lowest (R339). -/
def Vault.counter (v : Vault) (k : Nat) : BitVec 64 :=
  let c := fun i => (Tbl.get (0 : Word16) v.cells (4 * k + i)).toNat
  BitVec.ofNat 64 (c 0 + 65536 * (c 1 + 65536 * (c 2 + 65536 * c 3)))
/-- The four cells of a value. -/
def cellsOf (x : BitVec 64) : List Word16 :=
  [BitVec.ofNat 16 x.toNat, BitVec.ofNat 16 (x.toNat / 2 ^ 16), BitVec.ofNat 16 (x.toNat / 2 ^ 32),
   BitVec.ofNat 16 (x.toNat / 2 ^ 48)]
/-- Write a counter's cells, from cell 0 to cell 3. -/
def Vault.setCounter (v : Vault) (k : Nat) (x : BitVec 64) : Vault :=
  { v with cells := Tbl.setRange 0 v.cells (4 * k) (cellsOf x) }

/-- The tariff in force (R334). -/
def Meter.tariff (t : Meter) : Nat := t.counter 3278 % 8

/-! ### The persistence pass (R340, R341) -/

/-- What a pass writes: every changed counter, TALLY_B last, as (index, old, new). -/
def Module.passEntries (m : Module) : List (Nat × BitVec 64 × BitVec 64) :=
  ((m.meter.changed.map (fun e => e.1)).filter (fun k => k != 3279)).map
    (fun k => (k, m.vault.counter k, Tbl.get (0 : BitVec 64) m.meter.counters k)) ++
    [(3279, m.vault.counter 3279, BitVec.ofNat 64 m.meter.committed)]

/-- A persistence pass: journal records of up to 408 entries one after another, their cells, and each record cleared
again (R341). -/
def Module.pass (m : Module) : Module :=
  if m.variant.metering then
    let es := m.passEntries
    let groups := chunks 408 es.length es
    let v := es.foldl (fun v e => v.setCounter e.1 e.2.2) m.vault
    { m with
      vault := { v with journal :=
        { valid := 0, seq := m.vault.journal.seq + BitVec.ofNat 32 groups.length,
          cycle := BitVec.ofNat 40 (m.meter.committed / 65536), angle := BitVec.ofNat 16 m.meter.committed,
          entries := groups.getLastD [], crcGood := true } }
      meter := { m.meter with
        counters := Tbl.set 0 m.meter.counters 3279 (BitVec.ofNat 64 m.meter.committed), changed := [], sincePass := 0 } }
  else m

/-- Do an entry's cells hold NEW below some cell and OLD from it on (R342)? -/
def Vault.redoMatches (v : Vault) (e : Nat × BitVec 64 × BitVec 64) : Bool :=
  let cells := Tbl.getRange (0 : Word16) v.cells (4 * e.1) 4
  (List.range 5).any (fun n => cells == (cellsOf e.2.2).take n ++ (cellsOf e.2.1).drop n)

/-- The journal redo of a start (R342): a live record is written whole, a torn one is cleared. -/
def Module.redoJournal (m : Module) : Module :=
  let j := m.vault.journal
  if j.valid = 0 then m
  else if j.valid = 0xA55A ∧ j.crcGood then
    let bad := j.entries.any (fun e => !m.vault.redoMatches e)
    let v := j.entries.foldl (fun v e => v.setCounter e.1 e.2.2) m.vault
    { m with vault := { v with journal := { j with valid := 0 } }
             meter := { m.meter with vaultFault := m.meter.vaultFault || bad } }
  else { m with vault := { m.vault with journal := { j with valid := 0 } } }

/-! ### Boundary records (R344-R349) -/

/-- The boundary of a record, absolute au. -/
def Boundary.au (b : Boundary) : Nat := b.cycle.toNat * 65536 + b.angle.toNat

/-- A record's 512 bytes with its CRC (R346). -/
def Boundary.bytes (b : Boundary) : List Byte :=
  let body := padTo 508
    (u32 b.seq.toNat ++ u40 b.cycle.toNat ++ u16 b.angle.toNat ++ u8 b.events.toNat ++ u8 b.oldTariff ++ u8 b.newTariff ++
     u8 (min b.supplies.length 255) ++ rsv 1 ++ padTo 4 (b.supplies.take 4) ++ u8 b.demandFlags.toNat ++
     u8 b.demandTariff ++ rsv 2 ++ u32 b.demandW ++ u32 b.maxW ++ u40 b.maxCycle ++ rsv 3 ++
     (b.moduleE.map u64).flatten ++ (b.sliceE.map u64).flatten ++ (b.gaps.map (fun g => u32 (min g 0xFFFFFFFF))).flatten ++
     u32 b.backup.toNat ++ u16 b.hubEpoch.toNat)
  body ++ u32 (crc32c body).toNat

/-- The tariff of the half-cycle that begins at the last committed boundary. -/
def Meter.tariffAfter (t : Meter) : Nat := match t.ended with | some (_, _, x) => x | none => t.halfTariff

/-- The energy, GAPS and maximum of a record, from the counters as they stand (R345, R346). -/
def Meter.fill (t : Meter) (b : Boundary) : Boundary :=
  { b with
    maxW := t.counter 3272, maxCycle := t.counter 3273
    moduleE := (List.range 8).map (fun i => t.counter (3264 + i))
    sliceE := (List.range 24).map (fun s => t.counter (3072 + 8 * s + b.oldTariff))
    gaps := (List.range 24).map (fun s => t.counter (3330 + s)) }

/-- A record with no event at the boundary `au`. -/
def Meter.blank (t : Meter) (au : Nat) : Boundary :=
  t.fill
    { seq := 0, cycle := BitVec.ofNat 40 (au / 65536), angle := BitVec.ofNat 16 au, events := 0,
      oldTariff := t.tariffAfter, newTariff := t.tariffAfter, supplies := [], demandFlags := 0,
      demandTariff := t.lastTariff, demandW := 0, maxW := 0, maxCycle := 0, moduleE := [], sliceE := [], gaps := [],
      backup := 0, hubEpoch := 0 }

/-- Add to the record of the boundary `au`, which is opened where it is not yet (R344). -/
def Meter.recordAt (t : Meter) (au : Nat) (f : Boundary → Boundary) : Meter :=
  { t with opened :=
      if t.opened.any (fun b => b.au == au) then t.opened.map (fun b => if b.au = au then f b else b)
      else t.opened ++ [f (t.blank au)] }

/-- An event of the boundary `B`, as bits of EVENTS. -/
def Boundary.mark (b : Boundary) (bits : Byte) : Boundary := { b with events := b.events ||| bits }

/-- A supply event, at the last committed boundary (R344, R346). -/
def Module.supplyEvent (m : Module) (cause : Byte) : Module :=
  { m with meter := m.meter.recordAt m.meter.committed (fun b => { b.mark 4 with supplies := b.supplies ++ [cause] }) }

/-- Write a record: a pass, the record, the cycle checkpoint; while the hub runs it is also an event (R347). -/
def Module.writeRecord (m : Module) (b : Boundary) : Module :=
  let m := m.pass
  let b := { b with
    seq := m.vault.recordSeq + 1, backup := m.backupGroats, hubEpoch := m.vault.hubEpoch
    events := if m.meter.vaultFault then b.events ||| 0x40 else b.events }
  let m := { m with
    vault := { m.vault with
      records := (b :: m.vault.records).take 16, recordSeq := b.seq, checkpoint := some m.clk.cycle }
    meter := { m.meter with vaultFault := false } }
  if m.variant.metering then m.event 0x8601 b.bytes else m

/-! ### Demand (R336-R338) -/

/-- Length of the grid in force, in cycles (R336). -/
def Meter.gridLen (t : Meter) : Nat :=
  let c := t.counter 3295
  if c / 2 ^ 32 % 2 = 1 then c % 2 ^ 32 / (c / 2 ^ 36 % 16) else c % 2 ^ 32
/-- SUBS of the configuration in force. -/
def Meter.subs (t : Meter) : Nat := t.counter 3295 / 2 ^ 36 % 16
/-- Is the configuration in force SLIDING? -/
def Meter.sliding (t : Meter) : Bool := t.counter 3295 / 2 ^ 32 % 2 == 1
/-- The first close of the grid after cycle `c` (R336). -/
def Meter.closeAfter (t : Meter) (c : Nat) : Nat :=
  let a := t.counter 3296
  a + ((c - a) / t.gridLen + 1) * t.gridLen

/-- The mean power of the interval that closes, scaled by `unit`, with T_full as in R337. -/
def Meter.meanPower (t : Meter) (unit : Nat) : Nat :=
  t.counter 3275 * unit * t.counter 3277 / (t.counter 3276 * (2 * t.gridLen))

/-- The computation of R337 at the close of cycle `c`, with DEMAND_FLAGS; `none` when no half-cycle was committed. -/
def Meter.computeDemand (t : Meter) (c : Nat) : Option (Meter × Byte) :=
  if t.counter 3277 = 0 then none
  else
    let short := decide (t.counter 3277 < 2 * t.gridLen)
    let n := (c - t.counter 3296) / t.gridLen
    let r : Meter × Nat × Bool :=
      if t.sliding then
        let t := t.setCounter (3280 + n % t.subs) (t.meanPower 100000000)
        let l := (List.range t.subs).map (fun i => t.counter (3280 + i))
        (t, l.sum / (1000 * t.subs), short || l.any (· == 0))
      else (t, t.meanPower 100000, short)
    let max := decide (r.1.counter 3272 < r.2.1)
    let t := r.1.setCounters ([(3274, r.2.1), (3275, 0), (3276, 0), (3277, 0)] ++ if max then [(3272, r.2.1), (3273, c)] else [])
    some ({ t with rem := Tbl.erase t.rem 3275 }, BitVec.ofNat 8 (bit r.2.2 + 2 * bit max + 4 * bit t.sliding))

/-- A waiting DEMAND_SET takes effect at the close of cycle `c` (R336). -/
def Meter.takeConfig (t : Meter) (c : Nat) : Meter :=
  if 2 ^ 63 ≤ t.counter 3297 then
    t.setCounters ([(3295, t.counter 3297 - 2 ^ 63), (3297, 0), (3296, c)] ++ (List.range 15).map (fun i => (3280 + i, 0)))
  else t

/-- The close that falls due by cycle `now` is carried out: the counters after it, its cycle and its result (R336-R338). -/
def Meter.closeInterval (t : Meter) (now : Nat) : Option (Meter × Nat × Option Byte) :=
  let c := t.closeAfter t.lastClose
  if t.gridLen ≠ 0 ∧ c ≤ now then
    let r := match t.computeDemand c with | some (t, fl) => (t, some fl) | none => (t, none)
    let t := r.1.takeConfig c
    let last := if t.closeAfter c ≤ now then t.closeAfter now - t.gridLen else c
    some ({ t with lastClose := last }, c, r.2)
  else none

/-- What a close writes into its record (R345, R346). -/
def Boundary.demand (b : Boundary) (t : Meter) (tariff : Nat) (fl : Byte) : Boundary :=
  { b.mark 1 with
    demandFlags := fl, demandTariff := tariff, demandW := t.counter 3274, maxW := t.counter 3272,
    maxCycle := t.counter 3273 }

/-- The close at the last committed boundary, when one is due there (R337, R344, R345). -/
def Module.demandClose (m : Module) : Module :=
  if m.variant.metering then
    match m.meter.closeInterval (m.meter.committed / 65536) with
    | none => m
    | some (t, _, none) => { m with meter := t }
    | some (t, _, some fl) =>
      { m with meter := t.recordAt t.committed (fun b => b.demand t t.lastTariff fl) }
  else m

/-! ### Tariffs (R334) -/

/-- The pending tariff changes: slot, cycle, tariff (R335). -/
def Meter.pendingTariffs (t : Meter) : List (Nat × Nat × Nat) :=
  ((List.range 32).map (fun i => (3298 + i, t.counter (3298 + i)))).filterMap
    (fun e => if 2 ^ 63 ≤ e.2 then some (e.1, e.2 % 2 ^ 40, e.2 / 2 ^ 40 % 8) else none)
/-- A pending change as its counter holds it. -/
def pendingWord (cycle tariff : Nat) : Nat := 2 ^ 63 + tariff * 2 ^ 40 + cycle

/-- The last in cycle order of a list of changes. -/
def lastChange : List (Nat × Nat × Nat) → Option (Nat × Nat × Nat)
  | [] => none
  | e :: es => match lastChange es with
    | none => some e
    | some f => if e.2.1 < f.2.1 then some f else some e

/-- Every change whose cycle has come is applied, the last in cycle order deciding CUR_TARIFF; answers the new counters
with the deciding change's cycle and tariff (R334). -/
def Meter.applyTariffs (t : Meter) (now : Nat) : Option (Meter × Nat × Nat) :=
  let due := t.pendingTariffs.filter (fun e => decide (e.2.1 ≤ now))
  match lastChange due with
  | none => none
  | some (_, c, x) => some (t.setCounters (due.map (fun e => (e.1, 0)) ++ [(3278, x)]), c, x)

/-- A pending change takes effect at C:0 of its cycle: half-cycles that begin from then on are counted under it (R334,
R344). -/
def Module.tariffChange (m : Module) : Module :=
  if m.variant.metering then
    let old := m.meter.tariff
    match m.meter.applyTariffs m.clk.cycle.toNat with
    | none => m
    | some (t, c, x) =>
      let au := max (65536 * c) t.committed
      let t := t.recordAt au (fun b => { b.mark 2 with oldTariff := old, newTariff := x })
      { m with meter := { t with halfTariff := match t.halfStart with
          | some h => if 65536 * c ≤ h then x else t.halfTariff
          | none => x } }
  else m

/-- A change whose boundary has not been committed stays pending (R344, R348): it is taken back. -/
def Meter.takeBack (t : Meter) (b : Boundary) : Meter :=
  match ((List.range 32).map (fun i => 3298 + i)).find? (fun k => decide (t.counter k < 2 ^ 63)) with
  | some k => t.setCounters [(3278, b.oldTariff), (k, pendingWord b.cycle.toNat b.newTariff)]
  | none => t.setCounter 3278 b.oldTariff

/-! ### Half-cycles (R329-R331, R344) -/

/-- Module angle at which a slice's bus angle is 0 (R205). -/
def Module.binBase (m : Module) (n : Nat) : Nat :=
  let p := (m.slice n).bus.phase
  if p.kind = .ac then p.pos.toNat else 0
/-- Module angle of the trigger at bus angle `a` of a slice's cycle (R205, R242). -/
def Module.trigger (m : Module) (slice a : Nat) : Nat := (m.binBase slice + a) % 65536
/-- The half-cycle, 0 or 1, in which each of a bin's two samples falls (R205, R330). -/
def Module.halfOf (m : Module) (slice bin i : Nat) : Nat := m.trigger slice (512 * bin + 128 + 256 * i) / 32768

/-- Every half-cycle that a hub reset or standby left uncounted up to `b` adds 64 to each slice's GAPS (R330). -/
def Module.gapSince (m : Module) (b : Nat) : Module :=
  match m.meter.gapFrom with
  | none => m
  | some g =>
    let n := 64 * ((b - g) / 32768)
    let t := (List.range m.variant.slices).foldl (fun t s => t.setCounter (3330 + s) (t.counter (3330 + s) + n)) m.meter
    { m with meter := { t with gapFrom := none } }

/-- Nothing is gathered for a half-cycle of this parity. -/
def Module.clearHalf (m : Module) (half : Nat) : Module :=
  { m with meter := { m.meter with
    acc := m.meter.acc.filter (fun e => e.1 % 2 != half)
    seen := m.meter.seen.filter (fun e => m.halfOf (e.1 / 128) (e.1 % 128) 0 != half) } }

/-- A half-cycle of the module angle ends and the next begins; counting starts with the first that begins while metering
runs (R330, R343). -/
def Module.meterBoundary (m : Module) : Module :=
  let b := m.au / 32768 * 32768
  match m.meter.halfStart with
  | none =>
    let m := (m.gapSince b).clearHalf (b / 32768 % 2)
    { m with meter := { m.meter with halfStart := some b, halfTick := m.now, halfTariff := m.meter.tariff } }
  | some h =>
    if h < b then
      let m := m.clearHalf (b / 32768 % 2)
      { m with meter := { m.meter with
        ended := some (b, m.now - m.meter.halfTick, m.meter.halfTariff)
        halfStart := some b, halfTick := m.now, halfTariff := m.meter.tariff } }
    else m

/-- Where the half-cycle of this parity that is being gathered began. -/
def Meter.startOf (t : Meter) (half : Nat) : Nat :=
  match t.halfStart with
  | some h => if h / 32768 % 2 = half then h else h - 32768
  | none => 0

/-- Power in nW at position `p`'s conversion of a burst, of a current in µA and a voltage in mV between the two VBUS_A conversions
around it (R242, R329). -/
def Module.powerAt (m : Module) (v right i : Int) (p : Nat) : Int :=
  (v + (right - v) * ((p : Int) + 1) * 50000 / (m.clk.period.toNat : Int)) * i
/-- The second burst of a bin delivered is weighted with its voltage, now that the VBUS_A conversion after it is known, and gathered
for its half-cycle (R242, R329, R330). -/
def Module.gatherSecond (m : Module) (n : Nat) (right : Int) : Module :=
  match (m.slice n).carry with
  | some (bin, v, cur) =>
    let m := m.setSlice n (fun h => { h with carry := none })
    (List.range 16).foldl (fun m p =>
      let ch := 16 * n + p
      let y := m.powerAt v right (cur.getD p 0) p
      { m with meter := { m.meter with
        acc := Tbl.modify 0 m.meter.acc (2 * ch + m.halfOf n bin 1) (· + y)
        prev := Tbl.modify none m.meter.prev (128 * ch + bin) (fun e => e.map (fun x => (x.1, y, x.2.2))) } }) m
  | none => m
/-- The same where a half-cycle is committed before that conversion has been delivered: the spec states no voltage, a free value
(log 8). -/
def Module.gatherLate (m : Module) (half n : Nat) : Module :=
  match (m.slice n).carry with
  | some (bin, _) =>
    if m.halfOf n bin 1 = half then { m with free := m.free + 1 }.gatherSecond n (Config.freeInt m.free) else m
  | none => m

/-- A missing bin: each channel's samples of the same bin one cycle earlier, where it showed the same pattern then
(R330). -/
def Module.substitute (m : Module) (slice bin : Nat) : Module :=
  let start := m.meter.startOf (m.halfOf slice bin 0)
  m.each (sliceChans slice) (fun ch m =>
    match Tbl.get none m.meter.prev (128 * ch + bin) with
    | some (x, y, p, from_) =>
      if p = (m.shown ch).1.pattern ∧ from_ + 65536 = start then
        let acc := Tbl.modify 0 m.meter.acc (2 * ch + m.halfOf slice bin 0) (· + x)
        { m with meter := { m.meter with acc := Tbl.modify 0 acc (2 * ch + m.halfOf slice bin 1) (· + y) } }
      else m
    | none => m)

/-- Missing bins of a slice in the half-cycle of this parity are substituted and counted in GAPS (R330). -/
def Module.fillGaps (m : Module) (half slice : Nat) : Module :=
  let missing := (List.range 128).filter (fun b =>
    m.halfOf slice b 0 == half && !(Tbl.get false m.meter.seen (128 * slice + b)))
  let m := missing.foldl (fun m b => m.substitute slice b) m
  { m with meter := m.meter.setCounter (3330 + slice) (m.meter.counter (3330 + slice) + missing.length) }

/-- Add µJ to an energy counter, which carries its remainder below `unit` µJ (R331). -/
def Meter.add (t : Meter) (k e unit : Nat) : Meter :=
  let r := Tbl.get 0 t.rem k + e
  let t := { t with rem := Tbl.set 0 t.rem k (r % unit) }
  if r / unit = 0 then t else t.setCounter k (t.counter k + r / unit)

/-- A channel's net energy of a half-cycle in µJ, clamped at zero (R329, R331): `sum` in nW, weighted by ticks / 128. -/
def halfEnergy (sum : Int) (ticks : Nat) : Nat := (sum * (ticks : Int) / 12800000000000).toNat

/-- The energy of the half-cycle goes to channel, slice and module counters and to the interval in progress (R331,
R335, R337). -/
def Module.addEnergy (m : Module) (half ticks tariff : Nat) : Module :=
  let t := (List.range m.variant.channels).foldl (fun t ch =>
    let e := halfEnergy (Tbl.get 0 t.acc (2 * ch + half)) ticks
    if e = 0 then t
    else (((t.add (8 * ch + tariff) e 3600000).add (3072 + 8 * (ch / 16) + tariff) e 3600000).add (3264 + tariff) e
      3600000).add 3275 e 1000) m.meter
  { m with meter := t.setCounters [(3276, t.counter 3276 + ticks), (3277, t.counter 3277 + 1)] }

/-- The record of the first boundary counted after a start carries what the start settled (R349). -/
def Meter.mergeStart (t : Meter) : Meter :=
  match t.startRec with
  | none => t
  | some r =>
    { t.recordAt t.committed (fun b =>
        { b.mark (r.events ||| 0x10) with
          oldTariff := if r.events.getLsbD 1 then r.oldTariff else b.oldTariff
          demandFlags := r.demandFlags, demandW := r.demandW
          demandTariff := if r.events.getLsbD 0 then r.demandTariff else b.demandTariff }) with startRec := none }

/-- The energy of a half-cycle and its gaps are counted (R330). -/
def Module.countHalf (m : Module) (half ticks tariff : Nat) : Module :=
  if m.variant.metering then
    ((List.range m.variant.slices).foldl (fun m s => (m.gatherLate half s).fillGaps half s) m).addEnergy half ticks tariff
  else m

/-- Write every open record of a boundary below `au`; a UM-96S drops them (R333, R344). -/
def Module.writeBelow (m : Module) (au : Nat) : Module :=
  let old := m.meter.opened.filter (fun (r : Boundary) => decide (r.au < au))
  let m := { m with meter := { m.meter with
    opened := m.meter.opened.filter (fun (r : Boundary) => !decide (r.au < au)) } }
  if m.variant.metering then old.foldl (fun m r => m.writeRecord r) m else m

/-- The half-cycle that ended 256 au ago at `b` is committed: older records are written, its energy is counted and its
boundary becomes the last one committed (R330, R344, R345). -/
def Module.commitHalf (m : Module) (b ticks tariff : Nat) : Module :=
  let half := (b / 32768 + 1) % 2
  let m := (m.demandClose.writeBelow b).countHalf half ticks tariff
  let t := { m.meter with committed := b, lastTariff := tariff, ended := none }
  let t := { t with opened := t.opened.map (fun (r : Boundary) => if r.au = b then { t.fill r with demandTariff := tariff } else r) }
  { m with meter := t.mergeStart }.clearHalf half

/-- A half-cycle that has ended and waits for its commit is committed. -/
def Module.commitEnded (m : Module) : Module :=
  match m.meter.ended with | some (b, ticks, tariff) => m.commitHalf b ticks tariff | none => m

/-- What the half-cycle in progress has measured so far is counted. -/
def Module.countCut (m : Module) : Module :=
  match m.meter.halfStart with
  | some h => (m.countHalf (h / 32768 % 2) (m.now - m.meter.halfTick) m.meter.halfTariff).clearHalf (h / 32768 % 2)
  | none => m

/-- The metering from the boundary of a rebase to cycle `new` at tick `now` on: due tariff changes apply, the demand interval
closes PARTIAL, and the record of the boundary is opened (R90). -/
def Meter.rebased (t : Meter) (new now : Nat) : Meter :=
  let old := t.halfTariff
  let t := { t with committed := 65536 * new, lastTariff := old, ended := none }
  let d : Meter × Option Byte := match t.computeDemand new with | some (t, fl) => (t, some (fl ||| 1)) | none => (t, none)
  let t := { d.1 with lastClose := new }
  let x := match t.applyTariffs new with | some (t, _, x) => (t, x) | none => (t, old)
  let t := x.1.recordAt (65536 * new) (fun b =>
    let b := (b.mark 0x80)
    let b := match d.2 with | some fl => b.demand x.1 old fl | none => b
    if x.2 = old then b else { b.mark 2 with oldTariff := old, newTariff := x.2 })
  { t with
    halfStart := if t.halfStart.isSome then some (65536 * new) else none, halfTick := now, halfTariff := x.2 }

/-- Steps 3 and 4 of a rebase to cycle `new` (R90): half-cycles measured so far are committed, due tariff changes apply,
the demand interval closes PARTIAL, and the record of the rebase boundary is opened. -/
def Module.meterRebase (m : Module) (new : Nat) : Module :=
  let m := { m with vault := { m.vault with checkpoint := some (BitVec.ofNat 40 new) } }
  if m.variant.metering then
    let m := (m.commitEnded.demandClose.writeBelow (2 ^ 60)).countCut
    { m with meter := m.meter.rebased new m.now }
  else { m with meter := { m.meter with committed := 65536 * new, ended := none, opened := [] } }

/-! ### Stops and starts (R343, R348, R349) -/

/-- Metering stops at a hub reset, at standby or at HOLDUP: a change not yet at a committed boundary is pending again,
`f` adds the stop's own event, and every open record is written (R344, R348, R349). -/
def Module.closeRecords (m : Module) (f : Module → Module) : Module :=
  let m := m.demandClose
  let later := m.meter.opened.filter (fun b => decide (m.meter.committed < b.au))
  let t := later.foldl (fun t b => if b.events.getLsbD 1 then t.takeBack b else t) m.meter
  let m := f { m with meter := { t with opened := t.opened.filter (fun b => !decide (t.committed < b.au)) } }
  let rs := m.meter.opened
  let m := { m with meter := { m.meter with
    opened := [], halfStart := none, ended := none, acc := [], seen := [], prev := []
    gapFrom := if m.meter.gapFrom.isNone && m.meter.halfStart.isSome then some m.meter.committed else m.meter.gapFrom } }
  if m.variant.metering || m.stage == .holdup then rs.foldl (fun m r => m.writeRecord r) m else m

/-- The counters as the tally cells hold them (R339). -/
def Vault.allCounters (v : Vault) : Tbl (BitVec 64) :=
  ((v.cells.map (fun e => e.1 / 4)).dedup).foldl (fun t k => Tbl.set 0 t k (v.counter k)) []

/-- Changes and a close that fell due while nothing was committed are settled, for the record of the first boundary
counted (R334, R338, R345, R349). -/
def Module.settleStart (m : Module) : Module :=
  let now := m.clk.cycle.toNat
  let t := m.meter
  let r0 : Boundary := { t.blank t.committed with oldTariff := t.tariff, newTariff := t.tariff }
  let d : Meter × Boundary := match t.closeInterval now with
    | some (t, _, some fl) => (t, r0.demand t t.tariff fl)
    | some (t, _, none) => (t, r0)
    | none => (t, r0)
  let x : Meter × Boundary := match d.1.applyTariffs now with
    | some (t, _, x) => (t, { d.2.mark 2 with newTariff := x })
    | none => d
  { m with meter := { x.1 with startRec := if x.2.events = 0 then none else some x.2 } }

/-- Keeper resumes metering at a start (R342, R343): from DDR after a warm start when its block is later than TALLY_B,
else from the tally cells. -/
def Module.meterStart (m : Module) (powerOn : Bool) : Module :=
  let m := m.redoJournal
  if m.variant.metering then
    let tally := (m.vault.counter 3279).toNat
    let keep := !powerOn && m.meter.ddrGood && decide (tally < m.meter.committed)
    let t := if keep then m.meter
      else { m.meter with counters := m.vault.allCounters, rem := [], changed := [], committed := tally }
    { m with meter := { t with
        ddrGood := true, lastClose := t.committed / 65536 } }.settleStart
  else { m with meter := { m.meter with gapFrom := none } }

end Sys2Proof.Machine
end

