-- ==== Sys2Proof/Machine/Reset.lean ====
section
/-! DEFINITION. The hub reset and the power-on reset: what each keeps and loses (sections 1 and 5 of spec/02). -/

namespace Sys2Proof.Machine
open Sys2Proof

/-! ### Hub reset (R54, R63-R66) -/

/-- The dump-area pages keep their module owner only where a dump is held (R64). -/
def Window.afterWarm (w : Window) (dump : Bool) : Tbl (BitVec 2) :=
  w.passbook.filter (fun e => e.2 == 1 || (dump && e.2 == 2 && decide (dumpFirst ≤ e.1)))

/-- The window after a hub reset (R64): contents kept through a warm one, zeroed by COLD; tills and attachment end. -/
def Window.afterReset (w : Window) (cold dump : Bool) : Window :=
  { Window.powerOn with
    mem := if cold then [] else w.mem
    passbook := if cold then [] else w.afterWarm dump
    eccWords := if cold then [] else w.eccWords }

/-- The update session after a hub reset (R378): a member that was PREPARED, or had yet to commit, returns to ASSEMBLED with
cause PEER_RESTARTED; the opener settles its own restart at ring ready (R379); no FINAL event survives (R66). -/
def Session.afterReset (s : Session) (cause : ResetCause) : Session :=
  let s := { s with finals := [], restarted := true }
  let before := s.phase == .prepared || (s.phase == .committed && s.commitAt.isSome)
  match cause with
  | .trial | .unwind => s
  | _ => if before && !s.opener then { s with phase := .assembled, cause := 0x0B, commitAt := none } else s

/-- The entropy unit after a hub reset (R396, R398): LATCHED and RESTARTS end only with a host reset. -/
def Entropy.afterReset (e : Entropy) (cause : ResetCause) : Entropy :=
  let host := cause == .hostWarm || cause == .hostCold
  { e with
    state := if e.state == 3 && !host then 3 else 0
    restarts := if host then 0 else e.restarts
    drbg := false, generated := 0, pool := 0, restartAt := none, testing := false, failing := none, waiting := [] }

/-- A channel through a hub reset: the module fallback shows its pattern, and what the slice holds of its switch stays: its
state, a thermal cut, and whether its next turn-on is one from off (R57, R64, R208, R247). -/
def Chan.afterReset (c : Chan) (pattern : Pattern) : Chan :=
  { Chan.reset with
    closed := c.closed, lit := c.lit, cut := c.cut, fresh := c.fresh, fb := 3
    fbPat := if c.fb = 0 then pattern else c.fbPat }
/-- Every channel through a hub reset. -/
def Module.chansAfterReset (m : Module) : Tbl Chan :=
  (List.range m.variant.channels).map (fun ch => (ch, (m.chan ch).afterReset (Tbl.get .off m.live.fallback ch)))

/-- A slice at the hub through a hub reset: to be loaded again under its next epoch, its model and record afresh. -/
def HubSlice.afterReset (h : HubSlice) : HubSlice :=
  { HubSlice.reset with epoch := h.epoch, stored := h.stored, lastFrame := h.lastFrame, seq := h.seq }

/-- The hub performs a reset other than power-on: what R64 keeps is kept, everything else is lost, the cause is latched
(R65) and start-up begins at the boot ROM; the module fallback holds until first lamp control (R64). -/
def Module.hubReset (m : Module) (cause : ResetCause) : Module :=
  let m := m.closeRecords id
  let cold := cause == .hostCold
  let dump := m.diag.dump.isSome && !cold
  { m with
    stage := .boot
    shelf := false
    inUse := false
    firstCause := if m.firstCause = 0 then cause.code else m.firstCause
    latestCause := cause.code
    unread := if m.unread < 255 then m.unread + 1 else 255
    resetDue := none
    win := m.win.afterReset cold dump
    tel := Teller.reset
    lamps := { Lamps.reset m.items.fa m.items.fb m.lamps.half with
      chans := m.chansAfterReset }
    prov := { Proving.reset with coreFb := true, lastToggle := if m.prov.toggling then m.now else m.prov.lastToggle }
    hub := Tbl.mapVals HubSlice.reset m.hub HubSlice.afterReset
    ring := Ring.reset
    pow := { m.pow with deferred := 0, countDone := false, standbyDue := false }
    meter := if cold then { Meter.reset with counters := [], gapFrom := m.meter.gapFrom }
      else { m.meter with halfTick := 0, ddrGood := true }
    upd := { m.upd with session := m.upd.session.afterReset cause }
    ent := m.ent.afterReset cause
    maint := Uart.maintReset
    drop := Uart.dropReset m.drop.address
    diag := { m.diag with bist := none, unit := none, writing := none, dump := if dump then m.diag.dump else none }
    staging := none }

/-- The power-on reset (R47, R52, R64, R65): only the vault, the banks and the fuses are kept. -/
def Module.powerOnReset (m : Module) : Module :=
  let base := (match m.vault.checkpoint with | some c => c | none => 0) + 65536
  { Module.reset with
    variant := m.variant
    stage := .unpowered
    clk := Clock.powerOn base
    lamps := Lamps.reset m.items.fa m.items.fb (2 * base.toNat)
    pow := { Power.reset with account := (match m.vault.backupPoint with | some b => b | none => 0) }
    upd := { m.upd with session := m.upd.session.afterReset .powerOn }
    diag := { m.diag with bist := none, unit := none, writing := none, dump := none }
    vault := m.vault
    live := m.items
    free := m.free
    out := m.out }

end Sys2Proof.Machine
end

