-- ==== Sys2Proof/Machine/Receive.lean ====
section
/-! DEFINITION. The serial receivers: from a decided character to a packet in the queue (spec/15, sections 3, 4, 7 and 8;
R147, R148). -/

namespace Sys2Proof.Machine
open Sys2Proof

/-! ### Packets that arrive (R39, R96, R132, R133) -/

/-- A command packet's bytes as opcode and packet (R132); `path` is the way it came. -/
def readPacket (path : Path) (bs : List Byte) : Word16 × Packet :=
  (BitVec.ofNat 16 (fieldAt bs 0 2),
   { path := path, flags := BitVec.ofNat 16 (fieldAt bs 2 2), tag := BitVec.ofNat 32 (fieldAt bs 4 4),
     target := BitVec.ofNat 8 (fieldAt bs 8 1), till := BitVec.ofNat 16 (fieldAt bs 10 2),
     execAngle := BitVec.ofNat 16 (fieldAt bs 16 2), execCycle := BitVec.ofNat 32 (fieldAt bs 18 4),
     params := bs.drop 32 })

/-- The bytes of a frame are a well-formed packet: 32 + LENGTH of them, and the CRC verifies (R133). -/
def wellFormedBytes (bs : List Byte) : Bool :=
  bs.length == 32 + fieldAt bs 12 4 && (crc32c (bs.take 24 ++ rsv 4 ++ bs.drop 28)).toNat == fieldAt bs 24 4

/-- A packet completes its arrival at a stamp; `good` where it is well formed and free of poison (R39, R96, R106, R133). -/
def Module.arrive (m : Module) (a : Word16 × Packet) (stamp : Nat) (good : Bool) : Module :=
  { m with tel := { m.tel with queue := m.tel.queue ++ [⟨a.1, a.2, stamp, good, m.origin a.2⟩] } }

/-- The path of a port. -/
def portPath : Port → Path
  | .maint => .maint
  | .drop => .drop

/-! ### Frames (R147, R148, R419, R420) -/

/-- The receive timeout in ticks: 64 bit times, each 25/12 × OVERSAMPLE × DIVIDER ticks, rounded up, and at least 20 ms
(R420). -/
def Uart.timeout (u : Uart) : Nat := max 2000000 ((400 * u.oversample * u.divider + 2) / 3)
/-- No frame is in progress and nobody is selected (R420, R429). -/
def Uart.between (u : Uart) : Uart :=
  { u with frame := none, escaped := false, badEscape := false, deadline := none, selected := false }
/-- A frame in progress is discarded and counted, as at a receive timeout (R148, R420, R422). -/
def Uart.interrupt (u : Uart) : Uart :=
  if u.frame.isSome then { u.between with discarded := satInc u.discarded } else u
/-- The receive timeout has passed by `now` (R98, R420). -/
def Uart.expire (u : Uart) (now : Nat) : Uart :=
  match u.deadline with
  | some d => if d < now then u.interrupt else u
  | none => u

/-- One more byte; a frame is cut one byte above the size of a buffer, where it is too long anyhow (R148). -/
def Uart.append (u : Uart) (b : Byte) : Uart :=
  let f := u.frame.getD []
  { u with frame := some (if f.length < 65537 then f ++ [b] else f) }
/-- A character other than END goes into its frame, unstuffed (R147, R420). -/
def Uart.unstuff (u : Uart) (b : Byte) (stamp : Nat) : Uart :=
  let u := { u with deadline := some (stamp + u.timeout), frame := some (u.frame.getD []) }
  if u.escaped then
    let u := { u with escaped := false }
    if b = 0xDC then u.append 0xC0 else if b = 0xDD then u.append 0xDB else { u with badEscape := true }
  else if b = 0xDB then { u with escaped := true }
  else u.append b

/-- A frame's closing END: an empty frame is ignored and ends no selection; one that R148 names is discarded and counted;
any other is a packet that has arrived, counted where it is not well formed (R147, R148, R419-R421, R429). -/
def Module.closeFrame (m : Module) (port : Port) (stamp : Nat) : Module :=
  let u := m.port port
  let bs := u.frame.getD []
  if bs.isEmpty && !u.escaped && !u.badEscape then
    m.setPort port (fun u => if u.selected then { u with deadline := some (stamp + u.timeout) } else u.between)
  else if u.escaped || u.badEscape || decide (bs.length < 32) || decide (65536 < bs.length) then
    m.setPort port (fun u => { u.between with discarded := satInc u.discarded })
  else
    (m.setPort port (fun u =>
      { u.between with
        full := u.full + 1, crcBad := if wellFormedBytes bs then u.crcBad else satInc u.crcBad })).arrive
      (readPacket (portPath port) bs) stamp (wellFormedBytes bs)

/-- A character leaves the holding register for the frame buffer (R147, R419). -/
def Module.passChar (m : Module) (port : Port) (c : BitVec 9) (stamp : Nat) : Module :=
  let b := c.setWidth 8
  if b = 0xC0 then m.closeFrame port stamp else m.setPort port (fun u => u.unstuff b stamp)

/-- A character passes into the holding register, and on while a buffer is free; a full register drops it (R419). -/
def Module.hold (m : Module) (port : Port) (c : BitVec 9) : Module :=
  let u := m.port port
  if u.holding.isSome then m.setPort port (fun u => { u with ovr := satInc u.ovr })
  else if 2 ≤ u.full then m.setPort port (fun u => { u with holding := some (c, m.now) })
  else m.passChar port c m.now

/-- The Teller pair takes a port's frame: its buffer is free, and a held character passes on (R419). -/
def Module.freeBuffer (m : Module) (port : Port) : Module :=
  let m := m.setPort port (fun u => { u with full := u.full - 1 })
  let u := m.port port
  match u.holding with
  | some h => if u.full < 2 then (m.setPort port (fun u => { u with holding := none })).passChar port h.1 h.2 else m
  | none => m

/-! ### Characters (R417, R421, R423, R428, R429, R432) -/

/-- An address matches (R429). -/
def Uart.matches (u : Uart) (c : BitVec 9) : Bool := c.getLsbD 8 && ((c.setWidth 8 ^^^ u.address) &&& u.mask) == 0
/-- The transmitter holds the line: a reply or a break is to be sent, and the port is not looped (R423, R425, R428). -/
def Uart.driving (u : Uart) : Bool := !u.loopback && (!u.txq.isEmpty || u.brk.isSome)
/-- DROP has not yet resumed after a wake (R432). -/
def Module.dropAsleep (m : Module) : Bool := match m.drop.resumeAt with | some t => decide (m.now < t) | none => false
/-- The port's running receiver is served (R49, R50). -/
def Module.portRuns (m : Module) : Port → Bool
  | .maint => m.coresUp || m.stage == .bootRom
  | .drop => m.coresUp
/-- The receiver hears the line: not while DROP drives the bus itself, nor before it has resumed (R423, R432). -/
def Module.hears (m : Module) : Port → Bool
  | .maint => m.portRuns .maint
  | .drop => m.portRuns .drop && !m.drop.driving && !m.dropAsleep

/-- The bits of a character on a port (R413). -/
def charBits (port : Port) (c : BitVec 9) : BitVec 9 := match port with | .maint => c &&& 0xFF | .drop => c
/-- NOISE and FRAMING of a character; `space` where every bit decided 0, which is a break (R417, R421). -/
def Uart.judge (u : Uart) (stopOne noisy space : Bool) : Uart :=
  { u with
    noise := if noisy then satInc u.noise else u.noise
    framing := if stopOne || space then u.framing else satInc u.framing }

/-- An address character on DROP: it ends a frame in progress, then selects or deselects (R429). -/
def Uart.address9 (u : Uart) (c : BitVec 9) (clean : Bool) (stamp : Nat) : Uart :=
  let u := { u.interrupt with selected := false }
  if clean && u.matches c then { u with selected := true, frame := some [], deadline := some (stamp + u.timeout) } else u

/-- A character decided on a running port (R417-R421, R428, R429). -/
def Module.receive (m : Module) (port : Port) (c : BitVec 9) (startOne stopOne noisy : Bool) : Module :=
  let m := m.setPort port (fun u => u.expire m.now)
  let u := m.port port
  let c := charBits port c
  let address := port == .drop && c.getLsbD 8
  let looped := u.loopback || u.echo
  if startOne then m.setPort port (fun u => { u with noise := satInc u.noise })
  else if port == .drop && !address && !u.selected && !looped then m
  else
    let space := !stopOne && c == 0
    let m := m.setPort port (fun u => u.judge stopOne noisy space)
    if space then m
    else if u.echo then m.put (.echoChar port c)
    else if u.loopback then m
    else if address && !u.holding.isSome then m.setPort port (fun u => u.address9 c (stopOne && !noisy) m.now)
    else m.hold port c

end Sys2Proof.Machine
end

