-- ==== Sys2Proof/Machine/Operands.lean ====
section
/-! DEFINITION. The operand forms of the opcodes: status codes, fields of a parameter block with their checks, channel
entries, execute-at, and the one pipeline in which every packet is judged (R139). -/

namespace Sys2Proof
open Sys2Proof.Machine

/-- The field of `n` bytes at offset `o` of the parameter block. -/
def Packet.field (p : Packet) (o n : Nat) : Nat := fieldAt p.params o n
/-- The channels that FIRST and COUNT name. -/
def Packet.range (p : Packet) : List Nat := (List.range (p.field 2 2)).map (fun i => p.field 0 2 + i)
/-- TIMED in FLAGS. -/
def Packet.timed (p : Packet) : Bool := p.flags.getLsbD 0
/-- LATE_OK in FLAGS. -/
def Packet.lateOk (p : Packet) : Bool := p.flags.getLsbD 1
/-- RETRY in FLAGS. -/
def Packet.retry (p : Packet) : Bool := p.flags.getLsbD 2

end Sys2Proof

namespace Sys2Proof.Machine
open Sys2Proof

/-! ### Status codes (R157) -/

/-- OK. -/
def stOk : Word16 := 0x0000
/-- ACCEPTED. -/
def stAccepted : Word16 := 0x0001
/-- BUSY. -/
def stBusy : Word16 := 0x1000
/-- LEDGER_DEFERRED. -/
def stDeferred : Word16 := 0x1001
/-- BAD_OPCODE. -/
def stBadOpcode : Word16 := 0x2000
/-- BAD_PARAM. -/
def stBadParam : Word16 := 0x2001
/-- NOT_OWNER. -/
def stNotOwner : Word16 := 0x2002
/-- CRC_BAD. -/
def stCrcBad : Word16 := 0x2003
/-- LATE. -/
def stLate : Word16 := 0x2004
/-- UNIT_ABSENT. -/
def stUnitAbsent : Word16 := 0x3000
/-- BLOCK_BAD. -/
def stBlockBad : Word16 := 0x4000
/-- SIGNATURE_BAD. -/
def stSignatureBad : Word16 := 0x4001
/-- VERSION_REFUSED. -/
def stVersionRefused : Word16 := 0x4002
/-- DOMAIN_ABORT. -/
def stDomainAbort : Word16 := 0x4003
/-- ENTROPY_FAULT. -/
def stEntropyFault : Word16 := 0x5000
/-- TIMEOUT. -/
def stTimeout : Word16 := 0x6000
/-- PEER_RESTARTED. -/
def stPeerRestarted : Word16 := 0x6001
/-- SLICE_RESTARTED. -/
def stSliceRestarted : Word16 := 0x6002

/-! ### Checks of a parameter block (R152, R153) -/

/-- A refusal, with its DETAIL; `none` where the check passes. -/
abbrev Deny := Option (Word16 × Word16)

/-- BAD_PARAM naming the byte at offset `d` of the packet (R141). -/
def badAt (d : Nat) : Deny := some (stBadParam, BitVec.ofNat 16 d)
/-- The field at parameter offset `o` must satisfy `c` (R152). -/
def need (c : Bool) (o : Nat) : Deny := if c then none else badAt (o + 0x20)
/-- LENGTH must be `n` (R153). -/
def lengthIs (p : Packet) (n : Nat) : Deny := if p.params.length = n then none else badAt 0x0C
/-- LENGTH must reach `n`, so that a count field can be read (R153). -/
def lengthAtLeast (p : Packet) (n : Nat) : Deny := if n ≤ p.params.length then none else badAt 0x0C
/-- BUSY unless `c` holds (step 10 of R139). -/
def busyUnless (c : Bool) : Deny := if c then none else some (stBusy, 0)
/-- The first refusal of a list of checks. -/
def firstOf : List Deny → Deny
  | [] => none
  | some d :: _ => some d
  | none :: ds => firstOf ds

/-- FIRST at 0 and COUNT at 2 name channels below the variant's count, COUNT in 1 to `max` (R159). -/
def Module.rangeCheck (m : Module) (p : Packet) (max : Nat) : Deny :=
  let first := p.field 0 2
  let count := p.field 2 2
  firstOf [need (decide (first < m.variant.channels)) 0,
    need (decide (1 ≤ count) && decide (count ≤ max)) 2,
    need (decide (first + count ≤ m.variant.channels)) 2]

/-- The four fields of the channel entry at offset `o` (R159). -/
structure Entry where
  channel : Nat
  pattern : Nat
  mode    : Nat
  dim     : Nat
  deriving DecidableEq, Repr

/-- The `n` channel entries from offset `o` on. -/
def entriesOf (p : Packet) (o n : Nat) : List Entry :=
  (List.range n).map (fun i =>
    ⟨p.field (o + 8 * i) 2, p.field (o + 8 * i + 2) 1, p.field (o + 8 * i + 3) 1, p.field (o + 8 * i + 4) 2⟩)

/-- One channel entry at offset `o`, after the channels `seen` (R159, R167). -/
def entryCheck (channels : Nat) (seen : List Nat) (o : Nat) (e : Entry) : Deny :=
  firstOf [need (decide (e.channel < channels) && !seen.contains e.channel) o,
    need (decide (e.pattern ≤ 4)) (o + 2),
    need (decide (e.mode ≤ 2) && !(e.pattern == 4 && e.mode == 2)) (o + 3),
    need (if e.pattern = 4 then decide (1024 ≤ e.dim) && decide (e.dim ≤ 31744) else e.dim == 0) (o + 4)]

/-- Every channel entry, in the order of the offsets (R153). -/
def entriesCheck (channels : Nat) : List Nat → Nat → List Entry → Deny
  | _, _, [] => none
  | seen, o, e :: es =>
    match entryCheck channels seen o e with
    | some d => some d
    | none => entriesCheck channels (e.channel :: seen) (o + 8) es

/-- What a channel entry makes its channel show. -/
def Entry.shown (e : Entry) : Shown :=
  ⟨(Pattern.ofCode e.pattern).getD .off, (Mode.ofCode e.mode).getD .zeroCross, BitVec.ofNat 16 e.dim⟩

/-- Channel entries as the content of a command. -/
def actsOf (l : List Entry) : List (Nat × Shown) := l.map (fun e => (e.channel, e.shown))

/-! ### Execute-at (R134, R136, R137) -/

/-- The value with the low 32 bits `x` in the range from `cur − 2^31` to `cur + 2^31 − 1` (R136). -/
def rebuild (cur : Nat) (x : Word32) : Int :=
  let base : Int := (cur : Int) - 2 ^ 31
  base + ((x.toNat : Int) - base) % 2 ^ 32

/-- Where a command stands against the instant it is carried out at. -/
structure When where
  /-- the instant, absolute au -/
  due  : Nat
  /-- schedule till -/
  till : Option Word16
  /-- carried out late under LATE_OK -/
  late : Bool
  deriving DecidableEq, Repr

/-- Is the present tick at or before the instant of `d` au (R97)? -/
def Clock.onTime (c : Clock) (d : Int) : Bool :=
  decide ((c.au : Int) < d) || (decide ((c.au : Int) = d) && decide (c.frac < 65536))

/-- The first instant at least 1,024 au after now (R137). -/
def Clock.soon (c : Clock) : Nat := c.au + 1024

/-- Execute-at of a packet taken now: LATE, or the instant and whether it is late (R136, R137). -/
def Clock.execAt (c : Clock) (p : Packet) : Option (Nat × Bool) :=
  if p.timed then
    let due : Int := rebuild c.cycle.toNat p.execCycle * 65536 + p.execAngle.toNat
    if c.onTime (due - 1024) then some (due.toNat, false)
    else if p.lateOk && c.onTime (due + 65536) then some (c.soon, true)
    else none
  else some (c.soon, false)

/-! ### Ledger admission (R317, R318) -/

/-- Headroom of the hub in 0.01 K (R309). -/
def Module.hubHeat (m : Module) : Int := 10500 - m.pow.hubTemp
/-- Headroom of a slice in 0.01 K (R309). -/
def Module.sliceHeat (m : Module) (n : Nat) : Int := 12500 - (m.slice n).tEst
/-- Is a P3 unit of this cost, using these slices, admitted (R318)? -/
def Module.admits (m : Module) (cost : Nat) (slices : List Nat) : Bool :=
  m.pow.ledger == 0 && (!m.pow.onBackup || decide (cost + m.items.p3Reserve.toNat ≤ m.pow.account.toNat)) &&
    decide (1000 ≤ m.hubHeat) && slices.all (fun n => decide (1000 ≤ m.sliceHeat n))

/-! ### The pipeline of R139 -/

/-- What a carried-out command answers. -/
structure Ans where
  rflags  : Word16
  status  : Word16
  detail  : Word16
  payload : List Byte

/-- OK with a payload. -/
def Ans.ok (payload : List Byte) : Ans := ⟨0, stOk, 0, payload⟩
/-- ACCEPTED: a FINAL event follows (R143). -/
def Ans.accepted : Ans := ⟨0, stAccepted, 0, []⟩

/-- An opcode: its number, its marks in the opcode tables, its checks and its effect. -/
structure Op where
  code  : Word16
  /-- marked T (R155) -/
  timed : Bool := false
  /-- marked B (R155) -/
  bcast : Bool := false
  /-- may be answered ACCEPTED, so that a forward of it may need a watch record (R293) -/
  accepts : Bool := false
  /-- step 5: the unit is absent -/
  absent : Module → Packet → Bool := fun _ _ => false
  /-- steps 7 to 10: the opcode's own checks -/
  judge : Module → Packet → Deny := fun _ _ => none
  /-- step 11: cost and slices of P3 work, `none` where not gated -/
  cost  : Module → Packet → Option (Nat × List Nat) := fun _ _ => none
  /-- the effect, and the answer where one is given at once -/
  act   : Module → Packet → When → Module × Option Ans
  /-- what follows once the answer has been produced -/
  after : Module → Packet → Module := fun m _ => m

/-- Does a TILL_SRAM self-test run, during which no packet is taken (R435)? -/
def Module.tillTest (m : Module) : Bool :=
  match m.diag.bist with
  | some (_, 0, _) => true
  | _ => false

/-- Packets are taken on this path now (R20, R49, R50, R324, R444). -/
def Module.takes (m : Module) (path : Path) : Bool :=
  (m.coresUp || (m.stage == .bootRom && path == Path.maint)) && !m.prov.lockstep && !m.prov.fatal

/-- Among packets of one stamp lane H goes before DROP and DROP before MAINT (R39), and a forwarded one, which R39 does not name,
after them (log 83). -/
def pathRank : Path → Nat
  | .laneH _ => 0
  | .drop => 1
  | .maint => 2
  | .ring _ _ => 3
/-- A packet is taken before another: an earlier stamp, or the path's rank at the same stamp (R39). -/
def Arrived.before (a b : Arrived) : Bool :=
  decide (a.stamp < b.stamp) || (a.stamp == b.stamp && decide (pathRank a.packet.path < pathRank b.packet.path))
/-- The packet that is taken next, of those that have arrived (R39). -/
def Teller.front (t : Teller) : Option Arrived :=
  t.queue.foldl (fun b a => match b with
    | some b => if a.before b then some a else some b
    | none => some a) none

/-- A packet comes from another position, in a REQUEST frame (R290). -/
def fromRing : Path → Bool
  | .ring _ _ => true
  | _ => false
/-- The packet of a row is taken now: it is the next of those that have arrived, or it arrives with none waiting; a forwarded
packet arrives in its REQUEST frame alone (R39, R291; log 5). -/
def Module.atTurn (m : Module) (opcode : Word16) (p : Packet) (good : Bool) : Bool :=
  match m.tel.front with
  | some a => a.opcode == opcode && a.packet == p && a.good == good
  | none => !fromRing p.path

/-- The packet that is taken leaves the queue, and its port's frame buffer is free again (R39, R419). -/
def Module.dequeue (m : Module) (p : Packet) : Module :=
  match m.tel.front with
  | none => { m with tel := { m.tel with cur := m.origin p } }
  | some a =>
    let m := { m with tel := { m.tel with queue := m.tel.queue.erase a, cur := a.origin } }
    match p.path with
    | .maint => m.freeBuffer .maint
    | .drop => m.freeBuffer .drop
    | _ => m

/-- A packet whose turn has not come waits behind those that arrived before it (R39). -/
def Module.wait (m : Module) (opcode : Word16) (p : Packet) (good : Bool) : Module :=
  if fromRing p.path || m.tel.queue.any (fun a => a.opcode == opcode && a.packet == p && a.good == good) then m
  else
    let m := m.arrive (opcode, p) m.now good
    match p.path with
    | .maint => m.setPort .maint (fun u => { u with full := u.full + 1 })
    | .drop => m.setPort .drop (fun u => { u with full := u.full + 1 })
    | _ => m

/-- At a packet's turn `f` carries it out. -/
def Module.turn (m : Module) (opcode : Word16) (p : Packet) (good : Bool) (f : Module → Module) : Module :=
  if m.tillTest || !m.takes p.path then m
  else if m.atTurn opcode p good then f (m.dequeue p)
  else m.wait opcode p good

/-- A stored reply goes out again with DUPLICATE set (R151). -/
def Module.resend (m : Module) (opcode : Word16) (p : Packet) (r : Reply) : Module :=
  m.emit opcode p { r with rflags := r.rflags ||| rfDuplicate }

/-- The content that a RETRY must repeat (R150). -/
def Stored.sameContent (e : Stored) (opcode : Word16) (p : Packet) : Bool :=
  e.opcode == opcode && e.packet.target == p.target && e.packet.till == p.till &&
    e.packet.execAngle == p.execAngle && e.packet.execCycle == p.execCycle && e.packet.params == p.params

/-- A RETRY packet against the reply memory; `none` where it is handled as new (R150). Of several entries of its key with its
content the newest counts; what the memory itself answers here is not stored in it (log 6). -/
def Module.retried (m : Module) (opcode : Word16) (p : Packet) : Option Module :=
  let say := fun (status detail : Word16) => m.emit opcode p (m.mkReply opcode 0 p.tag status detail [])
  if p.retry then
    let l := (m.tel.mem p.path).filter (fun e => e.sameKey m.tel.cur.epoch p)
    match l.filter (fun e => e.sameContent opcode p) with
    | [] => if l.isEmpty then none else some (say stBadParam 4)
    | e :: es =>
      let l := if p.target = 0xFE then e :: es else [e]
      if l.any (fun e => e.reply == none) then some (say stBusy 0)
      else some (l.foldr (fun e m => match e.reply with | some r => m.resend opcode p r | none => m) m)
  else none

/-- Where a TARGET leads (step 3 of R139). -/
inductive Aim where
  | here | all | other (position : Nat) | refused (status detail : Word16)
  deriving DecidableEq, Repr

/-- Step 3 of R139 with R146. TARGET 0xFE on an opcode that is not marked broadcast is BAD_PARAM here, so that at a UM-96S it
comes before the UNIT_ABSENT of step 5, for a ring or a metering opcode too (R5, R7; R146 names no step: log 66). -/
def Module.aim (m : Module) (op : Op) (p : Packet) : Aim :=
  match p.path with
  | .ring _ _ => .here
  | _ =>
    if p.target = 0xFF then .here
    else if p.target = 0xFE then (if op.bcast then .all else .refused stBadParam 8)
    else if m.ownPosition p.target then .here
    else if !m.variant.hasRing then .refused stUnitAbsent 0
    else if p.target.toNat < m.ring.positions then .other p.target.toNat
    else .refused stBadParam 8

/-- The opcodes served in the boot ROM (R177). -/
def romOpcodes : List Word16 := [0x0101, 0x0102, 0x0701, 0x0702, 0x0703, 0x0708, 0x0709]
/-- The opcodes served in the shelf state (R62). -/
def shelfOpcodes : List Word16 := [0x0101, 0x0102, 0x0803, 0x010A, 0x0109]

/-- Step 6: does the module's state serve the opcode (R49, R62, R177)? -/
def Module.servesState (m : Module) (op : Op) (p : Packet) : Bool :=
  let group := op.code.toNat / 256
  match m.stage with
  | .bootRom => romOpcodes.contains op.code
  | .reload | .lock => group == 1 && (!m.shelf || shelfOpcodes.contains op.code)
  | .lamps => op.code != 0x0709 && group != 4 && group != 7 && !(p.timed && m.variant.hasRing) &&
      (!m.shelf || shelfOpcodes.contains op.code)
  | _ => op.code != 0x0709 && (!m.shelf || shelfOpcodes.contains op.code)

/-- TILL of a packet: on lane H an open report till or 0, on a port 0 (R140); of a forwarded packet the entry module, whose
tills alone it can name, has judged it (log 67). -/
def Module.tillOk (m : Module) (p : Packet) : Bool :=
  match p.path with
  | .laneH _ => p.till == 0 || m.namesReport p
  | .ring _ _ => true
  | _ => p.till == 0

/-- Step 7 of R139, in the order of the offsets. -/
def Module.headerCheck (m : Module) (op : Op) (p : Packet) : Deny :=
  firstOf [if p.timed && !op.timed then badAt 2 else none,
    if p.tag = 0 then badAt 4 else none,
    if m.tillOk p then none else badAt 0xA,
    if !p.timed && p.execAngle ≠ 0 then badAt 0x10 else none,
    if !p.timed && p.execCycle ≠ 0 then badAt 0x12 else none,
    if (m.clk.execAt p).isNone then some (stLate, 0) else none]

/-- Step 11: P3 work is admitted, or answered LEDGER_DEFERRED (R318, R319). -/
def Module.ledgerCheck (m : Module) (op : Op) (p : Packet) : Deny :=
  match op.cost m p with
  | some (c, l) => if m.admits c l then none else some (stDeferred, 0)
  | none => none

/-- Steps 5 to 11 of R139: the first check that fails. -/
def Module.check (m : Module) (op : Op) (p : Packet) : Deny :=
  firstOf [if op.absent m p then some (stUnitAbsent, 0) else none,
    busyUnless (m.servesState op p),
    m.headerCheck op p,
    op.judge m p,
    busyUnless (!p.timed || m.freeSched.isSome),
    m.ledgerCheck op p]

/-- A schedule till for a timed command (R113-R115, R138). -/
def Module.schedule (m : Module) (p : Packet) (t : Word16) (due : Nat) : Module :=
  m.setTill t (fun _ => { Till.closed with
    kind := 4, state := 4, epoch := m.tel.cur.epoch, due := due, tag := p.tag,
    link := match p.path with | .laneH c => c | _ => 0 })

/-- Carry a packet out here, or refuse it (steps 5 to 11 of R139, R143). -/
def Module.serveHere (m : Module) (op : Op) (p : Packet) : Module :=
  match m.check op p with
  | some (status, detail) =>
    let m := if status = stDeferred then { m with pow := { m.pow with deferred := satInc m.pow.deferred } } else m
    m.answer op.code p 0 status detail []
  | none =>
    let at_ := (m.clk.execAt p).getD (m.clk.soon, false)
    let till := if p.timed then m.freeSched else none
    let m := match till with | some t => m.schedule p t at_.1 | none => m
    match op.act m p ⟨at_.1, till, at_.2⟩ with
    | (m, none) => m.noteTaken op.code p
    | (m, some a) =>
      op.after (m.answer op.code p (if at_.2 then a.rflags ||| rfLate else a.rflags) a.status (till.getD a.detail)
        a.payload) p

/-- A packet leaves for another position in a ring till, whose deadline counts from the end of its REQUEST's insertion (R145,
R290, R293; log 91). -/
def Module.forward (m : Module) (op : Op) (p : Packet) (q : Nat) : Module :=
  let busy := m.answer op.code p 0 stBusy 0 []
  if m.ringReady && !(op.accepts && decide (4096 ≤ m.ring.watches.length)) then
    match m.freeRing with
    | none => busy
    | some t =>
      let epoch := Tbl.get (0 : Word16) m.ring.epochs q
      let m := m.setTill t (fun _ => { Till.closed with
        kind := 5, state := 4, epoch := epoch, link := BitVec.ofNat 16 q, tag := p.tag })
      let m := m.ringSend 2 (BitVec.ofNat 8 q) epoch t (p.bytes op.code)
      let m := { m with ring := { m.ring with forwards := m.ring.forwards ++ [(t, op.code, p)] } }
      m.noteTaken op.code p
  else busy

/-- Every enumerated position but this one. -/
def Module.others (m : Module) : List Nat := (List.range m.ring.positions).filter (fun q => m.ring.position != some q)

/-- A packet at its turn: carried out, refused, answered again or forwarded (R139). A broadcast leaves for the others before
this module acts on it, so that what waits for every reply sees them (R164). -/
def Module.judge (m : Module) (op : Op) (p : Packet) : Module :=
  match m.retried op.code p with
  | some m' => m'
  | none =>
    match m.aim op p with
    | .refused status detail => m.answer op.code p 0 status detail []
    | .here => m.serveHere op p
    | .other q => if m.tillOk p then m.forward op p q else m.answer op.code p 0 stBadParam 0xA []
    | .all => ((if m.tillOk p then m.others else []).foldl (fun m q => m.forward op p q) m).serveHere op p

/-- A packet whose row says that it is taken now (R39, R139). -/
def Module.serve (m : Module) (op : Op) (p : Packet) : Module := m.turn op.code p true (fun m => m.judge op p)

/-- The meaning of an opcode's row. -/
def State.serve (s : State) (dt : Nat) (op : Op) (p : Packet) : Result := s.on dt (fun m => m.serve op p)

end Sys2Proof.Machine
end

