-- ==== Sys2Proof/Machine/Random.lean ====
section
/-! DEFINITION. The entropy unit as its consumers see it: the pool, the reseed and a request for random output (R394, R395,
R401, R402). -/

namespace Sys2Proof.Machine
open Sys2Proof

/-- Ticks of 1,024 raw bits at 8 MHz, one pool output (R394). -/
def poolTicks : Nat := 12800
/-- The pool by now: one output for each run of raw bits, up to four (R394). -/
def Entropy.fill (e : Entropy) (now : Nat) : Entropy :=
  let k := (now - e.poolAt) / poolTicks
  { e with pool := min 4 (e.pool + k), poolAt := e.poolAt + poolTicks * k }
/-- A reseed is due: 1,024 generate requests or 1 s since the last (R395). -/
def Entropy.reseedDue (e : Entropy) (now : Nat) : Bool :=
  decide (1024 ≤ e.generated) || decide (e.reseedAt + 100000000 ≤ now)
/-- Output is served: HEALTHY (R396). -/
def Entropy.healthy (e : Entropy) : Bool := e.state == 1
/-- A request would be served at once: HEALTHY, no reseed due and nobody waiting. -/
def Module.entropyReady (m : Module) : Bool :=
  m.ent.healthy && !m.ent.reseedDue m.now && m.ent.waiting.isEmpty

/-- One generate call of `n` bytes (R395): its output is a free value (log 9). -/
def Module.draw (m : Module) (n : Nat) : Module × List Byte :=
  ({ m with free := m.free + 1, ent := { m.ent with generated := m.ent.generated + 1 } }, Config.randomBytes m.free n)

/-- A request waits behind a reseed, with a deadline 1 ms after its arrival (R402). -/
def Module.awaitEntropy (m : Module) (consumer n : Nat) (serves : Option (Word16 × Packet)) : Module :=
  { m with ent := { m.ent with
    waiting := m.ent.waiting ++ [⟨m.now, m.now + 100000, consumer, n, serves⟩] } }

/-- A session number, drawn again while zero (R401): any 32-bit number but 0. -/
def sessionNumber (bs : List Byte) : Word32 := BitVec.ofNat 32 (1 + leNat bs % 4294967295)

end Sys2Proof.Machine
end

