-- ==== Sys2Proof/Machine/Image.lean ====
section
/-! DEFINITION. The configuration image: its items, the checks of R373 and the stored form of R474. -/

namespace Sys2Proof.Machine
open Sys2Proof

/-- The items of schema major 1 in ascending order, with how many indices each has and its SIZE (R372). -/
def itemTable (v : Variant) : List (Nat × Nat × Nat) :=
  [(0x0001, 1, 2), (0x0101, v.channels, 2), (0x0102, v.channels, 1), (0x0103, v.channels, 4), (0x0104, v.slices, 1),
   (0x0105, 2, 6), (0x0301, v.channels, 1), (0x0302, v.channels, 4), (0x0303, v.channels, 4), (0x0304, v.channels, 385),
   (0x0401, 1, 4), (0x0402, 1, 1), (0x0403, 1, 2), (0x0501, 1, 16), (0x0901, v.channels, 1), (0x0902, v.slices, 2)]

/-- No swatch: the default (R372). -/
def Swatch.none : Swatch := ⟨.none, []⟩

/-- The start pattern of a channel: its own, or its fallback pattern (R53, R372). -/
def Items.startOf (i : Items) (ch : Nat) : Pattern × Word16 :=
  match Tbl.get Option.none i.start ch with
  | some s => s
  | Option.none => (Tbl.get .off i.fallback ch, 0)

/-- A generator's six bytes. -/
def Gen.bytes (g : Gen) : List Byte := u16 g.period ++ u16 g.on ++ u16 g.phase
/-- A generator that R191 allows. -/
def Gen.ok (g : Gen) : Bool :=
  decide (2 ≤ g.period) && decide (g.period ≤ 1024) && decide (1 ≤ g.on) && decide (g.on < g.period) &&
    decide (g.phase < g.period)

/-- A swatch's 385 bytes (R372). -/
def swatchBytes (s : Swatch) : List Byte :=
  u8 s.kind.code ++ padTo 384 ((s.bins.map (fun b => leInt 2 b.mean ++ u8 b.tol)).flatten)

/-- Element `k` of an item, in the bytes of R372. -/
def Items.elem (i : Items) (item k : Nat) : List Byte :=
  match item with
  | 0x0001 => u8 i.refPrimary ++ u8 i.refAlternate
  | 0x0101 => u16 (Tbl.get 0xFFFF i.head k)
  | 0x0102 => u8 (Tbl.get Pattern.off i.fallback k).code
  | 0x0103 => u8 (i.startOf k).1.code ++ rsv 1 ++ u16 (i.startOf k).2.toNat
  | 0x0104 => u8 (Tbl.get 2 i.busKind k)
  | 0x0105 => if k = 0 then i.fa.bytes else i.fb.bytes
  | 0x0301 => u8 (Tbl.get 1 i.response k)
  | 0x0302 => let l := Tbl.get (15, 10) i.limits k; u16 l.1 ++ u16 l.2
  | 0x0303 => let t := Tbl.get (20, 10, 0, 0) i.tolerance k; u8 t.1 ++ u8 t.2.1 ++ u8 t.2.2.1 ++ u8 t.2.2.2
  | 0x0304 => swatchBytes (Tbl.get Swatch.none i.swatch k)
  | 0x0401 => i.refList
  | 0x0402 => u8 i.ringSize
  | 0x0403 => u8 (bit i.ringFec) ++ u8 (bit i.hFec)
  | 0x0501 => u32 i.capacity.toNat ++ u32 i.p3Reserve.toNat ++ u32 i.leanBelow.toNat ++ u16 i.standbyAfter.toNat ++ rsv 2
  | 0x0901 => u8 (Tbl.get 1 i.sense k)
  | 0x0902 => let o := Tbl.get (0, 1) i.sliceOpts k; u8 o.1 ++ u8 o.2
  | _ => []

/-- One record of the stored form: FIRST 0, every element, padded to a multiple of 4 bytes (R371, R474). -/
def Items.record (i : Items) (e : Nat × Nat × Nat) : List Byte :=
  pad4 (u16 e.1 ++ u16 0 ++ u16 e.2.1 ++ u16 e.2.2 ++ ((List.range e.2.1).map (i.elem e.1)).flatten)

/-- The stored form of a configuration (R474). -/
def storedForm (v : Variant) (schema : Word16) (position : Byte) (revision : Word32) (i : Items) : List Byte :=
  let records := ((itemTable v).map i.record).flatten
  u16 1 ++ u16 schema.toNat ++ u8 position.toNat ++ u8 v.code.toNat ++ u16 (itemTable v).length ++ u32 revision.toNat ++
    u32 (16 + records.length) ++ records

/-- The ledger item's ranges (R328). -/
def ledgerOk (capacity reserve lean : Nat) : Bool := decide (reserve ≤ capacity) && decide (lean ≤ capacity)

/-- The bins of a swatch element, after its kind byte. -/
def swatchBins : Nat → List Byte → List SwBin
  | 0, _ => []
  | n + 1, bs => ⟨toS16 (fieldAt bs 0 2), fieldAt bs 2 1⟩ :: swatchBins n (bs.drop 3)

/-- Take one element of an image, within the ranges of its home chapter (R373). -/
def Items.take (i : Items) (v : Variant) (item k : Nat) (bs : List Byte) : Option Items :=
  let a := fieldAt bs 0 1
  let b := fieldAt bs 1 1
  let w := fieldAt bs 0 2
  let x := fieldAt bs 2 2
  match item with
  | 0x0001 =>
    if a < v.slices && (b < v.slices || b == 0xFF) then some { i with refPrimary := a, refAlternate := b } else Option.none
  | 0x0101 => if w < 256 || w == 0xFFFF then some { i with head := Tbl.set 0xFFFF i.head k w } else Option.none
  | 0x0102 =>
    if a < 4 then some { i with fallback := Tbl.set .off i.fallback k ((Pattern.ofCode a).getD .off) } else Option.none
  | 0x0103 =>
    if a < 5 && (if a = 4 then decide (1024 ≤ x) && decide (x ≤ 31744) else x == 0) then
      some { i with start := Tbl.set Option.none i.start k (some ((Pattern.ofCode a).getD .off, BitVec.ofNat 16 x)) }
    else Option.none
  | 0x0104 => if a < 3 then some { i with busKind := Tbl.set 2 i.busKind k a } else Option.none
  | 0x0105 =>
    let g : Gen := ⟨w, x, fieldAt bs 4 2⟩
    if g.ok then some (if k = 0 then { i with fa := g } else { i with fb := g }) else Option.none
  | 0x0301 => if a < 4 then some { i with response := Tbl.set 1 i.response k a } else Option.none
  | 0x0302 =>
    if 5 ≤ w && w ≤ 500 && 5 ≤ x && x ≤ w then some { i with limits := Tbl.set (15, 10) i.limits k (w, x) } else Option.none
  | 0x0303 =>
    let s := fieldAt bs 2 1
    let t := fieldAt bs 3 1
    if 5 ≤ a && a ≤ 50 && 2 ≤ b && b ≤ 100 && s ≤ 64 && t ≤ 1 then
      some { i with tolerance := Tbl.set (20, 10, 0, 0) i.tolerance k (a, b, s, t) }
    else Option.none
  | 0x0304 =>
    if a = 0 then some { i with swatch := Tbl.set Swatch.none i.swatch k Swatch.none }
    else if a < 3 then
      some { i with swatch := Tbl.set Swatch.none i.swatch k ⟨if a = 1 then .ac else .dc, swatchBins 128 (bs.drop 1)⟩ }
    else Option.none
  | 0x0401 => if bs.all (fun p => decide (p.toNat < 64) || p == 0xFF) then some { i with refList := bs } else Option.none
  | 0x0402 => if a ≤ 64 then some { i with ringSize := a } else Option.none
  | 0x0403 => if a ≤ 1 && b ≤ 1 then some { i with ringFec := a == 1, hFec := b == 1 } else Option.none
  | 0x0501 =>
    if ledgerOk (fieldAt bs 0 4) (fieldAt bs 4 4) (fieldAt bs 8 4) then
      some { i with capacity := BitVec.ofNat 32 (fieldAt bs 0 4), p3Reserve := BitVec.ofNat 32 (fieldAt bs 4 4),
                    leanBelow := BitVec.ofNat 32 (fieldAt bs 8 4), standbyAfter := BitVec.ofNat 16 (fieldAt bs 12 2) }
    else Option.none
  | 0x0901 => if a ≤ 1 then some { i with sense := Tbl.set 1 i.sense k a } else Option.none
  | 0x0902 => if a ≤ 1 && b ≤ 1 then some { i with sliceOpts := Tbl.set (0, 1) i.sliceOpts k (a, b) } else Option.none
  | _ => Option.none

/-- Take `n` elements of `size` bytes, from index `k` on. -/
def Items.takeAll (v : Variant) (item size : Nat) : Nat → Nat → List Byte → Items → Option Items
  | 0, _, _, i => some i
  | n + 1, k, bs, i =>
    match i.take v item k (bs.take size) with
    | some i => Items.takeAll v item size n (k + 1) (bs.drop size) i
    | Option.none => Option.none

/-- The count and SIZE of a defined item. -/
def itemShape (v : Variant) (item : Nat) : Option (Nat × Nat) :=
  ((itemTable v).find? (fun e => e.1 == item)).map (fun e => e.2)

/-- Take `n` records; `seen` holds the index ranges already given; no byte may remain (R373). -/
def Items.takeRecords (v : Variant) : Nat → List (Nat × Nat × Nat) → List Byte → Items → Option Items
  | 0, _, bs, i => if bs.isEmpty then some i else Option.none
  | n + 1, seen, bs, i =>
    let item := fieldAt bs 0 2
    let first := fieldAt bs 2 2
    let count := fieldAt bs 4 2
    let size := fieldAt bs 6 2
    let len := 8 + count * size
    let padded := len + (4 - len % 4) % 4
    if bs.length < 8 || bs.length < padded then Option.none
    else
      match itemShape v item with
      | Option.none => Option.none
      | some (total, sz) =>
        if sz = size && first + count ≤ total &&
           seen.all (fun e => e.1 != item || decide (e.2.1 + e.2.2 ≤ first) || decide (first + count ≤ e.2.1)) then
          match Items.takeAll v item size count first (bs.drop 8) i with
          | some i => Items.takeRecords v n ((item, first, count) :: seen) (bs.drop padded) i
          | Option.none => Option.none
        else Option.none

/-- No head holds more than 64 channels (R200). -/
def Items.headsOk (i : Items) : Bool :=
  i.head.all (fun e => decide ((i.head.filter (fun f => f.2 == e.2)).length ≤ 64))

/-- A start pattern equal to the channel's fallback pattern is the default (R372, R474). -/
def Items.canonical (i : Items) : Items :=
  { i with start := i.start.filter (fun e => e.2 != some (Tbl.get .off i.fallback e.1, 0)) }

/-- An image accepted by every check of R373, as items; `own` is the module's position byte. -/
def parseImage (v : Variant) (schema : Word16) (own : Byte) (bs : List Byte) : Option Items :=
  let sch := fieldAt bs 2 2
  let pos := fieldAt bs 4 1
  if 16 ≤ bs.length && fieldAt bs 0 2 = 1 && sch / 256 = schema.toNat / 256 && sch % 256 ≤ schema.toNat % 256 &&
     (pos = 0xFF || pos = own.toNat) && fieldAt bs 5 1 = v.code.toNat && fieldAt bs 12 4 = bs.length then
    match Items.takeRecords v (fieldAt bs 6 2) [] (bs.drop 16) Items.default with
    | some i =>
      if i.headsOk && decide ((storedForm v schema own 0 i).length ≤ 196608) then some i.canonical else Option.none
    | Option.none => Option.none
  else Option.none

/-- The stored bytes of a configuration of this module. -/
def Module.form (m : Module) (c : StoredConfig) : List Byte :=
  storedForm m.variant c.schema c.position c.revision c.items

/-- The HMAC-SHA-256 of bytes under the CURRENT key; none while no key is held (R59). -/
def Module.macOf (m : Module) (bs : List Byte) : Option (List Byte) :=
  m.vault.current.map (fun k => hmac k bs)

/-- The PREVIOUS key, when one is held (R403). -/
def Module.previous (m : Module) : Option (List Byte) := if m.vault.altPending then Option.none else m.vault.alternate

/-- Does an HMAC verify under CURRENT or PREVIOUS (R406)? A PENDING key is never used. -/
def Module.verifies (m : Module) (bs mac : List Byte) : Bool :=
  m.vault.current.isSome && (m.macOf bs == some mac || m.previous.map (fun k => hmac k bs) == some mac)

/-- Does the stored configuration's HMAC verify (R59, R406)? -/
def Module.configSealed (m : Module) : Bool :=
  match m.vault.config with
  | some c =>
    (match c.sealed with
     | .unsealed => false
     | .mac b => m.verifies (m.form c) b)
  | Option.none => false

/-- Is the stored configuration valid and for this position (R59)? -/
def Module.configValid (m : Module) : Bool :=
  m.configSealed &&
    (match m.vault.config with
     | some c => c.position == m.positionByte
     | Option.none => false)

/-- Seal a configuration under the key held; unsealed while none is held (R62). -/
def Module.seal (m : Module) (c : StoredConfig) : StoredConfig :=
  match m.macOf (m.form c) with
  | some b => { c with sealed := .mac b }
  | Option.none => { c with sealed := .unsealed }

/-- The position for which a configuration is stored: this module's, or while it has none that of the stored one (R46, R59). -/
def Module.storedFor (m : Module) : Byte :=
  if m.positionByte = 0xFF then (match m.vault.config with | some c => c.position | none => 0xFF) else m.positionByte

/-- Store new items: REVISION rises by one, the configuration is sealed, and both neighbours are to be sent it (R32,
R294). -/
def Module.storeItems (m : Module) (i : Items) : Module :=
  let c : StoredConfig := m.seal ⟨m.storedFor, m.upd.schema, m.revision + 1, i, .unsealed⟩
  { m with
    vault := { m.vault with config := some c }
    ring := { m.ring with escrowE := false, escrowW := false, pushE := true, pushW := true } }

/-- The ESCROW bits of CONFIG_WRITE and RING_STATUS: E-side and W-side copies current (R165, R172). -/
def Module.escrowBits (m : Module) : Nat := bit m.ring.escrowE + 2 * bit m.ring.escrowW

end Sys2Proof.Machine
end

