-- ==== Sys2Proof/Machine/Drive.lean ====
section
/-! DEFINITION. Shared operations of the lamp drive, the fault records and the slice links: what a channel shows and
conducts, detection and clearing of faults, frames to a slice and the single-slice reset. -/

namespace Sys2Proof.Machine
open Sys2Proof

/-! ### Flash generators (R191, R313) -/

/-- (h − PHASE) mod PERIOD, from 0 to PERIOD − 1 (R191). -/
def Gen.index (g : Gen) (h : Nat) : Nat := (h + g.period - g.phase % g.period) % g.period
/-- The on part of a generator (R191). -/
def Gen.onPart (g : Gen) (h : Nat) : Bool := decide (g.index h < g.on)
/-- The period number q (R313). -/
def Gen.number (g : Gen) (h : Nat) : Nat := (h - g.phase) / g.period

/-- Generator 0 A, 1 B, 2 FA, 3 FB. -/
def Lamps.gen (l : Lamps) : Nat → Gen
  | 0 => l.genA
  | 1 => l.genB
  | 2 => l.genFA
  | _ => l.genFB
/-- Set a generator. -/
def Lamps.setGen (l : Lamps) (k : Nat) (g : Gen) : Lamps :=
  match k with
  | 0 => { l with genA := g }
  | 1 => { l with genB := g }
  | 2 => { l with genFA := g }
  | _ => { l with genFB := g }

/-! ### Whether a channel conducts (R190, R197) -/

/-- A DIM channel conducts as STEADY on a DC bus and on an AC bus whose record is not settled (R197). -/
def Module.dimsAsSteady (m : Module) (ch : Nat) : Bool :=
  let b := (m.busOf ch).phase
  b.kind == .dc || (b.kind == .ac && !b.settled)

/-- PATTERN as CHANNEL_READ reports it (R197, R313). -/
def Module.reported (m : Module) (ch : Nat) : Pattern :=
  let p := (m.shown ch).1.pattern
  if p == .dim && m.dimsAsSteady ch then .steady else p

/-- The generator of a flashing channel: A or B for a command, FA or FB for the start pattern and a fallback; `b` is 0 for
FLASH_A and 1 for FLASH_B (section 5 of spec/07). -/
def genFor (src b : Nat) : Nat := if src = 0 then b else 2 + b
/-- The half-cycle index that a source's generator counts on: a start pattern keeps its own phase from a rebase until its
next period (R55). -/
def Lamps.halfFor (l : Lamps) (src k : Nat) : Nat := if src = 1 then l.half + Tbl.get 0 l.shift k else l.half

/-- Is a flashing channel in an on part that is not suppressed (R191, R313, R475)? A start pattern whose own last period is over
waits in the dark for the domain's (R55). -/
def Module.flashOn (m : Module) (ch src b : Nat) : Bool :=
  if src = 4 then
    let o := m.ownOf (ch / 16)
    (if b = 0 then o.aloneFa else o.aloneFb).onPart o.half
  else
    let k := genFor src b
    let g := m.lamps.gen k
    let h := m.lamps.halfFor src k
    let f := Tbl.get 1 (m.slice (ch / 16)).stretchNow k
    !(src == 1 && Tbl.get false m.lamps.joining k) && g.onPart h && (decide (2 ≤ src) || g.number h % f == 0)

/-- Does what a channel shows make it conduct now (R190)? A DIM channel keeps what its firings made it. -/
def Module.wants (m : Module) (ch : Nat) : Bool :=
  let s := m.shown ch
  match s.1.pattern with
  | .off => false
  | .steady => true
  | .flashA => m.flashOn ch s.2 0
  | .flashB => m.flashOn ch s.2 1
  | .dim => m.dimsAsSteady ch || (m.chan ch).lit

/-- The switch may close: its slice drives its gates, and no trip, cut, waiting on part or reversed bus holds it open
(R58, R84, R186, R196, R239, R247), and the hub does not hold every channel off (R50). -/
def Module.mayClose (m : Module) (ch : Nat) : Bool :=
  let c := m.chan ch
  let h := m.slice (ch / 16)
  (h.loaded || (m.ownOf (ch / 16)).alone) && !h.failed && m.stage != .bootRom && !c.tripOpen && !c.tripped && !c.cut &&
    !c.waitOn && !h.bus.reversed

/-- Is the angle inside the conduction part of a dimmed half-cycle: the last DIM_ANGLE au before a crossing predicted by
the bus phase record (R197)? -/
def Module.dimNow (m : Module) (ch : Nat) : Bool :=
  let b := (m.busOf ch).phase
  let dim := (m.shown ch).1.dim
  let near := fun (x : Angle) => decide (0 < (x - m.clk.angle).toNat) && decide ((x - m.clk.angle).toNat ≤ dim.toNat)
  near b.pos || near b.neg

/-- The edges of a channel take the DC ramp: on a DC bus in any mode, on an AC bus in DC mode, on a dead bus never (R188). -/
def Module.dcRamp (m : Module) (ch : Nat) : Bool :=
  match (m.busOf ch).phase.kind with
  | .none => false
  | .dc => true
  | .ac => (m.shown ch).1.mode == .dc

/-- A switch that opens with a ramp of its own begun at tick `now` (R189; log 92). -/
def Chan.openAt (c : Chan) (now : Nat) (dc : Bool) : Chan :=
  if c.closed then { c with closed := false, inrush := none, ramp := some (now, dc) } else { c with inrush := none }

/-- Every switch of a slice opens in this tick (R64, R189, R236, R247); `f` is what else happens to the channel. -/
def Module.openAll (m : Module) (n : Nat) (f : Chan → Chan) : Module :=
  m.each (sliceChans n) (fun ch m => m.setChan ch (fun c => f (c.openAt m.now false)))

/-- A turn-on is counted for the slice's loss: 3 mJ in PHASE_EXACT mode on an AC bus and for a DIM firing, else 0.3 mJ (R311). -/
def Module.countOn (m : Module) (ch : Nat) (dim : Bool) : Module :=
  let hard := dim || ((m.shown ch).1.mode == .phaseExact && (m.busOf ch).phase.kind == .ac)
  m.setSlice (ch / 16) (fun h => { h with ons := if hard then (h.ons.1, h.ons.2 + 1) else (h.ons.1 + 1, h.ons.2) })

/-- TDIE in 0.01 °C of its code (R240). -/
def dieTemp (code : Nat) : Int := 2 * (code : Int) - 10000
/-- TDIE of a channel's slice is below 135.00 °C, so that the next turn-on ends a thermal cut (R247). -/
def Module.coolSlice (m : Module) (ch : Nat) : Bool := decide (dieTemp (m.ownOf (ch / 16)).tdie < 13500)

/-- Move a switch: a turn-on from off opens the inrush window and starts SETTLE, and one of a cooled slice ends a thermal cut; a
turn-off without a trip ends the run of trips (R186, R197, R208, R247). -/
def Module.moveSwitch (m : Module) (ch : Nat) (want : Bool) : Module :=
  let cool := m.coolSlice ch
  let m := m.setChan ch (fun c => { c with cut := c.cut && !(want && !c.lit && cool) })
  let ok := m.mayClose ch
  let settle := (Tbl.get (20, 10, 0, 0) m.live.tolerance ch).2.2.1
  let dim := (m.shown ch).1.pattern == .dim && !m.dimsAsSteady ch
  let dc := m.dcRamp ch
  let m := if want && ok && !(m.chan ch).closed then m.countOn ch dim else m
  m.setChan ch (fun c =>
    if want then
      if ok && !c.closed then
        if c.fresh then
          { c with closed := true, lit := true, fresh := false, inrush := some m.now, settle := m.clk.turn + 32768 * settle
                   ramp := some (m.now, dc) }
        else { c with closed := true, lit := true, ramp := some (m.now, dc) }
      else { c with lit := true }
    else
      { c.openAt m.now dc with
        lit := false, fresh := c.fresh || !dim, tripRun := if c.closed then 0 else c.tripRun
        tripOpen := c.closed && c.tripOpen })

/-- Drive a channel to what it shows. -/
def Module.refresh (m : Module) (ch : Nat) : Module := m.moveSwitch ch (m.wants ch)

/-! ### Learning and open-wire jobs (R213-R215, R251, R237) -/

/-- The FINAL payload of SWATCH_LEARN or OPEN_WIRE_TEST (R169). -/
def resultPayload (l : List (Nat × Nat)) : List Byte := (l.map (fun e => u16 e.1 ++ u8 e.2 ++ rsv 1)).flatten

/-- Learning jobs whose channels all have results end with their FINAL event (R215, R237). -/
def Module.settleLearns (m : Module) : Module :=
  let done := m.prov.learns.filter (fun j => j.chans.all (fun c => c.2.2.isSome))
  let m := { m with prov := { m.prov with learns := m.prov.learns.filter (fun j => !j.chans.all (fun c => c.2.2.isSome)) } }
  done.foldl (fun m j =>
    m.final j.ref (if j.restarted then stSliceRestarted else stOk) 0
      (resultPayload (j.chans.map (fun c => (c.1, c.2.2.getD 3))))) m

/-- Open-wire jobs whose channels all have results end with their FINAL event (R170, R237). -/
def Module.settleWires (m : Module) : Module :=
  let done := m.prov.wires.filter (fun j => j.chans.all (fun c => c.2.isSome))
  let m := { m with prov := { m.prov with wires := m.prov.wires.filter (fun j => !j.chans.all (fun c => c.2.isSome)) } }
  done.foldl (fun m j =>
    m.final j.ref (if j.restarted then stSliceRestarted else stOk) 0
      (resultPayload (j.chans.map (fun c => (c.1, c.2.getD 2))))) m

/-- Is a channel being learned? -/
def Module.learning (m : Module) (ch : Nat) : Bool :=
  m.prov.learns.any (fun j => j.chans.any (fun c => c.1 == ch && c.2.2.isNone))

/-- The samples gathered for learning of the channels that satisfy `p` are dropped (R213). -/
def Module.dropSamples (m : Module) (p : Nat → Bool) : Module :=
  { m with prov := { m.prov with gather := Tbl.keep m.prov.gather (fun k => !p (k / 128)) } }

/-- Learning of the channels that satisfy `p` ends with a result (R215). -/
def Module.stopLearning (m : Module) (p : Nat → Bool) (result : Nat) (restarted : Bool) : Module :=
  let hit := fun (j : LearnJob) => j.chans.any (fun c => p c.1 && c.2.2.isNone)
  let m := { m with prov := { m.prov with learns := m.prov.learns.map (fun (j : LearnJob) =>
    { j with
      chans := j.chans.map (fun (c : Nat × Bool × Option Nat) => if p c.1 && c.2.2.isNone then (c.1, c.2.1, some result) else c)
      restarted := j.restarted || (restarted && hit j) }) } }
  (m.dropSamples p).settleLearns

/-- Learning of a channel that does not show STEADY, as CHANNEL_READ reports it, is interrupted (R197, R215). -/
def Module.learnGuard (m : Module) (p : Nat → Bool) : Module :=
  m.stopLearning (fun ch => p ch && m.learning ch && m.reported ch != .steady) 3 false

/-- Open-wire tests of the channels that satisfy `p` end NOT_TESTED. -/
def Module.stopWires (m : Module) (p : Nat → Bool) (restarted : Bool) : Module :=
  let hit := fun (j : WireJob) => j.chans.any (fun c => p c.1 && c.2.isNone)
  let m := { m with prov := { m.prov with wires := m.prov.wires.map (fun (j : WireJob) =>
    { j with
      chans := j.chans.map (fun (c : Nat × Option Nat) => if p c.1 && c.2.isNone then (c.1, some 2) else c)
      restarted := j.restarted || (restarted && hit j) }) } }
  m.settleWires

/-! ### Fault records (R219-R221) -/

/-- Change a record. -/
def Module.setRecord (m : Module) (ch kind : Nat) (f : FaultRec → FaultRec) : Module :=
  { m with prov := { m.prov with records := Tbl.modify FaultRec.none m.prov.records (recKey ch kind) f } }

/-- ACTIVE clears and LAMP_FAULT_END is produced (R219, R221); HOW 0 proved good, 1 pattern changed, 2 slice reloaded. -/
def Module.endFault (m : Module) (ch kind how : Nat) : Module :=
  let r := m.record ch kind
  if r.active then
    let m := m.setRecord ch kind (fun r => { r with active := false })
    m.event 0x8302 (u16 ch ++ u8 kind ++ u8 how ++ m.ca ++ u8 (bit r.latched) ++ rsv 4)
  else m

/-- A fault is detected: its record is set, LAMP_FAULT is produced and its response is committed in the same tick
(R217, R220, R222, R223, R225). -/
def Module.detect (m : Module) (ch kind : Nat) (cycle : Cycle) (angle : Angle) (bin : Nat) (value : Int) : Module :=
  let r := m.record ch kind
  if r.active then m
  else
    let resp := if kind = 4 then 0 else m.response ch
    let m := m.setRecord ch kind (fun r =>
      { active := true, latched := true, response := resp
        cycle := if r.latched then r.cycle else m.clk.cycle
        tick := if r.latched then r.tick else m.now })
    let m := m.event 0x8301 (u16 ch ++ u8 kind ++ u8 resp ++ u40 cycle.toNat ++ u16 angle.toNat ++ u8 bin ++
      leInt 2 value ++ rsv 2)
    m.vitalStop

/-- What follows when the pattern a channel shows changes from `old`: runs of DARK end, DARK clears at OFF, FALSE_LIT at a
lit pattern, learning that leaves STEADY is interrupted and an open-wire test under way on the channel ends (R215, R217,
R219, R252); a change to DIM makes its first firing a turn-on from off (R208). -/
def Module.patternChanged (m : Module) (ch : Nat) (old : Pattern) : Module :=
  let new := (m.shown ch).1.pattern
  if old == new then m
  else
    let m := m.setChan ch (fun c => { c with darkRun := 0, fresh := c.fresh || new == .off || new == .dim })
    let m := m.learnGuard (fun x => x == ch)
    let m := if ((m.slice (ch / 16)).wire.map (fun w => w.1)) = some (ch % 16) then
        ((m.setOwn (ch / 16) (fun o => { o with wire := none })).setSlice (ch / 16) (fun h => { h with wire := none })).stopWires
          (fun x => x == ch) false
      else m
    if new == .off then m.endFault ch 1 1 else m.endFault ch 2 1

/-- A source takes effect on a channel: what it shows changes by `f`, a trip that held it off ends, and so does a thermal cut once
the slice has cooled, and the switch follows (R186, R202, R219, R247). -/
def Module.takeEffect (m : Module) (ch : Nat) (f : Chan → Chan) : Module :=
  let old := (m.shown ch).1.pattern
  let cool := m.coolSlice ch
  let m := m.setChan ch (fun c => { f c with tripOpen := false, tripped := false, edge := [], cut := c.cut && !cool })
  let m := m.patternChanged ch old
  let s := (m.shown ch).1
  let flashing := s.pattern == .flashA || s.pattern == .flashB
  let m := m.setChan ch (fun c => { c with waitOn := c.waitOn && flashing })
  if s.pattern == .dim && !m.dimsAsSteady ch then
    m.moveSwitch ch (!(s.mode == .zeroCross && (m.busOf ch).phase.kind == .ac) && m.dimNow ch)
  else m.refresh ch

/-- A start pattern takes effect on a channel; one that flashes begins at a whole flash period, and is dark until then (R53-R55,
and the edges of spec/02). -/
def Module.applyStart (m : Module) (ch : Nat) : Module :=
  let s := m.startShown ch
  let k := if s.pattern == .flashB then 3 else 2
  let whole := (m.lamps.gen k).index (m.lamps.halfFor 1 k) == 0
  let flashing := s.pattern == .flashA || s.pattern == .flashB
  m.takeEffect ch (fun c => { c with start := some s, fb := 0, waitOn := flashing && !whole })

/-- A fallback begins, changes its pattern or ends on a channel at a zero crossing of its bus (R203, R223, R224, R473). -/
def Module.applyFallback (m : Module) (ch : Nat) : Module :=
  let fb := m.fallbackFor ch
  let c := m.chan ch
  let pat := Tbl.get .off m.live.fallback ch
  if fb = 0 then (if c.fb = 0 then m else m.applyStart ch)
  else if fb = c.fb && pat == c.fbPat then m.refresh ch
  else m.takeEffect ch (fun c => { c with fb := fb, fbPat := pat, cmd := none, zc := [] })

/-! ### Frames to a slice (R229-R236) -/

/-- A REQUEST, which its REPLY ends. -/
def HubMsg.isRequest : HubMsg → Bool
  | .request _ => true
  | _ => false
/-- Ticks allowed for the acknowledgement or reply (R233). -/
def allowance (msg : HubMsg) : Nat := if msg.isRequest then 20000 else 2000

/-- Up to 8 frames are outstanding; the others wait with no send yet (R232). -/
def startFrames (now : Nat) : Nat → List Unacked → List Unacked
  | _, [] => []
  | active, u :: us =>
    if u.sends = 0 then
      if active < 8 then { u with sends := 1, deadline := now + allowance u.msg } :: startFrames now (active + 1) us
      else u :: startFrames now active us
    else u :: startFrames now (active + 1) us

/-- A frame goes onto a slice's link (R229). -/
def Module.putFrame (m : Module) (n : Nat) (u : Unacked) : Module := m.put (.toSlice n (m.slice n).epoch u.seq u.msg)
/-- The frames of a link become `l`; those for which there is room start, and go out (R232). -/
def Module.setFrames (m : Module) (n : Nat) (l : List Unacked) : Module :=
  let new := startFrames m.now 0 l
  let m := m.setSlice n (fun h => { h with unacked := new })
  (l.zip new).foldl (fun m e => if e.1.sends = 0 && e.2.sends == 1 then m.putFrame n e.2 else m) m

/-- Send an acknowledged frame to a slice (R230, R232). -/
def Module.sendSlice (m : Module) (n : Nat) (msg : HubMsg) (serves : Option (Word16 × Packet)) : Module :=
  let seq := (m.slice n).seq + 1
  let m := m.setSlice n (fun h => { h with seq := seq })
  m.setFrames n ((m.slice n).unacked ++ [⟨seq, msg, 0, 0, serves⟩])
/-- A PLAN frame for every slice that runs (R230). -/
def Module.planAll (m : Module) (body : Nat → PlanBody) : Module :=
  m.each (List.range m.variant.slices) (fun n m => if (m.slice n).loaded then m.sendSlice n (.plan (body n)) none else m)

/-- An ACK covers every LOAD and PLAN frame up to its SEQ whose deadline it meets; a REQUEST waits for its REPLY (R100, R232,
R233). -/
def ackFrames (now : Nat) (ack : Word16) (l : List Unacked) : List Unacked :=
  if l.any (fun u => u.seq == ack && u.sends != 0) then
    let upto := (l.takeWhile (fun u => u.seq != ack)).length + 1
    (l.take upto).filter (fun u => u.msg.isRequest || decide (u.deadline < now)) ++ l.drop upto
  else l

/-- The slice numbers of a self-test's SELECT. -/
def bistHits (target : Nat) (select : Word16) (n : Nat) : Bool :=
  (target == 2 || target == 6) && (select == 0xFFFF || select == BitVec.ofNat 16 n)

/-- A load attempt begins: the firmware's block with START set, and the echo that measures the link (R56, R230, R231; log 85). -/
def Module.beginLoad (m : Module) (n : Nat) : Module :=
  let m := m.setSlice n (fun h => { h with loadStep := 1, unacked := [] })
  (m.sendSlice n (.load true .firmware) none).sendSlice n (.request .echo) none

/-- A slice is held failed after four attempts: it is held in reset with its gates off, and its channels are faulted
SLICE_SILENT (R58, R217). -/
def Module.holdFailed (m : Module) (n : Nat) : Module :=
  let m := m.setSlice n (fun h =>
    { h with failed := true, loaded := false, awaitHello := none, attempts := 4, loadStep := 0, unacked := [], stored := false })
  let m := (m.openAll n id).setOwn n (fun _ => OwnSlice.reset 1)
  m.each (sliceChans n) (fun ch m => m.detect ch 3 m.clk.cycle m.clk.angle 0xFF 0)

/-- A self-test that tests slice `n` ends as the slice starts afresh (R237). -/
def Module.failBist (m : Module) (n : Nat) : Module :=
  match m.diag.bist with
  | some (f, target, select) =>
    if bistHits target select n then
      { m with diag := { m.diag with bist := none } }.final f stSliceRestarted 0 []
    else m
  | none => m

/-- The single-slice reset in the tick of its decision (R237): new epoch, everything outstanding fails, the gates open
while the slice is loaded again (R64, R239), unless it runs alone, whose switches only the link reset sequence opens
(section 5.1 of spec/08); `link` sends that sequence (R236, R471). -/
def Module.sliceReset (m : Module) (n : Nat) (link : Bool) : Module :=
  let h := m.slice n
  let inLoad := !h.loaded
  let m := m.setSlice n (fun h =>
    { HubSlice.reset with
      epoch := nextEpoch h.epoch, attempts := if inLoad then h.attempts + 1 else 0, failed := h.failed,
      seq := h.seq, rxSeq := h.rxSeq, gaps := h.gaps, lastFrame := h.lastFrame, judged := h.judged, r51 := h.r51, stored := link && h.stored,
      startDue := h.startDue, bus := { h.bus with vbusDiff := 0 },
      awaitHello := if link then some (m.now + 2000000) else none, reloaded := false })
  let m := if link then m.put (.linkReset n) else m
  let alone := (m.ownOf n).alone
  let m := m.each (sliceChans n) (fun ch m =>
    m.setChan ch (fun c =>
      let c := { c with cmd := match c.zc.getLast? with | some z => some z.1 | none => c.cmd, zc := [], edge := [] }
      if alone then c else { c.openAt m.now false with tripOpen := false, lit := false }))
  let m := h.unacked.foldl (fun m u => match u.serves with
    | some (op, p) => m.complete op p 0 stSliceRestarted (BitVec.ofNat 16 n) []
    | none => m) m
  let m := m.stopLearning (fun ch => ch / 16 == n) 3 true
  let m := m.stopWires (fun ch => ch / 16 == n) true
  let m := if inLoad && decide (3 ≤ h.attempts) then m.holdFailed n else if link then m else m.beginLoad n
  m.failBist n

/-- One load attempt failed: four in a row hold the slice failed, else another follows under the next epoch (R58, R68). -/
def Module.loadFailed (m : Module) (n : Nat) : Module :=
  let a := (m.slice n).attempts + 1
  if 4 ≤ a then m.holdFailed n
  else (m.setSlice n (fun h => { h with attempts := a, epoch := nextEpoch h.epoch })).beginLoad n

/-- A frame of a slice: one that fails its CRC or whose LEN disagrees is discarded (R229); one of a stale epoch is discarded,
three in a row reset the link; one of the current epoch acknowledges, and its content is acted on by `f` (R232, R235-R237). -/
def Module.fromSlice (m : Module) (n : Nat) (hdr : SliceHdr) (f : Module → Module) : Module :=
  let h := m.slice n
  if m.stage == .unpowered || m.stage == .rails || h.failed || !hdr.good then m
  else if hdr.epoch ≠ h.epoch || h.epoch = 0 then
    if h.stale + 1 < 3 then m.setSlice n (fun h => { h with stale := h.stale + 1 })
    else m.sliceReset n true
  else
    let m := m.setSlice n (fun h =>
      { h with
        stale := 0, lastFrame := m.clk.turn, rxSeq := hdr.seq
        gaps := if hdr.seq = h.rxSeq + 1 then h.gaps else h.gaps + 1 })
    f (m.setFrames n (ackFrames m.now hdr.ack (m.slice n).unacked))

/-- A store that names a different primary reference (R83): FREE and SYNTHETIC follow it at once, a tracker on its own AC bus
takes it at its next valid positive crossing, and in the domain it is used when the tracker next follows its own bus. -/
def Module.primaryNamed (m : Module) : Module :=
  let p := m.items.refPrimary
  match m.clk.tracker with
  | .free | .synthetic => { m with clk := { m.clk with ref := p, altRef := false, takePrimary := false } }
  | .locking | .locked | .flywheel =>
    { m with clk := { m.clk with takePrimary := decide (p ≠ m.clk.ref) || m.clk.altRef } }
  | _ => m

/-- A stored configuration change begins to take effect (R473): changed FA or FB wait for their new period start and go to
each slice in a PLAN frame, a changed primary acts under R83; the other items wait for the next cycle, a load or their next
use. -/
def Module.configChanged (m : Module) (old : Items) : Module :=
  let new := m.items
  let m := if old.refPrimary = new.refPrimary then m else m.primaryNamed
  let fa := decide (old.fa ≠ new.fa)
  let fb := decide (old.fb ≠ new.fb)
  let g := if fa then Tbl.set [] m.lamps.genNext 2 [new.fa] else m.lamps.genNext
  let g := if fb then Tbl.set [] g 3 [new.fb] else g
  let m := { m with lamps := { m.lamps with genNext := g } }
  let m := if fa then m.planAll (fun _ => .flash 0 new.fa.period new.fa.on new.fa.phase) else m
  if fb then m.planAll (fun _ => .flash 1 new.fb.period new.fb.on new.fb.phase) else m

end Sys2Proof.Machine
end

