-- ==== Sys2Proof/Machine/Flags.lean ====
section
/-! DEFINITION. Status bits that the module computes from its state: the bits of STATUS_READ and RING_STATUS, the ALERT
outputs and the LEDs (R161, R172, R463, R464). -/

namespace Sys2Proof.Machine
open Sys2Proof

/-- Bit n for each slice that satisfies `p` (R161). -/
def Module.sliceMask (m : Module) (p : HubSlice → Bool) : Nat :=
  ((List.range m.variant.slices).map (fun n => if p (m.slice n) then 2 ^ n else 0)).sum

/-- A channel has an ACTIVE record of some KIND. -/
def Module.activeFault (m : Module) (ch : Nat) : Bool := [1, 2, 3, 4].any (fun k => (m.record ch k).active)
/-- ACTIVE_FAULTS: channels with an active fault (R161). -/
def Module.activeFaults (m : Module) : Nat :=
  ((List.range m.variant.channels).filter (fun ch => m.activeFault ch)).length

/-- VITAL_OK, LANE_H_UP, ATTACHED and LEAN of STATUS_READ (R161). -/
def Module.statusBits (m : Module) : Nat :=
  bit m.prov.toggling + 2 * bit m.laneHUp + 4 * bit m.win.attached + 8 * bit (m.pow.ledger != 0)

/-- A span is authenticated. -/
def Span.authenticated (s : Span) : Bool := s.auth == .done

/-- GATEWAY to AUTH of RING_STATUS (R172). -/
def Module.ringBits (m : Module) : Nat :=
  bit m.gateway + 2 * bit m.ring.escrowE + 4 * bit m.ring.escrowW + 8 * bit m.ring.split +
    16 * bit m.ring.e1w1Idle + 32 * bit m.ring.muted + 64 * bit m.vault.current.isSome +
    128 * bit (m.ring.east.authenticated && m.ring.west.authenticated)

/-- ALERT_FAULT conducts (R463). -/
def Module.alertFault (m : Module) : Bool := m.running && m.activeFaults == 0
/-- ALERT_POWER conducts (R463). -/
def Module.alertPower (m : Module) : Bool := m.coresUp && m.pow.mains && !m.pow.onBackup && m.pow.ledger == 0

/-- A colour of an LED (R464). -/
inductive Led where
  | off | green | amber | red | flashing
  deriving DecidableEq, Repr

/-- The POWER LED. -/
def Module.ledPower (m : Module) : Led :=
  match m.stage with
  | .unpowered | .holdup => .off
  | .standby => .flashing
  | _ => if m.pow.onBackup then .amber else .green
/-- The RUN LED. -/
def Module.ledRun (m : Module) : Led :=
  match m.stage with
  | .unpowered | .standby | .holdup => .off
  | .bootRom => .red
  | _ => if m.stateCode = 1 then .green else if m.stateCode = 2 then .amber else .flashing
/-- The VITAL LED. -/
def Module.ledVital (m : Module) : Led := if m.prov.toggling then .green else .off
/-- The FAULT LED. -/
def Module.ledFault (m : Module) : Led :=
  if m.prov.records.any (fun e => e.2.active) then .red
  else if m.prov.records.any (fun e => e.2.latched) then .amber else .off
/-- The RING LED. -/
def Module.ledRing (m : Module) : Led :=
  if !m.variant.hasRing || (m.ring.east.broken && m.ring.west.broken) then .off
  else if m.ring.muted then .red
  else if m.ring.form == .foldedChain || m.ring.form == .wrappedDual || m.ring.east.auth == .keyless ||
      m.ring.west.auth == .keyless then .amber
  else .green
/-- The DUMP LED. -/
def Module.ledDump (m : Module) : Led := if m.diag.first.isSome || m.diag.last.isSome then .amber else .off

end Sys2Proof.Machine
end

