-- ==== Sys2Proof/Machine/Window.lean ====
section
/-! DEFINITION. The host window, lane H and the doorbell page: passbook exchanges, doorbells, attach and detach, entries
placed in report buffers, reads and writes (spec/04, section 12 of spec/10). -/

namespace Sys2Proof.Machine
open Sys2Proof

/-! ### Buffer descriptors (R117) -/

/-- A buffer descriptor as it stands in the window. -/
structure Desc where
  addr  : Nat
  len   : Nat
  epoch : Nat
  flags : Nat
  deriving DecidableEq, Repr

/-- Window offset of descriptor `i` of a till (R119). -/
def Till.descAt (t : Till) (i : Word16) : Nat := t.base.toNat + 16 * (i.toNat % (if t.len = 0 then 1 else t.len.toNat))
/-- Read a descriptor. -/
def Module.desc (m : Module) (t : Till) (i : Word16) : Desc :=
  let b := Memory.reads m.win.mem (t.descAt i) 16
  ⟨fieldAt b 0 4, fieldAt b 4 4, fieldAt b 8 2, fieldAt b 12 4⟩
/-- OWN of a descriptor. -/
def Desc.own (d : Desc) : Bool := d.flags % 2 == 1

/-- Bytes of the window change, and the words they cover are good again (R107). -/
def Module.poke (m : Module) (a : Nat) (bs : List Byte) : Module :=
  { m with win := { m.win with
    mem := Memory.writes m.win.mem a bs
    eccWords := Tbl.keep m.win.eccWords (fun w => !(decide (a < 8 * w + 8) && decide (8 * w < a + bs.length))) } }

/-- NOTICE_SEQ counts a cleared OWN or a set PENDING (R111). -/
def Module.notice (m : Module) : Module := { m with win := { m.win with noticeSeq := m.win.noticeSeq + 1 } }

/-- A buffer lies 8-byte aligned in pages the host owns (R117, R118). -/
def Module.bufferOk (m : Module) (addr len : Nat) : Bool := addr % 8 == 0 && m.win.allOwned addr len 1

/-! ### Replies and events into report buffers (R121, R125, R126, R130) -/

/-- Return a report buffer unused: ERROR set, LEN the length needed, OWN cleared (R121). -/
def Module.returnBuffer (m : Module) (till : Word16) (needed : Nat) : Module :=
  let t := m.till till
  let a := t.descAt t.cons
  let m := m.poke (a + 4) (u32 needed)
  let m := m.poke (a + 12) (u32 4)
  (m.setTill till (fun t => { t with cons := t.cons + 1, errors := satInc t.errors })).notice

/-- Place the entry `w` in the next posted buffers of its till; `fuel` bounds the buffers. At a descriptor whose OWN is 0 the
till stops until its next doorbell (R119). A buffer that is misaligned or not in host-owned pages is returned like one that is
too short (R121 speaks only of the latter), and the descriptor's reserved bytes 0x0A and 0x0B stay as the host wrote them (R16;
log 68). -/
def Module.placeIn (m : Module) (w : Waiting) : Nat → Module
  | 0 => m
  | fuel + 1 =>
    let t := m.till w.till
    if t.cons = t.prod || Tbl.get false m.win.stopped w.till.toNat then m
    else
      let d := m.desc t t.cons
      let bs := w.entry.bytes
      if !d.own then { m with win := { m.win with stopped := Tbl.set false m.win.stopped w.till.toNat true } }
      else if d.len < bs.length || !m.bufferOk d.addr d.len then (m.returnBuffer w.till bs.length).placeIn w fuel
      else
        let a := t.descAt t.cons
        let stale := if w.epoch = m.vault.hostEpoch then 0 else 2
        let m := m.poke d.addr bs
        let m := m.poke (a + 4) (u32 bs.length)
        let m := m.poke (a + 8) (u16 w.epoch.toNat)
        let m := m.poke (a + 12) (u32 stale)
        let m := (m.setTill w.till (fun t => { t with cons := t.cons + 1, count := t.count + 1 })).notice
        let m := { m with win := { m.win with waiting := m.win.waiting.erase w } }
        let m := if 0x1000 ≤ w.till.toNat then
            { m with win := { m.win with pendingBits := Tbl.set false m.win.pendingBits (w.till.toNat - 0x1000) true } }.notice
          else m
        m.overflows

/-- A till that report entries can be placed in. -/
def Module.reports (m : Module) (till : Word16) : Bool :=
  let t := m.till till
  (t.kind == 3 || till == 1) && t.state == 1

/-- The oldest waiting entry of a till is placed, when a buffer is posted (R125). -/
def Module.placeEntry (m : Module) (till : Word16) : Module :=
  if m.coresUp && m.win.attached && m.reports till then
    match m.win.waiting.find? (fun w => w.till == till) with
    | some w => m.placeIn w ((m.till till).prod - (m.till till).cons).toNat
    | none => m
  else m

/-! ### Doorbells (R119, R120, R122, R123) -/

/-- A doorbell's PROD covers index `i`. -/
def covered (prod i : Word16) : Bool := decide (0 < (prod - i).toNat) && decide ((prod - i).toNat ≤ 4096)
/-- The stamp of the doorbell that first covered index `i` of a till (R123). -/
def Module.rungAt (m : Module) (till i : Word16) : Nat :=
  match (Tbl.get [] m.win.rung till.toNat).find? (fun e => covered e.1 i) with
  | some e => e.2
  | none => m.now
/-- The doorbells of a till that still cover an untaken descriptor. -/
def Module.keepRung (m : Module) (till : Word16) (l : List (Word16 × Nat)) : Module :=
  { m with win := { m.win with
    rung := Tbl.set [] m.win.rung till.toNat (l.filter (fun e => covered e.1 (m.till till).cons)) } }

/-- A window word of `n` bytes at `o` holds an uncorrectable error (R106). -/
def Module.poisoned (m : Module) (o n : Nat) : Bool :=
  m.win.eccWords.any (fun e => decide (o < 8 * e.1 + 8) && decide (8 * e.1 < o + n))

/-- Take command descriptors in index order up to PROD, stopping at one the host holds; each packet arrives at the stamp of the
doorbell that first covered it (R106, R119, R120, R123, R133). -/
def Module.takeDescs (m : Module) (till : Word16) : Nat → Module
  | 0 => m
  | fuel + 1 =>
    let t := m.till till
    let d := m.desc t t.cons
    let a := t.descAt t.cons
    if !d.own then m
    else if d.len < 32 || 65536 < d.len || !m.bufferOk d.addr d.len then
      let m := m.poke (a + 12) (u32 4)
      ((m.setTill till (fun t => { t with cons := t.cons + 1, errors := satInc t.errors })).notice).takeDescs till fuel
    else
      let bs := Memory.reads m.win.mem d.addr d.len
      let good := wellFormedBytes bs && !m.poisoned d.addr d.len
      let stamp := m.rungAt till t.cons
      let m := m.poke (a + 12) (u32 0)
      let m := (m.setTill till (fun t => { t with cons := t.cons + 1, count := t.count + 1 })).notice
      (m.arrive (readPacket (.laneH till) bs) stamp good).takeDescs till fuel

/-- Why a doorbell is refused, 0 when it is not (R122). -/
def Module.doorbellReason (m : Module) (till prod epoch : Word16) : Nat :=
  let t := m.till till
  if !m.win.attached then 4
  else if t.state ≠ 1 || 0x2000 ≤ till.toNat then 1
  else if epoch ≠ m.vault.hostEpoch then 2
  else if t.len.toNat < (prod - t.cons).toNat then 3
  else 0

/-- A refused doorbell is counted (R122). -/
def Module.refuseDoorbell (m : Module) (till : Word16) (reason : Nat) : Module :=
  { m with win := { m.win with
    dbErrors := satInc m.win.dbErrors, dbLastTill := till, dbLastReason := BitVec.ofNat 8 reason } }

/-- The keep-alive limit runs anew from now (R111, R128). -/
def Module.restartKeepalive (m : Module) : Module :=
  { m with win := { m.win with
    keepDeadline := if m.win.attached && m.win.keepalive != 0 then some (m.now + 100000 * m.win.keepalive.toNat) else none } }

/-- The doorbell register is written (R119, R122). -/
def Module.doorbell (m : Module) (till prod epoch : Word16) : Module :=
  if m.coresUp then
    let m := m.restartKeepalive
    match m.doorbellReason till prod epoch with
    | 0 =>
      let m := m.setTill till (fun t => { t with prod := prod })
      let t := m.till till
      let rung := Tbl.get [] m.win.rung till.toNat ++ [(prod, m.now)]
      if t.kind = 2 || till = 0 then
        ((m.keepRung till rung).takeDescs till (prod - t.cons).toNat).keepRung till rung
      else { m with win := { m.win with stopped := Tbl.erase m.win.stopped till.toNat } }
    | r => m.refuseDoorbell till r
  else m
/-- DOORBELL (R112, R119, R122, R123). -/
def execDoorbell (dt : Nat) (till prod epoch : Word16) (s : State) : Result := s.on dt (fun m => m.doorbell till prod epoch)

/-! ### Attach and detach (R127-R130) -/

/-- Every host-facing till that is not closed becomes STALE (R129). -/
def staleTills (t : Tbl Till) : Tbl Till :=
  t.map (fun e => if e.1 < 0x2000 && e.2.state != 0 then (e.1, { e.2 with state := 3 }) else e)
/-- Every STALE till is closed (R130). -/
def dropStale (t : Tbl Till) : Tbl Till := t.filter (fun e => e.2.state != 3)

/-- The host is detached (R128, R129). -/
def Module.detachHost (m : Module) (cause : Byte) : Module :=
  if m.win.attached then
    { m with win := { m.win with
      attached := false, detachCause := cause, keepDeadline := none, tills := staleTills m.win.tills, rung := [],
      stopped := [] } }
  else m

/-- A system till with its 256-descriptor ring; the command till's replies go to 0x0001 (R127, R140). -/
def sysTill (epoch link : Word16) (page : Nat) : Till :=
  { Till.closed with kind := 1, state := 1, epoch := epoch, link := link, base := BitVec.ofNat 32 (4096 * page), len := 256 }

/-- DUMP_READY at attach while FIRST is HELD (R450). -/
def Module.dumpReady (m : Module) : Module :=
  match m.diag.first with
  | none => m
  | some f =>
    let later := match m.diag.last with | some l => l.seq != f.seq | none => false
    m.event 0x8A01 (u32 f.seq.toNat ++ u8 f.cause.toNat ++
      u8 (bit (m.diag.dump == some f.seq) + 2 * bit (f.flags.getLsbD 1) + 4 * bit later) ++ u16 f.hubEpoch.toNat ++
      u40 f.cycle.toNat ++ u16 f.angle.toNat ++ rsv 1)

/-- ATTACH is written as 1 with SYS_PAGE (R127). -/
def Module.attachHost (m : Module) (page : Nat) : Module :=
  if m.coresUp then
    let m := m.detachHost 1
    if m.win.code page = 1 ∧ m.win.code (page + 1) = 1 ∧ page + 1 < 16384 then
      let e := nextEpoch m.vault.hostEpoch
      let m := { m with
        vault := { m.vault with hostEpoch := e }
        win := { m.win with tills := dropStale m.win.tills, attached := true, detachCause := 0, applied := 0 } }
      let m := m.setTill 0 (fun _ => sysTill e 1 page)
      let m := m.setTill 1 (fun _ => sysTill e 0 (page + 1))
      m.restartKeepalive.dumpReady
    else
      let m := m.refuseDoorbell 0 5
      { m with win := { m.win with detachCause := 5 } }
  else m
/-- ATTACH (R127). -/
def execAttach (dt : Nat) (sysPage : BitVec 14) (s : State) : Result := s.on dt (fun m => m.attachHost sysPage.toNat)
/-- DETACH (R129). -/
def execDetach (dt : Nat) (s : State) : Result := s.on dt (fun m => if m.coresUp then m.detachHost 1 else m)

/-- KEEPALIVE is written (R111, R128). -/
def Module.writeKeepalive (m : Module) (ms : Word16) : Module :=
  if m.coresUp then { m with win := { m.win with keepalive := ms } }.restartKeepalive else m
/-- KEEPALIVE (R128). -/
def execKeepalive (dt : Nat) (ms : Word16) (s : State) : Result := s.on dt (fun m => m.writeKeepalive ms)

/-- The keep-alive limit expires once its deadline tick has passed (R97, R98, R128). -/
def Module.keepaliveExpiry (m : Module) : Module :=
  match m.win.keepDeadline with
  | some d => if m.expired d then m.detachHost 3 else m
  | none => m
/-- KEEPALIVE_EXPIRY (R128). -/
def execKeepaliveExpiry (dt : Nat) (s : State) : Result := s.on dt (fun m => m.keepaliveExpiry)

/-! ### Passbook exchanges (R104, R109, R110) -/

/-- The transitions the host may make (R104). -/
def hostTransition (expect new : BitVec 2) : Bool :=
  (expect == 0 && new == 1) || (expect == 1 && new == 0) || (expect == 1 && new == 2)

/-- Does `[a, a + n)` touch page `k`? -/
def touches (a n k : Nat) : Bool := decide (0 < n) && decide (a < 4096 * (k + 1)) && decide (4096 * k < a + n)

/-- The buffers that the module holds by an OWN bit: every descriptor of a ring whose OWN is 1, as offset and length. -/
def Module.heldBuffers (m : Module) (t : Till) : List (Nat × Nat) :=
  ((List.range t.len.toNat).map (fun i => m.desc t (BitVec.ofNat 16 i))).filterMap
    (fun d => if d.own then some (d.addr, d.len) else none)
/-- What no exchange may take from its owner: the rings of the open tills, and every buffer that the module holds by its OWN
bit (R109). -/
def Module.pagesInUse (m : Module) : List (Nat × Nat) :=
  let host := (m.win.tills.filter (fun e => decide (e.1 < 0x2000) && e.2.state != 0)).map (fun e => e.2)
  (host.filter (fun t => t.state == 1)).map (fun t => (t.base.toNat, 16 * t.len.toNat)) ++
    (host.map (fun t => m.heldBuffers t)).flatten

/-- The outcome of an exchange: PX_CODE and FAIL_PAGE (R109). -/
def Module.pxOutcome (m : Module) (first count : Nat) (expect new : BitVec 2) : Nat × Option Nat :=
  if first < 2 || count = 0 || dumpFirst < first + count then (4, none)
  else if !hostTransition expect new then (2, none)
  else
    let pages := (List.range count).map (fun i => first + i)
    match pages.find? (fun k => m.win.code k != expect) with
    | some k => (1, some k)
    | none =>
      let held := m.pagesInUse
      match if held.isEmpty then none else pages.find? (fun k => held.any (fun b => touches b.1 b.2 k)) with
      | some k => (3, some k)
      | none => (0, none)

/-- The unit that MODULE_DDR tests is restored and its page is the module's again (R104, R436, R444). -/
def Module.endUnit (m : Module) : Module :=
  match m.diag.unit with
  | some k =>
    { m with
      win := if m.win.code k = 3 then m.win.setCode k 2 else m.win
      diag := { m.diag with unit := none } }
  | none => m
/-- The units that MODULE_DDR may test in the window: the module-owned pages outside the dump area (R436). -/
def Module.testPages (m : Module) : List Nat := (m.win.passbook.filter (fun e => e.2 == 2 && decide (e.1 < dumpFirst))).map (fun e => e.1)
/-- While MODULE_DDR runs it tests unit after unit, one of them LOCKED for up to 40 µs; which, when the host looks, is a free value: a
page, or private memory (R104, R434, R436; logs 8, 56). -/
def Module.nextUnit (m : Module) : Module :=
  match m.diag.bist with
  | some (_, 3, _) =>
    let m := m.endUnit
    let l := m.testPages
    let m' := { m with free := m.free + 1 }
    match l[(Config.freeInt m.free).toNat % (l.length + 1)]? with
    | some k => { m' with win := m'.win.setCode k 3, diag := { m'.diag with unit := some k } }
    | none => m'
  | _ => m

/-- PX_REQUEST is written: every page of the range changes together, or none; where no page fails, FAIL_PAGE keeps its value, for
which the spec gives none (R109; log 69). -/
def Module.exchange (m : Module) (first count : Nat) (expect new : BitVec 2) (seq : Word16) : Module :=
  let m := m.nextUnit
  let o := m.pxOutcome first count expect new
  let w := if o.1 = 0 then (List.range count).foldl (fun w i => w.setCode (first + i) new) m.win else m.win
  { m with win := { w with
    pxSeqEcho := seq, pxCode := BitVec.ofNat 8 o.1
    failPage := match o.2 with | some k => BitVec.ofNat 16 k | none => w.failPage } }
/-- PX_REQUEST (R109, R110). -/
def execPxRequest (dt : Nat) (first count : Word16) (expect new : BitVec 2) (seq : Word16) (s : State) : Result :=
  s.on dt (fun m => if m.coresUp then m.exchange first.toNat count.toNat expect new seq else m)

/-! ### PENDING (R111) -/

/-- W1C of PENDING bytes from byte `first` on (R111). -/
def clearPending (t : Tbl Bool) (first : Nat) : List Byte → Tbl Bool
  | [] => t
  | b :: bs =>
    clearPending ((List.range 8).foldl (fun t i => if b.getLsbD i then Tbl.erase t (8 * first + i) else t) t) (first + 1) bs
/-- PENDING_CLEAR (R111). -/
def execPendingClear (dt : Nat) (first : Nat) (data : List Byte) (s : State) : Result :=
  s.on dt (fun m =>
    if m.coresUp then { m with win := { m.win with pendingBits := clearPending m.win.pendingBits first data } } else m)

/-! ### Reads and writes on lane H (R103, R106, R111, R112, R296, R297) -/

/-- A lane H frame with a bad CRC is discarded and H_NOTICE is sent (R297). -/
def Module.badFrame (m : Module) : Module :=
  let n := satInc m.win.badCrc
  { m with win := { m.win with badCrc := n } }.put (.hNotice n)

/-- A discarded host write (R103). -/
def Module.violate (m : Module) (page : Nat) : Module := { m with win := m.win.violate page }

/-- A write of `n` bytes at `o` covers all of the `k` bytes at `a`. -/
def covers (o n a k : Nat) : Bool := decide (o ≤ a) && decide (a + k ≤ o + n)
/-- A write of `n` bytes at `o` covers some of the `k` bytes at `a`, but not all. -/
def cutsInto (o n a k : Nat) : Bool := decide (a < o + n) && decide (o < a + k) && !covers o n a k

/-- A write to page 0 is discarded: it cuts into a register that acts only whole, or it reaches the upper half outside
PENDING (R111, R112). -/
def page0Refuses (o n : Nat) : Bool :=
  cutsInto o n 0 8 || cutsInto o n 8 4 || cutsInto o n 16 8 ||
    (decide (0x800 < o + n) && !(decide (0xA00 ≤ o) && decide (o + n ≤ 0xC00)))

/-- The ATTACH register is written (R111, R127, R128). -/
def Module.writeAttach (m : Module) (v : Nat) : Module :=
  if v % 2 = 1 then m.attachHost (v / 65536 % 16384) else m.detachHost 1

/-- KEEPALIVE after a write of `data` at `o` that reaches it, byte by byte (R111). -/
def keepaliveAfter (old : Word16) (o : Nat) (data : List Byte) : Word16 :=
  let lo := if covers o data.length 12 1 then fieldAt data (12 - o) 1 else old.toNat % 256
  let hi := if covers o data.length 13 1 then fieldAt data (13 - o) 1 else old.toNat / 256
  BitVec.ofNat 16 (lo + 256 * hi)

/-- A write to page 0 takes the layout of R111: PENDING is W1C, the registers that it covers act in the order of their
offsets, reserved bytes are ignored, and what R112 or R111 refuses is discarded whole and counted (log 62). -/
def Module.writePage0 (m : Module) (o : Nat) (data : List Byte) : Module :=
  let n := data.length
  if page0Refuses o n then m.violate 0
  else
    let m := { m with win := { m.win with
      applied := m.win.applied + 1
      pendingBits := if 0xA00 ≤ o then clearPending m.win.pendingBits (o - 0xA00) data else m.win.pendingBits } }
    let m := if covers o n 0 8 then
        m.doorbell (BitVec.ofNat 16 (fieldAt data 0 2)) (BitVec.ofNat 16 (fieldAt data 2 2)) (BitVec.ofNat 16 (fieldAt data 4 2))
      else m
    let m := if covers o n 8 4 then m.writeAttach (fieldAt data (8 - o) 4) else m
    let m := if covers o n 12 1 || covers o n 13 1 then m.writeKeepalive (keepaliveAfter m.win.keepalive o data) else m
    if covers o n 16 8 then
      m.exchange (fieldAt data (16 - o) 2) (fieldAt data (18 - o) 2) (BitVec.ofNat 2 (fieldAt data (20 - o) 1))
        (BitVec.ofNat 2 (fieldAt data (20 - o) 1 / 4)) (BitVec.ofNat 16 (fieldAt data (22 - o) 2))
    else m

/-- A WR transaction (R103, R297). -/
def Module.write (m : Module) (o : Nat) (data : List Byte) : Module :=
  let m := m.nextUnit
  let page := pageOf o
  if windowSize < o + data.length || 4096 < o % 4096 + data.length || data.isEmpty then m.violate page
  else if page = 0 then m.writePage0 o data
  else if m.win.code page = 1 then
    let m := m.poke o data
    { m with win := { m.win with applied := m.win.applied + 1 } }
  else m.violate page
/-- WR (R103, R297). -/
def execWr (dt : Nat) (offset : Word32) (data : List Byte) (good : Bool) (s : State) : Result :=
  s.on dt (fun m => if m.coresUp then (if good then m.write offset.toNat data else m.badFrame) else m)

/-- The upper half of the doorbell page (R111). -/
def Module.doorbellUpper (m : Module) : List Byte :=
  let w := m.win
  let regs := u16 m.vault.hubEpoch.toNat ++ u16 m.vault.hostEpoch.toNat ++ u8 (bit w.attached) ++ u8 w.detachCause.toNat ++
    rsv 2 ++ u64 w.noticeSeq.toNat ++ u16 w.pxSeqEcho.toNat ++ u8 w.pxCode.toNat ++ rsv 1 ++ u16 w.failPage.toNat ++
    rsv 2 ++ u32 w.dbErrors.toNat ++ u16 w.dbLastTill.toNat ++ u8 w.dbLastReason.toNat ++ rsv 1 ++
    u32 w.violations.toNat ++ u16 w.lastViol.toNat
  padTo 0x200 regs ++
    (List.range 512).map (fun i => BitVec.ofNat 8 ((List.range 8).map (fun k =>
      if Tbl.get false w.pendingBits (8 * i + k) then 2 ^ k else 0)).sum) ++ rsv 0x400

/-- The passbook's byte `i`: the codes of four pages (R108). -/
def Window.passbookByte (w : Window) (i : Nat) : Byte :=
  BitVec.ofNat 8 ((w.code (4 * i)).toNat + 4 * (w.code (4 * i + 1)).toNat + 16 * (w.code (4 * i + 2)).toNat +
    64 * (w.code (4 * i + 3)).toNat)

/-- What a host read returns of `n` bytes at `o` within one page (R103, R108, R111). -/
def Module.readBytes (m : Module) (o n : Nat) : List Byte :=
  match pageOf o with
  | 0 => ((rsv 0x800 ++ m.doorbellUpper).drop o).take n
  | 1 => (List.range n).map (fun i => m.win.passbookByte (o - 4096 + i))
  | _ => Memory.reads m.win.mem o n

/-- STATUS of an RDC: 0 OK, 1 LOCKED, 2 POISON, 3 RANGE (R296). -/
def Module.readStatus (m : Module) (o n : Nat) : Nat :=
  if n = 0 || 4096 < n || windowSize < o + n || 4096 < o % 4096 + n then 3
  else if m.win.code (pageOf o) = 3 then 1
  else if m.poisoned o n then 2
  else 0

/-- An RD transaction is completed by RDC (R297). -/
def Module.readReq (m : Module) (tag o n : Nat) : Module :=
  let m := m.nextUnit
  let st := m.readStatus o n
  m.put (.rdc tag st o n (if st = 0 then m.readBytes o n else rsv n) m.win.applied)
/-- RD (R297). -/
def execRd (dt : Nat) (tag : Nat) (offset : Word32) (len : Word16) (good : Bool) (s : State) : Result :=
  s.on dt (fun m => if m.coresUp then (if good then m.readReq tag offset.toNat len.toNat else m.badFrame) else m)

/-- HOST_HELLO is answered with HELLO, and lane H is enumerated: the module is a gateway (R35, R297). -/
def Module.hostHello (m : Module) : Module := { m with win := { m.win with enumerated := true } }.put .hHello
/-- HOST_HELLO (R297). -/
def execHostHello (dt : Nat) (good : Bool) (s : State) : Result :=
  s.on dt (fun m => if m.coresUp then (if good then m.hostHello else m.badFrame) else m)

/-! ### Uncorrectable ECC errors in the window (R106, R107) -/

/-- PAGE_ECC, once for each failing word until it is written again (R107). -/
def Module.pageEcc (m : Module) (source : Byte) (word : Nat) : Module :=
  let w := word / 8
  if Tbl.get false m.win.eccWords w then m
  else
    let owner := (m.win.code (pageOf word)).toNat
    let m := { m with win := { m.win with eccWords := Tbl.set false m.win.eccWords w true } }
    m.event 0x8001 (u16 (pageOf word) ++ u8 owner ++ u8 source.toNat ++ m.ca ++ rsv 1 ++ u32 word)
/-- PAGE_ECC (R106, R107). -/
def execPageEcc (dt : Nat) (source : Byte) (word : Word32) (s : State) : Result :=
  s.on dt (fun m => m.pageEcc source word.toNat)

/-! ### A reset or standby waits for its reply (R63, R164, R173) -/

/-- The reply to an opcode has gone: no such reply waits behind another, for a posted buffer, a port or the ring (R164, R173). A host that
is detached gets it later (R129). -/
def Module.replyGone (m : Module) (opcode : Word16) : Bool :=
  !(m.win.attached && m.win.waiting.any (fun w => w.entry.opcode == opcode)) &&
    !m.tel.tickets.any (fun k => k.opcode == opcode && k.reply.isSome) && !m.maint.txq.any (fun r => r.opcode == opcode) && !m.drop.txq.any (fun r => r.opcode == opcode) &&
    !m.ring.txq.any (fun f => f.ty == 3 && fieldAt f.payload 0 2 == opcode.toNat)

/-- The replies for which a commanded reset waits have gone: its own and, on a broadcast, every other position's (R164, R391, R440). -/
def Module.resetClear (m : Module) : Bool :=
  m.replyGone 0x0109 && m.replyGone 0x0709 && m.replyGone 0x0A01 && !m.ring.forwards.any (fun f => f.2.1 == 0x0109)

/-- A commanded reset begins: the module fallback is committed, and the reset follows it (R63, R164, R391, R440). -/
def Module.resetStep (m : Module) : Module :=
  if m.resetDue.isSome && m.resetClear then
    { m with prov := { m.prov with coreFb := true } }
  else m

end Sys2Proof.Machine
end

