-- ==== Sys2Proof/Machine/System.lean ====
section
/-! DEFINITION. The system opcodes, 0x01xx (section 2 of spec/06), and the packets that fail steps 1 and 2 of R139. -/

namespace Sys2Proof.Machine
open Sys2Proof

/-! ### CAPABILITY_READ (R144) -/

/-- GROUPS: bits 1 to 10; 4 and 6 clear on a UM-96S (R144). -/
def Variant.groups (v : Variant) : Nat := if v.hasRing then 0x07FE else 0x07AE

/-- The 64-byte capability descriptor (R144). -/
def Module.capability (m : Module) : List Byte :=
  u16 1 ++ u8 m.variant.code.toNat ++ u8 m.variant.slices ++ u16 m.variant.channels ++ u16 m.variant.lanes.toNat ++
  u32 (bit m.variant.metering + 2 * bit m.variant.hasRing) ++ u16 m.vault.hubEpoch.toNat ++ u8 m.positionByte.toNat ++
  u8 m.stateCode ++ u32 m.upd.fwVersion.toNat ++ u16 m.upd.secVersion.toNat ++ u16 m.upd.schema.toNat ++ u32 65504 ++
  u16 4096 ++ u16 m.variant.groups ++ rsv 32

/-- CAPABILITY_READ. -/
def opCapabilityRead : Op :=
  { code := 0x0101, bcast := true, judge := fun _ p => lengthIs p 0, act := fun m _ _ => (m, some (.ok m.capability)) }
/-- CAPABILITY_READ (R144). -/
def execCapabilityRead (dt : Nat) (p : Packet) (s : State) : Result := s.serve dt opCapabilityRead p

/-! ### STATUS_READ (R161, R162) -/

/-- The 32-byte status (R161). -/
def Module.statusPayload (m : Module) : List Byte :=
  u8 m.stateCode ++ u8 m.firstCause.toNat ++ u8 m.clk.tracker.code ++ u8 m.statusBits ++
  leBytes 3 (m.sliceMask (·.failed)) ++ rsv 1 ++ leBytes 3 (m.sliceMask (·.stored)) ++ rsv 1 ++
  u16 m.activeFaults ++ u16 m.vault.hostEpoch.toNat ++ u16 (40960 - m.win.used 0x2000 40960) ++
  u16 (16384 - m.win.used 0xC000 16384) ++ u8 m.latestCause.toNat ++ u8 m.unread ++ rsv 10

/-- STATUS_READ. -/
def opStatusRead : Op :=
  { code := 0x0102, bcast := true,
    judge := fun _ p => firstOf [lengthIs p 4, need (decide (p.field 0 1 ≤ 1)) 0],
    act := fun m p _ =>
      (if p.field 0 1 = 0 then { m with firstCause := 0, latestCause := 0, unread := 0 } else m,
       some (.ok m.statusPayload)) }
/-- STATUS_READ (R65, R161, R162). -/
def execStatusRead (dt : Nat) (p : Packet) (s : State) : Result := s.serve dt opStatusRead p

/-! ### TIME_READ (R73, R74, R88) -/

/-- A bus phase record's 8 bytes (R88). -/
def busRecBytes (b : BusRec) : List Byte :=
  u16 b.pos.toNat ++ u16 b.neg.toNat ++ u8 (b.kind.code + 4 * bit b.settled) ++ rsv 3

/-- The time snapshot and a bus phase record per present slice (R74, R88). -/
def Module.timePayload (m : Module) : List Byte :=
  u40 m.clk.cycle.toNat ++ u16 m.clk.angle.toNat ++
  u8 (m.clk.tracker.code + 8 * bit m.clk.altRef + 128 * bit m.clk.stepped) ++ u64 m.clk.tick.toNat ++
  u32 m.clk.period.toNat ++ rsv 4 ++
  (((List.range m.variant.slices).filter m.present).map (fun n => busRecBytes (m.slice n).bus.phase)).flatten

/-- TIME_READ. -/
def opTimeRead : Op :=
  { code := 0x0103, bcast := true, judge := fun _ p => lengthIs p 0,
    act := fun m _ _ => ({ m with clk := { m.clk with stepped := false } }, some (.ok m.timePayload)) }
/-- TIME_READ (R73, R74): reading the snapshot clears STEPPED. -/
def execTimeRead (dt : Nat) (p : Packet) (s : State) : Result := s.serve dt opTimeRead p

/-! ### Tills (R114-R116, R130, R160) -/

/-- RING_LEN is a power of two from 16 to 4,096 (R116). -/
def ringLenOk (n : Nat) : Bool := [16, 32, 64, 128, 256, 512, 1024, 2048, 4096].contains n

/-- TILL_OPEN. -/
def opTillOpen : Op :=
  { code := 0x0104,
    judge := fun m p =>
      let id := p.field 0 2
      let kind := p.field 2 1
      let base := p.field 4 4
      let len := p.field 8 2
      let rep := BitVec.ofNat 16 (p.field 10 2)
      firstOf [lengthIs p 12,
        need (decide (0x0100 ≤ id) && decide (id ≤ 0x1FFF)) 0,
        need ((kind == 2 && decide (id < 0x1000)) || (kind == 3 && decide (0x1000 ≤ id))) 2,
        need (base % 4096 == 0 && (!ringLenOk len || m.win.allOwned base (16 * len) 1)) 4,
        need (ringLenOk len) 8,
        need (if kind = 2 then (m.till rep).kind == 3 && (m.till rep).state == 1 else rep == 0) 10,
        busyUnless m.win.attached,
        busyUnless ((m.till (BitVec.ofNat 16 id)).state == 0)],
    act := fun m p _ =>
      (m.setTill (BitVec.ofNat 16 (p.field 0 2)) (fun _ => { Till.closed with
        kind := BitVec.ofNat 8 (p.field 2 1), state := 1, epoch := m.vault.hostEpoch,
        link := BitVec.ofNat 16 (p.field 10 2), base := BitVec.ofNat 32 (p.field 4 4),
        len := BitVec.ofNat 16 (p.field 8 2) }), some (.ok [])) }
/-- TILL_OPEN (R116). -/
def execTillOpen (dt : Nat) (p : Packet) (s : State) : Result := s.serve dt opTillOpen p

/-- Close a till: a report till discards what waits for it, a command till waits for its replies (R130, R160). -/
def Module.closeTill (m : Module) (p : Packet) (id : Word16) : Module :=
  let win := { m.win with
    waiting := m.win.waiting.filter (fun w => w.till != id), losses := Tbl.erase m.win.losses id.toNat
    rung := Tbl.erase m.win.rung id.toNat, stopped := Tbl.erase m.win.stopped id.toNat }
  let t := m.till id
  let m :=
    if t.kind = 2 ∧ t.state = 1 then
      let m := { m with win := win }.setTill id (fun t => { t with state := 2 })
      if p.path = .laneH id then m else m.settleClosing id
    else if t.state = 2 then { m with win := win }
    else { m with win := win }.setTill id (fun _ => Till.closed)
  m.overflows

/-- TILL_CLOSE. -/
def opTillClose : Op :=
  { code := 0x0105,
    judge := fun _ p =>
      let id := p.field 0 2
      firstOf [lengthIs p 4, need (decide (0x0100 ≤ id) && decide (id ≤ 0x1FFF)) 0],
    act := fun m p _ =>
      let id := BitVec.ofNat 16 (p.field 0 2)
      (m.closeTill p id, some (.ok (u32 (m.win.waiting.filter (fun w => w.till == id)).length))) }
/-- TILL_CLOSE (R130, R160). -/
def execTillClose (dt : Nat) (p : Packet) (s : State) : Result := s.serve dt opTillClose p

/-- A till's 32-byte descriptor (R114). Of a closed till the ID asked is echoed, and QUEUED counts what waits for that ID (R130);
the rest is zero (log 71). -/
def Module.tillBytes (m : Module) (id : Word16) : List Byte :=
  let t := m.till id
  u16 id.toNat ++ u8 t.kind.toNat ++ u8 t.state.toNat ++ u16 t.epoch.toNat ++ u16 t.link.toNat ++ u32 t.count.toNat ++
  u16 t.errors.toNat ++ u16 t.lost.toNat ++
  (if t.kind = 4 then u16 (t.due % 65536) ++ u32 (t.due / 65536) ++ rsv 2 ++ u32 t.tag.toNat ++ rsv 4
   else if t.kind = 5 then u32 t.tag.toNat ++ u64 t.due ++ rsv 4
   else u32 t.base.toNat ++ u16 t.len.toNat ++ u16 t.prod.toNat ++ u16 t.cons.toNat ++
     u16 (m.win.waiting.filter (fun w => w.till == id)).length ++ rsv 4)

/-- TILL_READ. -/
def opTillRead : Op :=
  { code := 0x0106, judge := fun _ p => lengthIs p 4,
    act := fun m p _ => (m, some (.ok (m.tillBytes (BitVec.ofNat 16 (p.field 0 2))))) }
/-- TILL_READ (R114, R115). -/
def execTillRead (dt : Nat) (p : Packet) (s : State) : Result := s.serve dt opTillRead p

/-! ### SCHEDULE_CANCEL (R163) -/

/-- Free a schedule till and drop what it holds. -/
def Module.freeSchedule (m : Module) (t : Word16) : Module :=
  let m := m.setTill t (fun _ => Till.closed)
  { m with lamps := { m.lamps with plans := m.lamps.plans.filter (fun e => e.till != some t) } }

/-- SCHEDULE_CANCEL. -/
def opScheduleCancel : Op :=
  { code := 0x0107,
    judge := fun m p =>
      let id := p.field 0 2
      let t := m.till (BitVec.ofNat 16 id)
      firstOf [lengthIs p 8,
        need (decide (0x2000 ≤ id) && decide (id ≤ 0xBFFF)) 0,
        need (t.state == 4 && t.tag.toNat == p.field 4 4) 0,
        if m.clk.onTime ((t.due : Int) - 1024) then none else some (stLate, 0)],
    act := fun m p _ => (m.freeSchedule (BitVec.ofNat 16 (p.field 0 2)), some (.ok [])) }
/-- SCHEDULE_CANCEL (R163). -/
def execScheduleCancel (dt : Nat) (p : Packet) (s : State) : Result := s.serve dt opScheduleCancel p

/-! ### TAG_QUERY (R150, R160) -/

/-- The reply memory entry that a TAG_QUERY names. -/
def Module.findTag (m : Module) (p : Packet) : Option Stored :=
  let tag := BitVec.ofNat 32 (p.field 0 4)
  let till := BitVec.ofNat 16 (p.field 4 2)
  let epoch := BitVec.ofNat 16 (p.field 6 2)
  match p.field 8 1 with
  | 0 => m.tel.memH.find? (fun e => e.path == Path.laneH till && e.epoch == epoch && e.packet.tag == tag)
  | 1 => m.tel.memMaint.find? (fun e => e.packet.tag == tag)
  | _ => m.tel.memDrop.find? (fun e => e.packet.tag == tag)

/-- What TAG_QUERY answers (R160). -/
def Module.tagPayload (m : Module) (p : Packet) : List Byte :=
  match m.findTag p with
  | none => rsv 8
  | some e =>
    let epoch := if p.field 8 1 = 0 then e.epoch.toNat else 0
    match e.reply with
    | none => u8 1 ++ rsv 1 ++ u16 epoch ++ rsv 4
    | some r =>
      u8 2 ++ rsv 1 ++ u16 epoch ++ u16 r.bytes.length ++ rsv 2 ++ (r.bytes.drop (4056 * p.field 9 1)).take 4056

/-- TAG_QUERY. -/
def opTagQuery : Op :=
  { code := 0x0108,
    judge := fun _ p =>
      firstOf [lengthIs p 12,
        need (p.field 8 1 == 0 || p.field 4 2 == 0) 4,
        need (p.field 8 1 == 0 || p.field 6 2 == 0) 6,
        need (decide (p.field 8 1 ≤ 2)) 8,
        need (decide (p.field 9 1 ≤ 1)) 9],
    act := fun m p _ => (m, some (.ok (m.tagPayload p))) }
/-- TAG_QUERY (R150, R160). -/
def execTagQuery (dt : Nat) (p : Packet) (s : State) : Result := s.serve dt opTagQuery p

/-! ### RESET (R63, R164) -/

/-- The cause of a RESET packet's reset: ring-commanded when forwarded here, else a host reset of its depth (R164). -/
def resetCauseOf (p : Packet) : ResetCause :=
  match p.path with
  | .ring _ _ => .ring
  | _ => if p.field 0 1 = 1 then .hostWarm else .hostCold

/-- RESET. -/
def opReset : Op :=
  { code := 0x0109, bcast := true,
    judge := fun _ p =>
      let depth := p.field 0 1
      let away := p.target == 0xFE || (match p.path with | .ring _ _ => true | _ => false)
      firstOf [lengthIs p 4, need (depth == 1 || (depth == 2 && !away)) 0],
    act := fun m p _ => ({ m with resetDue := some (resetCauseOf p) }, some (.ok [])),
    after := fun m _ => m.resetStep }
/-- RESET (R164): the reply goes first; the reset follows once it has gone (R63). -/
def execReset (dt : Nat) (p : Packet) (s : State) : Result := s.serve dt opReset p

/-! ### CONFIG_WRITE and CONFIG_READ (R31, R32, R160, R165, R374, R473) -/

/-- Configuration opcodes are held off from the yes vote to the end of the session (R374). -/
def Module.updateHolds (m : Module) : Bool :=
  let s := m.upd.session
  match s.phase with
  | .prepared | .committed | .trial => true
  | .assembled => s.voteClose.isSome && s.votes.any (fun v => v.1 == m.positionByte.toNat && v.2.1)
  | _ => false

/-- The bytes staged so far. -/
def Module.staged (m : Module) : Nat := match m.staging with | some (_, _, b) => b.length | none => 0

/-- The chunk rules of R165, in the order of the offsets. -/
def Module.chunkCheck (m : Module) (p : Packet) : Deny :=
  let expect := BitVec.ofNat 32 (p.field 0 4)
  let total := p.field 4 4
  let offset := p.field 8 4
  let chunk := p.field 12 2
  let last := p.field 14 1
  let cont := offset != 0
  firstOf [
    need (match m.staging with | some (e, _, _) => !cont || e == expect | none => true) 0,
    need (decide (1 ≤ total) && decide (total ≤ 196608) &&
      (match m.staging with | some (_, t, _) => !cont || t == total | none => true)) 4,
    need (!cont || (m.staging.isSome && offset == m.staged)) 8,
    need (decide (offset + chunk ≤ total) && !(last == 1 && decide (offset + chunk < total)) &&
      !(last == 0 && offset + chunk == total)) 12,
    need (decide (last ≤ 1)) 14]

/-- BACKUP after a change of the LEDGER item: never above the capacity (R310). -/
def Module.capBackup (m : Module) : Module :=
  { m with pow := { m.pow with
    account := if m.items.capacity.toNat < m.pow.account.toNat then m.items.capacity else m.pow.account } }

/-- A slice at the hub as its reload begins: under its next epoch, with nothing outstanding (R56, R68). A HELLO that is awaited
stays awaited (R471), and a slice held failed stays so until the next hub reset (R58). -/
def HubSlice.again (h : HubSlice) : HubSlice :=
  { HubSlice.reset with
    epoch := nextEpoch h.epoch, seq := h.seq, rxSeq := h.rxSeq, gaps := h.gaps, stored := h.stored, failed := h.failed
    attempts := if h.loaded then 0 else h.attempts, awaitHello := h.awaitHello
    lastFrame := h.lastFrame, bus := { h.bus with vbusDiff := 0 } }

/-- The module begins to load every slice again (R56, R62): what waited for a slice fails with SLICE_RESTARTED (R237), nothing
commanded is resumed, and the start pattern follows at first lamp control. A pump that toggles goes on: R51 binds it after a hub
reset only. -/
def Module.reloadAll (m : Module) : Module :=
  let slices := List.range m.variant.slices
  let serving := (slices.map (fun n => ((m.slice n).unacked.filterMap (fun u => u.serves)).map (fun s => (n, s)))).flatten
  let m := { m with
    stage := .reload, shelf := false, live := m.effective,
    hub := slices.foldl (fun t n => Tbl.modify HubSlice.reset t n HubSlice.again) m.hub,
    lamps := { m.lamps with
      genFA := m.effective.fa, genFB := m.effective.fb
      genNext := Tbl.erase (Tbl.erase m.lamps.genNext 2) 3
      chans := Tbl.mapVals Chan.reset m.lamps.chans (fun c => { c with cmd := none, start := none, zc := [], edge := [] }) }
    prov := { m.prov with hold := m.prov.hold || !m.prov.toggling } }
  let m := serving.foldl (fun m s => m.complete s.2.1 s.2.2 0 stSliceRestarted (BitVec.ofNat 16 s.1) []) m
  let m := (m.stopLearning (fun _ => true) 3 true).stopWires (fun _ => true) true
  m.each slices (fun n m =>
    (if (m.slice n).failed || (m.slice n).awaitHello.isSome then m else m.beginLoad n).failBist n)

/-- Leave the shelf state: a key is held with a valid configuration that the host has written (R62). -/
def Module.leaveShelf (m : Module) : Module :=
  if m.shelf && m.configValid then ({ m with inUse := true }).reloadAll else m

/-- The last chunk stores the staged image, or refuses it and discards the staging (R165). -/
def Module.storeImage (m : Module) (p : Packet) (bytes : List Byte) : Module × Option Ans :=
  let expect := p.field 0 4
  let m := { m with staging := none }
  if expect ≠ 0 ∧ expect ≠ m.revision.toNat then (m, some ⟨0, stBadParam, 0x20, []⟩)
  else
    match parseImage m.variant m.upd.schema m.positionByte bytes with
    | none => (m, some ⟨0, stBadParam, 0x30, []⟩)
    | some i =>
      let old := m.items
      let m := (((m.storeItems i).configChanged old).capBackup.judgeLedgerFree).leaveShelf
      (m, some (.ok (u32 m.revision.toNat ++ u8 m.escrowBits ++ rsv 3)))

/-- CONFIG_WRITE. -/
def opConfigWrite : Op :=
  { code := 0x010A,
    judge := fun m p =>
      firstOf [lengthAtLeast p 14,
        need (decide (1 ≤ p.field 12 2) && decide (p.field 12 2 ≤ 65488)) 12,
        lengthIs p (16 + p.field 12 2),
        m.chunkCheck p,
        busyUnless (!(p.field 14 1 == 1 && m.updateHolds))],
    act := fun m p _ =>
      let before := if p.field 8 4 = 0 then [] else (match m.staging with | some (_, _, b) => b | none => [])
      let bytes := before ++ p.params.drop 16
      if p.field 14 1 = 1 then m.storeImage p bytes
      else
        ({ m with staging := some (BitVec.ofNat 32 (p.field 0 4), p.field 4 4, bytes) },
         some (.ok (u32 m.revision.toNat ++ u8 m.escrowBits ++ rsv 3))) }
/-- CONFIG_WRITE (R165). -/
def execConfigWrite (dt : Nat) (p : Packet) (s : State) : Result := s.serve dt opConfigWrite p

/-- The REVISION and the stored bytes of a region (R160). -/
def Module.region (m : Module) (which : Nat) : Nat × List Byte :=
  let copy := fun (e : Option Escrow) => match e with | some e => (e.revision.toNat, e.bytes) | none => (0, [])
  match which with
  | 0 => (match m.vault.config with | some c => (c.revision.toNat, m.form c) | none => (0, []))
  | 1 => copy m.vault.escrowE
  | _ => copy m.vault.escrowW

/-- CONFIG_READ. -/
def opConfigRead : Op :=
  { code := 0x010B,
    judge := fun m p =>
      let total := (m.region (p.field 0 1)).2.length
      firstOf [lengthIs p 8,
        need (decide (p.field 0 1 ≤ 2)) 0,
        need (decide (1 ≤ p.field 2 2) && decide (p.field 2 2 ≤ 4048)) 2,
        need (decide (p.field 4 4 < total) || (total == 0 && p.field 4 4 == 0)) 4],
    act := fun m p _ =>
      let r := m.region (p.field 0 1)
      (m, some (.ok (u32 r.1 ++ u32 r.2.length ++ u32 (p.field 4 4) ++ rsv 4 ++
        ((r.2.drop (p.field 4 4)).take (p.field 2 2))))) }
/-- CONFIG_READ (R160, R474). -/
def execConfigRead (dt : Nat) (p : Packet) (s : State) : Result := s.serve dt opConfigRead p

/-! ### Packets that fail step 1 or step 2 (R133, R139, R156) -/

/-- The lane H report till of a packet that is answered on the default till (R140). -/
def onDefaultTill (p : Packet) : Packet := { p with till := 0 }

/-- A packet that is not well formed, or that holds a poisoned word: CRC_BAD with HEADER_SUSPECT on the default till; nothing is
done, and the reply is stored like every other (R106, R133, R139, R149). -/
def Module.refuseBad (m : Module) (opcode : Word16) (p : Packet) : Module :=
  let r := m.mkReply opcode rfSuspect p.tag stCrcBad 0 []
  let m := { m with tel := m.tel.setMem p.path (⟨p.path, m.tel.cur.epoch, opcode, p, some r⟩ :: m.tel.mem p.path) }
  m.emit opcode (onDefaultTill p) r
/-- NOT_WELL_FORMED_PACKET at its turn (R39, R133, R148). -/
def execNotWellFormedPacket (dt : Nat) (opcode : Word16) (p : Packet) (s : State) : Result :=
  s.on dt (fun m => m.turn opcode p false (fun m => m.refuseBad opcode p))

/-- The opcodes of the tables (R156). -/
def definedOpcodes : List Word16 :=
  [0x0101, 0x0102, 0x0103, 0x0104, 0x0105, 0x0106, 0x0107, 0x0108, 0x0109, 0x010A, 0x010B,
   0x0201, 0x0202, 0x0203, 0x0204, 0x0205, 0x0206,
   0x0301, 0x0302, 0x0303, 0x0304, 0x0305, 0x0306, 0x0307] ++
  [0x0401, 0x0402, 0x0403, 0x0404, 0x0501, 0x0502, 0x0503, 0x0601, 0x0602, 0x0603, 0x0604, 0x0605,
   0x0701, 0x0702, 0x0703, 0x0704, 0x0705, 0x0706, 0x0707, 0x0708, 0x0709] ++
  [0x0801, 0x0802, 0x0803, 0x0804, 0x0901, 0x0902, 0x0903, 0x0A01, 0x0A02, 0x0A03]

/-- A packet whose opcode no table lists: BAD_OPCODE (R139, R156). -/
def Module.undefinedOp (m : Module) (opcode : Word16) (p : Packet) : Module :=
  match m.retried opcode p with
  | some m' => m'
  | none => m.answer opcode p 0 stBadOpcode 0 []
/-- UNDEFINED_OPCODE at its turn (R39, R156); a packet whose opcode is defined has its own row. -/
def execUndefinedOpcode (dt : Nat) (opcode : Word16) (p : Packet) (s : State) : Result :=
  s.on dt (fun m =>
    if definedOpcodes.contains opcode then m else m.turn opcode p true (fun m => m.undefinedOp opcode p))

end Sys2Proof.Machine
end

