-- ==== Sys2Proof/Machine/Session.lean ====
section
/-! DEFINITION. The update session as every module keeps it: causes, UPDATE_CTL frames, and the end of a vote (R353, R358,
R366, R377, R378). -/

namespace Sys2Proof.Machine
open Sys2Proof

/-- PHASE code (R176). -/
def Phase.code : Phase → Nat
  | .idle => 0 | .receiving => 1 | .assembled => 2 | .prepared => 3 | .committed => 4 | .trial => 5 | .confirmed => 6
  | .unwound => 7 | .aborted => 8
/-- A session is open from RECEIVING until CONFIRMED, UNWOUND or ABORTED (R352). -/
def Phase.isOpen : Phase → Bool
  | .receiving | .assembled | .prepared | .committed | .trial => true
  | _ => false

/-- Change the session record. -/
def Module.setSession (m : Module) (f : Session → Session) : Module :=
  { m with upd := { m.upd with session := f m.upd.session } }
/-- The session record. -/
def Module.session (m : Module) : Session := m.upd.session
/-- This module's own position as a number. -/
def Module.ownPos (m : Module) : Nat := m.positionByte.toNat

/-- The UPDATE_CTL payload of a subtype (R366). -/
def ctlPayload (sub : Nat) (cause : Byte) (gateway : Byte) (late : Bool) (session : Word32) (body : List Byte) : List Byte :=
  u8 sub ++ u8 cause.toNat ++ u8 gateway.toNat ++ u8 (bit late) ++ u32 session.toNat ++ body
/-- An UPDATE_CTL frame of this module's session; a UM-96S has nobody to send it to (R7, R275, R366). -/
def Module.sendCtl (m : Module) (dst : Byte) (sub : Nat) (cause : Byte) (late : Bool) (body : List Byte) : Module :=
  if m.variant.hasRing then
    m.ringSend 5 dst (if dst = 0xFE then 0 else Tbl.get 0 m.ring.epochs dst.toNat) 0
      (ctlPayload sub cause m.session.gateway late m.session.id body)
  else m
/-- To every position. -/
def Module.ctlAll (m : Module) (sub : Nat) (body : List Byte) : Module := m.sendCtl 0xFE sub 0 false body
/-- To the session's gateway. -/
def Module.ctlGateway (m : Module) (sub : Nat) (cause : Byte) (body : List Byte) : Module :=
  m.sendCtl m.session.gateway sub cause m.session.late body

/-- The FINAL events due for an opcode go out (R143, R176). -/
def Module.endFinals (m : Module) (opcode : Word16) (status detail : Word16) : Module :=
  let l := m.session.finals.filter (fun f => f.opcode == opcode)
  let m := m.setSession (fun s => { s with finals := s.finals.filter (fun f => f.opcode != opcode) })
  l.foldl (fun m f => m.final f status detail []) m

/-- A failed vote is released: PREPARED members return to ASSEMBLED, and PREPARE's FINAL event carries DOMAIN_ABORT with the
position (R377, R378). -/
def Module.releaseVote (m : Module) (position : Nat) (cause : Byte) : Module :=
  let m := m.ctlAll 5 []
  let m := m.setSession (fun s =>
    { s with phase := .assembled, voteClose := none, votes := [], failure := some (position, cause) })
  m.endFinals 0x0704 0x4003 (BitVec.ofNat 16 position)

/-- The gateway releases the vote when another roster position's epoch changes before COMMIT is accepted (R378). -/
def Module.memberRestarted (m : Module) (pos : Nat) : Module :=
  let s := m.session
  if s.opener && s.roster.contains pos && pos != m.ownPos &&
      (s.phase == .prepared || (s.phase == .assembled && s.voteClose.isSome)) then m.releaseVote pos 0x0B
  else m

end Sys2Proof.Machine
end

