-- ==== Sys2Proof/Machine/LampOps.lean ====
section
/-! DEFINITION. The lamp opcodes, 0x02xx (section 3 of spec/06, section 7 of spec/07). -/

namespace Sys2Proof.Machine
open Sys2Proof

/-- A plan entry is made: it joins the plan in the order of taking (R93, R138, R199). -/
def Module.addPlan (m : Module) (w : When) (acts : List (Nat × Shown)) (flash : Option (Nat × Nat × Nat × Nat)) : Module :=
  let e : Plan := { id := m.lamps.nextPlan, till := w.till, due := w.due, acts := acts, flash := flash, sent := false,
                    held := [] }
  { m with lamps := { m.lamps with plans := m.lamps.plans ++ [e], nextPlan := m.lamps.nextPlan + 1 } }

/-- A block of channel entries from offset 4, their COUNT at `o` in 1 to `max` (R153, R159). -/
def countCheck (p : Packet) (o max : Nat) : Deny :=
  let n := p.field o 2
  firstOf [lengthAtLeast p (o + 2), need (decide (1 ≤ n) && decide (n ≤ max)) o]

/-- CHANNEL_SET. -/
def opChannelSet : Op :=
  { code := 0x0201, timed := true,
    judge := fun m p =>
      firstOf [countCheck p 0 384, lengthIs p (4 + 8 * p.field 0 2),
        entriesCheck m.variant.channels [] 4 (entriesOf p 4 (p.field 0 2))],
    act := fun m p w => (m.addPlan w (actsOf (entriesOf p 4 (p.field 0 2))) none, some (.ok [])) }
/-- CHANNEL_SET (R166, R167, R199). -/
def execChannelSet (dt : Nat) (p : Packet) (s : State) : Result := s.serve dt opChannelSet p

/-- ASPECT_DEFINE. -/
def opAspectDefine : Op :=
  { code := 0x0202,
    judge := fun m p =>
      firstOf [countCheck p 2 64, lengthIs p (4 + 8 * p.field 2 2),
        need (decide (p.field 0 2 ≤ 4095)) 0,
        entriesCheck m.variant.channels [] 4 (entriesOf p 4 (p.field 2 2))],
    act := fun m p _ =>
      ({ m with lamps := { m.lamps with
          aspects := Tbl.set [] m.lamps.aspects (p.field 0 2) (actsOf (entriesOf p 4 (p.field 2 2))) } }, some (.ok [])) }
/-- ASPECT_DEFINE (R167, R198): the whole content is replaced. -/
def execAspectDefine (dt : Nat) (p : Packet) (s : State) : Result := s.serve dt opAspectDefine p

/-- The aspects an ASPECT_SHOW names. -/
def aspectsOf (p : Packet) : List Nat := (List.range (p.field 0 2)).map (fun i => p.field (4 + 2 * i) 2)

/-- Every aspect is defined and no channel is named twice; DETAIL names the ASPECT field (R167). -/
def Module.aspectsCheck (m : Module) : List Nat → Nat → List Nat → Deny
  | _, _, [] => none
  | seen, o, a :: as =>
    let chans := (Tbl.get [] m.lamps.aspects a).map (fun e => e.1)
    if chans.isEmpty || chans.any (fun c => seen.contains c) then badAt (o + 0x20)
    else m.aspectsCheck (chans ++ seen) (o + 2) as

/-- ASPECT_SHOW. -/
def opAspectShow : Op :=
  { code := 0x0203, timed := true,
    judge := fun m p =>
      let n := p.field 0 2
      firstOf [countCheck p 0 64, lengthIs p (4 + 2 * n + (4 - (4 + 2 * n) % 4) % 4), m.aspectsCheck [] 4 (aspectsOf p)],
    act := fun m p w =>
      (m.addPlan w ((aspectsOf p).map (fun a => Tbl.get [] m.lamps.aspects a)).flatten none, some (.ok [])) }
/-- ASPECT_SHOW (R167, R168): the contents are copied when it is taken. -/
def execAspectShow (dt : Nat) (p : Packet) (s : State) : Result := s.serve dt opAspectShow p

/-- ASPECT_DELETE. -/
def opAspectDelete : Op :=
  { code := 0x0204,
    judge := fun _ p => firstOf [lengthIs p 4, need (decide (p.field 0 2 ≤ 4095)) 0],
    act := fun m p _ =>
      ({ m with lamps := { m.lamps with aspects := Tbl.erase m.lamps.aspects (p.field 0 2) } }, some (.ok [])) }
/-- ASPECT_DELETE (R167, R198). -/
def execAspectDelete (dt : Nat) (p : Packet) (s : State) : Result := s.serve dt opAspectDelete p

/-- FLASH_SET. -/
def opFlashSet : Op :=
  { code := 0x0205, timed := true,
    judge := fun _ p =>
      let period := p.field 2 2
      firstOf [lengthIs p 8, need (decide (p.field 0 1 ≤ 1)) 0,
        need (decide (2 ≤ period) && decide (period ≤ 1024)) 2,
        need (decide (1 ≤ p.field 4 2) && decide (p.field 4 2 < period)) 4,
        need (decide (p.field 6 2 < period)) 6],
    act := fun m p w =>
      (m.addPlan w [] (some (p.field 0 1, p.field 2 2, p.field 4 2, p.field 6 2)), some (.ok [])) }
/-- FLASH_SET (R166, R192). -/
def execFlashSet (dt : Nat) (p : Packet) (s : State) : Result := s.serve dt opFlashSet p

/-- One 8-byte entry of CHANNEL_READ (R166). -/
def Module.channelEntry (m : Module) (ch : Nat) : List Byte :=
  let s := m.shown ch
  u16 ch ++ u8 (m.reported ch).code ++ u8 s.1.mode.code ++ u16 s.1.dim.toNat ++ u8 s.2 ++ rsv 1

/-- CHANNEL_READ. -/
def opChannelRead : Op :=
  { code := 0x0206, bcast := true,
    judge := fun m p => firstOf [lengthIs p 4, m.rangeCheck p 384],
    act := fun m p _ => (m, some (.ok ((p.range.map m.channelEntry).flatten))) }
/-- CHANNEL_READ (R166, R202). -/
def execChannelRead (dt : Nat) (p : Packet) (s : State) : Result := s.serve dt opChannelRead p

end Sys2Proof.Machine
end

