-- ==== Sys2Proof/Machine/ProvingOps.lean ====
section
/-! DEFINITION. The proving opcodes, 0x03xx (section 4 of spec/06, spec/08, section 9 of spec/09). -/

namespace Sys2Proof.Machine
open Sys2Proof

/-- The slices of a list of channels, each once. -/
def slicesOf (l : List Nat) : List Nat := (l.map (· / 16)).dedup

/-- A slice runs: loaded, and not held failed (R472). -/
def Module.sliceRuns (m : Module) (n : Nat) : Bool := (m.slice n).loaded && !(m.slice n).failed

/-! ### SWATCH_LEARN (R213, R215, R472) -/

/-- The result a channel has already when learning is commanded, if any (R215, R472). -/
def Module.learnNow (m : Module) (ch : Nat) : Option Nat :=
  if !m.sliceRuns (ch / 16) || m.reported ch != .steady || (m.busOf ch).phase.kind == .none then some 3
  else if m.activeFault ch then some 1
  else none

/-- SWATCH_LEARN. -/
def opSwatchLearn : Op :=
  { code := 0x0301, accepts := true,
    judge := fun m p =>
      firstOf [lengthIs p 8, m.rangeCheck p 16,
        need (decide (16 ≤ p.field 4 2) && decide (p.field 4 2 ≤ 1024)) 4,
        busyUnless (!p.range.any m.learning), busyUnless (!m.updateHolds)],
    cost := fun _ p => some (100 + 2 * p.field 2 2 * p.field 4 2, slicesOf p.range),
    act := fun m p _ =>
      let j : LearnJob :=
        { ref := m.finalRef 0x0301 p, cycles := p.field 4 2, chans := p.range.map (fun ch => (ch, false, m.learnNow ch)),
          restarted := p.range.any (fun ch => !m.sliceRuns (ch / 16)) }
      ({ m with prov := { m.prov with learns := m.prov.learns ++ [j] } }, some .accepted),
    after := fun m _ => m.settleLearns }
/-- SWATCH_LEARN (R169, R170, R213). -/
def execSwatchLearn (dt : Nat) (p : Packet) (s : State) : Result := s.serve dt opSwatchLearn p

/-! ### SWATCH_READ (R169, R211, R472) -/

/-- SWATCH_READ: a REQUEST to the slice, or SLICE_RESTARTED at once while it does not run (R472). -/
def opSwatchRead : Op :=
  { code := 0x0302,
    judge := fun m p => firstOf [lengthIs p 4, need (decide (p.field 0 2 < m.variant.channels)) 0],
    act := fun m p _ =>
      let n := p.field 0 2 / 16
      if m.sliceRuns n then (m.sendSlice n (.request (.readSwatch (p.field 0 2 % 16))) (some (0x0302, p)), none)
      else (m, some ⟨0, stSliceRestarted, BitVec.ofNat 16 n, []⟩) }
/-- SWATCH_READ (R211, R472). -/
def execSwatchRead (dt : Nat) (p : Packet) (s : State) : Result := s.serve dt opSwatchRead p

/-! ### SWATCH_MODE and RESPONSE_SET (R169, R170, R216, R228) -/

/-- Change the stored items and let the change take effect (R32, R473). -/
def Module.changeItems (m : Module) (f : Items → Items) : Module := (m.storeItems (f m.items)).configChanged m.items

/-- The items after SWATCH_MODE on a channel: 0 TRACK, 1 FREEZE, 2 CLEAR (R216). -/
def Items.swatchMode (i : Items) (mode ch : Nat) : Items :=
  if mode = 2 then { i with swatch := Tbl.set Swatch.none i.swatch ch Swatch.none }
  else { i with tolerance := Tbl.modify (20, 10, 0, 0) i.tolerance ch (fun t => (t.1, t.2.1, t.2.2.1, mode)) }

/-- SWATCH_MODE. -/
def opSwatchMode : Op :=
  { code := 0x0303,
    judge := fun m p =>
      firstOf [lengthIs p 8, m.rangeCheck p 384, need (decide (p.field 4 1 ≤ 2)) 4, busyUnless (!m.updateHolds)],
    act := fun m p _ =>
      ((m.changeItems (fun i => p.range.foldl (fun i ch => i.swatchMode (p.field 4 1) ch) i)).stopLearning
        (fun ch => p.range.contains ch) 3 false, some (.ok [])) }
/-- SWATCH_MODE (R216); a learning on a named channel ends INTERRUPTED (R215). -/
def execSwatchMode (dt : Nat) (p : Packet) (s : State) : Result := s.serve dt opSwatchMode p

/-- The items after RESPONSE_SET on a channel. -/
def Items.respond (i : Items) (resp leak ch : Nat) : Items :=
  { i with
    response := Tbl.set 1 i.response ch resp
    limits := if leak = 0 then i.limits else Tbl.modify (15, 10) i.limits ch (fun l => (leak, l.2)) }

/-- RESPONSE_SET. -/
def opResponseSet : Op :=
  { code := 0x0304,
    judge := fun m p =>
      let leak := p.field 6 2
      firstOf [lengthIs p 8, m.rangeCheck p 384, need (decide (p.field 4 1 ≤ 3)) 4,
        need (leak == 0 || (decide (5 ≤ leak) && decide (leak ≤ 500) &&
          p.range.all (fun ch => decide ((Tbl.get (15, 10) m.items.limits ch).2 ≤ leak)))) 6,
        busyUnless (!m.updateHolds)],
    act := fun m p _ =>
      let m := m.changeItems (fun i => p.range.foldl (fun i ch => i.respond (p.field 4 1) (p.field 6 2) ch) i)
      (m, some (.ok (u32 m.revision.toNat))) }
/-- RESPONSE_SET (R169, R170, R228). -/
def execResponseSet (dt : Nat) (p : Packet) (s : State) : Result := s.serve dt opResponseSet p

/-! ### FAULT_READ and FAULT_CLEAR (R169, R170, R219) -/

/-- The 8-byte entries of a channel's records, in KIND order (R170). -/
def Module.faultEntries (m : Module) (ch : Nat) : List (List Byte) :=
  ([1, 2, 3, 4].filter (fun k => (m.record ch k).active || (m.record ch k).latched)).map (fun k =>
    let r := m.record ch k
    u16 ch ++ u8 k ++ u8 (bit r.active + 2 * bit r.latched) ++ u32 r.cycle.toNat)

/-- Entries of whole channels while they fit, and the channel at which they no longer do (R170). -/
def Module.faultPage (m : Module) : List Nat → Nat → List (List Byte) × Nat
  | [], _ => ([], 0xFFFF)
  | ch :: chs, room =>
    let e := m.faultEntries ch
    if room < e.length then ([], ch)
    else
      let r := m.faultPage chs (room - e.length)
      (e ++ r.1, r.2)

/-- FAULT_READ. -/
def opFaultRead : Op :=
  { code := 0x0305, bcast := true,
    judge := fun m p => firstOf [lengthIs p 4, m.rangeCheck p 384],
    act := fun m p _ =>
      let r := m.faultPage p.range 507
      (m, some (.ok (u16 r.1.length ++ u16 r.2 ++ r.1.flatten))) }
/-- FAULT_READ (R169, R170). -/
def execFaultRead (dt : Nat) (p : Packet) (s : State) : Result := s.serve dt opFaultRead p

/-- Count the records of channels that satisfy `f`. -/
def Module.countRecords (m : Module) (l : List Nat) (f : FaultRec → Bool) : Nat :=
  (l.map (fun ch => ([1, 2, 3, 4].filter (fun k => f (m.record ch k))).length)).sum

/-- Clear the latched records of a channel that are no longer active (R170). -/
def Module.clearFaults (m : Module) (ch : Nat) : Module :=
  m.each [1, 2, 3, 4] (fun k m => m.setRecord ch k (fun r => if r.active then r else FaultRec.none))

/-- FAULT_CLEAR. -/
def opFaultClear : Op :=
  { code := 0x0306,
    judge := fun m p => firstOf [lengthIs p 4, m.rangeCheck p 384],
    act := fun m p _ =>
      (m.each p.range (fun ch m => m.clearFaults ch),
       some (.ok (u16 (m.countRecords p.range (fun r => r.latched && !r.active)) ++
         u16 (m.countRecords p.range (fun r => r.active))))) }
/-- FAULT_CLEAR (R170, R224): a fallback whose last record is cleared ends at the next zero crossing (R203). -/
def execFaultClear (dt : Nat) (p : Packet) (s : State) : Result := s.serve dt opFaultClear p

/-! ### OPEN_WIRE_TEST (R169, R170, R251, R472) -/

/-- An open-wire test still runs on a slice (R170). -/
def Module.wireRuns (m : Module) (n : Nat) : Bool :=
  m.prov.wires.any (fun j => j.chans.any (fun c => c.1 / 16 == n && c.2.isNone))

/-- The channel whose turn it is on a slice: the lowest of a job that has no result. -/
def Module.wireTurn (m : Module) (n : Nat) : Option Nat :=
  (m.prov.wires.map (fun j => (j.chans.filter (fun c => c.1 / 16 == n && c.2.isNone)).map (fun c => c.1))).flatten.head?

/-- A channel's result: 0 CONNECTED, 1 OPEN, 2 NOT_TESTED (R169). -/
def Module.setWire (m : Module) (ch r : Nat) : Module :=
  { m with prov := { m.prov with wires := m.prov.wires.map (fun (j : WireJob) =>
    { j with chans := j.chans.map (fun (c : Nat × Option Nat) => if c.1 = ch && c.2.isNone then (c.1, some r) else c) }) } }

/-- The turn of one channel of a slice: the slice is sent its test, or where the channel does not show OFF it is not tested and the
next takes the turn (R230, R251, R252). -/
def Module.wireStep (m : Module) (n ch : Nat) : Module :=
  if (m.slice n).wire.isSome || m.wireTurn n != some ch then m
  else if m.reported ch != .off || !m.sliceRuns n then m.setWire ch 2
  else
    let m := m.setSlice n (fun h => { h with wire := some (ch % 16, (0, 0), (0, 0)) })
    m.sendSlice n (.request (.openWire (ch % 16))) none
/-- A slice with no test under way begins the next one that is due, in ascending channel order (R251). -/
def Module.startWire (m : Module) (n : Nat) : Module :=
  if (m.wireTurn n).isSome then (m.each (sliceChans n) (fun ch m => m.wireStep n ch)).settleWires else m

/-- OPEN_WIRE_TEST. -/
def opOpenWireTest : Op :=
  { code := 0x0307, accepts := true,
    judge := fun m p =>
      firstOf [lengthIs p 4, m.rangeCheck p 384, busyUnless (!(slicesOf p.range).any m.wireRuns)],
    cost := fun _ p => some (50 + 10 * p.field 2 2, slicesOf p.range),
    act := fun m p _ =>
      let j : WireJob :=
        { ref := m.finalRef 0x0307 p,
          chans := p.range.map (fun ch => (ch, if m.sliceRuns (ch / 16) then none else some 2)),
          restarted := p.range.any (fun ch => !m.sliceRuns (ch / 16)) }
      ({ m with prov := { m.prov with wires := m.prov.wires ++ [j] } }, some .accepted),
    after := fun m p => m.settleWires.each (slicesOf p.range) (fun n m => m.startWire n) }
/-- OPEN_WIRE_TEST (R170, R251, R472). -/
def execOpenWireTest (dt : Nat) (p : Packet) (s : State) : Result := s.serve dt opOpenWireTest p

end Sys2Proof.Machine
end

