-- ==== Sys2Proof/Machine/Adc.lean ====
section
/-! DEFINITION. The converter of a slice: its sample plan and auxiliary sequence, the formats of codes and sample words, the
calibration table and what it makes of a code (sections 4 to 8 of spec/09). -/

namespace Sys2Proof.Machine
open Sys2Proof

/-! ### Codes and sample words (R240, R241, R249) -/

/-- A signed result lies between the end codes (R241). -/
def endCode (code : Int) : Int := max (-8192) (min 8191 code)
/-- A conversion as a sample word: RIGHT in bits 13:0, a signed result extended by its sign, LEFT in bits 15:2 (R249). -/
def sampleWord (left : Bool) (code : Int) : Word16 := BitVec.ofInt 16 (if left then 4 * code else code)
/-- The result that a sample word holds (R249). -/
def wordCode (left signed : Bool) (w : Word16) : Int :=
  let field : BitVec 14 := if left then w.extractLsb' 2 14 else w.extractLsb' 0 14
  if signed then field.toInt else field.toNat
/-- ADC_ALIGN in force for a slice is LEFT (R249, R250). -/
def Module.alignLeft (m : Module) (n : Nat) : Bool := (Tbl.get (0, 1) m.live.sliceOpts n).1 == 1

/-! ### The sample plan (R242, R243) -/

/-- What the auxiliary sequence converts at an entry (R243). -/
inductive AuxKind where
  | tdie | ths | path | ref | none
  deriving DecidableEq, Repr
/-- The auxiliary sequence: TDIE and THS twice, the 18 paths on REF_ZERO and REF_POS, both references, nothing (R243). -/
def auxKind (entry : Nat) : AuxKind :=
  if entry = 0 ∨ entry = 40 then .tdie
  else if entry = 1 ∨ entry = 41 then .ths
  else if entry < 38 then .path
  else if entry < 40 then .ref
  else .none
/-- The auxiliary entry of step `j` of bin `b`: one per even step, 64 of them a quarter cycle (R242, R243). -/
def auxEntry (b j : Nat) : Nat := (2 * b + j / 2) % 64
/-- How many conversions of an even step come before those of OWMON (R242). -/
def beforeOwmon (b j : Nat) : Nat := if auxKind (auxEntry b j) = .none then 2 else 3
/-- Is conversion `i` of step `j` of bin `b` a signed input (R240, R242)? -/
def signedAt (b j i : Nat) : Bool :=
  j % 2 == 1 || decide (i < 2) || (i == 2 && auxKind (auxEntry b j) == .path)

/-- A bin's conversions as the slice finds them, a signed result held between the end codes, as sample words in the order of the
plan (R230, R241, R249). -/
def binWords (left : Bool) (b : Nat) (codes : List (List Int)) : List (List Word16) :=
  (codes.zipIdx).map (fun (s : List Int × Nat) =>
    (s.1.zipIdx).map (fun (c : Int × Nat) => sampleWord left (if signedAt b s.2 c.2 then endCode c.1 else c.1)))
/-- The results that a bin's sample words hold (R249). -/
def binCodes (left : Bool) (b : Nat) (steps : List (List Word16)) : List (List Int) :=
  (steps.zipIdx).map (fun (s : List Word16 × Nat) =>
    (s.1.zipIdx).map (fun (w : Word16 × Nat) => wordCode left (signedAt b s.2 w.2) w.1))

/-! ### Calibration (R244-R246) -/

/-- A path as a calibration table holds it: ISENSE 0 to 15, VBUS_A, VBUS_B; an absent one is the nominal path. -/
def calPath (cal : List CalPath) (i : Nat) : CalPath := cal.getD i ⟨0, 10000⟩
/-- A path's calibration within R244's limits: offset up to 1 % of full scale, gain 95 to 105 % of nominal. -/
def CalPath_ok (p : CalPath) : Bool := decide (p.offset.natAbs ≤ 100) && decide (9500 ≤ p.gain) && decide (p.gain ≤ 10500)
/-- A signed result in units of 1/`perCode` code: its path's offset is taken off and its gain divided out. -/
def calibrated (cal : List CalPath) (path perCode : Nat) (code : Int) : Int :=
  let p := calPath cal path
  (perCode : Int) * (10000 * code - 8192 * p.offset) / (p.gain : Int)
/-- µA per code of a channel: 1 mA on WIDE, 0.25 mA on NARROW (R240). -/
def Module.senseStep (m : Module) (ch : Nat) : Nat := if Tbl.get 1 m.live.sense ch = 0 then 250 else 1000
/-- A channel's current in µA: an end code is taken as that end value, any other is calibrated (R240, R241, R246). -/
def Module.currentOf (m : Module) (cal : List CalPath) (ch : Nat) (code : Int) : Int :=
  if code = 8191 ∨ code = -8192 then (m.senseStep ch : Int) * code
  else calibrated cal (ch % 16) (m.senseStep ch) code
/-- VBUS_A in mV: 50 mV per code (R240, R246). -/
def voltageOf (cal : List CalPath) (code : Int) : Int := calibrated cal 16 50 code

/-- The table that conversions on the references give: `get` answers how many there were of an auxiliary entry and their sum
(R243-R245); offset and gain are free values of them (log 73). -/
def calTable (get : Nat → Nat × Int) : List CalPath :=
  (List.range 18).map (fun i =>
    let zero := if i < 16 then 2 + i else 34 + 2 * (i - 16)
    let pos := if i < 16 then 18 + i else 35 + 2 * (i - 16)
    ⟨Config.calOffset i (get zero) (get pos) (get 38) (get 39), Config.calGain i (get zero) (get pos) (get 38) (get 39)⟩)
/-- The table at a load: 1,024 conversions of each of the entries 2 to 39 (R244). -/
def loadTable (sums : List Int) : List CalPath := calTable (fun e => (1024, sums.getD (e - 2) 0))

end Sys2Proof.Machine
end

