-- ==== Sys2Proof/Machine/Supply.lean ====
section
/-! DEFINITION. Supplies, the holdup, standby and the wake, with the ledger opcodes 0x05xx and the supply commands
(section 6 of spec/06, spec/11). -/

namespace Sys2Proof.Machine
open Sys2Proof

/-- SUPPLY_CHANGE, which is also a supply event of the boundary record (R326, R344). -/
def Module.supplyChange (m : Module) (cause : Nat) : Module :=
  (m.event 0x8501 (u8 cause ++ u8 m.pow.bits ++ u16 m.pow.mainsDv.toNat ++ m.ca ++ rsv 1 ++ u16 m.pow.backupCv.toNat ++
    rsv 2)).supplyEvent (BitVec.ofNat 8 cause)

/-! ### HOLDUP (R305-R308, R348) -/

/-- A summary whose dump HOLDUP has ended: HOLDUP set, COMPLETE clear (R446). -/
def DumpRec.cutShort (r : DumpRec) : DumpRec := { r with flags := (r.flags &&& 0xFE) ||| 2 }
/-- A fatal dump in progress at HOLDUP: its summary is written from the reserve, the dump in DDR is lost (R305, R444, R449). -/
def Diag.cutShort (d : Diag) : Diag :=
  match d.writing with
  | some r =>
    let f := fun (p : Option DumpRec) => p.map (fun p => if p.seq = r.seq then p.cutShort else p)
    { d with first := f d.first, last := f d.last, writing := none }
  | none => d

/-- HOLDUP: VITAL-OK stops, everything not yet reached is abandoned, the boundary record and the checkpoints are written,
then the summary of a fatal dump in progress, and a power-on reset follows (R305, R306). From standby the record has EVENTS bit 5 too (R308). -/
def Module.holdup (m : Module) : Module :=
  let asleep := m.stage == .standby
  let m := if asleep then m.gapSince (m.au / 32768 * 32768) else m
  let m := { m with
    stage := .holdup
    prov := { m.prov with dark := true, toggling := false, lastToggle := if m.prov.toggling then m.now else m.prov.lastToggle }
    lamps := { m.lamps with plans := [] } }
  let m := m.closeRecords (fun m =>
    let m := m.supplyEvent 7
    { m with meter := m.meter.recordAt m.meter.committed (fun b => b.mark (if asleep then 0x28 else 0x08)) })
  let m := { m with vault := { m.vault with backupPoint := some m.pow.account }, diag := m.diag.cutShort }
  m.powerOnReset

/-- The module lives on a supply: it is neither unpowered nor in HOLDUP. -/
def Module.alive (m : Module) : Bool := m.stage != .unpowered && m.stage != .holdup

/-! ### Lanes and their training (R171, R253) -/

/-- A lane. -/
def Module.lane (m : Module) (l : Lane) : LaneSt := Tbl.get LaneSt.down m.ring.lanes l.code
/-- Change a lane. -/
def Module.setLane (m : Module) (l : Lane) (f : LaneSt → LaneSt) : Module :=
  { m with ring := { m.ring with lanes := Tbl.modify LaneSt.down m.ring.lanes l.code f } }
/-- Ticks of the 500 ms that link training may take (R253). -/
def trainTicks : Nat := 50000000
/-- A lane that is down begins link training, as at every link-up (R253; log 77). -/
def Module.trainLane (m : Module) (l : Lane) : Module :=
  if m.variant.fits l && (m.lane l).state == 0 then m.setLane l (fun s => { s with train := some (m.now + trainTicks) }) else m
/-- Every fitted lane that is down begins link training (R47, R253). -/
def Module.trainLanes (m : Module) : Module := [Lane.h, .e0, .e1, .w0, .w1].foldl (fun m l => m.trainLane l) m

/-! ### Standby (R324, R325, R349) -/

/-- A lane without its link. -/
def LaneSt.off (l : LaneSt) : LaneSt := { l with state := 0, fec := false, delay := none, echoes := [] }
/-- A span whose link is gone. -/
def Span.lost (s : Span) : Span := { Span.reset with epoch := s.epoch }

/-- The ring with its lanes powered down and every span broken (R324). -/
def Ring.powerDown (r : Ring) : Ring :=
  { r with
    lanes := Tbl.mapVals LaneSt.down r.lanes LaneSt.off, east := r.east.lost, west := r.west.lost, isRef := false,
    enum := none, txq := [], seam := [], busyTill := [], escrowE := false, escrowW := false, delay0 := 0, delay1 := 0 }

/-- Every ring till fails with TIMEOUT (R324). -/
def Module.failForwards (m : Module) : Module :=
  let fs := m.ring.forwards
  let m := { m with ring := { m.ring with forwards := [] } }
  fs.foldl (fun m f => (m.setTill f.1 (fun _ => Till.closed)).complete f.2.1 f.2.2 0 stTimeout f.1 []) m

/-- Every schedule till is freed and its command dropped (R324). -/
def Module.dropSchedules (m : Module) : Module :=
  { m with
    win := { m.win with tills := m.win.tills.filter (fun e => !(decide (0x2000 ≤ e.1) && decide (e.1 < 0xC000))) }
    lamps := { m.lamps with plans := [] } }

/-- A port at rest: no frame in progress, no holding register, nobody selected. -/
def Uart.rest (u : Uart) : Uart :=
  { u with holding := none, frame := none, escaped := false, badEscape := false, deadline := none, selected := false,
           resumeAt := none }

/-- Standby begins (R324, R349): fallback and VITAL-OK, dropped tills, the record and its pass, the lanes, the cores. -/
def Module.enterStandby (m : Module) (cause : Nat) : Module :=
  let m := ({ m with prov := { m.prov with coreFb := true, dark := true } }).vitalStop
  let dropped := m.win.used 0x2000 40960
  let m := (m.dropSchedules.failForwards).ledgerEvent 3 cause 0xFF 0 dropped
  let m := m.closeRecords (fun m =>
    { m with meter := m.meter.recordAt m.meter.committed (fun b => b.mark 0x20) })
  let m := m.detachHost 2
  { m with
    stage := .standby
    win := { m.win with enumerated := false }
    ring := m.ring.powerDown
    pow := { m.pow with standbyDue := false, countDone := false }
    maint := m.maint.rest
    drop := m.drop.rest }

/-- Standby is entered only while ON_BACKUP with mains not valid (R324). -/
def Module.mayStandby (m : Module) : Bool := m.coresUp && m.pow.onBackup && !m.pow.mains

/-- STANDBY_ENTER's reply has gone: standby is entered, or the opcode has no further effect (R324). -/
def Module.standbyStep (m : Module) : Module :=
  if m.pow.standbyDue && m.replyGone 0x0503 then
    let m := { m with pow := { m.pow with standbyDue := false } }
    if m.mayStandby then m.enterStandby 6 else m
  else m

/-- ENTROPY_STATE (R400). -/
def Module.entropyEvent (m : Module) (cause failed : Nat) : Module :=
  m.event 0x8801 (u8 m.ent.state ++ u8 cause ++ u8 m.ent.restarts ++ rsv 1 ++ u16 (min failed 65535) ++ rsv 2 ++ m.ca ++ rsv 1)

/-- The entropy unit enters STARTUP and its start-up test runs, unless it is LATCHED; a request that waits keeps its deadline
(R393, R396, R402). -/
def Entropy.wake (e : Entropy) : Entropy :=
  if e.state = 3 then e
  else { e with state := 0, drbg := false, generated := 0, pool := 0, restartAt := none, testing := true, failing := none }

/-- The module wakes without a reset (R325): cause 7 a DROP match, 8 mains. Every slice is loaded again, and its channels show
what R202 gives them from the first zero crossing after that. -/
def Module.wake (m : Module) (cause : Nat) : Module :=
  let shelf := m.shelf
  let m := { m with
    prov := { m.prov with coreFb := false, dark := false }
    drop := { m.drop with resumeAt := some (m.now + 1000000) } }
  let m := { m.reloadAll with shelf := shelf }
  let m := m.trainLanes
  let m := m.each (List.range m.variant.slices) (fun n m => m.setSlice n (fun h => { h with startDue := true }))
  let m := { m with pow := { m.pow with ledger := m.ledgerFor, countFrom := m.now, countDone := false } }
  let m := m.ledgerEvent m.pow.ledger cause 0xFF 0 0
  let latched := m.ent.state == 3
  let m := { m with ent := m.ent.wake }
  let m := if latched then m else m.entropyEvent 6 0
  if m.variant.metering then m.settleStart else m

/-! ### Ledger opcodes (R173, R309, R310, R328) -/

/-- SLICE_HEAT of a slice as an s16. -/
def heatBytes (x : Int) : List Byte := leInt 2 x

/-- The LEDGER_READ payload (R173, R310). -/
def Module.ledgerPayload (m : Module) : List Byte :=
  u32 m.backupGroats.toNat ++ u32 m.pow.holdup.toNat ++ u8 m.pow.ledger ++ u8 m.pow.bits ++ heatBytes m.hubHeat ++
  u32 m.pow.deferred.toNat ++
  (((List.range m.variant.slices).filter m.present).map (fun n => heatBytes (m.sliceHeat n))).flatten

/-- LEDGER_READ. -/
def opLedgerRead : Op :=
  { code := 0x0501, bcast := true, judge := fun _ p => lengthIs p 0,
    act := fun m _ _ => (m, some (.ok m.ledgerPayload)) }
/-- LEDGER_READ (R173, R309). -/
def execLedgerRead (dt : Nat) (p : Packet) (s : State) : Result := s.serve dt opLedgerRead p

/-- LEDGER_SET. -/
def opLedgerSet : Op :=
  { code := 0x0502,
    judge := fun m p =>
      firstOf [lengthIs p 16, need (decide (p.field 4 4 ≤ p.field 0 4)) 4, need (decide (p.field 8 4 ≤ p.field 0 4)) 8,
        busyUnless (!m.updateHolds)],
    act := fun m p _ =>
      let cap := BitVec.ofNat 32 (p.field 0 4)
      let old := m.items
      let m := m.storeItems { m.items with
        capacity := cap, p3Reserve := BitVec.ofNat 32 (p.field 4 4), leanBelow := BitVec.ofNat 32 (p.field 8 4),
        standbyAfter := BitVec.ofNat 16 (p.field 12 2) }
      let m := m.configChanged old
      let m := { m with pow := { m.pow with
        account := if m.pow.onBackup && decide (m.pow.account.toNat ≤ cap.toNat) then m.pow.account else cap } }
      (m.judgeLedger 9, some (.ok (u32 m.revision.toNat))) }
/-- LEDGER_SET (R310, R322, R328). -/
def execLedgerSet (dt : Nat) (p : Packet) (s : State) : Result := s.serve dt opLedgerSet p

/-- STANDBY_ENTER. -/
def opStandbyEnter : Op :=
  { code := 0x0503,
    judge := fun m p => firstOf [lengthIs p 0, busyUnless m.mayStandby],
    act := fun m _ _ => ({ m with pow := { m.pow with standbyDue := true } }, some (.ok [])),
    after := fun m _ => m.standbyStep }
/-- STANDBY_ENTER (R173, R324): the reply goes first. -/
def execStandbyEnter (dt : Nat) (p : Packet) (s : State) : Result := s.serve dt opStandbyEnter p

/-! ### Supply commands (R300-R308) -/

/-- The module moves to ON_BACKUP where mains does not carry it and backup is valid (R301). -/
def Module.toBackup (m : Module) : Module :=
  if m.pow.onBackup then m
  else (({ m with pow := { m.pow with onBackup := true } }).supplyChange 6).judgeLedger 1
/-- The module moves to ON_MAINS (R301). -/
def Module.toMains (m : Module) : Module :=
  if m.pow.onBackup then (({ m with pow := { m.pow with onBackup := false } }).supplyChange 5).judgeLedger 3 else m
/-- Ticks of the 2 s for which mains must stay valid (R301). -/
def twoSeconds : Nat := 200000000

/-- Mains becomes valid; in standby it wakes the module (R300, R301, R325, R326). -/
def Module.mainsIn (m : Module) (dv : Word16) : Module :=
  if !m.alive || m.pow.mains then m
  else
    let m := ({ m with pow := { m.pow with mains := true, mainsSince := m.now, mainsDv := dv } }).supplyChange 2
    if m.stage == .standby then m.wake 8 else m
/-- MAINS_VALID (R300, R301, R325, R326). -/
def execMainsValid (dt : Nat) (dv : Word16) (s : State) : Result := s.on dt (fun m => m.mainsIn dv)

/-- An expired countdown that waited for mains to be invalid enters standby now (R324). -/
def Module.waitedStandby (m : Module) : Module :=
  if m.pow.countDone && m.pow.ledger == 2 && m.mayStandby then m.enterStandby 5 else m

/-- Mains becomes invalid: ON_BACKUP, or HOLDUP with no backup; an expired countdown's wait ends (R300, R301, R324). -/
def Module.mainsOut (m : Module) (dv : Word16) : Module :=
  if !m.alive || !m.pow.mains then m
  else
    let m := ({ m with pow := { m.pow with mains := false, mainsDv := dv } }).supplyChange 1
    if m.pow.backup then m.toBackup.waitedStandby else m.holdup
/-- MAINS_INVALID (R300, R301, R305, R324). -/
def execMainsInvalid (dt : Nat) (dv : Word16) (s : State) : Result := s.on dt (fun m => m.mainsOut dv)

/-- The backup input becomes valid; a mains valid for less than 2 s gives way to it (R300, R301). -/
def Module.backupIn (m : Module) (cv : Word16) : Module :=
  if !m.alive || m.pow.backup then m
  else
    let m := ({ m with pow := { m.pow with backup := true, backupCv := cv } }).supplyChange 4
    if m.pow.mains && decide (m.pow.mainsSince + twoSeconds ≤ m.now) then m else m.toBackup
/-- BACKUP_VALID (R300, R301). -/
def execBackupValid (dt : Nat) (cv : Word16) (s : State) : Result := s.on dt (fun m => m.backupIn cv)

/-- The backup input becomes invalid: ON_MAINS at once, or HOLDUP with no mains (R300, R301). -/
def Module.backupOut (m : Module) (cv : Word16) : Module :=
  if !m.alive || !m.pow.backup then m
  else
    let m := ({ m with pow := { m.pow with backup := false, backupCv := cv } }).supplyChange 3
    if m.pow.mains then m.toMains else m.holdup
/-- BACKUP_INVALID (R300, R301, R305). -/
def execBackupInvalid (dt : Nat) (cv : Word16) (s : State) : Result := s.on dt (fun m => m.backupOut cv)

/-- TO_MAINS: mains has been valid for 2 s without a break (R301). -/
def execToMains (dt : Nat) (s : State) : Result :=
  s.on dt (fun m =>
    if m.alive && m.pow.mains && decide (m.pow.mainsSince + twoSeconds ≤ m.now) then m.toMains else m)

/-- BACKUP falls by the energy measured at the input in 10 ms, standby included (R310, R322). -/
def Module.integrate (m : Module) (groats : Word32) : Module :=
  if m.alive && m.pow.onBackup then
    let m := { m with pow := { m.pow with account := m.pow.account - (if groats.toNat < m.pow.account.toNat then groats else m.pow.account) } }
    if m.coresUp then m.judgeLedger 2 else m
  else m
/-- BACKUP_INTEGRATE (R310). -/
def execBackupIntegrate (dt : Nat) (groats : Word32) (s : State) : Result := s.on dt (fun m => m.integrate groats)

/-- BACKUP_CHECKPOINT: every 60 s on backup, standby included (R310). -/
def execBackupCheckpoint (dt : Nat) (s : State) : Result :=
  s.on dt (fun m =>
    if m.alive && m.pow.onBackup then { m with vault := { m.vault with backupPoint := some m.pow.account } } else m)

/-- BACKUP_REFILL: mains has been valid for 4 h without a break (R310). -/
def execBackupRefill (dt : Nat) (s : State) : Result :=
  s.on dt (fun m =>
    if m.alive && m.pow.mains && !m.pow.onBackup && decide (m.pow.mainsSince + 1440000000000 ≤ m.now) then
      { m with pow := { m.pow with account := m.items.capacity } }
    else m)

/-- RESERVE_ARMED: the usable energy held, at most 24,000 groats, and ARMED from 8,000 (R304). -/
def execReserveArmed (dt : Nat) (groats : Word32) (s : State) : Result :=
  s.on dt (fun m =>
    if m.alive then
      { m with pow := { m.pow with
        holdup := if 24000 < groats.toNat then 24000 else groats, armed := decide (8000 ≤ groats.toNat) } }
    else m)

/-! ### Standby commands -/

/-- Ticks per second. -/
def tickRate : Nat := 100000000

/-- The countdown of STANDBY_ARMED has run out: standby begins, or waits for mains to be invalid (R322, R324). -/
def Module.countdown (m : Module) : Module :=
  if m.coresUp && m.pow.ledger == 2 && decide (m.pow.countFrom + tickRate * m.items.standbyAfter.toNat ≤ m.now) then
    if m.mayStandby then m.enterStandby 5 else { m with pow := { m.pow with countDone := true } }
  else m
/-- STANDBY_COUNTDOWN (R322, R324). -/
def execStandbyCountdown (dt : Nat) (s : State) : Result := s.on dt (fun m => m.countdown)

/-- STANDBY_CHECKPOINT: Keeper alone writes the cycle checkpoint, and the module stays in standby (R52, R308). -/
def execStandbyCheckpoint (dt : Nat) (s : State) : Result :=
  s.on dt (fun m =>
    if m.stage == .standby then { m with vault := { m.vault with checkpoint := some m.clk.cycle } } else m)

/-! ### The slice thermal model (R311, R312) -/

/-- The sum over the channels of the mean of the squares of their current samples, in µA² (R311). -/
def meanSquares (heat : Tbl (Nat × Nat)) : Nat := (heat.map (fun e => e.2.2 / e.2.1)).sum

/-- A slice's loss P of a cycle in nW: the sum of the channels' squared rms currents in µA², the turn-ons that cost 0.3 mJ and
3 mJ, T_est in 0.01 °C, the cycle's length in ticks (R311). -/
def sliceLoss (squares : Nat) (ons : Nat × Nat) (t : Int) (period : Nat) : Nat :=
  let conduct : Int := 80 * squares * (100000 + 4 * (t - 2500)) / 100000000000
  conduct.toNat + (300000 * ons.1 + 3000000 * ons.2) * tickRate / period + 600000000

/-- The stretch factor after a headroom in 0.01 K (R312). -/
def stretchOf (f : Nat) (head : Int) : Nat :=
  if head < 500 then 4
  else if head < 1000 then (if f = 4 then 4 else 2)
  else if head < 1500 then (if f = 1 then 1 else 2)
  else 1

/-- One cycle of a slice's thermal model, once per cycle of the module angle, from the samples and turn-ons since the last
(R248, R311, R312, R327). -/
def Module.thermal (m : Module) (n : Nat) (hub : Int) : Module :=
  let h := m.slice n
  if m.coresUp && h.loaded && h.modelAt != m.clk.wraps then
    let t0 := if h.warm then h.tEst else Config.freeInt m.free
    let m := { m with free := if h.warm then m.free else m.free + 1, pow := { m.pow with hubTemp := hub } }
    let p := sliceLoss (meanSquares h.heat) h.ons t0 m.clk.period.toNat
    let p1 := if h.warm then Config.filter h.p1 p m.clk.period.toNat 1 else p
    let p20 := if h.warm then Config.filter h.p20 p m.clk.period.toNat 20 else p
    let fitted := (Tbl.get (0, 1) m.live.sliceOpts n).2 == 1 && h.ths != 0 && h.ths != 16383
    let die := dieTemp h.tdie
    let t : Int := if fitted then max die (Config.ntcTemp h.ths + 150 * (p20 : Int) / 1000000000)
      else die + 150 * (max 0 ((p1 : Int) - p20)) / 1000000000
    let f := stretchOf h.stretch (12500 - t)
    let m := m.setSlice n (fun h =>
      { h with tEst := t, p1 := p1, p20 := p20, warm := true, stretch := f, heat := [], ons := (0, 0), modelAt := m.clk.wraps })
    if f = h.stretch then m else m.ledgerEvent m.pow.ledger 4 n f 0
  else m
/-- THERMAL_MODEL (R311, R312). -/
def execThermalModel (dt slice : Nat) (hub : Int) (s : State) : Result :=
  s.onSlice dt slice (fun m => m.thermal slice hub)

end Sys2Proof.Machine
end

