-- ==== Sys2Proof/Machine/Lamp.lean ====
section
/-! DEFINITION. The lamp commands: plan entries, crossings, flash boundaries, dimmer firings, fallback, trips and the
resumption of VITAL-OK (spec/07, sections 5 and 6 of spec/08). -/

namespace Sys2Proof.Machine
open Sys2Proof

/-! ### Taking a command's state on a channel (R188, R202-R204) -/

/-- A command takes effect on a channel, unless a fallback holds the channel or is still shown there: then it changes nothing and
is not remembered (R202-R204). -/
def Module.showCommand (m : Module) (ch : Nat) (s : Shown) : Module :=
  if m.fallbackFor ch ≠ 0 ∨ (m.chan ch).fb ≠ 0 then m else m.takeEffect ch (fun c => { c with cmd := some s })

/-- An action waits for a crossing of its bus: ZERO_CROSS on an AC bus of a running slice (R188), or held back (R238). -/
def Module.waitsCrossing (m : Module) (ch : Nat) (mode : Mode) (held : Bool) : Bool :=
  m.sliceRuns (ch / 16) && (held || (mode == .zeroCross && (m.busOf ch).phase.kind == .ac))

/-- One entry's action, in its mode; `at_` is the turn of its instant. Of actions of one instant on a channel the last taken
decides, so that one which waits gives way (R138, R187, R188). -/
def Module.act (m : Module) (at_ : Nat) (held : List Nat) (e : Nat × Shown) : Module :=
  let m := m.setChan e.1 (fun c => { c with zc := c.zc.filter (fun z => z.2 != at_) })
  if m.waitsCrossing e.1 e.2.mode (held.contains (e.1 / 16)) then
    m.setChan e.1 (fun c => { c with zc := c.zc ++ [(e.2, at_)] })
  else m.showCommand e.1 e.2

/-! ### Flash edges (R190-R196, R313) -/

/-- The flashing channels that follow generator `k`. -/
def Module.followers (m : Module) (k : Nat) : List Nat :=
  (List.range m.variant.channels).filter (fun ch =>
    let s := m.shown ch
    s.2 != 4 && ((s.1.pattern == .flashA && genFor s.2 0 == k) || (s.1.pattern == .flashB && genFor s.2 1 == k)))

/-- At the start of a generator's on part, each slice's stretch factor comes into force on it (R313). -/
def Module.takeStretch (m : Module) : Module :=
  [0, 1, 2, 3].foldl (fun m k =>
    if (m.lamps.gen k).index m.lamps.half = 0 then
      m.each (List.range m.variant.slices) (fun n m =>
        m.setSlice n (fun h => { h with stretchNow := Tbl.set 1 h.stretchNow k h.stretch }))
    else m) m

/-- What the last edge of a flashing channel made it, one that waits for its crossing included. -/
def Chan.edged (c : Chan) : Bool := match c.edge.getLast? with | some e => e.2 | none => c.lit

/-- A flashing channel at a half-cycle boundary: at the start of an on part a wait for it ends (R196), and where its
generator has changed part it moves at the boundary, or at the next crossing in ZERO_CROSS mode on an AC bus (R190, R194, R195). -/
def Module.flashStep (m : Module) (ch : Nat) : Module :=
  let s := m.shown ch
  if s.2 != 4 && (s.1.pattern == .flashA || s.1.pattern == .flashB) then
    let b := if s.1.pattern == .flashB then 1 else 0
    let k := genFor s.2 b
    let on := m.flashOn ch s.2 b
    let starts := on && (m.lamps.gen k).index (m.lamps.halfFor s.2 k) == 0
    let woken := starts && (m.chan ch).waitOn
    let m := if woken then m.setChan ch (fun c => { c with waitOn := false }) else m
    if on != (m.chan ch).edged || woken then
      if m.waitsCrossing ch s.1.mode false then
        m.setChan ch (fun c => { c with edge := c.edge ++ [(m.clk.turn / 32768 * 32768, on)] })
      else m.moveSwitch ch on
    else m
  else m

/-- A FLASH_SET at its instant: it waits for its new period start, or takes effect when this is that boundary (R192). -/
def Module.takeFlash (m : Module) (due : Nat) (f : Nat × Nat × Nat × Nat) : Module :=
  let g : Gen := ⟨f.2.1, f.2.2.1, f.2.2.2⟩
  if due = 32768 * m.lamps.half ∧ g.index m.lamps.half = 0 then
    let m := { m with lamps := m.lamps.setGen f.1 g }
    let m := m.takeStretch
    m.each (m.followers f.1) (fun ch m => m.flashStep ch)
  else { m with lamps := { m.lamps with genNext := Tbl.modify [] m.lamps.genNext f.1 (· ++ [g]) } }

/-! ### Plan entries (R93, R95, R115, R138, R199) -/

/-- A plan entry at its instant: its schedule till is freed, its channels act and its generator settings are taken
(R115, R138, R188, R199). -/
def Module.runPlan (m : Module) (e : Plan) : Module :=
  let m := { m with lamps := { m.lamps with plans := m.lamps.plans.filter (fun x => x.id != e.id) } }
  let m := match e.till with | some t => m.setTill t (fun _ => Till.closed) | none => m
  let at_ := m.clk.turnAgo (m.au - e.due)
  let m := e.acts.foldl (fun m a => m.act at_ e.held a) m
  match e.flash with
  | some f => m.takeFlash e.due f
  | none => m

/-- A plan entry by its number. -/
def Module.planOf (m : Module) (id : Nat) : Option Plan := m.lamps.plans.find? (fun e => e.id == id)
/-- No entry that lies earlier, or at the same instant and was taken earlier, is still in the plan (R138). -/
def Module.planFirst (m : Module) (e : Plan) : Bool :=
  m.lamps.plans.all (fun x => decide (e.due < x.due) || (e.due == x.due && decide (e.id ≤ x.id)))

/-- PLAN_ENTRY_ACTION: at the instant of its C:A, or after it where the count has moved past, in the order of the instants and of
the taking (R93, R138, R188). -/
def execPlanEntryAction (dt id : Nat) (s : State) : Result :=
  s.on dt (fun m =>
    match m.planOf id with
    | some e => if e.due ≤ m.au ∧ m.planFirst e then m.runPlan e else m
    | none => m)

/-- The actions of a plan entry on a slice, as PLAN frames carry them, up to 32 in one (R230). -/
def planFrames (e : Plan) (n : Nat) : List (List PlanAct) :=
  let l := (e.acts.filter (fun a => a.1 / 16 == n)).map (fun a => (⟨a.1 % 16, a.2, e.due⟩ : PlanAct))
  chunks 32 l.length l
/-- A plan entry goes to a slice (R95, R230, R238). -/
def Module.planTo (m : Module) (e : Plan) (n : Nat) : Module :=
  (planFrames e n).foldl (fun m l => m.sendSlice n (.plan (.entries l)) none) m
/-- A plan entry is sent to every running slice it names (R95, R230). -/
def Module.dispatch (m : Module) (e : Plan) : Module :=
  let m := { m with lamps := { m.lamps with
    plans := m.lamps.plans.map (fun (x : Plan) => if x.id = e.id then { x with sent := true } else x) } }
  m.each ((slicesOf (e.acts.map (fun a => a.1))).filter m.sliceRuns) (fun n m => m.planTo e n)
/-- PLAN_DISPATCH (R95): once for an entry that is still to come. -/
def execPlanDispatch (dt id : Nat) (s : State) : Result :=
  s.on dt (fun m =>
    match m.planOf id with
    | some e => if e.sent then m else m.dispatch e
    | none => m)

/-! ### Crossings of a bus (R86, R188, R190, R197) -/

/-- What a channel waits for takes place where its instant satisfies `p`: actions, then flash edges, each oldest first. -/
def Module.runWaiting (m : Module) (ch : Nat) (p : Nat → Bool) : Module :=
  let due := (m.chan ch).zc.filter (fun z => p z.2)
  let m := m.setChan ch (fun c => { c with zc := c.zc.filter (fun z => !p z.2) })
  let m := due.foldl (fun m z => m.showCommand ch z.1) m
  let edges := (m.chan ch).edge.filter (fun e => p e.1)
  let m := m.setChan ch (fun c => { c with edge := c.edge.filter (fun e => !p e.1) })
  edges.foldl (fun m e => m.moveSwitch ch e.2) m

/-- A dimmed channel is closed inside its conduction part and open outside it; one that dims as STEADY conducts (R197). -/
def Module.dimStep (m : Module) (ch : Nat) : Module :=
  if (m.shown ch).1.pattern == .dim then
    if m.dimsAsSteady ch then m.refresh ch else m.moveSwitch ch (m.dimNow ch)
  else m

/-- The present instant is one of a slice's bus at which a rule places an action at its next zero crossing: on a DC, a reversed
or a dead bus an instant of angle 0 or 32,768 (R86); on a live AC bus the command says so. -/
def Module.crossPoint (m : Module) (n : Nat) : Bool :=
  let b := (m.slice n).bus
  (b.phase.kind == .ac && !b.reversed) || m.clk.angle.toNat % 32768 == 0

/-- At the first zero crossing of its bus after first lamp control, or after a wake's load, each channel of a slice shows what
R202 gives it: a fallback that holds, or its start pattern unless it has begun or a command has taken the channel
(R47, R53, R57, R325). -/
def Module.startSlice (m : Module) (n : Nat) : Module :=
  if (m.slice n).startDue && (m.slice n).loaded then
    let m := m.setSlice n (fun h => { h with startDue := false, stored := false })
    m.each (sliceChans n) (fun ch m =>
      let c := m.chan ch
      if m.fallbackFor ch ≠ 0 then m.applyFallback ch
      else if c.fb = 0 ∧ (c.start.isSome ∨ c.cmd.isSome) then m.refresh ch
      else m.applyStart ch)
  else m

/-- What a valid crossing of a slice's bus at the turn `at_` does to its channels: a start pattern that is due begins, and what
waited for a crossing at or after an instant up to that one takes place (R53, R188). -/
def Module.crossing (m : Module) (n at_ : Nat) : Module :=
  (m.startSlice n).each (sliceChans n) (fun ch m => (m.runWaiting ch (fun x => decide (x ≤ at_))).dimStep ch)

/-- Ticks of angle, in au, after which a ZERO_CROSS action no longer waits (R188). -/
def zcLimit : Nat := 36864
/-- ZERO_CROSS_TIMEOUT of a channel: its waiting actions and flash edges, each at 36,864 au after its instant (R188, R190). -/
def Module.zcTimeout (m : Module) (ch : Nat) : Module :=
  m.runWaiting ch (fun x => decide (x + zcLimit ≤ m.clk.turn))
/-- ZERO_CROSS_TIMEOUT (R188). -/
def execZeroCrossTimeout (dt channel : Nat) (s : State) : Result :=
  s.onChannel dt channel (fun m => m.zcTimeout channel)

/-! ### Flash boundaries (R191-R196, R313) -/

/-- The settings that wait for a boundary at which their own index is 0 take effect, in the order in which they came (R192,
R473). -/
def Module.takeGenerators (m : Module) : Module :=
  [0, 1, 2, 3].foldl (fun m k =>
    let l := Tbl.get [] m.lamps.genNext k
    match (l.filter (fun g => g.index m.lamps.half == 0)).getLast? with
    | some g =>
      { m with lamps := { m.lamps.setGen k g with
        genNext := Tbl.set [] m.lamps.genNext k (l.filter (fun g => g.index m.lamps.half != 0))
        shift := Tbl.erase m.lamps.shift k, joining := Tbl.erase m.lamps.joining k } }
    | none => m) m

/-- A flashing start pattern joins the domain phase: its own last period runs to its end, and it begins again at the start of
the domain's next period (R55). -/
def Module.joinPhase (m : Module) : Module :=
  [2, 3].foldl (fun m k =>
    let g := m.lamps.gen k
    let starts := g.index m.lamps.half == 0
    if Tbl.get false m.lamps.joining k then
      (if starts then { m with lamps := { m.lamps with joining := Tbl.erase m.lamps.joining k } } else m)
    else if Tbl.get 0 m.lamps.shift k ≠ 0 ∧ g.index (m.lamps.halfFor 1 k) = 0 then
      { m with lamps := { m.lamps with
        shift := Tbl.erase m.lamps.shift k, joining := Tbl.set false m.lamps.joining k (!starts) } }
    else m) m

/-- The generators at the boundary with which half-cycle `h` begins (R191, R192, R313). -/
def Module.atBoundary (m : Module) (h : Nat) : Module :=
  let m := { m with lamps := { m.lamps with half := h } }
  let m := m.takeGenerators.joinPhase.takeStretch
  m.each (List.range m.variant.channels) (fun ch m => m.flashStep ch)

/-- FLASH_BOUNDARY: the half-cycle index moves to that of the present C:A, and every generator with it; the boundary inside a
cycle that an angle step cuts short comes with the next one (R191, R195). -/
def Module.flashBoundary (m : Module) : Module :=
  let h := m.clk.half
  if h = m.lamps.half then m
  else if h = m.lamps.half + 2 then (m.atBoundary (h - 1)).atBoundary h
  else m.atBoundary h
/-- FLASH_BOUNDARY (R191-R196). -/
def execFlashBoundary (dt : Nat) (s : State) : Result := s.on dt (fun m => m.flashBoundary)

/-- A flashing channel's bus has come back: in an on part it does not conduct until the start of the next (R196). -/
def Module.busBack (m : Module) (n : Nat) : Module :=
  m.each (sliceChans n) (fun ch m =>
    let s := m.shown ch
    let flashing := s.1.pattern == .flashA || s.1.pattern == .flashB
    if flashing && m.flashOn ch s.2 (if s.1.pattern == .flashB then 1 else 0) then
      m.setChan ch (fun c => { c.openAt m.now false with waitOn := true })
    else m)

/-- DIM_FIRING: the switch of a dimmed channel at an end of its conduction part (R197). -/
def execDimFiring (dt channel : Nat) (s : State) : Result := s.onChannel dt channel (fun m => m.dimStep channel)

/-! ### Fallback (R20, R201-R204, R222-R224) -/

/-- At a zero crossing of a slice's bus each of its channels begins, keeps, changes or ends its fallback; a start pattern that is
due begins (R86, R203, R223). -/
def Module.fallbackPoint (m : Module) (n : Nat) : Module :=
  if m.stage != .unpowered && m.crossPoint n then
    if (m.slice n).startDue then m.startSlice n else m.each (sliceChans n) (fun ch m => m.applyFallback ch)
  else m
/-- FALLBACK_APPLY (R86, R203, R223). -/
def execFallbackApply (dt slice : Nat) (s : State) : Result := s.onSlice dt slice (fun m => m.fallbackPoint slice)

/-! ### Overcurrent and thermal protection (R186, R247) -/

/-- A slice sends a frame of its own, with its epoch, its SEQ and the last hub frame it took; one that runs alone sends none
until its reload has begun (R24, R229, R232; log 43). -/
def Module.fromOwn (m : Module) (n : Nat) (msg : SliceMsg) : Module :=
  if (m.ownOf n).alone && (m.ownOf n).running then m
  else
    let m := m.setOwn n (fun o => { o with seq := o.seq + 1 })
    let o := m.ownOf n
    m.put (.fromSlice n o.epoch o.seq o.lastSeq msg)

/-- The threshold of a closed channel, in mA: 32 A in the inrush window of a turn-on from off, else 8 A (R186). -/
def Module.tripLevel (m : Module) (ch : Nat) : Nat :=
  match (m.chan ch).inrush with
  | some t => if m.now < t + 1000000 then 32000 else 8000
  | none => 8000
/-- A conversion of `peak` mA of a channel's current: past the threshold in force the switch opens until the next turn-on; after
three turn-ons in a row that end so the channel stays off and the slice reports it (R186). -/
def Module.overcurrent (m : Module) (ch peak : Nat) : Module :=
  let c := m.chan ch
  if c.closed ∧ m.tripLevel ch < peak then
    let run := c.tripRun + 1
    let m := m.setChan ch (fun c =>
      { c.openAt m.now false with tripOpen := true, tripRun := run, tripped := c.tripped || decide (3 ≤ run) })
    if 3 ≤ run then m.fromOwn (ch / 16) (.trip (some (ch % 16))) else m
  else m
/-- OVERCURRENT_TRIP (R186). -/
def execOvercurrentTrip (dt channel peak : Nat) (s : State) : Result :=
  s.onChannel dt channel (fun m => m.overcurrent channel peak)

/-- INRUSH_WINDOW_END: 1,000,000 ticks after the turn-on the threshold becomes 8 A (R186). -/
def execInrushWindowEnd (dt channel : Nat) (s : State) : Result :=
  s.onChannel dt channel (fun m =>
    match (m.chan channel).inrush with
    | some t => if t + 1000000 ≤ m.now then m.setChan channel (fun c => { c with inrush := none }) else m
    | none => m)

/-- TDIE reaches 150.00 °C: the slice opens every switch and sends TRIP (R240, R247). -/
def Module.thermalCut (m : Module) (n : Nat) : Module :=
  let m := m.openAll n (fun c => { c with cut := true })
  (m.setOwn n (fun o => { o with tdie := max o.tdie 12500 })).fromOwn n (.trip none)
/-- THERMAL_CUT (R247). -/
def execThermalCut (dt slice : Nat) (s : State) : Result := s.onSlice dt slice (fun m => m.thermalCut slice)

/-- TRIP: the hub takes the report; the switch is open already, and proving finds the channel (R186, R230, R247). -/
def execTrip (dt slice : Nat) (hdr : SliceHdr) (_pos : Option Nat) (s : State) : Result :=
  s.onSlice dt slice (fun m => m.fromSlice slice hdr id)

/-! ### VITAL-OK (R51, R225, R226) -/

/-- The angle is locked: the tracker follows its reference within the criterion, the synthetic cycle or the domain. -/
def steadyTracker : Tracker → Bool
  | .locked | .synthetic | .domain => true
  | _ => false

/-- R51: every present slice is loaded and has delivered verdicts for one full cycle, the angle is locked, the start
pattern is applied, and no vital fault is unresolved. -/
def Module.startMet (m : Module) : Bool :=
  (m.stage == .lamps || m.stage == .ready) && !m.shelf && steadyTracker m.clk.tracker && !m.dropVital &&
    ((List.range m.variant.slices).filter m.present).all (fun n =>
      (m.slice n).loaded && !(m.slice n).startDue && decide (128 ≤ (m.slice n).r51))

/-- Toggling resumes at a zero crossing of the reference bus at least 5 ms after the last edge, once R51 is met and while
no condition holds; the closing is reported (R86, R225, R226). -/
def Module.vitalResume (m : Module) : Module :=
  if m.prov.toggling then m.vitalStop
  else if m.vitalCause == 0 && (!m.prov.hold || m.startMet) && decide (m.prov.lastToggle + 500000 ≤ m.now) && m.coresUp &&
      m.crossPoint m.clk.ref then
    let m := { m with prov := { m.prov with toggling := true, hold := false, lastToggle := m.now } }
    m.event 0x8303 (u8 1 ++ u8 0 ++ u16 0xFFFF ++ m.ca ++ rsv 5)
  else m
/-- VITAL_OK_RESUME (R51, R86, R225, R226). -/
def execVitalOkResume (dt : Nat) (s : State) : Result := s.on dt (fun m => m.vitalResume)

end Sys2Proof.Machine
end

