-- ==== Sys2Proof/Machine/Prove.lean ====
section
/-! DEFINITION. Proving: what a slice judges at each bin's end, what the hub makes of its verdicts, swatch learning and
tracking, and the open-wire test (spec/08, section 9 of spec/09). -/

namespace Sys2Proof.Machine
open Sys2Proof

/-! ### Bins (R205-R207) -/

/-- The bin of the bus's negative crossing (R206). -/
def Module.negBin (m : Module) (n : Nat) : Nat :=
  let p := (m.slice n).bus.phase
  (p.neg - p.pos).toNat / 512
/-- Is bin `b` excluded: on AC, the bin that holds a crossing or the bin before it (R206)? -/
def Module.excluded (m : Module) (n b : Nat) : Bool :=
  (m.slice n).bus.phase.kind == .ac &&
    (b == 127 || b == 0 || b == m.negBin n || b == (m.negBin n + 127) % 128)
/-- The last end of a bin of a slice at or before `x`, in au of C:A or of turn. -/
def Module.binEndBy (m : Module) (n x : Nat) : Nat := x - (x + 65536 - m.binBase n) % 512
/-- The first end of a bin of a slice after `x`. -/
def Module.binEndAfter (m : Module) (n x : Nat) : Nat := m.binEndBy n x + 512
/-- The absolute au at which bin `b` of the cycle with the low 16 bits `cyc` ended: the cycle nearest to now (R210). -/
def Module.binEnd (m : Module) (n b : Nat) (cyc : Word16) : Nat :=
  let c := m.clk.cycle.toNat
  let near := c + 32768 - (c + 32768 - cyc.toNat) % 65536
  near * 65536 + (m.binBase n + 512 * (b + 1)) % 65536
/-- A slice's bus angle (R205). -/
def Module.busAngle (m : Module) (n : Nat) : Nat := (m.clk.angle.toNat + 65536 - m.binBase n) % 65536

/-- FLOOR_MA of a channel in force (R228). -/
def Module.floorMa (m : Module) (ch : Nat) : Nat := (Tbl.get (15, 10) m.live.limits ch).2
/-- LEAK_MA of a channel in force (R228). -/
def Module.leakMa (m : Module) (ch : Nat) : Nat := (Tbl.get (15, 10) m.live.limits ch).1
/-- A bin is proving-valid for a swatch (R207). -/
def Module.binValid (m : Module) (ch b : Nat) (w : SwBin) : Bool :=
  !m.excluded (ch / 16) b && decide (m.floorMa ch < w.mean.natAbs)
/-- Bin `b` of a channel's working swatch is proving-valid: by the learned swatch it was loaded from, so that tracking never
changes the set (R207, R216). -/
def Module.validAt (m : Module) (ch b : Nat) : Bool :=
  m.binValid ch b ((Tbl.get Swatch.none (m.ownOf (ch / 16)).base (ch % 16)).bins.getD b ⟨0, 0⟩)
/-- The sum of |mean| over the proving-valid bins of a swatch (R215). -/
def Module.swatchSum (m : Module) (ch : Nat) (bins : List SwBin) : Nat :=
  ((bins.zipIdx).map (fun (e : SwBin × Nat) => if m.binValid ch e.2 e.1 then e.1.mean.natAbs else 0)).sum

/-! ### Judging a bin at the slice (R208, R209, R212) -/

/-- The rule that applies to a channel: 1 swatch, 2 floor, 3 leak, 4 floor while dimmed (R209, R212). -/
def Module.ruleOf (m : Module) (ch : Nat) : Nat :=
  let o := m.ownOf (ch / 16)
  let b := (m.busOf ch).phase
  let w := Tbl.get Swatch.none o.swatches (ch % 16)
  let c := m.chan ch
  match m.reported ch with
  | .off => 3
  | .dim => 4
  | p =>
    if p != .steady && (!c.lit || c.waitOn) then 3
    else if decide (2 ≤ Tbl.get 0 o.swState (ch % 16)) && w.kind == b.kind && b.kind != .none && (b.kind == .dc || b.settled)
    then 1
    else 2
/-- The rule and pattern of a channel at the start of the bin in progress (R209, R212). -/
def Module.atBinStart (m : Module) (ch : Nat) : Nat × Pattern :=
  (Tbl.get none (m.ownOf (ch / 16)).atStart (ch % 16)).getD (m.ruleOf ch, m.reported ch)

/-- Length of a bin in ticks. -/
def Module.binTicks (m : Module) : Nat := m.clk.period.toNat / 128
/-- The gate-drive ramp of the channel's last edge overlaps the bin that ends now (R189, R208). -/
def Module.rampIn (m : Module) (ch : Nat) : Bool :=
  match (m.chan ch).ramp with
  | some r => decide (r.1 < m.now) && decide (m.now < r.1 + (if r.2 then 5000 else 800) + m.binTicks)
  | none => false
/-- The test bins of the open-wire test, in their order (R251). -/
def Module.wireBins (m : Module) (n : Nat) : List Nat :=
  if (m.slice n).bus.phase.kind = .ac then [127, 0, (m.negBin n + 127) % 128, m.negBin n] else [0, 1, 2, 3]
/-- The open-wire test of a slice uses bin `b`: the position under test (R251). -/
def Module.wireAt (m : Module) (n b : Nat) : Option Nat :=
  match (m.ownOf n).wire with
  | some (p, k) => if (m.wireBins n).getD k 128 = b then some p else none
  | none => none
/-- The bin that ends now is never judged (R208). -/
def Module.notJudged (m : Module) (ch b : Nat) : Bool :=
  m.excluded (ch / 16) b || m.rampIn ch || decide (m.binEndBy (ch / 16) m.clk.turn < (m.chan ch).settle + 512) ||
    decide ((m.ownOf (ch / 16)).skip ≠ 0) || m.wireAt (ch / 16) b == some (ch % 16)

/-- Bin `b` lies wholly inside the conduction part of a dimmed half-cycle (R209). -/
def Module.dimBin (m : Module) (ch b : Nat) : Bool :=
  let p := (m.busOf ch).phase
  let dim := (m.shown ch).1.dim.toNat
  let inside := fun (x : Nat) => decide (512 * (b + 1) ≤ x) && decide (x ≤ 512 * b + dim)
  inside 65536 || inside (p.neg - p.pos).toNat

/-- The larger magnitude of a bin's two samples. -/
def largest (x : Int × Int) : Nat := max x.1.natAbs x.2.natAbs

/-- The bin that ends now is a judged bin of a channel's floor half-cycle (R209, R212). -/
def Module.floorBin (m : Module) (ch b : Nat) : Bool :=
  let r := (m.atBinStart ch).1
  (r == 2 || (r == 4 && m.dimBin ch b)) && !m.notJudged ch b
/-- A channel's floor half-cycle after this bin, whose two samples are in µA; the pattern or rule has changed where a bin begins or
ends under another (R212). -/
def Module.floorAfter (m : Module) (ch b : Nat) (x : Int × Int) : FloorHalf :=
  let s := m.atBinStart ch
  let old := if b % 64 = 0 then none else Tbl.get none (m.ownOf (ch / 16)).floor (ch % 16)
  let f : FloorHalf := old.getD ⟨s.2, s.1, false, false, false⟩
  { f with
    mixed := f.mixed || f.pattern != s.2 || f.rule != s.1 || m.reported ch != s.2 || m.ruleOf ch != s.1
    judged := f.judged || m.floorBin ch b
    seen := f.seen || (m.floorBin ch b && decide (1000 * m.floorMa ch < largest x)) }

/-- A channel's 2-bit code of the bin that ends now, whose two samples are in µA (R209, R210, R212). -/
def Module.codeOf (m : Module) (ch b : Nat) (x : Int × Int) : Nat :=
  match (m.atBinStart ch).1 with
  | 1 =>
    let w := (Tbl.get Swatch.none (m.ownOf (ch / 16)).swatches (ch % 16)).bins.getD b ⟨0, 0⟩
    if m.notJudged ch b || !m.validAt ch b then 0
    else if (x.1 + x.2) * w.mean.sign < 2000 * ((w.mean.natAbs : Int) - w.tol) then 2 else 1
  | 3 => if m.notJudged ch b then 0 else if 1000 * m.leakMa ch < largest x then 3 else 1
  | _ =>
    let f := m.floorAfter ch b x
    if b % 64 = 63 && f.judged && !f.mixed then (if f.seen then 1 else 2) else 0

/-! ### The slice's converter at a bin's end (R75, R240-R246) -/

/-- A channel's two current samples of a bin in µA (R205, R246). -/
def Module.binSamples (m : Module) (cal : List CalPath) (ch : Nat) (codes : List (List Int)) : Int × Int :=
  let at_ := fun (j : Nat) => m.currentOf cal ch ((codes.getD j []).getD (1 + ch % 16) 0)
  (at_ 1, at_ 3)
/-- The last TDIE code among a bin's conversions, or the one before (R243). -/
def binTdie (b : Nat) (codes : List (List Int)) (old : Nat) : Nat :=
  [0, 2].foldl (fun t j => if auxKind (auxEntry b j) = .tdie then ((codes.getD j []).getD 2 0).toNat else t) old

/-- A slice's search for crossings after a conversion of VBUS_A at tick `t` of `v` mV, and the crossing it finds: between the
conversions on either side of zero, with the bus beyond 10 V on both sides within 2,048 au, `span` ticks (R75, R242). -/
def Swing.next (w : Swing) (span t : Nat) (v : Int) : Swing × Option (Bool × Nat) :=
  let cand := match w.last with
    | some (t0, v0) =>
      let zero := t0 + (((t : Int) - t0) * (-v0) / (v - v0)).toNat
      if v0 < 0 ∧ 0 ≤ v then some (true, zero) else if 0 ≤ v0 ∧ v < 0 then some (false, zero) else w.cand
    | none => none
  let recent := fun (x : Option Nat) => match x with | some y => decide (t ≤ y + span) | none => false
  let out := match cand with
    | some (true, z) => if decide (10000 < v) && recent w.low then some (true, z) else none
    | some (false, z) => if decide (v < -10000) && recent w.high then some (false, z) else none
    | none => none
  ({ last := some (t, v), low := if v < -10000 then some t else w.low, high := if 10000 < v then some t else w.high
     cand := if out.isSome then none else cand }, out)
/-- The same over a bin's four conversions of VBUS_A, in mV, a quarter of the bin apart (log 96). -/
def Module.swingOver (m : Module) (w : Swing) (vs : List Int) : Swing × List (Bool × Nat) :=
  (vs.zipIdx).foldl (fun (r : Swing × List (Bool × Nat)) (e : Int × Nat) =>
    let s := r.1.next (m.clk.period.toNat / 32) (m.now - m.binTicks + e.2 * m.binTicks / 4) e.1
    (s.1, r.2 ++ s.2.toList)) (w, [])

/-! ### A bin's end (R205-R212, R216, R230, R242, R245, R251) -/

/-- What a slice keeps of a bin that it has judged. -/
def Module.keepBin (m : Module) (n b : Nat) (xs : List (Int × Int)) (codes : List Nat) (o : OwnSlice) : OwnSlice :=
  let chs := sliceChans n
  let e := m.binEndBy n m.au
  let sums := xs.map (fun (x : Int × Int) => x.1 + x.2)
  let judged := chs.map (fun ch => codes.getD (ch % 16) 0 != 0 && decide ((m.atBinStart ch).1 % 2 = 1) || m.floorBin ch b)
  { o with
    floor := Tbl.setRange none o.floor 0 ((chs.zip xs).map (fun (c : Nat × Int × Int) => some (m.floorAfter c.1 b c.2)))
    dirty := (codes.zipIdx).foldl (fun (t : Tbl Bool) (c : Nat × Nat) => if 2 ≤ c.1 then Tbl.set false t c.2 true else t)
      (if b = 0 then [] else o.dirty)
    vals := (sums.zipIdx).foldl (fun (t : Tbl Int) (s : Int × Nat) => Tbl.set 0 t (128 * s.2 + b) s.1) o.vals
    judgedBy := (chs.zip codes).foldl (fun (t : Tbl Nat) (c : Nat × Nat) =>
      Tbl.set 0 t (128 * (c.1 % 16) + b) (if c.2 = 0 then 0 else (m.atBinStart c.1).1)) o.judgedBy
    last := ((judged.zip sums).zipIdx).foldl (fun (t : Tbl (Option (Nat × Nat × Int))) (j : (Bool × Int) × Nat) =>
      if j.1.1 then Tbl.set none t j.2 (some (b, e, j.1.2)) else t) o.last
    skip := o.skip - 1
    wire := match o.wire with
      | some (p, k) => if (m.wireBins n).getD k 128 = b then (if k = 3 then none else some (p, k + 1)) else o.wire
      | none => none
    cal := if b = 127 then o.calNext.getD o.cal else o.cal
    calNext := if b = 127 then none else o.calNext }
/-- The next bin of a slice begins: the rule that applies to each channel is noted (R209). -/
def Module.binBegins (m : Module) (n : Nat) : Module :=
  m.setOwn n (fun o => { o with
    atStart := Tbl.setRange none [] 0 ((sliceChans n).map (fun ch => some (m.ruleOf ch, m.reported ch))) })
/-- A dimmed switch that is still closed past its predicted crossing opens (R197). -/
def Module.dimEnds (m : Module) (n : Nat) : Module :=
  m.each (sliceChans n) (fun ch m =>
    if (m.shown ch).1.pattern == .dim && !m.dimsAsSteady ch && !m.dimNow ch then m.moveSwitch ch false else m)

/-- A bin ends at a slice that runs and hears its hub: it converts the bin's codes with its table, judges its 16 channels, reports
the crossings it has found, and sends VERDICT and SAMPLES (R205-R210, R230, R242, R246). -/
def Module.binEnds (m : Module) (n b : Nat) (codes : List (List Int)) : Module :=
  let o := m.ownOf n
  let m := m.setOwn n (fun o => { o with tdie := binTdie b codes o.tdie })
  if o.running && !o.alone then
    let xs := (sliceChans n).map (fun ch => m.binSamples o.cal ch codes)
    let verdict := ((sliceChans n).zip xs).map (fun (c : Nat × Int × Int) => m.codeOf c.1 b c.2)
    let swing := m.swingOver o.swing (codes.map (fun s => voltageOf o.cal (s.getD 0 0)))
    let cyc := BitVec.ofNat 16 (m.binEndBy n m.au / 65536)
    let m := (m.setOwn n (fun o => { m.keepBin n b xs verdict o with swing := swing.1 })).binBegins n
    let m := swing.2.foldl (fun m x => m.fromOwn n (.xing x.1 x.2)) (m.dimEnds n)
    let m := m.fromOwn n (.verdict b cyc verdict)
    m.fromOwn n (.samples b (binWords (m.alignLeft n) b codes))
  else m
/-- SLICE_BIN_END (R205-R210, R212). -/
def execSliceBinEnd (dt slice bin : Nat) (codes : List (List Int)) (s : State) : Result :=
  s.onSlice dt slice (fun m => m.binEnds slice bin codes)

/-! ### Verdicts at the hub (R210, R217-R225) -/

/-- A channel with an active fault is refused its learning (R215). -/
def Module.refuseFaulty (m : Module) : Module := m.stopLearning m.activeFault 1 false

/-- A channel's runs and counts after one verdict code (R217, R219). -/
def Chan.count (c : Chan) (code : Nat) (leakRule : Bool) : Chan :=
  { c with
    darkRun := if code = 2 then c.darkRun + 1 else if code = 0 then c.darkRun else 0
    leakRun := if code = 3 then c.leakRun + 1 else if code = 0 then c.leakRun else 0
    sinceDark := if code = 2 then 0 else min 128 (c.sinceDark + 1)
    passDark := if code = 2 then false else c.passDark || code == 1
    sinceLeak := if code = 3 then 0 else min 128 (c.sinceLeak + 1)
    passLeak := if code = 3 then false else c.passLeak || (code == 1 && leakRule) }

/-- A value in whole mA of the sum of two samples in µA; where it is not whole the spec states no rounding, and either neighbour
may be given (free, log 8; log 97). -/
def wholeMa (free : Nat) (sum : Int) : Int := if sum % 2000 = 0 then sum / 2000 else sum / 2000 + Config.freeInt free % 2
/-- A fault of a channel is detected at its last judged bin, or where none has been noted at that of the message, with a value that
is then free (R217, R220; log 8). -/
def Module.detectAt (m : Module) (ch kind bin endAu : Nat) : Module :=
  let r := (Tbl.get none (m.ownOf (ch / 16)).last (ch % 16)).getD (bin, endAu, 2000 * Config.freeInt m.free)
  { m with free := m.free + 1 }.detect ch kind (BitVec.ofNat 40 (r.2.1 / 65536)) (BitVec.ofNat 16 r.2.1) r.1
    (wholeMa m.free r.2.2)

/-- One channel's code of an on-time verdict (R217, R219, R220). -/
def Module.countCode (m : Module) (ch code bin endAu : Nat) : Module :=
  let leakRule := Tbl.get 0 (m.ownOf (ch / 16)).judgedBy (128 * (ch % 16) + bin) == 3
  let m := m.setChan ch (fun c => c.count code leakRule)
  let c := m.chan ch
  let m := if code = 2 ∧ 3 ≤ c.darkRun then m.detectAt ch 1 bin endAu else m
  let m := if code = 3 ∧ 2 ≤ c.leakRun then m.detectAt ch 2 bin endAu else m
  let m := if 128 ≤ c.sinceDark && c.passDark then m.endFault ch 1 0 else m
  if 128 ≤ c.sinceLeak && c.passLeak then m.endFault ch 2 0 else m

/-- A verdict message complete by its deadline is counted (R210, R217, R219, R51). -/
def Module.countVerdict (m : Module) (n bin endAu : Nat) (codes : Word32) : Module :=
  let m := m.setSlice n (fun h =>
    { h with verdicts := min 128 (h.verdicts + 1), r51 := min 128 (h.r51 + 1), judged := max h.judged (m.clk.turn + endAu - m.au) })
  let m := (List.range 16).foldl (fun m p =>
    m.countCode (16 * n + p) (codes.toNat / 4 ^ p % 4) bin endAu) m
  let h := m.slice n
  let m := if 128 ≤ h.verdicts then
      m.each (sliceChans n) (fun ch m => m.endFault ch 3 (if h.reloaded then 2 else 0))
    else m
  m.refuseFaulty

/-- The turn at which the next bin of a slice ends for which no verdict has been counted or missed; the bins of a part of a cycle
that was cut off have no verdict (R81, R210). -/
def Module.nextDue (m : Module) (n : Nat) : Nat :=
  let e := m.binEndAfter n ((m.slice n).judged + 256)
  if m.clk.cut.1 < e ∧ e ≤ m.clk.cut.2 then m.binEndAfter n m.clk.cut.2 else e
/-- The verdict deadline of that bin, 256 au after its end, has expired (R98, R210). While the slices are loaded at a start none is
due, and a slice held failed has none. -/
def Module.verdictMissed (m : Module) (n : Nat) : Bool :=
  let h := m.slice n
  !h.failed && (h.loaded || decide (h.judged ≠ 0)) && m.clk.pastTurn (m.nextDue n + 256)
/-- A verdict deadline has expired: all 16 channels of the slice are faulted (R98, R217, R219, R220). -/
def Module.silent (m : Module) (n : Nat) : Module :=
  if m.verdictMissed n then
    let e := m.nextDue n
    let au := m.au + e - m.clk.turn
    let m := m.setSlice n (fun h => { h with verdicts := 0, r51 := 0, reloaded := false, judged := e })
    (m.each (sliceChans n) (fun ch m => m.detect ch 3 (BitVec.ofNat 40 (au / 65536)) (BitVec.ofNat 16 au) 0xFF 0)).refuseFaulty
  else m
/-- SLICE_SILENT (R217). -/
def execSliceSilent (dt slice : Nat) (s : State) : Result := s.onSlice dt slice (fun m => m.silent slice)

/-- A verdict message: a deadline missed before it acts first; one that is complete after its own deadline is discarded (R97, R98,
R210). -/
def Module.takeVerdict (m : Module) (n bin : Nat) (cyc : Word16) (codes : Word32) : Module :=
  let m := m.silent n
  let e := m.binEnd n bin cyc
  if m.clk.byInstant (e + 256) then m.countVerdict n bin e codes else m
/-- VERDICT (R210, R217). -/
def execVerdict (dt slice : Nat) (hdr : SliceHdr) (bin : Nat) (cyc : Word16) (codes : Word32) (s : State) : Result :=
  s.onSlice dt slice (fun m => m.fromSlice slice hdr (fun m => m.takeVerdict slice bin cyc codes))

/-! ### Tracking (R216) -/

/-- A tracked mean in mA: moved by 1/64 of the difference to a bin value, given as the sum of two samples in µA, rounded towards
zero, and never more than half the tolerance from the learned mean (log 98). -/
def trackMean (mean learned sum : Int) (tol : Nat) : Int :=
  let half : Int := (tol / 2 : Nat)
  max (learned - half) (min (learned + half) (mean + (sum - 2000 * mean).tdiv 128000))

/-- A slice's cycle has ended: its bus angle has passed 0 by less than a bin (R216). -/
def Module.cycleOver (m : Module) (n : Nat) : Bool := decide (m.busAngle n < 512)
/-- At the end of a whole cycle in which every judged bin was PASS, a tracked swatch moves, once (R216). -/
def Module.track (m : Module) (n pos : Nat) : Module :=
  let o := m.ownOf n
  let ch := 16 * n + pos
  if Tbl.get 0 o.swState pos = 2 && !Tbl.get false o.dirty pos && o.running && !o.alone && !m.learning ch && m.cycleOver n then
    let learned := (Tbl.get Swatch.none o.base pos).bins
    m.setOwn n (fun o => { o with
      dirty := Tbl.set false o.dirty pos true
      swatches := Tbl.modify Swatch.none o.swatches pos (fun w =>
        { w with bins := (w.bins.zipIdx).map (fun (e : SwBin × Nat) =>
            if m.validAt ch e.2 then
              { e.1 with mean :=
                trackMean e.1.mean (learned.getD e.2 e.1).mean (Tbl.get 0 o.vals (128 * pos + e.2)) e.1.tol }
            else e.1) }) })
  else m
/-- SWATCH_TRACK (R216). -/
def execSwatchTrack (dt slice pos : Nat) (s : State) : Result := s.onSlice dt slice (fun m => m.track slice pos)

/-! ### Learning (R213-R215) -/

/-- Change the learning of a channel in every job. -/
def Module.setLearning (m : Module) (ch : Nat) (f : Nat × Bool × Option Nat → Nat × Bool × Option Nat) : Module :=
  { m with prov := { m.prov with learns := m.prov.learns.map (fun (j : LearnJob) =>
    { j with chans := j.chans.map (fun c => if c.1 = ch && c.2.2.isNone then f c else c) }) } }
/-- CYCLES of the learning that has begun on a channel. -/
def Module.learnCycles (m : Module) (ch : Nat) : Option Nat :=
  (m.prov.learns.find? (fun j => j.chans.any (fun c => c.1 == ch && c.2.1 && c.2.2.isNone))).map (fun j => j.cycles)

/-- SWATCH_LEARN_BEGIN: a cycle has started and the channel had passed its SETTLE half-cycles showing STEADY (R213). -/
def Module.beginLearning (m : Module) (ch : Nat) : Module :=
  if m.reported ch == .steady && decide ((m.chan ch).settle + m.busAngle (ch / 16) ≤ m.clk.turn) && m.sliceRuns (ch / 16) &&
      m.cycleOver (ch / 16) then
    m.setLearning ch (fun c => (c.1, true, c.2.2))
  else m
/-- SWATCH_LEARN_BEGIN (R213). -/
def execSwatchLearnBegin (dt channel : Nat) (s : State) : Result :=
  s.onChannel dt channel (fun m => m.beginLearning channel)

/-- No sample. -/
def BinSum.zero : BinSum := ⟨0, 0, 0⟩
/-- One more sample in µA. -/
def BinSum.add (x : BinSum) (v : Int) : BinSum := ⟨x.count + 1, x.sum + v, x.sq + v.natAbs * v.natAbs⟩
/-- What learning has gathered of a channel's bin. -/
def Module.gathered (m : Module) (ch b : Nat) : BinSum := Tbl.get BinSum.zero m.prov.gather (128 * ch + b)
/-- A delivered bin of channels that learn: its two samples are gathered, from bin 0 of the first cycle on, until each bin has those
of CYCLES cycles (R213, R214, R246; log 95). -/
def Module.learnSample (m : Module) (n b : Nat) (xs : List (Int × Int)) : Module :=
  ((sliceChans n).zip xs).foldl (fun m (c : Nat × Int × Int) =>
    match m.learnCycles c.1 with
    | some cycles =>
      if (m.gathered c.1 b).count < 2 * cycles ∧ (b = 0 ∨ (m.gathered c.1 b).count < (m.gathered c.1 0).count) then
        { m with prov := { m.prov with
          gather := Tbl.modify BinSum.zero m.prov.gather (128 * c.1 + b) (fun x => (x.add c.2.1).add c.2.2) } }
      else m
    | none => m) m

/-- A mean in mA of a sum of `n` samples in µA, to the nearest; a tie may go either way (free, log 8). -/
def roundMa (free n : Nat) (sum : Int) : Int :=
  let u : Int := 1000 * n
  let r := 2 * (sum % u)
  if r < u then sum / u else if u < r then sum / u + 1 else sum / u + Config.freeInt free % 2

/-- n² times the variance of the samples of a bin, in µA² (R214). -/
def BinSum.spread (x : BinSum) : Nat := ((x.count * x.sq : Nat) - x.sum * x.sum).toNat
/-- ⌈3σ⌉ in mA, up to 255 (R214). -/
def BinSum.threeSigma (x : BinSum) : Nat :=
  ((List.range 255).find? (fun k => decide (9 * x.spread ≤ (1000 * k * x.count) * (1000 * k * x.count)))).getD 255
/-- The bin that its samples give (R214). -/
def learnBin (free tolPct tolMin : Nat) (x : BinSum) : SwBin :=
  let mean := roundMa free x.count x.sum
  ⟨mean, min 255 (max tolMin ((mean.natAbs * tolPct + 99) / 100 + x.threeSigma))⟩
/-- σ exceeds a quarter of |mean| (R215). -/
def unstable (x : BinSum) (mean : Int) : Bool :=
  decide (1000000 * (mean.natAbs * mean.natAbs) * (x.count * x.count) < 16 * x.spread)

/-- The result of a learned channel (R215): 0 LEARNED, 1 REFUSED_FAULT, 2 UNSTABLE. -/
def Module.learnResult (m : Module) (ch : Nat) (sums : List BinSum) (bins : List SwBin) : Nat :=
  let old := Tbl.get Swatch.none m.items.swatch ch
  let s := m.swatchSum ch bins
  let s0 := m.swatchSum ch old.bins
  if m.activeFault ch || (old.kind != .none && (decide (100 * s < 75 * s0) || decide (133 * s0 < 100 * s))) then 1
  else if (sums.zip bins).any (fun e => decide (m.floorMa ch < e.2.mean.natAbs) && unstable e.1 e.2.mean) then 2
  else 0

/-- Learning of a channel is done once every bin has its 2 x CYCLES samples: its result, and on LEARNED the new learned swatch is
stored (R32, R213-R215). -/
def Module.doneLearning (m : Module) (ch : Nat) : Module :=
  let sums := (List.range 128).map (m.gathered ch)
  match m.learnCycles ch with
  | some cycles =>
    if sums.all (fun x => x.count == 2 * cycles) then
      let t := Tbl.get (20, 10, 0, 0) m.live.tolerance ch
      let bins := sums.map (learnBin m.free t.1 t.2.1)
      let r := m.learnResult ch sums bins
      let m := { m with free := m.free + 1 }
      let kind := (m.busOf ch).phase.kind
      let m := if r = 0 then m.changeItems (fun i => { i with swatch := Tbl.set Swatch.none i.swatch ch ⟨kind, bins⟩ }) else m
      ((m.setLearning ch (fun c => (c.1, c.2.1, some r))).dropSamples (fun x => x == ch)).settleLearns
    else m
  | none => m
/-- SWATCH_LEARN_DONE (R214, R215). -/
def execSwatchLearnDone (dt channel : Nat) (s : State) : Result := s.onChannel dt channel (fun m => m.doneLearning channel)

/-! ### The open-wire test (R251, R252) -/

/-- The OWMON conversions of a measure bin at the hub: under pull-up in the second test bin, under pull-down in the fourth (R242,
R251). -/
def Module.wireSample (m : Module) (n b : Nat) (codes : List (List Int)) : Module :=
  match (m.slice n).wire with
  | some (p, up, down) =>
    let words := ([0, 2].map (fun j => (codes.getD j []).drop (beforeOwmon b j))).flatten
    let more := fun (x : Nat × Nat) => (x.1 + words.length, x.2 + (words.map Int.toNat).sum)
    if b = (m.wireBins n).getD 1 128 then m.setSlice n (fun h => { h with wire := some (p, more up, down) })
    else if b = (m.wireBins n).getD 3 128 then m.setSlice n (fun h => { h with wire := some (p, up, more down) })
    else m
  | none => m
/-- A test whose measure bins were lost on the link is begun again (R235, R251; log 101). -/
def Module.wireAgain (m : Module) (n : Nat) : Module :=
  match (m.slice n).wire with
  | some (p, up, down) =>
    let waits := (m.slice n).unacked.any (fun u => u.msg == .request (.openWire p))
    let at_ := (m.ownOf n).wire.map (fun w => w.1)
    if (up.1 = 0 ∨ down.1 = 0) ∧ !waits ∧ at_ ≠ some p then m.setSlice n (fun h => { h with wire := none }) else m
  | none => m

/-- Δ exceeds 1,311 codes: the mean under pull-up less the mean under pull-down (R251). -/
def wireOpen (up down : Nat × Nat) : Bool := decide (up.2 * down.1 > down.2 * up.1 + 1311 * (up.1 * down.1))
/-- One channel's test completes once both measure bins are delivered: OPEN above 1,311 codes, CONNECTED otherwise (R219, R251,
R252). -/
def Module.wireTested (m : Module) (ch : Nat) : Module :=
  let n := ch / 16
  match (m.slice n).wire with
  | some (p, up, down) =>
    if p = ch % 16 ∧ up.1 ≠ 0 ∧ down.1 ≠ 0 then
      let m := m.setSlice n (fun h => { h with wire := none })
      let m := if wireOpen up down then (m.setWire ch 1).detect ch 4 m.clk.cycle m.clk.angle 0xFF 0
        else (m.setWire ch 0).endFault ch 4 0
      m.settleWires.startWire n
    else m
  | none => m
/-- OPEN_WIRE_CHANNEL_TEST (R251, R252). -/
def execOpenWireChannelTest (dt channel : Nat) (s : State) : Result :=
  s.onChannel dt channel (fun m => m.wireTested channel)

end Sys2Proof.Machine
end

