-- ==== Sys2Proof/Machine/Slice.lean ====
section
/-! DEFINITION. The slice link from both ends: loads, frames and their deadlines, samples, requests, restarts and the
stored fallback pattern (sections 1 to 3, 6 and 7 of spec/09, section 3 of spec/02). -/

namespace Sys2Proof.Machine
open Sys2Proof

/-! ### Samples at the hub (R235, R241-R246, R329, R330) -/

/-- A VBUS_A conversion of a bin in mV (R240, R246). -/
def vbusAt (cal : List CalPath) (codes : List (List Int)) (j : Nat) : Int := voltageOf cal ((codes.getD j []).getD 0 0)
/-- VBUS_A less VBUS_B at an even step, in mV (R241). -/
def vbusGap (cal : List CalPath) (codes : List (List Int)) (j : Nat) : Int :=
  vbusAt cal codes j - calibrated cal 17 50 ((codes.getD j []).getD 1 0)
/-- Even steps in a row in which VBUS_A and VBUS_B differ by more than 8 V (R241). -/
def diffRun (run : Nat) : List Int → Nat
  | [] => run
  | d :: ds => if 8 ≤ run then run else diffRun (if 8000 < d.natAbs then run + 1 else 0) ds

/-- Absolute au of the first current sample of the bin `b` that a slice ended last (R205). -/
def Module.sampleAu (m : Module) (n b : Nat) : Nat :=
  m.au - (m.au + 131072 - m.binBase n - 512 * (b + 1)) % 65536 - 384
/-- The first burst of a delivered bin is gathered for its half-cycle, and kept for the same bin of the next cycle (R329, R330). -/
def Module.gatherFirst (m : Module) (n b : Nat) (v right : Int) (cur : List Int) : Module :=
  (List.range 16).foldl (fun m p =>
    let ch := 16 * n + p
    let x := m.powerAt v right (cur.getD p 0) p
    { m with meter := { m.meter with
      acc := Tbl.modify 0 m.meter.acc (2 * ch + m.halfOf n b 0) (· + x)
      prev := Tbl.set none m.meter.prev (128 * ch + b)
        (some (x, 0, (m.shown ch).1.pattern, m.meter.startOf (m.halfOf n b 0))) } }) m
/-- A delivered bin is metered. The burst that waited for its first VBUS_A conversion is weighted now; where the bin between was lost
the voltage there is free (log 8). A bin whose half-cycle is already committed counts nothing (R242, R329, R330; log 93). -/
def Module.meterBin (m : Module) (n b : Nat) (cal : List CalPath) (codes : List (List Int)) (xs : List (Int × Int)) : Module :=
  let m := match (m.slice n).carry with
    | some (b0, _, _) =>
      if (b0 + 1) % 128 = b then m.gatherSecond n (vbusAt cal codes 0)
      else { m with free := m.free + 1 }.gatherSecond n (Config.freeInt m.free)
    | none => m
  if m.sampleAu n b / 32768 * 32768 < m.meter.committed then m
  else
    let m := m.gatherFirst n b (vbusAt cal codes 1) (vbusAt cal codes 2) (xs.map (fun x => x.1))
    let m := m.setSlice n (fun h => { h with carry := some (b, vbusAt cal codes 3, xs.map (fun x => x.2)) })
    { m with meter := { m.meter with seen := Tbl.set false m.meter.seen (128 * n + b) true } }

/-- One conversion of the auxiliary sequence: TDIE and THS are kept, those on the references add to the next table (R243, R245,
R248). -/
def HubSlice.aux1 (h : HubSlice) (entry : Nat) (code : Int) : HubSlice :=
  match auxKind entry with
  | .tdie => { h with tdie := code.toNat }
  | .ths => { h with ths := code.toNat }
  | .path | .ref => { h with aux := Tbl.modify (0, 0) h.aux entry (fun x => (x.1 + 1, x.2 + code)) }
  | .none => h
/-- A channel's samples add to the mean of their squares for the thermal model (R311). -/
def HubSlice.heat1 (h : HubSlice) (p : Nat) (x : Int × Int) : HubSlice :=
  { h with heat := Tbl.modify (0, 0) h.heat p (fun e =>
      (e.1 + 2, e.2 + x.1.natAbs * x.1.natAbs + x.2.natAbs * x.2.natAbs)) }
/-- What the hub keeps of a delivered bin beside its metering: its words, its auxiliary conversions, the squares of its currents
and the run of disagreeing voltages (R241, R243, R311, R447). -/
def HubSlice.keep (h : HubSlice) (b : Nat) (steps : List (List Word16)) (codes : List (List Int)) (xs : List (Int × Int)) :
    HubSlice :=
  let h := { h with
    trace := Tbl.set [] h.trace b steps
    bus := { h.bus with vbusDiff := diffRun h.bus.vbusDiff [vbusGap h.cal codes 0, vbusGap h.cal codes 2] } }
  let h := [0, 2].foldl (fun (h : HubSlice) j => h.aux1 (auxEntry b j) ((codes.getD j []).getD 2 0)) h
  (xs.zipIdx).foldl (fun (h : HubSlice) (x : (Int × Int) × Nat) => h.heat1 x.2 x.1) h

/-- A bin is delivered: its words become results by the slice's table, and are metered, gathered for learning and taken for the
open-wire test; eight disagreeing even steps unsettle the bus record and fail the calibration (R236, R241-R246, R251, R330). -/
def Module.sample (m : Module) (n b : Nat) (steps : List (List Word16)) : Module :=
  if !m.sliceRuns n then m
  else
    let m := if b = 0 then m.setSlice n (fun h => { h with cal := h.calNext.getD h.cal, calNext := none }) else m
    let cal := (m.slice n).cal
    let codes := binCodes (m.alignLeft n) b steps
    let xs := (sliceChans n).map (fun ch => m.binSamples cal ch codes)
    let m := if m.variant.metering then m.meterBin n b cal codes xs else m
    let m := m.setSlice n (fun h => h.keep b steps codes xs)
    let m := (((m.learnSample n b xs).wireSample n b codes).wireAgain n).startWire n
    if 8 ≤ (m.slice n).bus.vbusDiff then
      (m.setSlice n (fun h => { h with bus := { h.bus with phase := { h.bus.phase with settled := false }, settleRun := 0 } })).sliceReset
        n true
    else m
/-- SAMPLES (R235, R241, R246, R330). -/
def execSamples (dt slice : Nat) (hdr : SliceHdr) (bin : Nat) (steps : List (List Word16)) (s : State) : Result :=
  s.onSlice dt slice (fun m => m.fromSlice slice hdr (fun m => m.sample slice bin steps))

/-! ### Replies and deadlines at the hub (R231-R234) -/

/-- The SWATCH_READ payload: STATE, then 128 bins with VALID (R169, R207, R211, R216). -/
def Module.swatchPayload (m : Module) (ch state : Nat) (w : Swatch) : List Byte :=
  u8 (if m.learning ch then 1 else state) ++ rsv 3 ++
    padTo 512 (((w.bins.zipIdx).map (fun (e : SwBin × Nat) =>
      leInt 2 e.1.mean ++ u8 e.1.tol ++ u8 (bit (m.validAt ch e.2)))).flatten)

/-- What a REPLY brings: SWATCH_READ is answered with what the slice returned, and an echo gives half its round trip as the link delay
(R231, R233). -/
def Module.takeAnswer (m : Module) (n : Nat) (u : Unacked) (ans : SliceAns) : Module :=
  match u.msg, ans with
  | .request (.readSwatch _), .swatch state w =>
    (match u.serves with
     | some (op, p) => m.complete op p 0 stOk 0 (m.swatchPayload (p.field 0 2) state w)
     | none => m)
  | .request .echo, .echo => m.setSlice n (fun h => { h with delay := (m.now + allowance u.msg - u.deadline) / 2 })
  | _, _ => m
/-- A REPLY complete by its deadline ends its REQUEST (R100, R233). -/
def Module.sliceReplied (m : Module) (n : Nat) (ofSeq : Word16) (ans : SliceAns) : Module :=
  match (m.slice n).unacked.find? (fun u => u.seq == ofSeq && u.msg.isRequest && u.sends != 0 && decide (m.now ≤ u.deadline)) with
  | none => m
  | some u => (m.setFrames n ((m.slice n).unacked.erase u)).takeAnswer n u ans
/-- SLICE_REPLY (R233). -/
def execSliceReply (dt slice : Nat) (hdr : SliceHdr) (ofSeq : Word16) (ans : SliceAns) (s : State) : Result :=
  s.onSlice dt slice (fun m => m.fromSlice slice hdr (fun m => m.sliceReplied slice ofSeq ans))

/-- The frames of a link after frame `seq` expired: it and every frame after it that has been sent go again (R234). -/
def resendFrom (now : Nat) (seq : Word16) : Bool → List Unacked → List Unacked
  | _, [] => []
  | after, u :: us =>
    let hit := after || u.seq == seq
    (if hit && u.sends != 0 && decide (u.sends < 3) then
      { u with sends := u.sends + 1, deadline := now + allowance u.msg } else u) :: resendFrom now seq hit us

/-- An acknowledgement or reply deadline expires: the frame and those after it are sent again, or after the third send the
link is reset (R98, R234, R236). -/
def Module.linkDeadline (m : Module) (n : Nat) (seq : Word16) : Module :=
  match (m.slice n).unacked.find? (fun u => u.seq == seq && u.sends != 0) with
  | none => m
  | some u =>
    if !m.expired u.deadline then m
    else if 3 ≤ u.sends then m.sliceReset n true
    else
      let l := resendFrom m.now seq false (m.slice n).unacked
      let again := l.filter (fun v => !(m.slice n).unacked.contains v)
      again.foldl (fun m v => m.putFrame n v) (m.setSlice n (fun h => { h with unacked := l }))
/-- SLICE_LINK_DEADLINE (R233, R234, R236). -/
def execSliceLinkDeadline (dt slice : Nat) (seq : Word16) (s : State) : Result :=
  s.onSlice dt slice (fun m => m.linkDeadline slice seq)

/-- SLICE_LINK_SILENCE: no valid frame of a running slice for 8,192 au (R99, R236). -/
def execSliceLinkSilence (dt slice : Nat) (s : State) : Result :=
  s.onSlice dt slice (fun m =>
    if m.sliceRuns slice && m.clk.pastTurn ((m.slice slice).lastFrame + 8192) then m.sliceReset slice true else m)

/-! ### Loads at the hub (R56-R58, R231, R244, R471) -/

/-- Stage 4 ends once every slice is loaded or held failed (R47, R58). -/
def Module.reloadEnds (m : Module) : Module :=
  if m.stage == .reload &&
      (List.range m.variant.slices).all (fun n => (m.slice n).loaded || (m.slice n).failed) then
    { m with stage := .lock }
  else m

/-- The swatch state that a swatch and its mode give: 0 NONE, 2 TRACKING, 3 FROZEN (R211, R216). -/
def swatchState (w : Swatch) (mode : Nat) : Nat := if w.kind = .none then 0 else if mode = 0 then 2 else 3
/-- The learned swatch and its state as a slice position is loaded (R211, R216). -/
def Module.swatchFor (m : Module) (ch : Nat) : Swatch × Nat :=
  let w := Tbl.get Swatch.none m.live.swatch ch
  (w, swatchState w (Tbl.get (20, 10, 0, 0) m.live.tolerance ch).2.2.2)

/-- SENSE_RANGE, ADC_ALIGN and THS_FITTED of a slice come into force at its load (R250, R473). -/
def Module.loadItems (m : Module) (n : Nat) : Module :=
  let i := m.effective
  { m with live := { m.live with
    sense := (sliceChans n).foldl (fun t ch => Tbl.set 1 t ch (Tbl.get 1 i.sense ch)) m.live.sense
    sliceOpts := Tbl.set (0, 1) m.live.sliceOpts n (Tbl.get (0, 1) i.sliceOpts n) } }

/-- What a completed load leaves in the slice: the position's swatches, patterns and generators (R56, R211). The pattern it runs
alone stays until the hub's takes over (R57). -/
def Module.loadOwn (m : Module) (n : Nat) : Module :=
  let ws := (sliceChans n).map m.swatchFor
  let h := m.slice n
  m.setOwn n (fun o =>
    { OwnSlice.reset o.cause with
      epoch := h.epoch, lastSeq := h.seq, seq := o.seq, blocks := 5, running := true, cal := h.cal, delay := h.delay
      swatches := Tbl.setRange Swatch.none [] 0 (ws.map (fun w => w.1))
      base := Tbl.setRange Swatch.none [] 0 (ws.map (fun w => w.1))
      swState := Tbl.setRange 0 [] 0 (ws.map (fun w => w.2))
      stored := (sliceChans n).map (fun ch => Tbl.get .off m.live.fallback ch)
      start := (sliceChans n).map m.startShown
      fa := m.effective.fa, fb := m.effective.fb, alonePat := o.alonePat, aloneFa := o.aloneFa, aloneFb := o.aloneFb
      time := o.time, half := o.half, dirty := Tbl.setRange false [] 0 (List.replicate 16 true), tdie := o.tdie
      heard := m.clk.turn })

/-- The slice has converted its paths: a path out of limits fails the load, else the blocks from the calibration on go out
(R56, R231, R244). -/
def Module.loadMeasured (m : Module) (n : Nat) (sums : List Int) : Module :=
  let table := loadTable sums
  if table.all CalPath_ok then
    let m := (m.setSlice n (fun h => { h with cal := table, calNext := none, loadStep := 2 })).loadItems n
    let m := m.sendSlice n (.load false (.calibration table (m.slice n).delay)) none
    let m := (sliceChans n).foldl (fun m ch =>
      m.sendSlice n (.load false (.swatch (ch % 16) (m.swatchFor ch).1)) none) m
    let m := m.sendSlice n (.load false (.fallback ((sliceChans n).map (fun ch => Tbl.get .off m.live.fallback ch)))) none
    m.sendSlice n (.load false (.startPattern ((sliceChans n).map m.startShown))) none
  else m.loadFailed n
/-- Every block is acknowledged: the slice is loaded, and its next bin is the first whose verdict is due (R56, R210, R238). -/
def Module.loadDone (m : Module) (n : Nat) : Module :=
  let t := m.clk.turn
  let m := m.setSlice n (fun h =>
    { h with
      loaded := true, attempts := 0, loadStep := 0, lastFrame := t, stale := 0, reloaded := true
      bus := { h.bus with lastPos := none, lastNeg := none, posGap := 0 }
      judged := m.binEndAfter n t, aux := [], auxFrom := t, carry := none
      reissue := (m.stage == .lamps || m.stage == .ready) && !h.startDue })
  m.loadOwn n
/-- A load goes on, is complete or fails; what happens out of its place is ignored (R56, R58, R231, R244). -/
def Module.loadEnds (m : Module) (n : Nat) (outcome : LoadOutcome) : Module :=
  let h := m.slice n
  if !m.coresUp || h.loaded || h.failed || h.awaitHello.isSome then m
  else
    match outcome with
    | .measured sums => if h.loadStep = 1 ∧ h.unacked.isEmpty then (m.loadMeasured n sums).reloadEnds else m
    | .done => if h.loadStep = 2 ∧ h.unacked.isEmpty then (m.loadDone n).reloadEnds else m
    | .failed => (m.loadFailed n).reloadEnds
/-- SLICE_RELOAD (R56, R58, R244). -/
def execSliceReload (dt slice : Nat) (outcome : LoadOutcome) (s : State) : Result :=
  s.onSlice dt slice (fun m => m.loadEnds slice outcome)

/-- HELLO_WAIT_EXPIRY: the awaited HELLO did not come, so the attempt failed and the link reset is sent again (R58, R98,
R471). -/
def Module.helloExpired (m : Module) (n : Nat) : Module :=
  match (m.slice n).awaitHello with
  | none => m
  | some d =>
    if m.expired d then
      let a := (m.slice n).attempts + 1
      if 4 ≤ a then (m.holdFailed n).reloadEnds
      else (m.setSlice n (fun h => { h with attempts := a, awaitHello := some (m.now + 2000000) })).put (.linkReset n)
    else m
/-- HELLO_WAIT_EXPIRY (R471). -/
def execHelloWaitExpiry (dt slice : Nat) (s : State) : Result := s.onSlice dt slice (fun m => m.helloExpired slice)

/-- HELLO at the hub: awaited, it lets the load begin, at once or at stage 4; from a loaded slice it causes a single-slice reset;
during a load it fails the attempt (R47, R58, R236, R471). -/
def Module.sliceHello (m : Module) (n : Nat) : Module :=
  let h := m.slice n
  if h.failed then m
  else
    match h.awaitHello with
    | some d =>
      if m.expired d then m
      else
        let m := m.setSlice n (fun h => { h with awaitHello := none, lastFrame := m.clk.turn, stored := false })
        if m.coresUp then m.beginLoad n else m
    | none =>
      if h.loaded then m.sliceReset n false else if h.loadStep ≠ 0 then (m.loadFailed n).reloadEnds else m
/-- SLICE_HELLO (R58, R229, R236, R471). -/
def execSliceHello (dt slice : Nat) (good : Bool) (_cause : Byte) (s : State) : Result :=
  s.onSlice dt slice (fun m => if good then m.sliceHello slice else m)

/-- SLICE_REISSUE: at the first zero crossing after the reload each channel takes the state of R202, plan entries at least
1,536 au ahead go out as an ordinary PLAN and nearer ones are held back (R67, R86, R238). -/
def Module.reissue (m : Module) (n : Nat) : Module :=
  let h := m.slice n
  if h.reissue && h.loaded && m.crossPoint n then
    let m := m.setSlice n (fun h => { h with reissue := false, stored := false })
    let m := m.each (sliceChans n) (fun ch m =>
      if m.fallbackFor ch = (m.chan ch).fb then m.takeEffect ch id else m.applyFallback ch)
    let mine := fun (e : Plan) => e.acts.any (fun a => a.1 / 16 == n)
    let far := fun (e : Plan) => decide (m.au + 1536 ≤ e.due)
    let m := { m with lamps := { m.lamps with plans := m.lamps.plans.map (fun (e : Plan) =>
      if mine e && !far e then { e with held := n :: e.held } else e) } }
    (m.lamps.plans.filter (fun e => mine e && far e)).foldl (fun m e => if e.sent then m.planTo e n else m.dispatch e) m
  else m
/-- SLICE_REISSUE (R67, R238). -/
def execSliceReissue (dt slice : Nat) (s : State) : Result := s.onSlice dt slice (fun m => m.reissue slice)

/-- CALIBRATION_UPDATE: every 16 cycles the table is computed anew from their auxiliary conversions and goes to the slice, or a path
out of its limits fails the slice's calibration (R236, R245). -/
def Module.recalibrate (m : Module) (n : Nat) : Module :=
  let h := m.slice n
  if m.sliceRuns n && m.coresUp && decide (h.auxFrom + 16 * 65536 ≤ m.clk.turn) then
    let table := calTable (Tbl.get (0, 0) h.aux)
    if table.all CalPath_ok then
      (m.setSlice n (fun h => { h with calNext := some table, aux := [], auxFrom := m.clk.turn })).sendSlice n
        (.plan (.calibration table)) none
    else m.sliceReset n true
  else m
/-- CALIBRATION_UPDATE (R245). -/
def execCalibrationUpdate (dt slice : Nat) (s : State) : Result := s.onSlice dt slice (fun m => m.recalibrate slice)

/-- The content of a TIME frame to a slice now (R230). -/
def Module.timeBody (m : Module) (n : Nat) : TimeBody :=
  ⟨m.clk.cycle, m.clk.angle, m.now, m.clk.half, m.clk.period.toNat, (m.slice n).bus.phase⟩
/-- Once in every 4,096 au each running slice is sent the time (R230; log 99). -/
def Module.sendTimes (m : Module) : Module :=
  if m.coresUp && m.clk.turn / 4096 != m.clk.timeDone then
    let m := { m with clk := { m.clk with timeDone := m.clk.turn / 4096 } }
    m.each ((List.range m.variant.slices).filter m.sliceRuns) (fun n m =>
      m.put (.time n (m.slice n).epoch (m.slice n).seq (m.timeBody n)))
  else m
/-- TIME_FRAME_SEND (R230). -/
def execTimeFrameSend (dt : Nat) (s : State) : Result := s.on dt (fun m => m.sendTimes)

/-! ### The slice's side (R24, R57, R229-R232, R236, R475) -/

/-- A slice that acts on a frame other than LOAD: the frame is good and of its epoch, and the slice runs and does not run alone (R24,
R229). -/
def OwnSlice.listens (o : OwnSlice) (hdr : HubHdr) : Bool :=
  hdr.good && o.running && !o.alone && o.epoch == hdr.epoch && hdr.epoch != 0
/-- A slice whose load is in progress: it takes LOAD frames, and the echo that measures its link (R56, R231; log 102). -/
def OwnSlice.inLoad (o : OwnSlice) (hdr : HubHdr) : Bool :=
  hdr.good && !o.running && o.epoch == hdr.epoch && hdr.epoch != 0

/-- A frame in sequence is acted on by `f`; one that repeats the last SEQ is only acknowledged again (R232). -/
def Module.inSequence (m : Module) (n : Nat) (hdr : HubHdr) (f : Module → Module) : Module :=
  let o := m.ownOf n
  if hdr.seq = o.lastSeq + 1 then f (m.setOwn n (fun o => { o with lastSeq := hdr.seq, heard := m.clk.turn }))
  else m.setOwn n (fun o => { o with heard := m.clk.turn })

/-- Where a load block stands in the order of R56. -/
def LoadBlock_kind : LoadBlock → Nat
  | .firmware => 1 | .calibration _ _ => 2 | .swatch _ _ => 3 | .fallback _ => 4 | .startPattern _ => 5

/-- A slice takes the content of a load block that is the next in the order; with the last one the new firmware runs (R56). -/
def Module.takeBlock (m : Module) (n : Nat) (block : LoadBlock) : Module :=
  let mode := fun p => (Tbl.get (20, 10, 0, 0) m.live.tolerance (16 * n + p)).2.2.2
  let kind := LoadBlock_kind block
  m.setOwn n (fun o =>
    if kind ≠ o.blocks + 1 ∧ ¬(kind = 3 ∧ o.blocks = 3) then o
    else
      let o := { o with blocks := kind }
      match block with
      | .firmware => o
      | .calibration paths delay => { o with cal := paths, calNext := none, delay := delay }
      | .swatch pos w =>
        { o with
          swatches := Tbl.set Swatch.none o.swatches pos w, base := Tbl.set Swatch.none o.base pos w
          swState := Tbl.set 0 o.swState pos (swatchState w (mode pos)) }
      | .fallback l => { o with stored := l }
      | .startPattern l => { o with start := l, running := true, alone := false })

/-- LOAD at a slice: the first block of a load brings the new epoch; the others follow in sequence (R24, R56, R229, R230,
R232). -/
def Module.takeLoad (m : Module) (n : Nat) (hdr : HubHdr) (start : Bool) (block : LoadBlock) : Module :=
  if start && hdr.good then
    (m.setOwn n (fun o =>
      { o with epoch := hdr.epoch, lastSeq := hdr.seq, blocks := 0, running := false, heard := m.clk.turn })).takeBlock n block
  else if (m.ownOf n).inLoad hdr then m.inSequence n hdr (fun m => m.takeBlock n block)
  else m
/-- LOAD (R56, R230, R232). -/
def execLoad (dt slice : Nat) (hdr : HubHdr) (start : Bool) (block : LoadBlock) (s : State) : Result :=
  s.onSlice dt slice (fun m => m.takeLoad slice hdr start block)

/-- What a slice does with a PLAN frame's content: an entry whose instant has passed acts at once, the others wait for it; a
new table waits for the slice's next cycle; a changed swatch replaces the working one (R230, R245, R473). -/
def Module.takePlan (m : Module) (n : Nat) (body : PlanBody) : Module :=
  match body with
  | .entries acts =>
    let late := acts.filter (fun a => decide (a.due ≤ m.au))
    let m := m.setOwn n (fun o => { o with plans := o.plans ++ acts.filter (fun a => !decide (a.due ≤ m.au)) })
    late.foldl (fun m a => m.act (m.clk.turnAgo (m.au - a.due)) [] (16 * n + a.pos, a.act)) m
  | .calibration paths => m.setOwn n (fun o => { o with calNext := some paths })
  | .fallback l => m.setOwn n (fun o => { o with stored := l })
  | .flash gen period on phase =>
    m.setOwn n (fun o => if gen = 0 then { o with fa := ⟨period, on, phase⟩ } else { o with fb := ⟨period, on, phase⟩ })
  | .values pos _ _ _ mode =>
    m.setOwn n (fun o => { o with swState := Tbl.set 0 o.swState pos (swatchState (Tbl.get Swatch.none o.base pos) mode) })
  | .swatch pos w =>
    m.setOwn n (fun o => { o with
      swatches := Tbl.set Swatch.none o.swatches pos w, base := Tbl.set Swatch.none o.base pos w
      swState := Tbl.set 0 o.swState pos (swatchState w (Tbl.get (20, 10, 0, 0) m.live.tolerance (16 * n + pos)).2.2.2)
      dirty := Tbl.set false o.dirty pos true })
/-- PLAN (R24, R230, R232). -/
def execPlan (dt slice : Nat) (hdr : HubHdr) (body : PlanBody) (s : State) : Result :=
  s.onSlice dt slice (fun m =>
    if (m.ownOf slice).listens hdr then m.inSequence slice hdr (fun m => m.takePlan slice body) else m)

/-- TIME: the slice corrects its local angle by the link delay and hears the half-cycle index, from which it goes on counting once
it runs alone (R24, R230, R231, R475). -/
def execTimeFrame (dt slice : Nat) (hdr : HubHdr) (body : TimeBody) (s : State) : Result :=
  s.onSlice dt slice (fun m =>
    if (m.ownOf slice).listens hdr then
      m.setOwn slice (fun o =>
        { o with
          time := { body with tick := body.tick + o.delay }, heard := m.clk.turn
          half := if (m.slice slice).stored then o.half else body.half
          plans := o.plans.filter (fun a => decide (m.au < a.due)) })
    else m)

/-- A slice's answer to a REQUEST; a self-test is begun, and what it finds comes at its end (R230, R433; log 89). -/
def OwnSlice.reply (o : OwnSlice) : SliceReq → SliceAns
  | .readSwatch pos => .swatch (Tbl.get 0 o.swState pos) (Tbl.get Swatch.none o.swatches pos)
  | .echo => .echo
  | _ => .done
/-- A slice carries out a REQUEST and answers with REPLY (R211, R230, R251). -/
def Module.takeRequest (m : Module) (n : Nat) (seq : Word16) (req : SliceReq) : Module :=
  let m := match req with
    | .setMode pos freeze =>
      m.setOwn n (fun o =>
        if Tbl.get 0 o.swState pos = 0 then o else { o with swState := Tbl.set 0 o.swState pos (if freeze then 3 else 2) })
    | .openWire pos => m.setOwn n (fun o => { o with wire := some (pos, 0) })
    | _ => m
  m.fromOwn n (.reply seq ((m.ownOf n).reply req))
/-- SLICE_REQUEST (R24, R230-R232). -/
def execSliceRequest (dt slice : Nat) (hdr : HubHdr) (req : SliceReq) (s : State) : Result :=
  s.onSlice dt slice (fun m =>
    if (m.ownOf slice).listens hdr || (req == .echo && (m.ownOf slice).inLoad hdr) then
      m.inSequence slice hdr (fun m => m.takeRequest slice hdr.seq req)
    else m)

/-- A slice restarts: every switch opens and its RAM, its epoch with it, is lost (R23, R64, R236). -/
def Module.sliceRestart (m : Module) (n : Nat) (cause : Byte) : Module :=
  let m := m.openAll n (fun c => { c with lit := false })
  let m := m.setSlice n (fun h => { h with stored := false })
  { m with own := Tbl.set (OwnSlice.reset 1) m.own n (OwnSlice.reset cause) }
/-- LINK_RESET_SEQUENCE (R236). -/
def execLinkResetSequence (dt slice : Nat) (s : State) : Result := s.onSlice dt slice (fun m => m.sliceRestart slice 3)
/-- SLICE_WATCHDOG (R64, R230). -/
def execSliceWatchdog (dt slice : Nat) (s : State) : Result := s.onSlice dt slice (fun m => m.sliceRestart slice 2)
/-- SLICE_SUPPLY_LOSS (R303): the slice loses its supply and starts again with no epoch. -/
def execSliceSupplyLoss (dt slice : Nat) (s : State) : Result := s.onSlice dt slice (fun m => m.sliceRestart slice 1)

/-- A channel of a slice that begins to run alone: what waited for a crossing becomes the state last commanded, and a trip or a wait
that held it off ends, but for a flashing pattern's wait for its next on part (R24, R186, R196). -/
def Chan.goAlone (c : Chan) (flashing : Bool) : Chan :=
  { c with
    cmd := match c.zc.getLast? with | some z => some z.1 | none => c.cmd
    tripOpen := false, tripped := false, zc := [], edge := [], waitOn := c.waitOn && flashing }
/-- SLICE_HUB_SILENCE: more than 4 half-cycles without a valid frame, and the slice applies its stored fallback pattern, in the mode
of R201: on an AC bus its switches move at the bus's next crossing (R24, R188, R475; log 100). -/
def Module.goAlone (m : Module) (n : Nat) : Module :=
  let o := m.ownOf n
  if o.running && !o.alone && m.clk.pastTurn (o.heard + 131072) then
    let olds := (sliceChans n).map (fun ch => (m.shown ch).1.pattern)
    let m := m.setOwn n (fun o =>
      { o with alone := true, wire := none, alonePat := o.stored, aloneFa := o.fa, aloneFb := o.fb, plans := [] })
    let m := m.setSlice n (fun h => { h with stored := true })
    ((sliceChans n).zip olds).foldl (fun m e =>
      let p := (m.shown e.1).1.pattern
      let m := (m.setChan e.1 (fun c => c.goAlone (p == .flashA || p == .flashB))).patternChanged e.1 e.2
      if (m.slice n).bus.phase.kind == .ac then m else m.refresh e.1) m
  else m
/-- SLICE_HUB_SILENCE (R24). -/
def execSliceHubSilence (dt slice : Nat) (s : State) : Result := s.onSlice dt slice (fun m => m.goAlone slice)

/-- SLICE_HELLO_TIMER: a slice that holds no epoch and is not held in reset sends HELLO with its cause (R58, R230). -/
def execSliceHelloTimer (dt slice : Nat) (s : State) : Result :=
  s.onSlice dt slice (fun m =>
    if (m.ownOf slice).epoch = 0 && m.alive && !(m.slice slice).failed then m.fromOwn slice (.hello (m.ownOf slice).cause) else m)

/-- STORED_FALLBACK_HALF_CYCLE: a slice alone counts a half-cycle of its AC bus or of its own clock on DC, and flashes on the
generators it holds; on a dead or reversed bus it counts nothing (R475). -/
def Module.storedHalf (m : Module) (n : Nat) : Module :=
  let h := m.slice n
  if ((m.ownOf n).alone || h.stored) && h.bus.phase.kind != .none && !h.bus.reversed then
    let m := m.setOwn n (fun o => { o with half := o.half + 1 })
    m.each (sliceChans n) (fun ch m =>
      let s := (m.shown ch).1.pattern
      let o := m.ownOf n
      let g := if s == .flashB then o.aloneFb else o.aloneFa
      let starts := (s == .flashA || s == .flashB) && g.index o.half == 0
      (if starts then m.setChan ch (fun c => { c with waitOn := false }) else m).refresh ch)
  else m
/-- STORED_FALLBACK_HALF_CYCLE (R475). -/
def execStoredFallbackHalfCycle (dt slice : Nat) (s : State) : Result := s.onSlice dt slice (fun m => m.storedHalf slice)

end Sys2Proof.Machine
end

