-- ==== Sys2Proof/Machine/Track.lean ====
section
/-! DEFINITION. The angle tracker and the lamp buses: crossings, steps and rebases, the flywheel, the alternate reference,
cycle starts and half-cycle boundaries (spec/03). -/

namespace Sys2Proof.Machine
open Sys2Proof

/-! ### Positions on the angle -/

/-- Where the angle stood `delta` ticks ago, in parts 1/cycleLen of an au since the cycle began. -/
def Clock.partsAt (c : Clock) (delta : Nat) : Nat :=
  let len := c.cycleLen.toNat
  (((c.angle.toNat * len + c.frac : Nat) : Int) - ((65536 * delta : Nat) : Int)).emod ((65536 * len : Nat) : Int) |>.toNat
/-- The angle `delta` ticks ago. -/
def Clock.angleAt (c : Clock) (delta : Nat) : Angle := BitVec.ofNat 16 (c.partsAt delta / c.cycleLen.toNat)
/-- The turn `delta` ticks ago, or of the last cut where that came later (R81). -/
def Clock.turnAt (c : Clock) (delta : Nat) : Nat :=
  max c.cut.2 ((c.turn * c.cycleLen.toNat + c.frac - 65536 * delta) / c.cycleLen.toNat)
/-- An angle as a signed distance from 0. -/
def signedAngle (a : Angle) : Int := if a.toNat < 32768 then (a.toNat : Int) else (a.toNat : Int) - 65536

/-- The cycle in progress gets another length; the angle stays where it is. -/
def Clock.setLen (c : Clock) (len : Word32) : Clock :=
  if len = 0 then c else { c with cycleLen := len, frac := c.frac * len.toNat / c.cycleLen.toNat }

/-- The correction of R78 in au: a quarter of the phase error, at most 1,024 au either way. The spec gives no rounding: here it is
whole au, truncated towards zero (log 75). -/
def slewAu (err : Int) : Int := max (-1024) (min 1024 (err.tdiv 4))
/-- The length that R78 sets after a phase error of `err` au. -/
def Clock.slewed (c : Clock) (err : Int) : Word32 :=
  BitVec.ofNat 32 ((c.measured.toNat : Int) + slewAu err * c.measured.toNat / 65536).toNat

/-! ### Items that wait for a cycle start (R473) -/

/-- A bus's KIND has changed from `old`: learning on its channels is interrupted, and a bus that comes back lets no flash be
cut short (R196, R215). -/
def Module.kindChanged (m : Module) (n : Nat) (old : BusKind) : Module :=
  let new := (m.slice n).bus.phase.kind
  if new = old then m
  else
    let m := m.stopLearning (fun ch => ch / 16 == n) 3 false
    if old = .none then m.busBack n else m

/-- The bus of a slice whose BUS_KIND has changed from that of `old` is judged afresh (R84, R473). -/
def Module.newKind (m : Module) (n : Nat) (old : Items) : Module :=
  if Tbl.get 2 old.busKind n = Tbl.get 2 m.live.busKind n then m
  else
    let kind := (m.slice n).bus.phase.kind
    (m.setSlice n (fun h => { h with bus := { h.bus with
      phase := { h.bus.phase with kind := .none }, dcRun := 0, crossOnDc := false } })).kindChanged n kind

/-- What a running slice holds and has changed from `old` goes to it in PLAN frames: its stored fallback pattern, and for each
position its values and its learned swatch (R473). -/
def Module.sendItems (m : Module) (n : Nat) (old : Items) : Module :=
  if !m.sliceRuns n then m
  else
    let new := m.live
    let pats := fun (i : Items) => (sliceChans n).map (fun ch => Tbl.get Pattern.off i.fallback ch)
    let m := if pats old = pats new then m else m.sendSlice n (.plan (.fallback (pats new))) none
    m.each (sliceChans n) (fun ch m =>
      let l := Tbl.get (15, 10) new.limits ch
      let t := Tbl.get (20, 10, 0, 0) new.tolerance ch
      let m := if l = Tbl.get (15, 10) old.limits ch ∧ t = Tbl.get (20, 10, 0, 0) old.tolerance ch then m
        else m.sendSlice n (.plan (.values (ch % 16) l.1 l.2 t.2.2.1 t.2.2.2)) none
      let w := Tbl.get Swatch.none new.swatch ch
      if w = Tbl.get Swatch.none old.swatch ch then m else m.sendSlice n (.plan (.swatch (ch % 16) w)) none)

/-! ### Steps and rebases (R80-R82, R90) -/

/-- Plan entries by instant, those of one instant in the order taken (R81, R138). -/
def insertPlan (e : Plan) : List Plan → List Plan
  | [] => [e]
  | x :: xs => if e.due < x.due then e :: x :: xs else x :: insertPlan e xs
/-- A list of plan entries in the order of their C:A. -/
def sortPlans (l : List Plan) : List Plan := l.foldl (fun s e => insertPlan e s) []

/-- What a flashing start pattern still adds to the domain's h after a rebase, so that its own count goes on until its next
period (R55). -/
def Module.ownShift (m : Module) (newHalf : Nat) : Tbl Nat :=
  [2, 3].foldl (fun t k =>
    let p := (m.lamps.gen k).period
    let own := m.lamps.half + 1 + Tbl.get 0 m.lamps.shift k
    Tbl.set 0 t k (((own : Int) - (newHalf : Int)).emod (p : Int)).toNat) []

/-- The items that wait for a cycle start come into force (R473): those that a slice holds are sent to it in PLAN frames, and the
KIND of a bus configured otherwise is judged afresh. SENSE_RANGE, ADC_ALIGN and THS_FITTED wait for the slice's next load. -/
def Module.takeItems (m : Module) : Module :=
  let old := m.live
  let new := { m.effective with sense := old.sense, sliceOpts := old.sliceOpts }
  if new = old then m
  else
    { m with live := new }.each (List.range m.variant.slices) (fun n m => (m.newKind n old).sendItems n old)

/-- The point `delta` ticks ago lies before the last natural wrap, or in its tick: that cycle is not raised again (R80). -/
def Clock.wrapped (c : Clock) (delta : Nat) : Bool := decide (c.angle.toNat * c.cycleLen.toNat + c.frac < 65536 * (delta + 1))
/-- The clock after a cut `delta` ticks ago: the angle is 0 there, the cycle is `new`, the cycle that begins has the measured length,
and the angle never runs back (R72, R78, R80, R90). -/
def Clock.cutAt (c : Clock) (delta : Nat) (new : Cycle) : Clock :=
  let set := if c.measured = 0 then c.cycleLen else c.measured
  let x := 65536 * delta / set.toNat
  let back := c.wrapped delta
  let angle := if back then max c.angle.toNat x else x
  { c with
    cycle := new, angle := BitVec.ofNat 16 angle, frac := if x < angle then 0 else 65536 * delta % set.toNat
    cycleTicks := delta, cycleLen := set, stepped := true, stepDue := false, rebaseDue := false
    wraps := if back then c.wraps else c.wraps + 1
    cut := (c.turn, if back then c.wraps * 65536 + angle else (c.wraps + 1) * 65536) }

/-- What a cycle start does beside the wrap (R340, R473). -/
def Module.cycleBegins (m : Module) : Module :=
  let m := { m with meter := { m.meter with sincePass := m.meter.sincePass + 1 } }
  if m.coresUp then m.takeItems else m

/-- The cycle in progress ends `delta` ticks ago: the angle becomes 0 and the cycle number goes up by one, or becomes the
domain's at a rebase; cut plan entries run in the order of their C:A, no verdict is formed for the cut bin and the two
after it, no swatch is tracked in the cycle, learning is interrupted, and the cut is reported; a step of the domain reference waits
for its weft header (R78, R80-R82, R90, R92, R208, R215, R216). -/
def Module.stepAngle (m : Module) (delta : Nat) (rebase : Option Cycle) : Module :=
  let back := m.clk.wrapped delta
  let old := if back then m.clk.cycle - 1 else m.clk.cycle
  let cut : Angle := if m.clk.partsAt delta < 65536 then 0 else m.clk.angleAt delta
  let new := rebase.getD (old + 1)
  let due := sortPlans (m.lamps.plans.filter (fun e => decide (e.due < 65536 * (old.toNat + 1))))
  let shift := if rebase.isSome then m.ownShift (2 * new.toNat) else m.lamps.shift
  let sent := if rebase.isSome || !m.ring.isRef then m.clk.stepSent else some cut
  let m := { m with clk := { m.clk.cutAt delta new with stepSent := sent } }
  let m := due.foldl (fun m e => m.runPlan e) m
  let m := { m with lamps := { m.lamps with shift := shift } }
  let m := m.event 0x8003 (u8 (if rebase.isSome then 2 else 1) ++ u8 m.clk.tracker.code ++ u16 cut.toNat ++
    u40 new.toNat ++ u40 old.toNat ++ rsv 2)
  let m := m.stopLearning (fun _ => true) 3 false
  let m := m.each (List.range m.variant.slices) (fun n m =>
    m.setOwn n (fun o => { o with skip := 3, dirty := Tbl.setRange false [] 0 (List.replicate 16 true) }))
  let m := if back then m else m.cycleBegins
  if rebase.isSome then m.meterRebase new.toNat else m

/-- A step under R80, except where it falls in the tick of the natural wrap: then nothing is cut, it is no step, and the
cycle has the measured length (R78). -/
def Module.stepUnlessWrap (m : Module) (delta : Nat) : Module :=
  if m.clk.partsAt delta < 65536 then { m with clk := { m.clk with stepDue := false }.setLen m.clk.measured }
  else m.stepAngle delta none

/-- The phase error of the bus that the tracker follows at a crossing `delta` ticks ago, in au: an alternate's offset is
subtracted (R83). -/
def Module.refErr (m : Module) (delta : Nat) : Int :=
  signedAngle (m.clk.angleAt delta - (if m.clk.altRef then m.clk.altOffset else 0))

/-- A new source is taken at a crossing `delta` ticks ago, `d` ticks after the one before: a slew within ±4,096 au, a step
beyond, always a step out of FREE and SYNTHETIC; the tracker is in LOCKING, and `d` is the measured period (R77, R78, R80,
R83). After a step the crossing is angle 0, so no offset is left to subtract (log 61). -/
def Module.takeSource (m : Module) (delta d : Nat) (always : Bool) : Module :=
  let err := m.refErr delta
  let m := { m with clk := { m.clk with
    tracker := .locking, measured := BitVec.ofNat 32 d, lockRun := 0, fly := []
    lastRef := some (m.now - delta) } }
  if always || decide (4096 < err.natAbs) then
    ({ m with clk := { m.clk with altOffset := 0 } }).stepUnlessWrap delta
  else { m with clk := m.clk.setLen (m.clk.slewed err) }

/-! ### Crossings (R75, R77, R78, R83-R85, R87, R88) -/

/-- An interval in ticks corresponds to 45 to 65 Hz (R75). -/
def freqOk (d : Nat) : Bool := decide (100000000 ≤ 65 * d) && decide (45 * d ≤ 100000000)

/-- BUS_KIND configured for a slice: 0 AC, 1 DC, 2 AUTO (R84). -/
def Module.busKind (m : Module) (n : Nat) : Nat := Tbl.get 2 m.live.busKind n

/-- The interval condition of R75 against the previous crossing of the same polarity. -/
def Bus.chained (b : Bus) (rising : Bool) (stamp : Nat) : Bool :=
  match (if rising then b.lastPos else b.lastNeg) with
  | some t => freqOk (stamp - t)
  | none => false

/-- The window of R75 and R77: on the reference bus in LOCKING and LOCKED a positive crossing lies within ±4,096 au of its
prediction, angle 0; an alternate's offset is subtracted (R83). -/
def Module.inWindow (m : Module) (n : Nat) (rising : Bool) (a : Angle) : Bool :=
  if n = m.clk.ref && rising && (m.clk.tracker == .locking || m.clk.tracker == .locked) then
    decide ((signedAngle (a - (if m.clk.altRef then m.clk.altOffset else 0))).natAbs ≤ 4096)
  else true

/-- The average of up to 8 angles, taken around the newest (R88). -/
def meanAngle : List Angle → Angle
  | [] => 0
  | a :: as =>
    let s : Int := (as.map (fun x => signedAngle (x - a))).sum
    a + BitVec.ofInt 16 (s / ((as.length : Int) + 1))

/-- A bus record after a valid crossing at angle `a` at a turn (R84, R88); `kind` is what is configured. The average is over the last
8 cycles. The 8 crossings that settle the record are counted over both polarities, and the first crossing of a polarity neither counts
nor breaks the run (log 76). -/
def Bus.cross (b : Bus) (kind : Nat) (rising : Bool) (a : Angle) (turn : Nat) : Bus :=
  let hist := (if rising then b.posHist else b.negHist).filter (fun e => decide (turn < e.2 + 8 * 65536))
  let run := if rising then b.phase.pos else b.phase.neg
  let d := (signedAngle (a - run)).natAbs
  let n := if hist.isEmpty then b.settleRun else if d ≤ 64 then min 8 (b.settleRun + 1) else 0
  let settled := if 8 ≤ n then true else if !hist.isEmpty && decide (256 < d) then false else b.phase.settled
  let hist := ((a, turn) :: hist).take 8
  let avg := meanAngle (hist.map (fun e => e.1))
  let p : BusRec :=
    { pos := if rising then avg else b.phase.pos, neg := if rising then b.phase.neg else avg
      kind := if kind = 1 || b.reversed then .none else .ac, settled := settled }
  { b with
    phase := p, posHist := if rising then hist else b.posHist, negHist := if rising then b.negHist else hist
    settleRun := n, seen := some turn, settledAt := if settled && !b.phase.settled then turn else b.settledAt
    dcRun := 0, revRun := 0 }

/-- BUS_KIND_MISMATCH (R87): cause 1 CROSSINGS_ON_DC, 2 REVERSED_DC. -/
def Module.mismatch (m : Module) (n cause : Nat) : Module :=
  let b := (m.slice n).bus
  m.event 0x8004 (u8 n ++ u8 cause ++ u8 (m.busKind n) ++ u8 b.phase.kind.code ++ m.ca ++ rsv 1 ++
    leInt 2 ((b.mean0 + b.mean1) / 2) ++ rsv 2)

/-- Four consecutive crossings whose three spacings lie within 64 au of each other (R77). -/
def Clock.flyAgree (c : Clock) : Bool :=
  match c.fly with
  | [t3, t2, t1, t0] =>
    let a := t3 - t2
    let b := t2 - t1
    let e := t1 - t0
    decide (65536 * (max a (max b e) - min a (min b e)) ≤ 64 * c.measured.toNat)
  | _ => false

/-- A valid positive crossing of the bus that the tracker follows, `d` ticks after the one before it (R77, R78, R80,
R85). -/
def Module.refCrossing (m : Module) (n delta d : Nat) : Module :=
  let stamp := m.now - delta
  match m.clk.tracker with
  | .free => if m.busKind n = 1 then m else m.takeSource delta d true
  | .synthetic => if m.busKind n = 1 then m else m.takeSource delta d true
  | .locking | .locked =>
    let err := m.refErr delta
    let near := decide (err.natAbs ≤ 64)
    let run := if near then min 8 (m.clk.lockRun + 1) else 0
    let c := { m.clk with
      measured := BitVec.ofNat 32 d, lastRef := some stamp, lockRun := run
      tracker := if !near then .locking else if 8 ≤ run then .locked else m.clk.tracker }
    { m with clk := c.setLen (c.slewed err) }
  | .flywheel =>
    let m := { m with clk := { m.clk with fly := (stamp :: m.clk.fly).take 4, lastRef := some stamp } }
    if m.clk.flyAgree then m.takeSource delta d false else m
  | .domain | .domainHold => m

/-- Is the primary to be taken at this crossing: named anew while the tracker follows its own bus (R83)? -/
def Module.takesPrimary (m : Module) (n : Nat) (rising : Bool) : Bool :=
  m.clk.takePrimary && rising && n == m.items.refPrimary &&
    (m.clk.tracker == .locking || m.clk.tracker == .locked || m.clk.tracker == .flywheel)

/-- The primary becomes the reference again, with no offset subtracted (R83). -/
def Module.takePrimary (m : Module) (delta d : Nat) : Module :=
  ({ m with clk := { m.clk with ref := m.items.refPrimary, altRef := false, takePrimary := false } }).takeSource
    delta d false

/-- A bus with a positive crossing at `stamp`: its interval is kept with it (R75, R78). -/
def Bus.rise (b : Bus) (stamp : Nat) : Bus :=
  { b with
    lastPos := some stamp
    posGap := match b.lastPos with | some t => stamp - t | none => 0 }

/-- A reported crossing of a slice's bus: its polarity and the tick `delta` ticks ago (R75, R78, R88, R188). -/
def Module.cross (m : Module) (n : Nat) (rising : Bool) (delta : Nat) : Module :=
  let stamp := m.now - delta
  let b := (m.slice n).bus
  let valid := b.chained rising stamp && m.inWindow n rising (m.clk.angleAt delta)
  let d := (b.rise stamp).posGap
  let m := m.setSlice n (fun h =>
    { h with bus := if rising then h.bus.rise stamp else { h.bus with lastNeg := some stamp } })
  if valid then
    let m := if m.takesPrimary n rising then m.takePrimary delta d
      else if n = m.clk.ref && rising then m.refCrossing n delta d else m
    let a := m.clk.angleAt delta
    let turn := m.clk.turnAt delta
    let old := b.phase.kind
    let m := m.setSlice n (fun h => { h with bus := h.bus.cross (m.busKind n) rising a turn })
    let m := (m.kindChanged n old).learnGuard (fun ch => ch / 16 == n)
    let m := if n = m.items.refPrimary && m.busKind n = 1 && !b.crossOnDc then
        (m.setSlice n (fun h => { h with bus := { h.bus with crossOnDc := true } })).mismatch n 1
      else m
    m.crossing n turn
  else if n = m.clk.ref && rising && m.clk.tracker == .flywheel then { m with clk := { m.clk with fly := [] } }
  else m
/-- XING (R75, R77, R78, R80, R84, R85, R87, R88, R188). -/
def execXing (dt slice : Nat) (hdr : SliceHdr) (rising : Bool) (stamp : Nat) (s : State) : Result :=
  s.onSlice dt slice (fun m => m.fromSlice slice hdr (fun m => m.cross slice rising (m.now - stamp)))

/-! ### The flywheel, the alternate and the domain (R77, R79, R83) -/

/-- How far the angle is past its last prediction, in au: angle 0, or an alternate's offset (R77, R83). -/
def Clock.sincePrediction (c : Clock) : Angle := c.angle - (if c.altRef then c.altOffset else 0)
/-- Ticks since the first angle of that prediction's window, 4,096 au before it (R77). -/
def Clock.windowTicks (c : Clock) : Nat := ((c.sincePrediction.toNat + 4096) * c.cycleLen.toNat + c.frac) / 65536

/-- FLYWHEEL_ENTRY: a prediction has passed by more than 4,096 au with no valid positive crossing in its window (R77). -/
def Module.flywheel (m : Module) : Module :=
  let c := m.clk
  let seen := match c.lastRef with
    | some t => decide (m.now ≤ t + c.windowTicks)
    | none => false
  if (c.tracker == .locking || c.tracker == .locked) && decide (4096 < c.sincePrediction.toNat) && !seen then
    { m with clk := { c with tracker := .flywheel, fly := [], flyFrom := c.turn, lockRun := 0 }.setLen c.measured }
  else m
/-- FLYWHEEL_ENTRY (R38, R77, R79). -/
def execFlywheelEntry (dt : Nat) (s : State) : Result := s.on dt (fun m => m.flywheel)

/-- ALTERNATE_TAKEOVER: after 64 cycles of FLYWHEEL a settled alternate takes over, its offset subtracted, with no step
(R83). -/
def Module.alternate (m : Module) : Module :=
  let a := m.items.refAlternate
  let b := (m.slice a).bus
  if m.clk.tracker == .flywheel && decide (m.clk.flyFrom + 64 * 65536 ≤ m.clk.turn) && decide (a < m.variant.slices) && b.phase.settled then
    { m with clk := { m.clk with
      tracker := .locking, altRef := true, ref := a, altOffset := b.phase.pos, lockRun := 0, fly := []
      lastRef := b.lastPos } }
  else m
/-- ALTERNATE_TAKEOVER (R83). -/
def execAlternateTakeover (dt : Nat) (s : State) : Result := s.on dt (fun m => m.alternate)

/-- The interval that a positive crossing of a bus at `stamp` ended, whether it has been reported yet or not (R75). -/
def Bus.gapAt (b : Bus) (stamp : Nat) : Nat := if b.lastPos = some stamp then b.posGap else (b.rise stamp).posGap

/-- PRIMARY_RETURN: settled for 64 cycles, the primary's next valid positive crossing becomes angle 0 again (R80, R83). -/
def Module.primaryReturn (m : Module) (stamp : Nat) : Module :=
  let b := (m.slice m.items.refPrimary).bus
  let d := b.gapAt stamp
  if m.clk.altRef && b.phase.settled && decide (b.settledAt + 64 * 65536 ≤ m.clk.turn) && freqOk d &&
      (m.clk.tracker == .locking || m.clk.tracker == .locked || m.clk.tracker == .flywheel) then
    m.takePrimary (m.now - stamp) d
  else m
/-- PRIMARY_RETURN (R83). -/
def execPrimaryReturn (dt stamp : Nat) (s : State) : Result := s.on dt (fun m => m.primaryReturn stamp)

/-- DOMAIN_HOLD_ENTRY: 64 weft times with no weft header (R77, R79). -/
def execDomainHoldEntry (dt : Nat) (s : State) : Result :=
  s.on dt (fun m =>
    if m.clk.tracker == .domain && decide (64 ≤ m.clk.headerGap) then
      { m with clk := { m.clk with tracker := .domainHold }.setLen m.clk.measured }
    else m)

/-! ### Cycle starts (R72, R83, R245, R340, R473) -/

/-- The angle wraps: the cycle number goes up by one and what has passed since counts in the new cycle (R71, R72, R74). -/
def Clock.wrap (c : Clock) : Clock :=
  let len := c.cycleLen.toNat
  let past := c.frac - len
  { c with
    angle := BitVec.ofNat 16 (past / len), frac := past % len, cycle := c.cycle + 1
    period := BitVec.ofNat 32 (c.cycleTicks - past / 65536), cycleTicks := past / 65536, wraps := c.wraps + 1 }

/-- The natural wrap of the angle is due. -/
def Clock.wrapDue (c : Clock) : Bool := c.angle == 65535 && decide (c.cycleLen.toNat ≤ c.frac)

/-- CYCLE_CHECKPOINT: Keeper writes the cycle number in force (R52). -/
def execCycleCheckpoint (dt : Nat) (s : State) : Result :=
  s.on dt (fun m => if m.coresUp then { m with vault := { m.vault with checkpoint := some m.clk.cycle } } else m)

/-! ### Half-cycle boundaries (R84-R87) -/

/-- Ticks of a half-cycle. -/
def Module.halfTicks (m : Module) : Nat := m.clk.period.toNat / 2
/-- A half-cycle mean, in 0.1 V, in the DC band of +77 to +140 V. -/
def dcBand (v : Int) : Bool := decide (770 ≤ v) && decide (v ≤ 1400)
/-- A half-cycle mean in the reversed band of −140 to −77 V. -/
def revBand (v : Int) : Bool := decide (-1400 ≤ v) && decide (v ≤ -770)
/-- Eight nominal cycles in ticks (R84). -/
def eightCycles : Nat := 16000000

/-- A bus at the end of a half-cycle of `ticks` with the mean `v`, at the turn `turn` (R84, R88): its crossings live until 4
half-cycles have passed with no valid one. -/
def Bus.halfEnd (b : Bus) (kind : Nat) (ticks : Nat) (v : Int) (turn : Nat) : Bus :=
  let crossed := match b.seen with | some t => decide (turn ≤ t + 32768) | none => false
  let live := match b.seen with | some t => decide (turn < t + 131072) | none => false
  let dc := if dcBand v && !crossed then min eightCycles (b.dcRun + ticks) else 0
  let rev := if revBand v && !crossed then min eightCycles (b.revRun + ticks) else 0
  let reversed := if revBand v then b.reversed || decide (eightCycles ≤ rev) else false
  let acLive := b.phase.kind == .ac && live
  let k : BusKind :=
    if reversed then .none
    else match kind with
      | 0 => if acLive then .ac else .none
      | 1 => if dcBand v && !crossed then .dc else .none
      | _ => if acLive then .ac else if eightCycles ≤ dc || (b.phase.kind == .dc && dcBand v && !crossed) then .dc else .none
  { b with
    phase := { b.phase with kind := k, settled := b.phase.settled && live }
    settleRun := if live then b.settleRun else 0
    seen := if live then b.seen else none, dcRun := dc, revRun := rev, reversed := reversed
    crossOnDc := b.crossOnDc && live, mean1 := b.mean0, mean0 := v }

/-- A bus found reversed: every switch opens and the onset is reported (R84, R87). -/
def Module.busReversed (m : Module) (n : Nat) : Module :=
  (m.openAll n id).mismatch n 2
/-- A bus no longer reversed: each channel takes its state again from the next zero crossing (R84, R86, R196). -/
def Module.busRighted (m : Module) (n : Nat) : Module :=
  (m.busBack n).each (sliceChans n) (fun ch m =>
    m.setChan ch (fun c => { c with edge := c.edge ++ [(m.clk.turn, m.wants ch)] }))

/-- One slice's bus at a half-cycle boundary: on a DC, a reversed or a dead bus this is the zero crossing for which what was held
back, an edge or a start pattern waits (R53, R86, R238); then the bus is judged (R84, R87, R215). -/
def Module.busHalf (m : Module) (n : Nat) (v : Int) : Module :=
  let old := (m.slice n).bus
  let at_ := m.clk.turn / 32768 * 32768
  let m := if old.phase.kind = .ac && !old.reversed then m
    else (m.startSlice n).each (sliceChans n) (fun ch m => m.runWaiting ch (fun x => decide (x ≤ at_)))
  let m := m.setSlice n (fun h => { h with bus := h.bus.halfEnd (m.busKind n) m.halfTicks v at_ })
  let new := (m.slice n).bus
  let m := (m.kindChanged n old.phase.kind).learnGuard (fun ch => ch / 16 == n)
  let m := m.each (sliceChans n) (fun ch m => m.dimStep ch)
  if new.reversed && !old.reversed then m.busReversed n
  else if old.reversed && !new.reversed then m.busRighted n
  else m

/-- A DC reference bus makes the tracker synthetic, with no step; a newly named primary that is DC is followed at once (R77,
R83, R85). -/
def Module.synthetic (m : Module) : Module :=
  let p := m.items.refPrimary
  let m := if m.clk.takePrimary && (m.busKind p == 1 || (m.slice p).bus.phase.kind == .dc) then
      { m with clk := { m.clk with ref := p, altRef := false, takePrimary := false } }
    else m
  let n := m.clk.ref
  let own := match m.clk.tracker with
    | .free | .locking | .locked | .flywheel => true
    | _ => false
  if own && (m.busKind n == 1 || (m.slice n).bus.phase.kind == .dc) then
    { m with clk := { m.clk with
      tracker := .synthetic, measured := 2000000, lockRun := 0, fly := [] }.setLen 2000000 }
  else m

/-- HALF_CYCLE_BOUNDARY: once at each of the angles 0 and 32,768 every bus is judged, the tracker follows, and metering's half-cycle ends
(R77, R84-R87, R330); it is a weft time too (R270). -/
def Module.halfBoundary (m : Module) (means : List Int) : Module :=
  if m.alive && m.clk.turn / 32768 != m.clk.halfDone then
    let m := { m with clk := { m.clk with halfDone := m.clk.turn / 32768 } }
    let m := m.each (List.range m.variant.slices) (fun n m => m.busHalf n (means.getD n 0))
    let m := m.synthetic
    let m := { m with
      clk := { m.clk with headerGap := m.clk.headerGap + 1 }
      upd := { m.upd with
        wefts := m.upd.wefts + 1
        session := { m.upd.session with stall := m.upd.session.stall + 1 } }
      ring := { m.ring with
        east := { m.ring.east with helloGap := m.ring.east.helloGap + 1 }
        west := { m.ring.west with helloGap := m.ring.west.helloGap + 1 } } }
    if m.coresUp then m.meterBoundary else m
  else m

end Sys2Proof.Machine
end

