-- ==== Sys2Proof/Machine/Ring.lean ====
section
/-! DEFINITION. Shared operations of the Spasyn ring: lanes and spans, epochs and requests, authentication, breaks,
enumeration, escrow and the keys they use (spec/10, section 5 of spec/14). -/

namespace Sys2Proof.Machine
open Sys2Proof

/-! ### Lanes and spans (R256, R257, R267) -/

/-- The lane of a side that every ring variant has: E0 or W0. -/
def lane0 : Side → Lane
  | .east => .e0
  | .west => .w0
/-- The second lane of a side: E1 or W1. -/
def lane1 : Side → Lane
  | .east => .e1
  | .west => .w1
/-- The side of one of this module's lanes; lane H has none. -/
def laneSide : Lane → Option Side
  | .h => none
  | .e0 | .e1 => some .east
  | .w0 | .w1 => some .west
/-- This module's lane at the other end of a neighbour's lane (R256). -/
def farLane : Lane → Lane
  | .h => .h
  | .e0 => .w0
  | .e1 => .w1
  | .w0 => .e0
  | .w1 => .e1

/-- A span. -/
def Module.span (m : Module) : Side → Span
  | .east => m.ring.east
  | .west => m.ring.west
/-- Change a span. -/
def Module.setSpan (m : Module) (side : Side) (f : Span → Span) : Module :=
  match side with
  | .east => { m with ring := { m.ring with east := f m.ring.east } }
  | .west => { m with ring := { m.ring with west := f m.ring.west } }

/-- A lane's STATE code: TRAINING while a lane that is down may still train (R171, R253). -/
def LaneSt.code (l : LaneSt) (now : Nat) : Nat :=
  if l.state = 0 then (match l.train with | some t => if now ≤ t then 1 else 0 | none => 0) else l.state
/-- A lane in lock asks for its first ECHO, which measures its delay (R267). -/
def Module.measure (m : Module) (l : Lane) : Module := m.put (.link l 0x42 (u64 m.now))

/-- Ring commands act: the variant has ring lanes and the cores run. -/
def Module.ringUp (m : Module) : Bool := m.variant.hasRing && m.coresUp

/-- VARIANT in the neighbour's last HELLO, 0 while none has come (R265). -/
def Module.peerVariant (m : Module) (side : Side) : Byte :=
  match (m.span side).hello with | some h => h.2.2.1 | none => 0
/-- POSITION in the neighbour's last HELLO, 0xFF while none has come. -/
def Module.peerPosition (m : Module) (side : Side) : Byte :=
  match (m.span side).hello with | some h => h.1 | none => 0xFF
/-- FLAGS in the neighbour's last HELLO. -/
def Module.peerFlags (m : Module) (side : Side) : Byte :=
  match (m.span side).hello with | some h => h.2.2.2.1 | none => 0
/-- NAME_FOR_YOU in the neighbour's last HELLO. -/
def Module.peerName (m : Module) (side : Side) : Byte :=
  match (m.span side).hello with | some h => h.2.2.2.2.1 | none => 0xFF
/-- EPOCH_SEEN in the neighbour's last HELLO. -/
def Module.peerSeen (m : Module) (side : Side) : Word16 :=
  match (m.span side).hello with | some h => h.2.2.2.2.2 | none => 0

/-- The span has a second lane in use: both ends are UM-384 and the form does not idle it (R8, R256). -/
def Module.twoLanes (m : Module) (side : Side) : Bool :=
  m.variant == .um384 && !m.ring.e1w1Idle && m.peerVariant side != 2
/-- Every lane of the span in use is in lock. -/
def Module.spanUp (m : Module) (side : Side) : Bool :=
  (m.lane (lane0 side)).state == 2 && (!m.twoLanes side || (m.lane (lane1 side)).state == 2)
/-- The link delay of every lane of the span in use has been measured (R267). -/
def Module.spanMeasured (m : Module) (side : Side) : Bool :=
  (m.lane (lane0 side)).delay.isSome && (!m.twoLanes side || (m.lane (lane1 side)).delay.isSome)
/-- The span is authenticated or KEYLESS (R268, R269). -/
def Module.spanTrusted (m : Module) (side : Side) : Bool :=
  (m.span side).auth == .done || (m.span side).auth == .keyless
/-- Nothing keeps the span broken (R257, R263, R266, R284). -/
def Module.spanUsable (m : Module) (side : Side) : Bool :=
  m.spanUp side && m.spanMeasured side && m.spanTrusted side && (m.span side).refused == 0 &&
    decide ((m.span side).helloGap < 64)

/-- A link-control frame goes to the neighbour of a side on its first lane; the layouts are R265's payloads. -/
def Module.link (m : Module) (side : Side) (ty : Byte) (payload : List Byte) : Module :=
  if (m.lane (lane0 side)).state == 2 then m.put (.link (lane0 side) ty payload) else m

/-! ### The way round a loop (R256-R258, R282) -/

/-- The side across the module. -/
def otherSide : Side → Side
  | .east => .west
  | .west => .east
/-- One loop of the form runs both ways past every module (R257). -/
def runsBothWays : Form → Bool
  | .foldedChain | .wrappedDual => true
  | _ => false
/-- The second lanes carry slot traffic in this form (R257). -/
def secondLanes : Form → Bool
  | .dual | .wrappedDual => true
  | _ => false
/-- The lane on which what runs towards a side leaves: E0 towards the E side; towards the W side W1, where ring 1 runs, or the
reverse half of W0 in FOLDED_CHAIN; at a broken span the loop turns (R256, R257, R282). -/
def Module.outLane (m : Module) (toward : Side) : Lane :=
  let back : Lane := if secondLanes m.ring.form then .w1 else .w0
  match toward with
  | .east => if (m.span .east).broken && runsBothWays m.ring.form then back else .e0
  | .west => if (m.span .west).broken && runsBothWays m.ring.form then .e0 else back
/-- The lane on which this module's own frames of a loop leave (R256, R258). -/
def Module.sendLane (m : Module) (loop : Nat) : Lane := m.outLane (if loop = 0 then .east else .west)
/-- The lane on which a frame that arrives on a lane goes on (R256, R257, R282). -/
def Module.nextLane (m : Module) (lane : Lane) : Lane :=
  m.outLane (match laneSide lane with | some .east => .west | _ => .east)
/-- A frame that arrives on a lane has come round its loop, back to where this module sends on it: in a turned form a loop passes
each module twice, and it is closed where it runs on E-ward (R257, R273, R276; log 78). -/
def Module.comesRound (m : Module) (lane : Lane) : Bool :=
  !runsBothWays m.ring.form || laneSide lane != some .east || (m.span .west).broken
/-- A frame leaves on a lane in lock. -/
def Module.putLane (m : Module) (l : Lane) (o : Out) : Module := if (m.lane l).state == 2 then m.put o else m

/-! ### Forms (R8, R257, R282, R284) -/

/-- The form with one more broken span (R257, R282). -/
def turnedForm : Form → Form
  | .dual => .wrappedDual
  | .single => .foldedChain
  | f => f
/-- The form with the break closed. -/
def wholeForm : Form → Form
  | .wrappedDual => .dual
  | .foldedChain => .single
  | f => f

/-- A lane stays idle by the form, or comes back from it and has its delay measured (R8, R267). -/
def Module.idleLane (m : Module) (idle : Bool) (l : Lane) : Module :=
  let st := m.lane l
  if idle && st.state == 2 then m.setLane l (fun s => { s with state := 3 })
  else if !idle && st.state == 3 then
    let m := m.setLane l (fun s => { s with state := 2 })
    if st.delay.isNone then m.measure l else m
  else m
/-- The domain runs in a form: with a UM-192 in it a UM-384 leaves E1 and W1 idle (R8, R257). -/
def Module.takeForm (m : Module) (f : Form) : Module :=
  let idle := m.variant == Variant.um384 && f != .none && !secondLanes f
  let m := { m with ring := { m.ring with form := f, e1w1Idle := idle } }
  (m.idleLane idle .e1).idleLane idle .w1

/-- The span between two positions, as `breaks` keys it. -/
def breakKey (a b : Nat) : Nat := 256 * min a b + max a b
/-- A span of the domain is known to be broken, or to be whole again; with none broken the form is whole (R257, R282-R284). -/
def Module.noteBreak (m : Module) (key : Nat) (broken : Bool) : Module :=
  let m := { m with ring := { m.ring with breaks := Tbl.set false m.ring.breaks key broken } }
  if broken then m.takeForm (turnedForm m.ring.form)
  else if m.ring.breaks.isEmpty && !m.ring.east.broken && !m.ring.west.broken then m.takeForm (wholeForm m.ring.form)
  else m

/-- The VARIANT of a position as a frame tells it (R8, R257). -/
def Module.seeVariant (m : Module) (position variant : Byte) : Module :=
  if position.toNat < 64 then
    { m with ring := { m.ring with variants := Tbl.set 0 m.ring.variants position.toNat variant } }
  else m
/-- The form of a domain that turns at a break while its ALL_384 has not come back: FOLDED_CHAIN where a UM-192 is known in it.
R265 gives no frame that could tell of the others: they are a free value (R257, R261, R263; log 79). -/
def Module.brokenForm (m : Module) : Module × Form :=
  if m.variant != Variant.um384 || m.ring.variants.any (fun e => e.2 == 2) then (m, .foldedChain)
  else ({ m with free := m.free + 1 }, if Config.freeInt m.free % 2 = 0 then .wrappedDual else .foldedChain)

/-! ### RING_CHANGE and CHANGE (R283, R298) -/

/-- RING_CHANGE at a gateway (R298). -/
def Module.ringChange (m : Module) (cause : Nat) (subject lane : Nat) (epoch : Word16) : Module :=
  if m.gateway then
    m.event 0x8401 (u8 cause ++ u8 m.ring.form.code ++ u8 m.ring.positions ++ u8 m.ring.reference.toNat ++ u8 subject ++
      u8 lane ++ u16 epoch.toNat ++ m.ca ++ rsv 1)
  else m

/-- CHANGE goes round the domain (R276, R282); a module without a position has no slot to send it in. -/
def Module.sendChange (m : Module) (cause : Nat) (subject : Nat) : Module :=
  if m.ring.position.isSome then m.ringSend 8 0xFE 0 0 (u8 cause ++ u8 subject ++ u16 0) else m

/-! ### Epochs of the positions (R289, R292, R293) -/

/-- A forwarded packet fails here with a status of this module's own, DETAIL its ring till; the till is freed (R141, R145). -/
def Module.failTill (m : Module) (t : Word16) (status : Word16) : Module :=
  match m.ring.forwards.find? (fun f => f.1 == t) with
  | none => m
  | some f =>
    let m := { m with ring := { m.ring with forwards := m.ring.forwards.filter (fun f => f.1 != t) } }
    ((m.setTill t (fun _ => Till.closed)).complete f.2.1 f.2.2 0 status t []).resetStep

/-- The ring tills held for a position. -/
def Module.tillsFor (m : Module) (pos : Nat) : List Word16 :=
  (m.ring.forwards.filter (fun f => (m.till f.1).link.toNat == pos)).map (fun f => f.1)

/-- A position restarted: its ring tills fail, its watch records end in FINAL events, and a gateway reports it (R292, R293,
R298). -/
def Module.peerRestarted (m : Module) (pos : Nat) (e : Word16) : Module :=
  let m := (m.tillsFor pos).foldl (fun m t => m.failTill t stPeerRestarted) m
  let gone := m.ring.watches.filter (fun w => w.1 == pos)
  let m := { m with ring := { m.ring with watches := m.ring.watches.filter (fun w => w.1 != pos) } }
  let m := gone.foldl (fun m w => m.final w.2.2 stPeerRestarted w.2.1 []) m
  let near := (m.peerPosition .east).toNat == pos || (m.peerPosition .west).toNat == pos
  let m := if near then { m with ring := { m.ring with peerRestarts := satInc m.ring.peerRestarts } } else m
  let m := m.memberRestarted pos
  m.ringChange 5 pos 0xFF e

/-- A frame tells the hub epoch of a position: the record is updated, and a change of a known epoch is a restart. The
restarted source counts its frames afresh (R276, R289, R292). -/
def Module.seeEpoch (m : Module) (pos : Nat) (e : Word16) : Module :=
  let old := Tbl.get (0 : Word16) m.ring.epochs pos
  if e = 0 || 64 ≤ pos || old = e || m.ring.position == some pos then m
  else
    let m := { m with ring := { m.ring with
      epochs := Tbl.set 0 m.ring.epochs pos e
      lastSeq := Tbl.erase (Tbl.erase m.ring.lastSeq pos) (256 + pos) } }
    if old = 0 then m else m.peerRestarted pos e

/-- A frame count is newer than the last one taken. -/
def newerSeq (s last : Word16) : Bool := decide (1 ≤ (s - last).toNat) && decide ((s - last).toNat < 32768)

/-- From a keyless neighbour itself, a module that holds a key acts only on REPLY and PRESENCE frames (R269). -/
def Module.ignores (m : Module) (src : Byte) : Bool :=
  m.vault.current.isSome &&
    [Side.east, Side.west].any (fun side => (m.span side).auth == .keyless && m.peerPosition side == src && src != 0xFF)

/-- A slot frame addressed to this position is acted on by `f` (R276, R289). -/
def Module.addressed (m : Module) (hdr : RingHdr) (f : Module → Module) : Module :=
  if m.ringUp && !m.ring.refusing then
    let m := m.seeEpoch hdr.src.toNat hdr.srcEpoch
    if m.ownPosition hdr.dst && !m.ownPosition hdr.src then f m else m
  else m

/-- A broadcast frame is acted on once, when its SEQ is newer than the last one taken from that source on that loop
(R276). -/
def Module.takeOnce (m : Module) (hdr : RingHdr) (f : Module → Module) : Module :=
  if m.ringUp && !m.ring.refusing then
    let m := m.seeEpoch hdr.src.toNat hdr.srcEpoch
    let key := 256 * hdr.loop + hdr.src.toNat
    let new := match Tbl.get none m.ring.lastSeq key with
      | some q => newerSeq hdr.seq q
      | none => true
    if new && !m.ownPosition hdr.src then
      f { m with ring := { m.ring with lastSeq := Tbl.set none m.ring.lastSeq key (some hdr.seq) } }
    else m
  else m

/-! ### Keys (R61, R404-R408) -/

/-- The key of an attempt at the E-side module: CURRENT on odd attempts, on even ones PREVIOUS when held (R406). -/
def Module.attemptKey (m : Module) (attempt : Nat) : Option (List Byte) :=
  if attempt % 2 = 1 then m.vault.current
  else match m.previous with
    | some k => some k
    | none => m.vault.current

/-- Every side is authenticated under CURRENT and has acknowledged a push made under it (R407). -/
def Module.pushedUnderCurrent (m : Module) : Bool :=
  [Side.east, Side.west].all (fun side => (m.span side).auth == .done && (m.span side).current && (m.span side).acked)

/-- PREVIOUS is erased once nothing needs it (R407). -/
def Module.erasePrevious (m : Module) : Module :=
  let own := m.vault.config.any (fun c => match c.sealed with
    | .mac b => m.macOf (m.form c) == some b
    | .unsealed => false)
  if m.previous.isSome && (if m.variant.hasRing then m.pushedUnderCurrent else own) then
    { m with vault := { m.vault with alternate := none } }
  else m

/-- The shelf state: every channel off, VITAL-OK open, nothing scheduled, the default items in force (R62). A module that has no
place in the ring yet goes on through stage 7; before first lamp control the stages go on. -/
def Module.enterShelf (m : Module) : Module :=
  let m := m.dropSchedules
  let placed := !m.variant.hasRing || m.ring.position.isSome || m.ring.unpositioned
  let m := { m with
    stage := match m.stage with
      | .lamps | .ready => if placed then .ready else .lamps
      | s => s
    shelf := true, inUse := false, prov := { m.prov with hold := true } }.takeItems
  let m := m.each (List.range m.variant.slices) (fun n m => m.setSlice n (fun h => { h with startDue := false }))
  let m := m.each (List.range m.variant.channels) (fun ch m =>
    m.takeEffect ch (fun c => { c with cmd := none, start := none, zc := [], fb := 0 }))
  m.vitalStop

/-- Both domain keys are overwritten with zeros after two MAC mismatches in a row with both neighbours; the module enters the
shelf state (R61, R408). -/
def Module.eraseKeys (m : Module) : Module :=
  if decide (2 ≤ m.ring.east.mismatches) && decide (2 ≤ m.ring.west.mismatches) then
    let m := { m with vault := { m.vault with current := none, alternate := none, altPending := false } }
    let m := [Side.east, Side.west].foldl (fun m side =>
      m.setSpan side (fun s => { s with mismatches := 0, auth := .none, deadline := none })) m
    if m.shelf then m else m.enterShelf
  else m

/-! ### Escrow transfer (R294, R295) -/

/-- The payload of one ESCROW frame (R294). -/
def escrowChunk (position : Byte) (epoch : Word16) (revision : Word32) (bytes mac : List Byte) (i : Nat) : List Byte :=
  let offset := 65488 * i
  let data := (bytes.drop offset).take 65488
  u8 position.toNat ++ rsv 1 ++ u16 epoch.toNat ++ u32 revision.toNat ++ u32 bytes.length ++ u32 offset ++ data ++
    (if bytes.length ≤ offset + 65488 then mac else [])

/-- The configuration goes to one neighbour in ESCROW frames once it is sealed, the span is authenticated and the ledger
admits the unit (R62, R269, R294, R317). -/
def Module.pushSide (m : Module) (side : Side) : Module :=
  let wanted := match side with | .east => m.ring.pushE | .west => m.ring.pushW
  let dst := m.peerPosition side
  if wanted && m.ringReady && (m.span side).auth == .done && !(m.span side).broken && m.admits 400 [] then
    match m.vault.config with
    | some c =>
      match c.sealed with
      | .mac b =>
        let bytes := m.form c
        let m := (List.range ((bytes.length + 65487) / 65488)).foldl (fun m i =>
          m.ringSend 6 dst (m.span side).epoch 0 (escrowChunk m.positionByte m.vault.hubEpoch c.revision bytes b i)) m
        match side with
        | .east => { m with ring := { m.ring with pushE := false } }
        | .west => { m with ring := { m.ring with pushW := false } }
      | .unsealed => m
    | none => m
  else m

/-- Both neighbours still to be sent the configuration. -/
def Module.pushEscrow (m : Module) : Module := (m.pushSide .east).pushSide .west

/-- ESCROW_PUSH commands whose neighbours have all acknowledged, or whose spans have broken, end with their FINAL event
(R171). -/
def Module.settlePushes (m : Module) : Module :=
  let l := m.ring.pushRef.map (fun (j : FinalRef × Bool × Bool) =>
    (j.1, j.2.1 && !m.ring.east.broken, j.2.2 && !m.ring.west.broken))
  let done := l.filter (fun j => !j.2.1 && !j.2.2)
  let m := { m with ring := { m.ring with pushRef := l.filter (fun j => j.2.1 || j.2.2) } }
  done.foldl (fun m j => m.final j.1 stOk 0 (u8 m.escrowBits ++ rsv 3)) m

/-! ### Breaks (R257, R282-R284) -/

/-- A span breaks: the loops turn, CHANGE goes out, and nothing is inserted until the next weft header (R282, R283). -/
def Module.breakSpan (m : Module) (side : Side) : Module :=
  if (m.span side).broken then m
  else
    let m := m.setSpan side (fun s => { s with broken := true })
    let m := { m with ring := { m.ring with wraps := satInc m.ring.wraps, quiet := true } }
    let subject := (m.peerPosition side).toNat
    let m := m.noteBreak (breakKey m.positionByte.toNat subject) true
    let m := (m.sendChange 1 subject).ringChange 1 subject (lane0 side).code 0
    m.settlePushes

/-! ### Authentication (R268, R269, R401, R406-R408) -/

/-- A hub epoch as 2 bytes. -/
def epochBytes (e : Word16) : List Byte := u16 e.toNat
/-- "SPB1" in ASCII. -/
def tagSPB1 : List Byte := [0x53, 0x50, 0x42, 0x31]
/-- "SPA1" in ASCII. -/
def tagSPA1 : List Byte := [0x53, 0x50, 0x41, 0x31]
/-- What MB is the HMAC of (R268). -/
def mbText (na nb : List Byte) (w e : Word16) : List Byte := tagSPB1 ++ na ++ nb ++ epochBytes w ++ epochBytes e
/-- What MA is the HMAC of (R268). -/
def maText (na nb : List Byte) (w e : Word16) : List Byte := tagSPA1 ++ nb ++ na ++ epochBytes e ++ epochBytes w

/-- Ticks of the 200 ms that an exchange may take (R268). -/
def authTicks : Nat := 20000000

/-- The next attempt comes 1 s from now (R268). -/
def Module.authLater (m : Module) (side : Side) : Module :=
  m.setSpan side (fun s => { s with auth := .none, deadline := some (m.now + 100000000) })

/-- The W-side module sends AUTH_A with its nonce (R268). -/
def Module.sendA (m : Module) (na : List Byte) : Module :=
  (m.setSpan .east (fun s =>
    { s with auth := .sentA, na := na, attempt := s.attempt + 1, deadline := some (m.now + authTicks) })).link .east 0x44 na

/-- The E-side module answers AUTH_B with its nonce and MB (R268, R406). -/
def Module.sendB (m : Module) (nb : List Byte) : Module :=
  let s := m.ring.west
  match m.attemptKey s.attempt with
  | none => m.authLater .west
  | some k =>
    let m := m.setSpan .west (fun s =>
      { s with auth := .sentB, nb := nb, current := some k == m.vault.current, deadline := some (m.now + authTicks) })
    m.link .west 0x45 (nb ++ hmac k (mbText s.na nb s.epoch m.vault.hubEpoch))

/-- A nonce is drawn for one side, waits behind a reseed, or the handshake waits for its next attempt (R401, R402). -/
def Module.nonce (m : Module) (side : Side) : Module :=
  if m.entropyReady then
    let r := m.draw 16
    match side with
    | .east => r.1.sendA r.2
    | .west => r.1.sendB r.2
  else if m.ent.healthy then
    let k := match side with | .east => 0 | .west => 1
    if m.ent.waiting.any (fun w => w.consumer == k) then m else m.awaitEntropy k 16 none
  else m.authLater side

/-- A handshake begins on a span in lock: exactly one side without a key makes it KEYLESS, and of two keyed sides the W-side
one sends AUTH_A (R268, R269). -/
def Module.beginAuth (m : Module) (side : Side) : Module :=
  if m.spanUp side && (m.span side).auth == .none then
    let own := m.vault.current.isSome
    match (m.span side).hello with
    | some _ =>
      if own != (m.peerFlags side).getLsbD 0 then m.setSpan side (fun s => { s with auth := .keyless, deadline := none })
      else if own && side == .east && (m.span side).deadline == none then m.nonce .east else m
    | none => if own && side == .east && (m.span side).deadline == none then m.nonce .east else m
  else m

/-- The span of a changed epoch or key is to be authenticated afresh; until then it is broken (R268, R404). -/
def Module.reauth (m : Module) (side : Side) : Module :=
  let m := m.setSpan side (fun s => { s with auth := .none, deadline := none, attempt := 0, acked := false, current := false })
  (m.breakSpan side).beginAuth side

/-- A handshake ends well (R268, R407, R408). -/
def Module.authDone (m : Module) (side : Side) (current : Bool) : Module :=
  (m.setSpan side (fun s =>
    { s with auth := .done, deadline := none, mismatches := 0, current := current })).erasePrevious

/-- A handshake fails: a mismatch counts towards R61, the span breaks, and the next attempt comes 1 s later (R268, R282,
R408). -/
def Module.authFails (m : Module) (side : Side) (mismatch : Bool) : Module :=
  let m := (m.authLater side).setSpan side (fun s =>
    { s with mismatches := if mismatch then min 2 (s.mismatches + 1) else s.mismatches })
  let m := m.breakSpan side
  (m.ringChange 7 (m.peerPosition side).toNat (lane0 side).code 0).eraseKeys

/-! ### Enumeration (R259-R264) -/

/-- The position that a stored, verified configuration records (R259). -/
def Module.ownClaim (m : Module) : Option Nat :=
  if m.configSealed then
    match m.vault.config with
    | some c => if c.position.toNat < 64 then some c.position.toNat else none
    | none => none
  else none

/-- CLAIM: of a valid configuration, else the name on which every neighbour that names one agrees (R259). -/
def Module.claim (m : Module) : Option Nat :=
  match m.ownClaim with
  | some p => some p
  | none =>
    let e := (m.peerName .east).toNat
    let w := (m.peerName .west).toNat
    if e < 64 ∧ (w = e ∨ w = 0xFF) then some e
    else if e = 0xFF ∧ w < 64 then some w
    else none

/-- A position byte, 0xFF for none. -/
def posByte (p : Option Nat) : Nat := p.getD 0xFF

/-- A configuration that was written before the module had a position is that of the first it takes (log 80). -/
def Module.bindConfig (m : Module) (p : Nat) : Module :=
  { m with vault := { m.vault with config := m.vault.config.map (fun c =>
    if c.position = 0xFF then
      let d := { c with position := BitVec.ofNat 8 p }
      if m.configSealed then m.seal d else d
    else c) } }
/-- A count gives this module its position; a module that had another handles its configuration at stage 7 again (R59,
R260). -/
def Module.takePosition (m : Module) (p : Nat) : Module :=
  let moved := m.ring.position.any (fun q => q != p) || m.ring.unpositioned
  let m := m.bindConfig p
  let m := { m with ring := { m.ring with position := some p, refusing := false, unpositioned := false } }
  if moved && m.stage == .ready then { m with stage := .lamps } else m
/-- This module has no place in the domain (R262): it forwards, and a gateway reports it; in a full domain it is a 65th and
refuses (R9, R262; log 81). -/
def Module.stayUnpositioned (m : Module) (positions : Nat) : Module :=
  { m with ring := { m.ring with
    position := none, unpositioned := true, refusing := m.ring.refusing || decide (64 ≤ positions) } }.ringChange 6 0xFF 0xFF 0

/-- This gateway enumerates the domain from itself (R260, R264). -/
def Module.startEnum (m : Module) : Module :=
  let m := m.takePosition 0
  let m := { m with ring := { m.ring with
    anchor := true, counted := some 0, enum := some (false, m.now + 50000000) } }
  m.link .east 0x47 (u8 1 ++ u8 0 ++ u8 (bit (m.variant == Variant.um384)) ++ rsv 1)

/-- The domain is numbered: POSITIONS, FORM and REF_LIST hold, spans that cannot carry frames are broken, and a gateway
reports it (R257, R260, R286, R298). -/
def Module.enumerated (m : Module) (positions : Nat) (form : Form) (refList : List Byte) : Module :=
  let m := { m with ring := { m.ring with
    positions := positions, refList := refList, breaks := [], counted := none, enum := none } }.takeForm form
  let m := [Side.east, Side.west].foldl (fun m side =>
    m.setSpan side (fun s => { s with broken := !m.spanUsable side })) m
  m.ringChange 3 0xFF 0xFF 0

/-- RING_SIZE of the last complete enumeration is stored once the configuration in the vault is that of this position (R261,
R264; log 105). -/
def Module.storeSize (m : Module) : Module :=
  match m.ring.sizeDue with
  | some n =>
    if m.configValid && !m.updateHolds then
      let m := { m with ring := { m.ring with sizeDue := none } }
      if m.items.ringSize = n then m else m.storeItems { m.items with ringSize := n }
    else m
  | none => m

/-- The anchor ends its enumeration: RING_SIZE is to be stored where it was complete, ENUM_DONE goes round the loop and the FINAL
events follow (R171, R260, R261). -/
def Module.finishEnum (m : Module) (positions : Nat) (form : Form) : Module :=
  let whole := form == .dual || form == .single
  let refs := m.ring.enumRef
  let m := { m with ring := { m.ring with enumRef := [], sizeDue := if whole then some positions else m.ring.sizeDue } }.storeSize
  let list := m.items.refList
  let m := m.enumerated positions form list
  let payload := u8 positions ++ u8 form.code ++ rsv 2 ++ list
  let m := m.link .east 0x48 payload
  let m := if whole then m else m.link .west 0x48 payload
  refs.foldl (fun m f => m.final f stOk 0 (u8 positions ++ u8 form.code ++ rsv 2)) m

end Sys2Proof.Machine
end

