-- ==== Sys2Proof/Machine/Link.lean ====
section
/-! DEFINITION. The ring opcodes 0x04xx (section 5 of spec/06) and the link-control commands: lanes, HELLO, ECHO, the
handshake, enumeration and notices (spec/10, spec/14). -/

namespace Sys2Proof.Machine
open Sys2Proof

/-! ### Ring opcodes (R171, R172) -/

/-- Ring opcodes need ring lanes (R7). -/
def noRing (m : Module) (_ : Packet) : Bool := !m.variant.hasRing

/-- The RING_STATUS payload (R172). -/
def Module.ringPayload (m : Module) : List Byte :=
  let r := m.ring
  u8 m.positionByte.toNat ++ u8 r.positions ++ u8 r.form.code ++ u8 r.reference.toNat ++ u8 m.ringBits ++ rsv 1 ++
    leInt 2 r.offset ++ u32 r.touches.toNat ++ u32 r.slotViolations.toNat ++ u32 r.wraps.toNat ++
    u16 r.peerRestarts.toNat ++ rsv 10

/-- RING_STATUS. -/
def opRingStatus : Op :=
  { code := 0x0401, bcast := true, absent := noRing, judge := fun _ p => lengthIs p 0,
    act := fun m _ _ => (m, some (.ok m.ringPayload)) }
/-- RING_STATUS (R172). -/
def execRingStatus (dt : Nat) (p : Packet) (s : State) : Result := s.serve dt opRingStatus p

/-- The ring lane of a LANE code (R159). -/
def laneOf : Nat → Option Lane
  | 1 => some .e0
  | 2 => some .e1
  | 3 => some .w0
  | 4 => some .w1
  | _ => none
/-- A LANE that the variant lacks (R5, R171). -/
def laneAbsent (m : Module) (p : Packet) : Bool :=
  !m.variant.hasRing || (laneOf (p.field 0 1)).any (fun l => !m.variant.fits l)
/-- The LANE_STATUS payload (R171). -/
def lanePayload (l : LaneSt) (now : Nat) : List Byte :=
  u8 (l.code now) ++ u8 (bit l.fec) ++ rsv 2 ++ u32 l.losses.toNat ++ u32 l.corrected.toNat ++ u32 l.uncorrected.toNat

/-- LANE_STATUS. -/
def opLaneStatus : Op :=
  { code := 0x0402, absent := laneAbsent,
    judge := fun _ p => firstOf [lengthIs p 4, need (laneOf (p.field 0 1)).isSome 0],
    act := fun m p _ => (m, some (.ok (lanePayload (m.lane ((laneOf (p.field 0 1)).getD .e0)) m.now))) }
/-- LANE_STATUS (R171): LANE is judged at step 5 of R139. -/
def execLaneStatus (dt : Nat) (p : Packet) (s : State) : Result := s.serve dt opLaneStatus p

/-- RING_ENUMERATE. -/
def opRingEnumerate : Op :=
  { code := 0x0403, accepts := true, absent := noRing,
    judge := fun m p =>
      firstOf [lengthIs p 0, if m.gateway then none else some (stBadParam, 8), busyUnless (!m.updateHolds)],
    act := fun m p _ =>
      ({ m with ring := { m.ring with enumRef := m.ring.enumRef ++ [m.finalRef 0x0403 p] } }.startEnum, some .accepted) }
/-- RING_ENUMERATE (R171, R264): this gateway becomes the anchor. -/
def execRingEnumerate (dt : Nat) (p : Packet) (s : State) : Result := s.serve dt opRingEnumerate p

/-- ESCROW_PUSH. -/
def opEscrowPush : Op :=
  { code := 0x0404, accepts := true, absent := noRing, judge := fun _ p => lengthIs p 0,
    cost := fun _ _ => some (400, []),
    act := fun m p _ =>
      let can := fun (s : Span) => s.auth == .done && !s.broken
      let sealed_ := m.configSealed
      let e := sealed_ && can m.ring.east
      let w := sealed_ && can m.ring.west
      ({ m with ring := { m.ring with
        pushE := m.ring.pushE || e, pushW := m.ring.pushW || w
        pushRef := m.ring.pushRef ++ [(m.finalRef 0x0404 p, e, w)] } }, some .accepted),
    after := fun m _ => m.pushEscrow.settlePushes }
/-- ESCROW_PUSH (R171, R294, R317). -/
def execEscrowPush (dt : Nat) (p : Packet) (s : State) : Result := s.serve dt opEscrowPush p

/-! ### Lanes and breaks (R253-R257, R267, R282-R284) -/

/-- A lane has trained and locked; with FEC set differently at its ends it never does. Its delay is measured and its span
authenticates (R253, R255, R267, R268). -/
def Module.laneUp (m : Module) (l : Lane) (fec : Bool) : Module :=
  let want := if l = .h then m.items.hFec else m.items.ringFec
  if m.coresUp && fec == want && (m.lane l).state != 2 && (m.lane l).state != 3 && (m.lane l).state != 4 then
    let idle := m.ring.e1w1Idle && (l == .e1 || l == .w1)
    let m := m.setLane l (fun s => { s with state := if idle then 3 else 2, fec := fec, delay := none, echoes := [], train := none })
    match laneSide l with
    | none => m
    | some side => if idle then m else (m.measure l).beginAuth side
  else m
/-- LINK_UP (R253). -/
def execLinkUp (dt : Nat) (lane : Lane) (fec : Bool) (s : State) : Result := s.onLane dt lane (fun m => m.laneUp lane fec)

/-- A lane's link is gone: lane H detaches the host, a ring lane in use breaks its span (R128, R282). -/
def Module.linkGone (m : Module) (l : Lane) : Module :=
  match laneSide l with
  | none =>
    let m := m.detachHost 2
    { m with win := { m.win with enumerated := false } }
  | some side =>
    if l = lane0 side || m.twoLanes side then
      (m.setSpan side (fun s =>
        { s with auth := .none, deadline := none, attempt := 0, staging := none })).breakSpan side
    else m

/-- Lock has been lost for 64 µs: the link is gone, and the lane trains again (R128, R253, R255, R282); a lane under test has no
lock to lose (R439). -/
def Module.laneDown (m : Module) (l : Lane) : Module :=
  let st := (m.lane l).state
  if m.alive && st != 0 && st != 4 then
    ((m.setLane l (fun s => { s with state := 0, losses := satInc s.losses, delay := none, echoes := [] })).trainLane l).linkGone l
  else m
/-- The lanes that a LANE_PRBS31 run tests: one, or with 0xFFFF every fitted one, in LANE code order (R182, R439). -/
def Module.prbsLanes (m : Module) (select : Word16) : List Lane :=
  [Lane.h, .e0, .e1, .w0, .w1].filter (fun l => m.variant.fits l && (select == 0xFFFF || select.toNat == l.code))
/-- At the first weft gap after the ACCEPTED reply of a LANE_PRBS31 run has gone, the links of the lanes tested go down (R439; log 16). -/
def Module.prbsStep (m : Module) : Module :=
  match m.diag.bist with
  | some (_, 5, select) =>
    if m.replyGone 0x0A01 && decide (m.clk.angle.toNat % 32768 < 2048) then
      (m.prbsLanes select).foldl (fun m l =>
        if (m.lane l).state = 4 then m
        else (m.setLane l (fun s => { s with state := 4, delay := none, echoes := [] })).linkGone l) m
    else m
  | _ => m
/-- HALF_CYCLE_BOUNDARY (R84, R87): with it a weft gap begins (R439). -/
def execHalfCycleBoundary (dt : Nat) (means : List Int) (s : State) : Result := s.on dt (fun m => (m.halfBoundary means).prbsStep)
/-- LANE_LOCK_LOSS (R255). -/
def execLaneLockLoss (dt : Nat) (lane : Lane) (s : State) : Result := s.onLane dt lane (fun m => m.laneDown lane)

/-- A broken span is restored at a weft gap once its conditions hold (R270, R284). -/
def Module.unwrapSpan (m : Module) (side : Side) : Module :=
  if m.ringUp && (m.span side).broken && m.spanUsable side && m.stage == .ready && (m.peerFlags side).getLsbD 1 &&
      decide (m.clk.angle.toNat % 32768 < 2048) then
    let m := m.setSpan side (fun s => { s with broken := false })
    let subject := (m.peerPosition side).toNat
    let m := m.noteBreak (breakKey m.positionByte.toNat subject) false
    (m.sendChange 2 subject).ringChange 2 subject (lane0 side).code 0
  else m
/-- UNWRAP (R284). -/
def execUnwrap (dt : Nat) (side : Side) (s : State) : Result := s.on dt (fun m => m.unwrapSpan side)

/-! ### HELLO (R259, R265, R266, R289, R295) -/

/-- The escrow copy of a side. -/
def Module.escrowOf (m : Module) : Side → Option Escrow
  | .east => m.vault.escrowE
  | .west => m.vault.escrowW
/-- Replace the escrow copy of a side. -/
def Module.setEscrow (m : Module) (side : Side) (e : Option Escrow) : Module :=
  match side with
  | .east => { m with vault := { m.vault with escrowE := e } }
  | .west => { m with vault := { m.vault with escrowW := e } }

/-- This module's HELLO to a side (R265). -/
def Module.helloPayload (m : Module) (side : Side) : List Byte :=
  let copy := m.escrowOf side
  u8 m.positionByte.toNat ++ u8 (posByte m.claim) ++ u8 m.variant.code.toNat ++
    u8 (bit m.vault.current.isSome + 2 * bit (m.stage == .ready) + 4 * bit m.gateway) ++
    u8 (match copy with | some e => e.position.toNat | none => 0xFF) ++ rsv 1 ++
    u16 (match copy with | some e => e.epoch.toNat | none => 0)
/-- HELLO goes to both neighbours; a refusal that no longer arrives runs out (R263, R266). -/
def Module.sendHello (m : Module) : Module :=
  if m.ringUp then
    let m := (m.link .east 0x41 (m.helloPayload .east)).link .west 0x41 (m.helloPayload .west)
    (m.setSpan .east (fun s => { s with refused := s.refused - 1 })).setSpan .west (fun s =>
      { s with refused := s.refused - 1 })
  else m
/-- HELLO_SEND (R266). -/
def execHelloSend (dt : Nat) (s : State) : Result := s.on dt (fun m => m.sendHello)

/-- A link-control frame that arrives on a lane in lock is acted on, its SRC_EPOCH recorded (R265, R289). -/
def Module.onLink (m : Module) (hdr : LinkHdr) (f : Side → Module → Module) : Module :=
  match laneSide (farLane hdr.lane) with
  | none => m
  | some side =>
    if m.ringUp && (m.lane (farLane hdr.lane)).state == 2 then
      f side (m.seeEpoch (m.peerPosition side).toNat hdr.srcEpoch)
    else m

/-- A neighbour that is ring ready without a position is unpositioned (R262). -/
def unplaced (position flags : Byte) : Bool := position == 0xFF && flags.getLsbD 1

/-- What a HELLO asks of the handshake: a restart of the neighbour, and keys on both sides of a KEYLESS span, call for a
fresh one; with a key on exactly one side the span is KEYLESS (R268, R269). -/
def Module.helloAuth (m : Module) (side : Side) (restarted keyless : Bool) : Module :=
  if restarted || ((m.span side).auth == .keyless && !keyless) then m.reauth side
  else if keyless && m.spanUp side then m.setSpan side (fun s => { s with auth := .keyless, deadline := none })
  else m.beginAuth side

/-- A neighbour's HELLO (R259, R262, R266, R268, R289, R295). -/
def Module.takeHello (m : Module) (side : Side) (epoch : Word16) (position claim variant flags name : Byte)
    (seen : Word16) : Module :=
  let old := (m.span side).epoch
  let was := unplaced (m.peerPosition side) (m.peerFlags side)
  let m := (m.seeEpoch position.toNat epoch).seeVariant position variant
  let m := m.setSpan side (fun s =>
    { s with hello := some (position, claim, variant, flags, name, seen), epoch := epoch, helloGap := 0 })
  let m := if old = epoch then m
    else m.setEscrow side ((m.escrowOf side).map (fun e => { e with epoch := epoch }))
  let m := if unplaced position flags && !was && m.ringReady then
      (m.sendChange 6 0xFF).ringChange 6 0xFF (lane0 side).code 0
    else m
  m.helloAuth side (old ≠ 0 && old ≠ epoch) (m.vault.current.isSome != flags.getLsbD 0)
/-- HELLO (R266). -/
def execHello (dt : Nat) (hdr : LinkHdr) (position claim variant flags name : Byte) (epochSeen : Word16) (s : State) :
    Result :=
  s.on dt (fun m => m.onLink hdr (fun side m => m.takeHello side hdr.srcEpoch position claim variant flags name epochSeen))

/-- HELLO_TIMEOUT: 64 weft times without HELLO break the span (R266, R282). -/
def execHelloTimeout (dt : Nat) (side : Side) (s : State) : Result :=
  s.on dt (fun m => if m.ringUp && decide (64 ≤ (m.span side).helloGap) then m.breakSpan side else m)

/-! ### ECHO (R267) -/

/-- An ECHO is answered with its tick and the turn time, a free value (log 8). -/
def Module.answerEcho (m : Module) (l : Lane) (tickSent : Nat) : Module :=
  if m.ringUp && (m.lane l).state == 2 && l != .h then
    let turn := (Config.freeInt m.free).toNat
    { m with free := m.free + 1 }.put (.link l 0x43 (u64 tickSent ++ u32 turn))
  else m
/-- ECHO (R267). -/
def execEcho (dt : Nat) (lane : Lane) (tickSent : Nat) (s : State) : Result :=
  s.onLane dt lane (fun m => m.answerEcho lane tickSent)

/-- The median of eight values: the mean of the middle two. -/
def median8 (l : List Nat) : Nat :=
  let l := l.insertionSort (· ≤ ·)
  (l.getD 3 0 + l.getD 4 0) / 2

/-- An ECHO_REPLY gives one measurement in ns; the eighth gives the link delay, and above 1.0 µs the link is down (R267). -/
def Module.takeEcho (m : Module) (l : Lane) (tickSent turn : Nat) : Module :=
  let st := m.lane l
  match laneSide l with
  | none => m
  | some _ =>
    if m.ringUp && st.state == 2 && st.delay.isNone then
      let echoes := 5 * (m.now - tickSent - turn) :: st.echoes
      if echoes.length < 8 then
        (m.setLane l (fun s => { s with echoes := echoes })).measure l
      else
        let d := median8 echoes
        if d ≤ 1000 then m.setLane l (fun s => { s with echoes := echoes, delay := some d })
        else (m.setLane l (fun s => { s with echoes := [], delay := none, state := 0 })).linkGone l
    else m
/-- ECHO_REPLY (R267). -/
def execEchoReply (dt : Nat) (lane : Lane) (tickSent turn : Nat) (s : State) : Result :=
  s.onLane dt lane (fun m => m.takeEcho lane tickSent turn)

/-! ### The handshake (R268, R406) -/

/-- AUTH_A at the E-side module: a nonce of its own is drawn for AUTH_B; a span that was up is broken until the handshake
completes (R268). -/
def Module.takeA (m : Module) (epoch : Word16) (na : List Byte) : Module :=
  if m.vault.current.isSome && m.spanUp .west then
    let m := if (m.span .west).auth == .done then m.breakSpan .west else m
    let m := m.setSpan .west (fun s =>
      { s with auth := .none, na := na, epoch := epoch, attempt := s.attempt + 1, deadline := none })
    m.nonce .west
  else m
/-- AUTH_A (R268). -/
def execAuthA (dt : Nat) (hdr : LinkHdr) (na : List Byte) (s : State) : Result :=
  s.on dt (fun m => m.onLink hdr (fun side m => if side = .west then m.takeA hdr.srcEpoch na else m))

/-- The exchange with a side is still on time (R98, R268). -/
def Module.inExchange (m : Module) (side : Side) (st : Auth) : Bool :=
  (m.span side).auth == st && (match (m.span side).deadline with | some d => !m.expired d | none => false)

/-- AUTH_B at the W-side module: MB is verified under CURRENT and then under PREVIOUS, and MA goes out under the key that
verified (R268, R406). -/
def Module.takeB (m : Module) (epoch : Word16) (nb mb : List Byte) : Module :=
  if m.inExchange .east .sentA then
    let na := m.ring.east.na
    let own := m.vault.hubEpoch
    let fits := fun (k : Option (List Byte)) => k.any (fun k => hmac k (mbText na nb own epoch) == mb)
    let m := m.setSpan .east (fun s => { s with nb := nb, epoch := epoch })
    let answer := fun (k : List Byte) (current : Bool) =>
      (m.link .east 0x46 (hmac k (maText na nb own epoch))).authDone .east current
    match m.vault.current, m.previous with
    | some k, p =>
      if fits (some k) then answer k true
      else
        match p with
        | some q => if fits (some q) then answer q false else m.authFails .east true
        | none => m.authFails .east true
    | none, _ => m.authFails .east true
  else m
/-- AUTH_B (R268). -/
def execAuthB (dt : Nat) (hdr : LinkHdr) (nb mb : List Byte) (s : State) : Result :=
  s.on dt (fun m => m.onLink hdr (fun side m => if side = .east then m.takeB hdr.srcEpoch nb mb else m))

/-- AUTH_C at the E-side module: MA is verified under the key of MB (R268, R406). -/
def Module.takeC (m : Module) (epoch : Word16) (ma : List Byte) : Module :=
  if m.inExchange .west .sentB then
    let sp := m.ring.west
    match m.attemptKey sp.attempt with
    | some k =>
      if hmac k (maText sp.na sp.nb epoch m.vault.hubEpoch) == ma then m.authDone .west sp.current
      else m.authFails .west true
    | none => m.authFails .west true
  else m
/-- AUTH_C (R268). -/
def execAuthC (dt : Nat) (hdr : LinkHdr) (ma : List Byte) (s : State) : Result :=
  s.on dt (fun m => m.onLink hdr (fun side m => if side = .west then m.takeC hdr.srcEpoch ma else m))

/-- AUTH_RETRY: an exchange not complete within 200 ms fails, and 1 s after a failure the handshake runs again (R98, R268,
R408). -/
def Module.authRetry (m : Module) (side : Side) : Module :=
  let sp := m.span side
  match sp.deadline with
  | some d =>
    if m.ringUp && m.expired d then
      if sp.auth == .none then (m.setSpan side (fun s => { s with deadline := none })).beginAuth side
      else m.authFails side false
    else m
  | none => if m.ringUp then m.beginAuth side else m
/-- AUTH_RETRY (R268). -/
def execAuthRetry (dt : Nat) (side : Side) (s : State) : Result := s.on dt (fun m => m.authRetry side)

/-! ### Enumeration (R260-R264) -/

/-- DOMAIN_JOIN: at stage 7, after 64 weft times with no header, the anchor enumerates and any other module waits (R260). -/
def execDomainJoin (dt : Nat) (s : State) : Result :=
  s.on dt (fun m =>
    if m.ringUp && m.stage == .lamps && decide (64 ≤ m.clk.headerGap) && m.ring.enum.isNone && m.ring.form == .none &&
        m.gateway && m.claim == some 0 then m.startEnum
    else m)

/-- An ENUM that runs E-ward: count 64 is refused, any other is taken as the position and passed on (R260, R263). -/
def Module.enumEast (m : Module) (count : Nat) (all384 : Bool) : Module :=
  if 64 ≤ count then
    ({ m with ring := { m.ring with refusing := true, position := none } }).link .west 0x49 (u8 1 ++ rsv 3)
  else
    let m := m.takePosition count
    let m := { m with ring := { m.ring with counted := some count, anchor := false } }
    m.link .east 0x47 (u8 (count + 1) ++ u8 0 ++ u8 (bit (all384 && m.variant == Variant.um384)) ++ rsv 1)

/-- An ENUM that runs W-ward from the anchor of a broken ring: position RING_SIZE − d, or none where no RING_SIZE is stored or
RING_SIZE − d would not exceed the highest E-ward count. The ENUM of R265 carries neither number: they come with the command
(R261; log 82). -/
def Module.enumWest (m : Module) (d : Nat) (all384 : Bool) (size highest : Nat) : Module :=
  if m.ring.counted.isSome || m.ring.refusing then m
  else
    let m := if size ≠ 0 ∧ highest + d < size then m.takePosition (size - d) else m.stayUnpositioned 0
    let m := { m with ring := { m.ring with anchor := false } }
    m.link .west 0x47 (u8 (d + 1) ++ u8 1 ++ u8 (bit (all384 && m.variant == Variant.um384)) ++ rsv 1)

/-- ENUM: at the anchor it has returned with POSITIONS, elsewhere it numbers the module (R260, R261, R263). -/
def Module.takeEnum (m : Module) (side : Side) (count : Nat) (wWard all384 : Bool) (size highest : Nat) : Module :=
  match m.ring.enum with
  | some (wPhase, _) =>
    if !wPhase && !wWard && side == .west then m.finishEnum count (if all384 then .dual else .single) else m
  | none =>
    match side, wWard with
    | .west, false => m.enumEast count all384
    | .east, true => m.enumWest count all384 size highest
    | _, _ => m
/-- ENUM (R260, R261, R263). -/
def execEnumerate (dt : Nat) (hdr : LinkHdr) (count : Byte) (wWard all384 : Bool) (ringSize highest : Nat) (s : State) :
    Result :=
  s.on dt (fun m => m.onLink hdr (fun side m => m.takeEnum side count.toNat wWard all384 ringSize highest))

/-- ENUM_DONE: the domain's positions, form and reference list hold here and go on round the loop; at the anchor they have
returned, and a refusing module forwards nothing (R260, R263, R286). -/
def Module.takeDone (m : Module) (side : Side) (positions : Nat) (form : Form) (refList : List Byte) : Module :=
  if m.ring.anchor || m.ring.refusing then m
  else
    let m := m.enumerated positions form refList
    m.link (match side with | .east => .west | .west => .east) 0x48 (u8 positions ++ u8 form.code ++ rsv 2 ++ refList)
/-- ENUM_DONE (R260). -/
def execEnumDone (dt : Nat) (hdr : LinkHdr) (positions : Byte) (form : Form) (refList : List Byte) (s : State) : Result :=
  s.on dt (fun m => m.onLink hdr (fun side m => m.takeDone side positions.toNat form refList))

/-- ENUM_REFUSE: the span to the refusing module is broken while refusals arrive; the neighbour whose ENUM was refused
reports DOMAIN_FULL (R263). -/
def Module.takeRefuse (m : Module) (side : Side) (cause : Byte) : Module :=
  let first := (m.span side).refused == 0
  let m := (m.setSpan side (fun s => { s with refused := 2 })).breakSpan side
  if first && cause == 1 && side == .east && m.ring.position == some 63 then
    (m.sendChange 8 0xFF).ringChange 8 0xFF (lane0 side).code 0
  else m
/-- ENUM_REFUSE (R263). -/
def execEnumRefuse (dt : Nat) (hdr : LinkHdr) (cause : Byte) (s : State) : Result :=
  s.on dt (fun m => m.onLink hdr (fun side m => m.takeRefuse side cause))

/-- ENUM_REFUSE_SEND: a refusing module tells both neighbours (R263). -/
def execEnumRefuseSend (dt : Nat) (s : State) : Result :=
  s.on dt (fun m =>
    if m.ringUp && m.ring.refusing then (m.link .east 0x49 (u8 1 ++ rsv 3)).link .west 0x49 (u8 1 ++ rsv 3) else m)

/-- ENUM_TIMEOUT: with no return in 500 ms the ring is broken; the anchor sends ENUM W-ward, and 500 ms later ends the enumeration
with RING_SIZE as POSITIONS, or what the highest E-ward count makes them where that is more (R261; log 82). -/
def Module.enumTimeout (m : Module) (highest : Nat) : Module :=
  match m.ring.enum with
  | some (wPhase, d) =>
    if m.ringUp && m.expired d then
      if wPhase then
        let r := m.brokenForm
        r.1.finishEnum (min 64 (max (highest + 1) m.items.ringSize)) r.2
      else
        ({ m with ring := { m.ring with enum := some (true, m.now + 50000000) } }).link .west 0x47
          (u8 1 ++ u8 1 ++ u8 (bit (m.variant == Variant.um384)) ++ rsv 1)
    else m
  | none => m
/-- ENUM_TIMEOUT (R261). -/
def execEnumTimeout (dt highest : Nat) (s : State) : Result := s.on dt (fun m => m.enumTimeout highest)

/-! ### Notices and acknowledgements (R280, R295) -/

/-- Two weft numbers lie at most 15 apart. -/
def nearWefts (a b : Word32) : Bool := decide ((a - b).toNat ≤ 15) || decide ((b - a).toNat ≤ 15)

/-- SLOT_NOTICE: counted, and a second within 15 wefts mutes for at least 16 wefts and re-adopts the domain angle (R172,
R280). -/
def Module.takeNotice (m : Module) (weft : Word32) : Module :=
  let near := m.ring.lastNotice.any (fun w => nearWefts weft w)
  let m := { m with ring := { m.ring with slotViolations := satInc m.ring.slotViolations, lastNotice := some weft } }
  if near then
    let m := { m with ring := { m.ring with
      muted := true, calmRun := 0, muteUntil := some (m.clk.turn / 32768 + 16), readopt := true } }
    m.ringChange 9 m.positionByte.toNat 0xFF 0
  else m
/-- SLOT_NOTICE (R280). -/
def execSlotNotice (dt : Nat) (hdr : LinkHdr) (weft : Word32) (_slot _loop : Byte) (s : State) : Result :=
  s.on dt (fun m => m.onLink hdr (fun _ m => m.takeNotice weft))

/-- ESCROW_ACK: the neighbour's copy of this configuration is current (R172, R295, R407). -/
def Module.takeAck (m : Module) (side : Side) (revision : Word32) : Module :=
  if revision = m.revision then
    let m := m.setSpan side (fun s => { s with acked := s.auth == .done })
    let m := match side with
      | .east => { m with ring := { m.ring with
          escrowE := true, pushRef := m.ring.pushRef.map (fun (j : FinalRef × Bool × Bool) => (j.1, false, j.2.2)) } }
      | .west => { m with ring := { m.ring with
          escrowW := true, pushRef := m.ring.pushRef.map (fun (j : FinalRef × Bool × Bool) => (j.1, j.2.1, false)) } }
    m.erasePrevious.settlePushes
  else m
/-- ESCROW_ACK (R295). -/
def execEscrowAck (dt : Nat) (hdr : LinkHdr) (revision : Word32) (s : State) : Result :=
  s.on dt (fun m => m.onLink hdr (fun side m => m.takeAck side revision))

end Sys2Proof.Machine
end

