-- ==== Sys2Proof/Machine/Frames.lean ====
section
/-! DEFINITION. Weft headers and slot frames: the domain angle, muting, the reference, insertion, forwarding, requests and
replies between positions, escrow, presence and relayed events (spec/10, section 6 of spec/03). -/

namespace Sys2Proof.Machine
open Sys2Proof

/-! ### Held events (R126, R299) -/

/-- Events held while the module was not ring ready or was muted go out in production order, then the count lost (R299). -/
def Module.flushHeld (m : Module) : Module :=
  if m.ringReady && !m.ring.muted then
    let held := m.ring.held
    let loss := m.ring.heldLoss
    let m := { m with ring := { m.ring with held := [], heldLoss := none } }
    let out := fun (m : Module) (r : Reply) =>
      if m.gateway then m.deliver 1 r m.vault.hostEpoch else m.ringSend 9 0xFE 0 0 r.bytes
    let m := held.foldl out m
    match loss with
    | none => m
    | some l =>
      let r := m.mkReply 0x8002 rfEvent 0 0 0
        (u16 1 ++ u8 m.positionByte.toNat ++ rsv 1 ++ u32 l.count.toNat ++ u40 l.cycle.toNat ++ u16 l.angle.toNat ++ rsv 1)
      out (m.logEntry r) r
  else m

/-! ### Weft headers (R271, R274, R279, R280, R286-R288) -/

/-- The forward latency L in ns (R272). -/
def Module.latency (m : Module) : Nat := if m.items.ringFec then 600 else 200
/-- The path delay D of a header in ns: PATH_DELAY plus the measured upstream link delay (R271). -/
def Module.pathOf (m : Module) (lane : Lane) (h : WeftHdr) : Nat := h.pathDelay.toNat + (m.lane lane).delay.getD 0

/-- The phase error of this module's angle against a header that arrived with path delay `d` ns: its own angle less the
header's, in parts 1/(10 × cycleLen) of an au, of which 65,536 are 1 ns (R91). -/
def Module.headerErr (m : Module) (h : WeftHdr) (d : Nat) : Int :=
  let len := m.clk.cycleLen.toNat
  let own : Int := ((10 * (m.clk.angle.toNat * len + m.clk.frac) : Nat) : Int)
  let x := (own - ((65536 * d : Nat) : Int) - (if h.half then ((327680 * len : Nat) : Int) else 0)).emod ((655360 * len : Nat) : Int)
  if 2 * x < ((655360 * len : Nat) : Int) then x else x - ((655360 * len : Nat) : Int)

/-- The domain angle at a header: a rebase or a step is made at angle 0, otherwise the angle slews by half-cycle steps. The answer
is the phase error that the offset estimate is judged by. A step that the reference announces is made once, on whichever loop its
header comes first (R80, R89-R92, R280). -/
def Module.adopt (m : Module) (h : WeftHdr) (d : Nat) : Module × Int :=
  let err := m.headerErr h d
  let len := m.clk.cycleLen.toNat
  let far := decide (40960 * len < err.natAbs)
  let held := m.clk.tracker == .domainHold
  let again := m.ring.readopt && far
  let announced := h.step && !(m.clk.cycle == h.cycle && decide (m.clk.angle.toNat < 32768))
  let m := { m with
    clk := { m.clk with tracker := .domain, measured := h.period, stepDue := m.clk.stepDue || (held && far) }
    ring := { m.ring with readopt := m.ring.readopt && h.half } }
  if !h.half && m.clk.rebaseDue then
    let m := m.stepAngle (d / 10) (some h.cycle)
    ({ m with vault := { m.vault with checkpoint := some m.clk.cycle } }, 0)
  else if !h.half && (m.clk.stepDue || announced || again) then (m.stepUnlessWrap (d / 10), 0)
  else ({ m with clk := m.clk.setLen (m.clk.slewed (err.tdiv ((10 * len : Nat) : Int))) }, err)

/-- The offset estimate, positive while this module is late, mutes and unmutes the transmitter; `err` counts 65,536 to the ns
(R91, R279, R280; log 104). -/
def Module.judgeMute (m : Module) (err : Int) : Module :=
  let big := decide (1000 * 65536 < err.natAbs)
  let calm := if err.natAbs ≤ 500 * 65536 then min 8 (m.ring.calmRun + 1) else 0
  let forced := match m.ring.muteUntil with | some w => decide (m.clk.turn / 32768 < w) | none => false
  let was := m.ring.muted
  let now := big || (was && (decide (calm < 8) || forced))
  let m := { m with ring := { m.ring with
    offset := -(err.tdiv 65536), calmRun := calm, muted := now, muteUntil := if forced then m.ring.muteUntil else none } }
  if now && !was then m.ringChange 9 m.positionByte.toNat 0xFF 0
  else if was && !now then m.flushHeld
  else m

/-- A module without a position takes the one between its neighbours' while headers run; where they disagree it stays
unpositioned (R262). -/
def Module.joinBetween (m : Module) (positions : Nat) : Module :=
  let e := (m.peerPosition .east).toNat
  let w := (m.peerPosition .west).toNat
  let n := max 1 positions
  let fromE := if e < 64 then some ((e + n - 1) % n) else none
  let fromW := if w < 64 then some ((w + 1) % n) else none
  if m.ring.position.isSome || m.ring.refusing || m.ring.enum.isSome || m.ring.unpositioned then m
  else
    match fromE, fromW with
    | some a, some b => if a = b then m.takePosition a else m.stayUnpositioned positions
    | some a, none => m.takePosition a
    | none, some b => m.takePosition b
    | none, none => m

/-- What a header tells of the domain: its reference, positions and form; and this module's new D, where the loop comes to its own
place on it (R271, R274, R283). -/
def Module.readHeader (m : Module) (lane : Lane) (h : WeftHdr) (d : Nat) : Module :=
  let m := m.seeEpoch h.reference.toNat h.refEpoch
  let taken := m.ring.reference != 0xFF && m.ring.reference != h.reference
  let fresh := m.ring.form == .none
  let follow := fresh || (!m.ring.east.broken && !m.ring.west.broken)
  let m := if follow then
      ({ m with ring := { m.ring with breaks := if runsBothWays h.form then m.ring.breaks else [] } }).takeForm h.form
    else m
  let own := m.comesRound lane
  let m := { m with
    clk := { m.clk with headerGap := 0 }
    ring := { m.ring with
      reference := h.reference, positions := h.positions.toNat, quiet := false
      delay0 := if own && h.loop == 0 then d else m.ring.delay0, delay1 := if own && h.loop != 0 then d else m.ring.delay1 } }
  let m := if fresh then
      (m.setSpan .east (fun s => { s with broken := !m.spanUsable .east })).setSpan .west (fun s =>
        { s with broken := !m.spanUsable .west })
    else m
  if taken then m.ringChange 4 h.reference.toNat 0xFF h.refEpoch else m

/-- Where a position stands in REF_LIST (R286). -/
def refIndex (l : List Byte) (p : Byte) : Option Nat := if l.contains p then some (l.idxOf p) else none

/-- Of two references the one listed earlier remains (R288). -/
def Module.yieldsTo (m : Module) (other : Byte) : Bool :=
  match refIndex m.ring.refList m.positionByte, refIndex m.ring.refList other with
  | some a, some b => decide (b < a)
  | none, some _ => true
  | _, none => false

/-- A weft header goes on with D + L and one hop more (R274). -/
def Module.passHeader (m : Module) (lane : Lane) (h : WeftHdr) (d : Nat) : Module :=
  let out := m.nextLane lane
  m.putLane out (.weft out { h with pathDelay := BitVec.ofNat 32 (d + m.latency), hops := h.hops + 1 })

/-- A received weft header: the domain angle, muting and D, then it is forwarded; at the reference its own header ends where its
loop is closed, and of two references one yields (R91, R271, R274, R279, R288, R289). -/
def Module.takeHeader (m : Module) (lane : Lane) (h : WeftHdr) : Module :=
  let d := m.pathOf lane h
  if !m.ringUp || m.ring.refusing || (m.lane lane).state != 2 then m
  else if m.ring.isRef && m.ownPosition h.reference then
    let m := m.seeEpoch h.reference.toNat h.refEpoch
    if m.comesRound lane then m else m.passHeader lane h d
  else if m.ring.isRef && !m.yieldsTo h.reference then m.seeEpoch h.reference.toNat h.refEpoch
  else
    let m := if m.ring.isRef then
        { m with ring := { m.ring with isRef := false }, clk := { m.clk with tracker := .domain, altRef := false, rebaseDue := true } }
      else m
    let m := (m.readHeader lane h d).joinBetween h.positions.toNat
    let m := if m.comesRound lane && (m.clk.tracker == .domain || m.clk.tracker == .domainHold) then
        let r := m.adopt h d
        r.1.judgeMute r.2
      else m
    m.passHeader lane h d
/-- WEFT_HEADER (R91). -/
def execWeftHeader (dt : Nat) (lane : Lane) (h : WeftHdr) (s : State) : Result := s.onLane dt lane (fun m => m.takeHeader lane h)

/-- The loops of a form (R257). -/
def loopsOf : Form → List Nat
  | .dual => [0, 1]
  | _ => [0]

/-- The reference's weft header on a loop now (R274). -/
def Module.header (m : Module) (loop : Nat) : WeftHdr :=
  let half := decide (32768 ≤ m.clk.angle.toNat)
  let step := !half && m.clk.stepSent.isSome
  { loop := loop, half := half, step := step, reference := m.positionByte, positions := BitVec.ofNat 8 m.ring.positions
    refEpoch := m.vault.hubEpoch, form := m.ring.form, tracker := m.clk.tracker, cycle := m.clk.cycle, hops := 0
    stepAngle := if step then m.clk.stepSent.getD 0 else 0, pathDelay := 0, period := m.clk.period }

/-- The reference sends its headers, and what the seam held goes on in this weft with HELD set (R273, R274; log 103). -/
def Module.sendHeaders (m : Module) : Module :=
  if m.ringUp && m.ring.isRef && decide (m.clk.angle.toNat % 32768 < 2048) then
    let m := (loopsOf m.ring.form).foldl (fun m loop => m.putLane (m.sendLane loop) (.weft (m.sendLane loop) (m.header loop))) m
    let seam := m.ring.seam
    let m := { m with
      clk := { m.clk with headerGap := 0, stepSent := if 32768 ≤ m.clk.angle.toNat then m.clk.stepSent else none }
      ring := { m.ring with seam := [], quiet := false, delay0 := 0, delay1 := 0 } }
    seam.foldl (fun m f =>
      m.putLane (m.sendLane f.hdr.loop) (.ring (m.sendLane f.hdr.loop) f.ty { f.hdr with held := true } f.payload)) m
  else m
/-- WEFT_HEADER_SEND (R274). -/
def execWeftHeaderSend (dt : Nat) (s : State) : Result := s.on dt (fun m => m.sendHeaders)

/-- This module becomes the domain reference, continuing its angle; a DC reference bus makes it run the synthetic cycle, and a step
made as a member is not announced; a gateway reports it (R77, R85, R92, R287, R298). -/
def Module.becomeRef (m : Module) : Module :=
  let dc := m.busKind m.items.refPrimary == 1 || (m.slice m.items.refPrimary).bus.phase.kind == .dc
  let held := m.clk.tracker == .domain || m.clk.tracker == .domainHold
  let m := { m with
    ring := { m.ring with
      isRef := true, reference := m.positionByte, muted := false, muteUntil := none, offset := 0, readopt := false }
    clk := { m.clk with stepSent := none, rebaseDue := false, stepDue := false } }
  let m := if held then
      { m with clk :=
        let c := { m.clk with ref := m.items.refPrimary, altRef := false, fly := [], lockRun := 0 }
        if dc then { c with tracker := .synthetic, measured := 2000000 }.setLen 2000000
        else { c with tracker := .flywheel, flyFrom := c.turn } }
    else m
  m.ringChange 4 m.positionByte.toNat 0xFF 0

/-- The weft times without a header after which the module listed at index k takes over (R287). -/
def Module.takeoverDue (m : Module) : Bool :=
  match refIndex m.ring.refList m.positionByte with
  | some k => decide (64 + 8 * k ≤ m.clk.headerGap)
  | none => false
/-- REFERENCE_TAKEOVER (R286, R287). -/
def execReferenceTakeover (dt : Nat) (s : State) : Result :=
  s.on dt (fun m =>
    if m.ringUp && m.ringReady && m.ring.position.isSome && !m.ring.isRef && m.takeoverDue then m.becomeRef else m)

/-! ### Insertion (R62, R270-R272, R278, R281, R290) -/

/-- Time since the weft began at the reference, in ns. -/
def Module.weftNs (m : Module) : Nat :=
  10 * ((m.clk.angle.toNat % 32768) * m.clk.cycleLen.toNat + m.clk.frac) / 65536
/-- The window of a position on a loop in ns of the weft at this module: its slot edges plus D (R270, R271). -/
def Module.windowNs (m : Module) (p loop : Nat) : Nat × Nat :=
  let d := if loop = 0 then m.ring.delay0 else m.ring.delay1
  let edge := fun (a : Nat) => 10 * a * m.clk.cycleLen.toNat / 65536 + d
  (edge (2048 + 480 * p), edge (2528 + 480 * p))
/-- A frame of `duration` ticks that begins now lies in the window body: the window less 2.0 µs at each end (R270, R272). -/
def Module.inBody (m : Module) (p loop duration : Nat) : Bool :=
  let w := m.windowNs p loop
  decide (w.1 + 2000 ≤ m.weftNs) && decide (m.weftNs + 10 * duration + 2000 ≤ w.2)
/-- With the offset estimate counted in, the frame reaches into a selvage (R278). -/
def Module.touchesSelvage (m : Module) (p loop duration : Nat) : Bool :=
  let w := m.windowNs p loop
  let start : Int := (m.weftNs : Int) + m.ring.offset
  decide (start < (w.1 : Int) + 2000) || decide ((w.2 : Int) < start + 10 * (duration : Int) + 2000)

/-- Slot traffic may be inserted: ring ready, or replies alone in the shelf state; not muted, not held by a change (R62,
R281, R283). -/
def Module.mayInsert (m : Module) (f : RingOut) : Bool :=
  m.stage == .ready && (!m.shelf || f.ty == 3) && !m.ring.muted && !m.ring.quiet && !m.ring.refusing

/-- The loop on which a frame leaves: of the destination as the form is now (R258). -/
def Module.frameLoop (m : Module) (f : RingOut) : Nat := if f.hdr.dst = 0xFE then 0 else m.loopFor f.hdr.dst
/-- Tick until which a lane's output is busy (R272). -/
def Module.busyUntil (m : Module) (l : Lane) : Nat := Tbl.get 0 m.ring.busyTill l.code
/-- A lane's output is busy until a tick. -/
def Module.busy (m : Module) (l : Lane) (till : Nat) : Module :=
  { m with ring := { m.ring with busyTill := Tbl.set 0 m.ring.busyTill l.code till } }

/-- The first frame that may be inserted on an idle loop within the window body, and the rest (R272). -/
def Module.nextFrame (m : Module) (p duration : Nat) : List RingOut → Option (RingOut × List RingOut)
  | [] => none
  | f :: fs =>
    let loop := m.frameLoop f
    if m.mayInsert f && decide (m.busyUntil (m.sendLane loop) ≤ m.now) && m.inBody p loop duration then some (f, fs)
    else (nextFrame m p duration fs).map (fun r => (r.1, f :: r.2))

/-- A frame is inserted: its loop, SEQ, source epoch and WEFT are those of now, and a REQUEST's reply deadline counts from its last
bit (R258, R275, R290). -/
def Module.insertFrame (m : Module) (f : RingOut) (duration : Nat) : Module :=
  let loop := m.frameLoop f
  let lane := m.sendLane loop
  let seq := Tbl.get (0 : Word16) m.ring.txSeq loop + 1
  let m := { m with ring := { m.ring with txSeq := Tbl.set 0 m.ring.txSeq loop seq } }.busy lane (m.now + duration)
  let m := if f.ty = 2 then m.setTill f.hdr.rtill (fun t => { t with due := m.now + duration + 10000000 }) else m
  m.putLane lane (.ring lane f.ty
    { f.hdr with loop := loop, seq := seq, srcEpoch := m.vault.hubEpoch, weft := BitVec.ofNat 32 m.clk.half } f.payload)

/-- A queued frame leaves in this position's window (R272, R275, R290); a commanded reset or standby whose reply has gone
follows (R63, R324). -/
def Module.insert (m : Module) (duration : Nat) : Module :=
  match m.ring.position with
  | none => m
  | some p =>
    if m.ringUp then
      let m := m.flushHeld.pushEscrow
      match m.nextFrame p duration m.ring.txq with
      | none => m
      | some (f, rest) =>
        let touch := m.touchesSelvage p (m.frameLoop f) duration
        let m := { m with ring := { m.ring with
          txq := rest, touches := if touch then satInc m.ring.touches else m.ring.touches } }
        (m.insertFrame f duration).resetStep.standbyStep.prbsStep
    else m
/-- INSERTION (R272). -/
def execInsertion (dt duration : Nat) (s : State) : Result := s.on dt (fun m => m.insert duration)

/-! ### Forwarding (R272, R273, R276-R278) -/

/-- Bytes that a lane's output still has to send, at 100 bits a tick. -/
def Module.backlog (m : Module) (l : Lane) : Nat := 25 * (m.busyUntil l - m.now) / 2
/-- Bytes of a slot frame: header, payload and CRC (R275). -/
def frameBytes (payload : List Byte) : Nat := 28 + payload.length

/-- A frame goes on to the next module, unless the forward buffer of its output is full (R272). -/
def Module.forwardFrame (m : Module) (out : Lane) (f : RingOut) : Module :=
  if 131072 < m.backlog out + frameBytes f.payload then { m with ring := { m.ring with fwdLost := m.ring.fwdLost + 1 } }
  else
    (m.busy out (max m.now (m.busyUntil out) + 2 * frameBytes f.payload / 25)).putLane out (.ring out f.ty f.hdr f.payload)

/-- The destination removes a unicast frame of this type (R276). -/
def removedAtDst (ty : Byte) : Bool := decide (2 ≤ ty.toNat) && decide (ty.toNat ≤ 6)

/-- A frame passing through: judged when the upstream neighbour inserted it, removed at its destination and at its source, held at
the seam, and otherwise forwarded; one with a bad CRC ends in an error block, so that every later module discards it; `reach` is
0 inside the sender's body, 1 into a selvage, 2 into another position's body (R263, R272, R273, R276-R278, R289). -/
def Module.passFrame (m : Module) (lane : Lane) (ty : Byte) (hdr : RingHdr) (payload : List Byte) (good inserted : Bool)
    (reach : Nat) : Module :=
  if !m.ringUp || m.ring.refusing || !good || (m.lane lane).state != 2 then m
  else
    let m := m.seeEpoch hdr.src.toNat hdr.srcEpoch
    if inserted && decide (2 ≤ reach) then
      let slot := (m.clk.angle.toNat % 32768 - 2048) / 240
      m.link ((laneSide lane).getD .west) 0x4A (u32 hdr.weft.toNat ++ u8 slot ++ u8 hdr.loop ++ rsv 2)
    else if m.ownPosition hdr.dst && removedAtDst ty then m
    else if m.ownPosition hdr.src && m.comesRound lane then m
    else if m.ring.isRef && m.comesRound lane then
      if hdr.held then m else { m with ring := { m.ring with seam := m.ring.seam ++ [⟨ty, hdr, payload⟩] } }
    else m.forwardFrame (m.nextLane lane) ⟨ty, hdr, payload⟩
/-- RING_FRAME_FORWARD (R272). -/
def execRingFrameForward (dt : Nat) (lane : Lane) (ty : Byte) (hdr : RingHdr) (payload : List Byte) (good inserted : Bool)
    (reach : Nat) (s : State) : Result :=
  s.onLane dt lane (fun m => m.passFrame lane ty hdr payload good inserted reach)

/-! ### Requests and replies (R145, R289-R293) -/

/-- PRESENCE, to one position or to all (R276, R289). -/
def Module.sendPresence (m : Module) (dst : Byte) : Module :=
  m.ringSend 7 dst (if dst = 0xFE then 0 else Tbl.get 0 m.ring.epochs dst.toNat) 0 (u8 m.positionByte.toNat ++ u8 m.variant.code.toNat ++ u16 m.vault.hubEpoch.toNat)

/-- REQUEST: a packet for an epoch of this module that has passed is not carried out; any other completes its arrival here
(R39, R269, R291). -/
def Module.takeRing (m : Module) (hdr : RingHdr) (opcode : Word16) (p : Packet) : Module :=
  if m.ignores hdr.src then m
  else if hdr.dstEpoch ≠ 0 && hdr.dstEpoch ≠ m.vault.hubEpoch then m.sendPresence hdr.src
  else m.arrive (opcode, { p with path := .ring hdr.src hdr.rtill }) m.now true
/-- REQUEST (R291). -/
def execRequest (dt : Nat) (hdr : RingHdr) (opcode : Word16) (p : Packet) (s : State) : Result :=
  s.on dt (fun m => m.addressed hdr (fun m => m.takeRing hdr opcode p))

/-- A FINAL event of a watched command is relayed and its watch record ends (R145, R293). -/
def Module.relayFinal (m : Module) (src : Nat) (r : Reply) : Module :=
  match m.ring.watches.find? (fun w => w.1 == src && w.2.2.tag == r.tag && w.2.2.opcode == r.opcode) with
  | none => m
  | some w =>
    let m := { m with ring := { m.ring with watches := m.ring.watches.erase w } }
    m.send w.2.2.path w.2.2.till { r with rflags := r.rflags ||| rfRelayed }

/-- A ring till's deadline has expired: it counts once its REQUEST has left this module (R290). -/
def Module.ringLate (m : Module) (t : Till) : Bool := t.due != 0 && m.expired t.due
/-- Where the FINAL event of a forwarded packet goes: with its reply, which a ticket still holds on lane H (R143, R145). -/
def Module.finalOf (m : Module) (opcode : Word16) (p : Packet) : FinalRef :=
  ⟨p.path, opcode, p.tag,
    match p.path, m.tel.tickets.find? (fun t => t.opcode == opcode && t.packet == p && t.reply == none) with
    | .laneH _, some t => t.report
    | _, _ => p.till⟩
/-- A reply on time under its till's epoch is relayed with RELAYED set and its till is freed; one under another epoch, or
with no till waiting, is discarded (R145, R290, R292, R293). -/
def Module.relay (m : Module) (hdr : RingHdr) (r : Reply) : Module :=
  let t := m.till hdr.rtill
  match m.ring.forwards.find? (fun f => f.1 == hdr.rtill) with
  | none => m
  | some f =>
    if t.link.toNat ≠ hdr.src.toNat || m.ringLate t || (t.epoch ≠ 0 && t.epoch ≠ hdr.srcEpoch) then m
    else
      let m := { m with ring := { m.ring with
        forwards := m.ring.forwards.filter (fun f => f.1 != hdr.rtill)
        watches := if r.status = stAccepted then m.ring.watches ++ [(hdr.src.toNat, hdr.rtill, m.finalOf f.2.1 f.2.2)]
          else m.ring.watches } }
      ((m.setTill hdr.rtill (fun _ => Till.closed)).completeWith f.2.1 f.2.2
        { r with rflags := r.rflags ||| rfRelayed }).resetStep
/-- RING_REPLY (R292). -/
def execRingReply (dt : Nat) (hdr : RingHdr) (r : Reply) (s : State) : Result :=
  s.on dt (fun m => m.addressed hdr (fun m =>
    if r.rflags.getLsbD 2 then m.relayFinal hdr.src.toNat r else m.relay hdr r))

/-- RING_REPLY_TIMEOUT: no reply by the deadline tick (R98, R145, R290). -/
def execRingReplyTimeout (dt : Nat) (till : Word16) (s : State) : Result :=
  s.on dt (fun m =>
    if (m.till till).kind = 5 && m.ringLate (m.till till) then m.failTill till stTimeout else m)

/-! ### Escrow, presence, changes and relayed events (R269, R276, R283, R289, R295, R299) -/

/-- The last chunk is in: the copy replaces the region only when its HMAC verifies, and is acknowledged (R295, R406). -/
def Module.placeEscrow (m : Module) (side : Side) (position : Byte) (epoch : Word16) (revision : Word32)
    (bytes mac : List Byte) : Module :=
  if m.verifies bytes mac then
    (m.setEscrow side (some ⟨position, revision, epoch, bytes, mac⟩)).link side 0x4B (u32 revision.toNat)
  else m

/-- An ESCROW chunk is staged; chunks run on from offset 0 under one revision (R294, R295). -/
def Module.takeEscrow (m : Module) (side : Side) (position : Byte) (epoch : Word16) (revision total offset : Word32)
    (data mac : List Byte) : Module :=
  let before : Option (List Byte) :=
    if offset = 0 then some []
    else match (m.span side).staging with
      | some (p, e, r, t, b) => if p = position ∧ e = epoch ∧ r = revision ∧ t = total ∧ b.length = offset.toNat then some b else none
      | none => none
  let clear := m.setSpan side (fun s => { s with staging := none })
  match before with
  | none => clear
  | some b =>
    let bytes := b ++ data
    if total.toNat = 0 || 196608 < total.toNat || total.toNat < bytes.length || 65488 < data.length then clear
    else if bytes.length = total.toNat then clear.placeEscrow side position epoch revision bytes mac
    else m.setSpan side (fun s => { s with staging := some (position, epoch, revision, total, bytes) })
/-- ESCROW (R295): never from the keyless side of a span (R269). -/
def execEscrow (dt : Nat) (side : Side) (hdr : RingHdr) (position : Byte) (epoch : Word16) (revision total offset : Word32)
    (data mac : List Byte) (s : State) : Result :=
  s.on dt (fun m => m.addressed hdr (fun m =>
    if (m.span side).auth = .done then m.takeEscrow side position epoch revision total offset data mac else m))

/-- PRESENCE: the epoch record of the position is updated, and its variant noted (R276, R289, R292). It counts whether sent to all
or to this position. -/
def execPresence (dt : Nat) (hdr : RingHdr) (position variant : Byte) (epoch : Word16) (s : State) : Result :=
  s.on dt (fun m => m.takeOnce hdr (fun m => (m.seeEpoch position.toNat epoch).seeVariant position variant))

/-- CHANGE: nothing is inserted until the next weft header, the form follows the spans that are broken, an anchor that waits for
its ENUM takes a full domain, and a gateway reports it (R257, R263, R283, R298). -/
def Module.takeChange (m : Module) (src cause subject : Byte) (epoch : Word16) : Module :=
  let m := if cause = 8 && m.ring.enum.isSome then
      let r := m.brokenForm
      r.1.finishEnum 64 r.2
    else m
  let m := if cause = 5 then m.seeEpoch subject.toNat epoch else m
  let m := { m with ring := { m.ring with quiet := true } }
  let m := if cause = 1 || cause = 2 then m.noteBreak (breakKey src.toNat subject.toNat) (cause == 1) else m
  m.ringChange cause.toNat subject.toNat 0xFF epoch
/-- CHANGE (R283). -/
def execChange (dt : Nat) (hdr : RingHdr) (cause subject : Byte) (epoch : Word16) (s : State) : Result :=
  s.on dt (fun m => m.takeOnce hdr (fun m => if m.ignores hdr.src then m else m.takeChange hdr.src cause subject epoch))

/-- EVENT: an enumerated gateway places it on till 0x0001 with RELAYED set, the producer's fields kept (R299). -/
def execEvent (dt : Nat) (hdr : RingHdr) (r : Reply) (s : State) : Result :=
  s.on dt (fun m => m.takeOnce hdr (fun m =>
    if m.gateway && !m.ignores hdr.src then m.deliver 1 { r with rflags := r.rflags ||| rfRelayed } m.vault.hostEpoch else m))

end Sys2Proof.Machine
end

