-- ==== Sys2Proof/Machine/Package.lean ====
section
/-! DEFINITION. Manifests, transfer blocks and the flash banks: layouts, checks, writing and assembly (sections 2 to 5 of
spec/13). -/

namespace Sys2Proof.Machine
open Sys2Proof

/-! ### Flash banks (R363, R364) -/

/-- A byte of a bank's parts area: the factory release where it has never been erased (R28, R363). -/
def Bank.read (b : Bank) (o : Nat) : Byte :=
  if b.factory && !Tbl.get false b.wiped (o / 65536) then Config.factoryFlash (0x50000 + o) else Tbl.get 0xFF b.parts o
/-- `n` bytes of the parts area from `o` on. -/
def Bank.readRange (b : Bank) (o n : Nat) : List Byte := (List.range n).map (fun i => b.read (o + i))
/-- A bank's manifest: of the factory release its content is a free value (log 8). -/
def Bank.manifestBytes (b : Bank) : List Byte :=
  if b.factory && b.manifest.isEmpty then (List.range 736).map Config.factoryFlash else b.manifest
/-- A 64 KiB sector is erased before this session first writes to it (R364). -/
def Bank.erase (b : Bank) (sector : Nat) : Bank :=
  if Tbl.get false b.erased sector then b
  else
    { b with
      erased := Tbl.set false b.erased sector true, wiped := Tbl.set false b.wiped sector true
      parts := Tbl.keep b.parts (fun o => o / 65536 != sector) }
/-- Bytes are written from `o` on, their sectors erased first (R364). -/
def Bank.write (b : Bank) (o : Nat) (bs : List Byte) : Bank :=
  let first := o / 65536
  let last := (o + bs.length - 1) / 65536
  let b := if bs.isEmpty then b else (List.range (last + 1 - first)).foldl (fun b i => b.erase (first + i)) b
  { b with parts := Tbl.setRange (0xFF : Byte) b.parts o bs }
/-- Bytes of the parts area (R363). -/
def partsSize : Nat := 32448 * 1024

/-! ### Manifests (R355-R357) -/

/-- A part entry (R356). -/
structure PartEntry where
  ty     : Nat
  form   : Nat
  offset : Nat
  length : Nat
  first  : Nat
  count  : Nat
  target : List Byte
  base   : List Byte
  deriving DecidableEq, Repr

/-- Part entry `n` of a manifest (R356). -/
def partAt (m : List Byte) (n : Nat) : PartEntry :=
  let o := 0x20 + 96 * n
  { ty := fieldAt m o 1, form := fieldAt m (o + 1) 1, offset := fieldAt m (o + 4) 4, length := fieldAt m (o + 8) 4,
    first := fieldAt m (o + 12) 4, count := fieldAt m (o + 16) 4, target := (m.drop (o + 0x20)).take 32,
    base := (m.drop (o + 0x40)).take 32 }
/-- The six part entries. -/
def partsOf (m : List Byte) : List PartEntry := (List.range 6).map (partAt m)
/-- The part of a TYPE. -/
def partOf (m : List Byte) (ty : Nat) : Option PartEntry := (partsOf m).find? (fun e => e.ty == ty)
/-- COSIGNED. -/
def cosigned (m : List Byte) : Bool := fieldAt m 3 1 % 2 == 1
/-- SEC_VERSION. -/
def secOf (m : List Byte) : Nat := fieldAt m 4 2
/-- BLOCKS_TOTAL. -/
def blocksTotal (m : List Byte) : Nat := fieldAt m 0x10 4
/-- The bytes that the signatures cover (R355). -/
def signedPart (m : List Byte) : List Byte := m.take 608
/-- The manifest tag (R356). -/
def manifestTag (m : List Byte) : List Byte := (sha256 (signedPart m)).take 8

/-- Transfer blocks of the part entries before entry `n`. -/
def blocksBefore (m : List Byte) (n : Nat) : Nat := (((partsOf m).take n).map (fun e => e.count)).sum

/-- The fields of part entry `n`, each with its offset in the manifest and whether it is right: the six types occur once each, and
the block ranges lie one after another from index 0 (R356). -/
def partFields (m : List Byte) (n : Nat) : List (Nat × Bool) :=
  let o := 0x20 + 96 * n
  let e := partAt m n
  [(o, decide (1 ≤ e.ty) && decide (e.ty ≤ 6) && !((partsOf m).take n).any (fun x => x.ty == e.ty)),
   (o + 1, decide (e.form ≤ 2)), (o + 4, e.offset % 4096 == 0), (o + 8, decide (e.offset + e.length ≤ partsSize)),
   (o + 0xC, e.count == 0 || e.first == blocksBefore m n), (o + 0x10, e.form != 2 || e.count == 0),
   (o + 0x40, e.form != 0 || e.base == rsv 32)]

/-- The manifest's length is the one it gives (R355). -/
def manifestSized (m : List Byte) : Bool := m.length == (if cosigned m then 736 else 672)
/-- The fields of a manifest in the order of their offsets, each with whether it is right (R355, R356). -/
def manifestFields (m : List Byte) : List (Nat × Bool) :=
  [(0, fieldAt m 0 2 == 1), (2, fieldAt m 2 1 == 6), (0x10, blocksTotal m == blocksBefore m 6), (0x14, fieldAt m 0x14 4 == 608)] ++
    ((List.range 6).map (partFields m)).flatten
/-- The offset of the first wrong field of a manifest. -/
def manifestWrong (m : List Byte) : Option Nat := ((manifestFields m).find? (fun f => !f.2)).map (fun f => f.1)
/-- The layout of R355 and R356. -/
def manifestLayout (m : List Byte) : Bool := manifestSized m && (manifestWrong m).isNone

/-- The running part of a TYPE: where the ACTIVE bank holds it (R360). -/
def Module.runningPart (m : Module) (ty : Nat) : Nat × Nat :=
  match partOf m.upd.active.manifestBytes ty with | some e => (e.offset, e.length) | none => (0, 0)
/-- The bytes of a running part from an offset on. -/
def Module.runningBytes (m : Module) (ty o n : Nat) : List Byte := m.upd.active.readRange ((m.runningPart ty).1 + o) n
/-- SHA-256 of a running part. -/
def Module.runningDigest (m : Module) (ty : Nat) : List Byte := sha256 (m.runningBytes ty 0 (m.runningPart ty).2)

/-- VENDOR_SIG, and CUSTOMER_SIG where the slot holds a key, verify (R357 steps 2 and 3, R410, R411). -/
def Module.signaturesOk (m : Module) (man : List Byte) : Bool :=
  Config.ed25519Verify Config.vendorKey (signedPart man) ((man.drop 0x260).take 64) &&
    (match m.vault.cosign with
     | none => true
     | some k => cosigned man && Config.ed25519Verify k (signedPart man) ((man.drop 0x2A0).take 64))
/-- VARIANTS includes this variant. -/
def Module.variantIn (m : Module) (man : List Byte) : Bool :=
  fieldAt man 6 1 / 2 ^ (m.variant.code.toNat - 1) % 2 == 1

/-- Steps 2 to 7 of R357: the status at UPDATE_OPEN and the cause of the first failure. -/
def Module.manifestCause (m : Module) (man : List Byte) (clean : Bool) : Option (Word16 × Byte) :=
  if !m.signaturesOk man then some (stSignatureBad, 5)
  else if !m.variantIn man then some (stVersionRefused, 2)
  else if secOf man < m.upd.fuses then some (stVersionRefused, 1)
  else if !clean && fieldAt man 0xD 1 != m.upd.schema.toNat / 256 then some (stVersionRefused, 3)
  else if (partsOf man).any (fun e => e.form != 0 && e.base != m.runningDigest e.ty) then some (stVersionRefused, 4)
  else none

/-! ### Transfer blocks (R359-R361) -/

/-- BLOCK_INDEX of a block. -/
def blockIndex (b : Block) : Nat := fieldAt b 4 4
/-- TYPE of a block. -/
def blockType (b : Block) : Nat := fieldAt b 2 1
/-- The output range of a block: OUT_OFFSET and OUT_LEN. -/
def blockRange (b : Block) : Nat × Nat := (fieldAt b 8 4, fieldAt b 0x10 4)
/-- DATA of a block. -/
def blockData (b : Block) : List Byte := (b.drop 0x1C).take (fieldAt b 0xC 2)

/-- What delta instructions produce: `read` gives bytes of the running part, `len` its length; none where they do not decode
(R360, R361). -/
def deltaOut (read : Nat → Nat → List Byte) (len : Nat) : Nat → List Byte → Option (List Byte)
  | _, [] => some []
  | 0, _ => none
  | fuel + 1, op :: rest =>
    match op.toNat with
    | 1 =>
      let o := fieldAt rest 0 4
      let n := fieldAt rest 4 4
      if rest.length < 8 || len < o + n then none
      else (deltaOut read len fuel (rest.drop 8)).map (fun t => read o n ++ t)
    | 2 =>
      let n := fieldAt rest 0 2
      if rest.length < 2 + n || n = 0 || 4090 < n then none
      else (deltaOut read len fuel (rest.drop (2 + n))).map (fun t => (rest.drop 2).take n ++ t)
    | 3 =>
      let n := fieldAt rest 1 4
      if rest.length < 5 then none
      else (deltaOut read len fuel (rest.drop 5)).map (fun t => List.replicate n (rest.getD 0 0) ++ t)
    | _ => none

/-- The bytes a block produces, none where its instructions do not decode. -/
def Module.blockOut (m : Module) (b : Block) : Option (List Byte) :=
  if fieldAt b 3 1 = 0 then some (blockData b)
  else
    let ty := blockType b
    deltaOut (m.runningBytes ty) (m.runningPart ty).2 (blockData b).length (blockData b)

/-- Two ranges overlap. -/
def overlap (a b : Nat × Nat) : Bool := decide (a.1 < b.1 + b.2) && decide (b.1 < a.1 + a.2)

/-- A block that passes every check of R361: its part and its output. -/
def Module.checkBlock (m : Module) (b : Block) : Option (PartEntry × List Byte) :=
  let esc := m.upd.escrow
  let dataLen := fieldAt b 0xC 2
  let index := blockIndex b
  let form := fieldAt b 3 1
  let range := blockRange b
  if b.length ≠ 32 + dataLen || dataLen = 0 || 4096 < dataLen || fieldAt b 0 2 ≠ 1 ||
      fieldAt b (0x1C + dataLen) 4 ≠ (crc32c (b.take (0x1C + dataLen))).toNat ||
      (b.drop 0x14).take 8 ≠ manifestTag esc.manifest then none
  else
    match partOf esc.manifest (blockType b) with
    | none => none
    | some e =>
      let k := index - e.first
      let shape := if form = 0 then
          range.1 == 4096 * k && range.2 == dataLen && (dataLen == 4096 || index + 1 == e.first + e.count)
        else true
      if e.form ≠ form || index < e.first || e.first + e.count ≤ index || !shape || e.length < range.1 + range.2 ||
          esc.held.any (fun h => h.1 != index && (match h.2 with
            | some o => blockType o == blockType b && overlap (blockRange o) range
            | none => false)) then none
      else
        match m.blockOut b with
        | some out => if out.length = range.2 then some (e, out) else none
        | none => none

/-- The block is held already. -/
def Module.holdsBlock (m : Module) (index : Nat) : Bool := (Tbl.get none m.upd.escrow.held index).isSome
/-- Blocks held. -/
def Module.blocksHeld (m : Module) : Nat := m.upd.escrow.held.length

/-- The P3 cost of a block: 10, and for a delta 4 for each 4 KiB it produces (R317). -/
def blockCost (b : Block) : Nat := 10 + (if fieldAt b 3 1 = 1 then 4 * (((blockRange b).2 + 4095) / 4096) else 0)

/-- A checked block is written and marked in the held-block map (R364). -/
def Module.writeBlock (m : Module) (b : Block) (e : PartEntry) (out : List Byte) : Module :=
  let esc := m.upd.escrow.write (e.offset + (blockRange b).1) out
  { m with upd := m.upd.setEscrow { esc with held := Tbl.set none esc.held (blockIndex b) (some b) } }

/-! ### Assembly (R364, R365) -/

/-- A session's ESCROW bank begins: manifest and session written, nothing held (R364). -/
def Bank.open (b : Bank) (man : List Byte) (session : Word32) (clean : Bool) : Bank :=
  { b with manifest := man, session := session, clean := clean, held := [], settings := none, erased := [] }

/-- A part in the ESCROW bank matches its TARGET_DIGEST. -/
def Bank.partGood (b : Bank) (e : PartEntry) : Bool := sha256 (b.readRange e.offset e.length) == e.target
/-- Every part of a bank matches its manifest. -/
def Bank.allGood (b : Bank) : Bool := (partsOf b.manifestBytes).all b.partGood

/-- SAME parts are copied whole from the ACTIVE bank (R364). -/
def Module.copySame (m : Module) : Module :=
  let esc := (partsOf m.upd.escrow.manifest).foldl (fun (b : Bank) e =>
    if e.form = 2 then b.write e.offset (m.runningBytes e.ty 0 e.length) else b) m.upd.escrow
  { m with upd := m.upd.setEscrow esc }

/-- With every block held the digests decide: ASSEMBLED, or the blocks of the parts that failed are to come again (R364). -/
def Module.assemble (m : Module) : Module :=
  if m.session.phase == .receiving && m.blocksHeld == blocksTotal m.upd.escrow.manifest then
    let m := m.copySame
    let esc := m.upd.escrow
    let bad := (partsOf esc.manifest).filter (fun e => !esc.partGood e)
    if bad.isEmpty then m.setSession (fun s => { s with phase := .assembled })
    else
      let held := Tbl.keep esc.held (fun i => !bad.any (fun e => decide (e.first ≤ i) && decide (i < e.first + e.count)))
      ({ m with upd := m.upd.setEscrow { esc with held := held } }).setSession (fun s => { s with cause := 6 })
  else m

/-- A session opens here: the record, the bank, and at once ASSEMBLED where the running parts already match (R364, R365). -/
def Module.openSession (m : Module) (id : Word32) (clean : Bool) (man : List Byte) (gateway : Byte) (opener : Bool)
    (roster : List Nat) : Module :=
  let current := (partsOf man).all (fun e => m.runningDigest e.ty == e.target)
  let m := m.setSession (fun _ =>
    { Session.idle with
      id := id, phase := if current then .assembled else .receiving, clean := clean, gateway := gateway, opener := opener
      roster := roster, isCurrent := current })
  ({ m with upd := m.upd.setEscrow (m.upd.escrow.open man id clean) }).assemble

/-- The versions of a bank's images; of the factory release those of the module as delivered (R144, R355). -/
def Bank.versions (b : Bank) : Word32 × Word16 × Word16 :=
  if b.factory && b.manifest.isEmpty then (0x01000000, 0, 0x0100)
  else (BitVec.ofNat 32 (fieldAt b.manifest 8 4), BitVec.ofNat 16 (secOf b.manifest), BitVec.ofNat 16 (fieldAt b.manifest 0xC 2))

end Sys2Proof.Machine
end

