-- ==== Sys2Proof/Machine/Update.lean ====
section
/-! DEFINITION. Firmware update across a domain: the update opcodes, 0x07xx, distribution, the vote, commit, trial, confirm
and unwind (spec/13), and the cycle start, which an unwind of the gateway waits for. -/

namespace Sys2Proof.Machine
open Sys2Proof

/-! ### Opening a session (R352, R357, R367, R390) -/

/-- The module is held in the boot ROM (R50). -/
def Module.inRom (m : Module) : Bool := m.stage == .bootRom
/-- The roster of a session opened now: every enumerated position; a UM-96S is a domain of one (R7, R352). -/
def Module.newRoster (m : Module) : List Nat := if m.variant.hasRing then List.range m.ring.positions else [0]
/-- The manifest of an UPDATE_OPEN. -/
def manifestOf (p : Packet) : List Byte := p.params.drop 8

/-- The session opens at the gateway with the number drawn, and OPEN goes to every position (R357, R366, R367). -/
def Module.openAt (m : Module) (p : Packet) (id : Word32) : Module × Option Ans :=
  let man := manifestOf p
  let clean := p.field 0 1 == 1
  let rom := m.inRom
  let m := m.openSession id clean man m.positionByte true (if rom then [] else m.newRoster)
  let m := if rom then m else m.ctlAll 1 (u8 (p.field 0 1) ++ rsv 3 ++ u32 man.length ++ man)
  (m, some (.ok (u32 id.toNat)))

/-- Steps 2 to 8 of R357 at UPDATE_OPEN, in the boot ROM with R390: the session number is drawn, waited for behind a reseed,
or cannot be drawn (R401, R402). -/
def Module.openHere (m : Module) (p : Packet) : Module × Option Ans :=
  let man := manifestOf p
  match m.manifestCause man (p.field 0 1 == 1) with
  | some (st, cause) =>
    (m, some ⟨0, st, if st = stVersionRefused then BitVec.ofNat 16 cause.toNat else 0, []⟩)
  | none =>
    if m.inRom then
      if (partsOf man).any (fun e => e.form != 0) then (m, some ⟨0, stVersionRefused, 4, []⟩)
      else ({ m with free := m.free + 1 }).openAt p (sessionNumber (Config.randomBytes m.free 4))
    else if m.entropyReady then (m.draw 4).1.openAt p (sessionNumber (m.draw 4).2)
    else if m.ent.healthy then (m.awaitEntropy 2 4 (some (0x0701, p)), none)
    else (m, some ⟨0, stEntropyFault, 3, []⟩)

/-- UPDATE_OPEN. -/
def opUpdateOpen : Op :=
  { code := 0x0701,
    judge := fun m p =>
      firstOf [lengthAtLeast p 8, lengthIs p (8 + p.field 4 4),
        if p.target = 0xFF && (m.gateway || m.inRom) then none else badAt 8,
        need (decide (p.field 0 1 ≤ 1)) 0,
        need (manifestSized (manifestOf p)) 4,
        (match manifestWrong (manifestOf p) with | some o => badAt (0x28 + o) | none => none),
        busyUnless (!m.session.phase.isOpen)],
    cost := fun m _ => if m.inRom then none else some (500, []),
    act := fun m p _ => m.openHere p }
/-- UPDATE_OPEN (R153, R177, R352, R357): the size is judged before the other fields, TARGET among them (log 84). -/
def execUpdateOpen (dt : Nat) (p : Packet) (s : State) : Result := s.serve dt opUpdateOpen p

/-- An UPDATE_CTL frame is acted on by `f`: one to all once, one to this position; never from a keyless neighbour (R269, R276,
R289, R366). -/
def Module.onCtl (m : Module) (hdr : RingHdr) (f : Module → Module) : Module :=
  let g := fun (m : Module) => if m.ignores hdr.src then m else f m
  if hdr.dst = 0xFE then m.takeOnce hdr g else m.addressed hdr g

/-- OPEN at a roster module: the manifest is checked, and a module that refuses it or holds another open session takes no
further part but a no vote (R352, R357, R367). -/
def Module.takeOpen (m : Module) (u : UpdHdr) (clean : Bool) (man : List Byte) : Module :=
  let s := m.session
  if s.id = u.session then m
  else if s.phase.isOpen then m.setSession (fun s => { s with busyFor := some u.session })
  else
    let refuse := fun (cause : Byte) => m.setSession (fun _ =>
      { Session.idle with id := u.session, phase := .aborted, clean := clean, gateway := u.gateway, cause := cause })
    if !manifestLayout man then refuse 0
    else match m.manifestCause man clean with
      | some (_, cause) => refuse cause
      | none => m.openSession u.session clean man u.gateway false []
/-- OPEN (R367). -/
def execUpdOpen (dt : Nat) (hdr : RingHdr) (u : UpdHdr) (clean : Bool) (manifest : List Byte) (s : State) : Result :=
  s.on dt (fun m => m.onCtl hdr (fun m => m.takeOpen u clean manifest))

/-! ### Blocks (R361, R364, R368, R369) -/

/-- A block goes on to each neighbour but the one it came from (R368). -/
def Module.passBlock (m : Module) (b : Block) (from_ : Option Side) : Module :=
  [Side.east, Side.west].foldl (fun m side =>
    let dst := m.peerPosition side
    if m.ringUp && from_ != some side && !(m.span side).broken && dst != 0xFF then
      m.ringSend 4 dst (m.span side).epoch 0 b
    else m) m

/-- A new block that has passed its check is written, forwarded and counted; the last one decides the assembly (R361, R364,
R368). -/
def Module.newBlock (m : Module) (b : Block) (e : PartEntry) (out : List Byte) (from_ : Option Side) : Module :=
  let m := (m.writeBlock b e out).passBlock b from_
  (m.setSession (fun s =>
    { s with stall := 0, lastFrom := match from_ with | some x => some x | none => s.lastFrom })).assemble

/-- The transfer block of a BLOCK_PUT. -/
def blockOf (p : Packet) : Block := p.params.drop 16

/-- BLOCK_PUT. -/
def opBlockPut : Op :=
  { code := 0x0702,
    judge := fun m p =>
      firstOf [lengthAtLeast p 30, need (decide (1 ≤ p.field 28 2) && decide (p.field 28 2 ≤ 4096)) 28,
        lengthIs p (48 + p.field 28 2),
        if p.target = 0xFF then none else badAt 8,
        need (m.session.phase == .receiving && m.session.id.toNat == p.field 0 4) 0,
        need (p.field 4 4 == blockIndex (blockOf p)) 4],
    cost := fun m p => if m.inRom then none else some (blockCost (blockOf p), []),
    act := fun m p _ =>
      let b := blockOf p
      match m.checkBlock b with
      | none => (m, some ⟨0, stBlockBad, 0, []⟩)
      | some (e, out) =>
        let m := if m.holdsBlock (blockIndex b) then m else m.newBlock b e out none
        (m, some (.ok (u32 m.blocksHeld))) }
/-- BLOCK_PUT (R153, R177, R359, R361, R368): LENGTH is 16 plus the length that DATA_LEN gives the block. -/
def execBlockPut (dt : Nat) (p : Packet) (s : State) : Result := s.serve dt opBlockPut p

/-- BLOCK from a neighbour: before its OPEN, not admitted, failing its check or already held, it is discarded; its sender is the
one asked for it again (R41, R319, R361, R368, R369). -/
def Module.takeBlockFrame (m : Module) (side : Side) (b : Block) : Module :=
  if m.session.phase == .receiving then
    let m := m.setSession (fun s => { s with lastFrom := some side })
    if m.admits (blockCost b) [] then
      match m.checkBlock b with
      | some (e, out) => if m.holdsBlock (blockIndex b) then m else m.newBlock b e out (some side)
      | none => m
    else m
  else m
/-- BLOCK (R368). -/
def execBlock (dt : Nat) (side : Side) (hdr : RingHdr) (b : Block) (s : State) : Result :=
  s.on dt (fun m => m.addressed hdr (fun m => if m.ignores hdr.src then m else m.takeBlockFrame side b))

/-- NEED: every block held in the named run goes to that neighbour, in index order (R369). -/
def Module.answerNeed (m : Module) (side : Side) (first count : Nat) : Module :=
  (m.upd.escrow.held.filter (fun h => decide (first ≤ h.1) && decide (h.1 < first + count))).foldl (fun m h =>
    match h.2 with
    | some b => m.ringSend 4 (m.peerPosition side) (m.span side).epoch 0 b
    | none => m) m
/-- NEED (R369). -/
def execNeed (dt : Nat) (side : Side) (hdr : RingHdr) (u : UpdHdr) (first count : Word32) (s : State) : Result :=
  s.on dt (fun m => m.onCtl hdr (fun m =>
    if m.session.id = u.session && m.upd.escrow.session = u.session then m.answerNeed side first.toNat count.toNat else m))

/-- The lowest run of missing blocks: FIRST and COUNT (R369). -/
def Module.missingRun (m : Module) : Nat × Nat :=
  let total := blocksTotal m.upd.escrow.manifest
  let gap := ((List.range total).dropWhile m.holdsBlock).takeWhile (fun i => !m.holdsBlock i)
  (gap.headD total, gap.length)
/-- 64 wefts without a new block: NEED goes to the neighbour last received from, the other one at the next try (R369). -/
def Module.stalled (m : Module) : Module :=
  let side := m.session.lastFrom.getD .west
  let dst := m.peerPosition side
  let run := m.missingRun
  let m := m.setSession (fun s => { s with stall := 0, lastFrom := some (otherSide side) })
  if dst = 0xFF || (m.span side).broken then m else m.sendCtl dst 2 0 false (u32 run.1 ++ u32 run.2)
/-- BLOCK_STALL (R369). -/
def execBlockStall (dt : Nat) (s : State) : Result :=
  s.on dt (fun m => if m.ringUp && m.session.phase == .receiving && decide (64 ≤ m.session.stall) then m.stalled else m)

/-! ### UPDATE_STATUS (R176, R358, R388, R390) -/

/-- Roster positions that have reported success for the current step at the gateway (R388). -/
def Session.reports (s : Session) : Nat :=
  match s.phase with
  | .trial => (s.trials.filter (fun t => t.2 == 0)).length
  | .confirmed => s.confirms.length
  | _ => s.unwounds.length
/-- SESSION of UPDATE_STATUS: in the boot ROM that of the ESCROW bank's images (R390). -/
def Module.statusSession (m : Module) : Word32 := if m.inRom then m.upd.escrow.session else m.session.id
/-- UPDATE_STATUS's payload and DETAIL (R176, R358, R388, R390). -/
def Module.updateStatus (m : Module) : Word16 × List Byte :=
  let s := m.session
  let esc := m.upd.escrow
  let tail := fun (id : Word32) (phase settings held total : Nat) =>
    u32 id.toNat ++ u8 phase ++ u8 settings ++ rsv 2 ++ u32 held ++ u32 total
  if m.inRom then
    let empty := esc.manifestBytes.isEmpty
    let phase := if empty then Phase.idle else if esc.allGood then .assembled else .receiving
    (BitVec.ofNat 16 s.cause.toNat,
     tail esc.session phase.code (bit esc.clean) m.blocksHeld (if empty then 0 else blocksTotal esc.manifestBytes))
  else if s.opener && (s.phase == .trial || s.phase == .confirmed || s.phase == .unwound) then
    let cause := match s.failure with | some f => f.2 | none => s.cause
    (BitVec.ofNat 16 cause.toNat, tail s.id s.phase.code (bit s.clean) s.reports s.roster.length)
  else
    let held := if esc.session = s.id && s.id ≠ 0 then m.blocksHeld else 0
    let total := if esc.session = s.id && s.id ≠ 0 then blocksTotal esc.manifest else 0
    (BitVec.ofNat 16 s.cause.toNat, tail s.id s.phase.code (bit s.clean) held total)

/-- UPDATE_STATUS. -/
def opUpdateStatus : Op :=
  { code := 0x0703, bcast := true,
    judge := fun m p =>
      firstOf [lengthIs p 4, need (p.field 0 4 == 0 || p.field 0 4 == m.statusSession.toNat) 0],
    act := fun m _ _ => (m, some ⟨0, stOk, m.updateStatus.1, m.updateStatus.2⟩) }
/-- UPDATE_STATUS (R176, R388). -/
def execUpdateStatus (dt : Nat) (p : Packet) (s : State) : Result := s.serve dt opUpdateStatus p

/-! ### The vote (R375-R378) -/

/-- PREPARE, COMMIT, CONFIRM and UNWIND act only at the gateway that opened the session, with TARGET 0xFF (R177). -/
def Module.atOpener (m : Module) (p : Packet) : Deny := if p.target = 0xFF && m.session.opener then none else badAt 8
/-- The session named is the one held, in a phase that allows the opcode (R177). -/
def Module.inPhase (m : Module) (p : Packet) (ok : Bool) : Deny := need (ok && m.session.id.toNat == p.field 0 4) 0

/-- The vote's close (R375). -/
def Module.voteInstant (m : Module) (p : Packet) : Int :=
  rebuild m.clk.cycle.toNat (BitVec.ofNat 32 (p.field 8 4)) * 65536 + p.field 4 2

/-- An UPDATE_CTL frame to the gateway that a frame named, in its session (R366). -/
def Module.replyCtl (m : Module) (u : UpdHdr) (sub : Nat) (cause : Byte) (body : List Byte) : Module :=
  m.ringSend 5 u.gateway (Tbl.get 0 m.ring.epochs u.gateway.toNat) 0 (ctlPayload sub cause u.gateway false u.session body)

/-- The first cause for which a module votes no in the session it holds, 0 for yes (R376). -/
def Module.voteCause (m : Module) : Byte :=
  let s := m.session
  if s.phase != .assembled then (if s.phase == .aborted && s.cause != 0 then s.cause else 7)
  else if !(m.ringReady && m.running) then 7
  else if !m.prov.learns.isEmpty || m.staging.isSome then 9
  else if !m.admits 150000 [] then 8
  else 0
/-- A yes vote writes the settings area: the configuration as migrated, or every item at its default (R370, R376). -/
def Module.writeSettings (m : Module) : Module :=
  let i := if m.session.clean then Items.default else m.items
  { m with upd := m.upd.setEscrow { m.upd.escrow with settings := some i } }

/-- A roster module votes: it enters PREPARED before a yes goes out (R376). -/
def Module.castVote (m : Module) (u : UpdHdr) : Module :=
  let s := m.session
  if s.id = u.session then
    let c := m.voteCause
    if c = 0 then
      (m.writeSettings.setSession (fun s => { s with phase := .prepared })).replyCtl u 4 0 (u8 1 ++ rsv 3)
    else m.replyCtl u 4 c (u8 0 ++ rsv 3)
  else m.replyCtl u 4 (if s.busyFor = some u.session then 0x0F else 7) (u8 0 ++ rsv 3)
/-- VOTE_CALL (R376); the session's own gateway has judged its vote at PREPARE. -/
def execVoteCall (dt : Nat) (hdr : RingHdr) (u : UpdHdr) (_angle : Angle) (_cycle : Cycle) (s : State) : Result :=
  s.on dt (fun m => m.onCtl hdr (fun m => if m.session.opener && m.session.id = u.session then m else m.castVote u))

/-- Every roster position has a yes vote. -/
def Session.allYes (s : Session) : Bool := s.roster.all (fun q => s.votes.any (fun v => v.1 == q && v.2.1))
/-- A vote is counted by the vote's close; with every yes the gateway is PREPARED and PREPARE ends (R376, R377). -/
def Module.countVote (m : Module) (src : Nat) (yes : Bool) (cause : Byte) : Module :=
  let s := m.session
  match s.voteClose with
  | none => m
  | some c =>
    if s.opener && s.roster.contains src && !s.votes.any (fun v => v.1 == src) && m.clk.onTime c then
      let m := m.setSession (fun s => { s with votes := s.votes ++ [(src, yes, cause)] })
      if m.session.allYes then
        (m.setSession (fun s => { s with phase := .prepared, voteClose := none })).endFinals 0x0704 stOk 0
      else m
    else m
/-- VOTE (R377). -/
def execVote (dt : Nat) (hdr : RingHdr) (u : UpdHdr) (yes : Bool) (s : State) : Result :=
  s.on dt (fun m => m.onCtl hdr (fun m => if m.session.id = u.session then m.countVote hdr.src.toNat yes u.cause else m))

/-- PREPARE. -/
def opPrepare : Op :=
  { code := 0x0704, accepts := true,
    judge := fun m p =>
      let d := m.voteInstant p - m.au
      firstOf [lengthIs p 12, m.atOpener p, m.inPhase p (m.session.phase == .assembled),
        need (decide (64 * 65536 ≤ d) && decide (d ≤ 4096 * 65536)) 8,
        busyUnless m.session.voteClose.isNone],
    cost := fun _ _ => some (150000, []),
    act := fun m p _ =>
      let c := m.voteInstant p
      let m := m.setSession (fun s =>
        { s with voteClose := some c.toNat, votes := [], failure := none, finals := s.finals ++ [m.finalRef 0x0704 p] })
      (m.ctlAll 3 (u16 (c.toNat % 65536) ++ rsv 2 ++ u40 (c.toNat / 65536) ++ rsv 3), some .accepted),
    after := fun m _ =>
      let c := m.voteCause
      (if c = 0 then m.writeSettings else m).countVote m.ownPos (c == 0) c }
/-- PREPARE (R375, R376): the gateway judges its own vote like any other. -/
def execPrepare (dt : Nat) (p : Packet) (s : State) : Result := s.serve dt opPrepare p

/-- The lowest roster position without a yes vote, with its cause, NO_VOTE where none was counted (R377). -/
def Session.lowestNo (s : Session) : Option (Nat × Byte) :=
  (s.roster.find? (fun q => !s.votes.any (fun v => v.1 == q && v.2.1))).map (fun q =>
    (q, match s.votes.find? (fun v => v.1 == q) with | some v => v.2.2 | none => 0x0A))
/-- VOTE_CLOSE (R97, R377). -/
def execVoteClose (dt : Nat) (s : State) : Result :=
  s.on dt (fun m =>
    match m.session.voteClose, m.session.lowestNo with
    | some c, some (q, cause) => if m.coresUp && m.session.opener && !m.clk.onTime c then m.releaseVote q cause else m
    | _, _ => m)

/-- RELEASE: a PREPARED module returns to ASSEMBLED (R378). -/
def execVoteRelease (dt : Nat) (hdr : RingHdr) (u : UpdHdr) (s : State) : Result :=
  s.on dt (fun m => m.onCtl hdr (fun m =>
    if m.session.id = u.session && !m.session.opener && m.session.phase == .prepared then
      m.setSession (fun s => { s with phase := .assembled })
    else m))

/-! ### Reports to and at the gateway (R383, R385-R387) -/

/-- Send a COMMIT, CONFIRM or UNWIND again to the roster positions of a list (R382, R386, R387). -/
def Module.sendEach (m : Module) (l : List Nat) (sub : Nat) (body : List Byte) : Module :=
  l.foldl (fun m q => if q = m.ownPos then m else m.sendCtl (BitVec.ofNat 8 q) sub 0 false body) m

/-- The roster positions that have passed their trial. -/
def Session.passed (s : Session) (q : Nat) : Bool := s.trials.any (fun t => t.1 == q && t.2 == 0)
/-- Every roster position has passed its trial (R386). -/
def Session.allPassed (s : Session) : Bool := s.roster.all s.passed
/-- Roster positions that have not reported CONFIRMED. -/
def Session.unconfirmed (s : Session) : List Nat := s.roster.filter (fun q => !s.confirms.any (fun c => c.1 == q))
/-- Roster positions that have not reported UNWOUND. -/
def Session.notUnwound (s : Session) : List Nat := s.roster.filter (fun q => !s.unwounds.contains q)
/-- The lowest position whose trial failed, or, at the deadline, that did not pass it (R385). -/
def Session.lowestFailed (s : Session) (deadline : Bool) : Option (Nat × Byte) :=
  (s.roster.find? (fun q => s.trials.any (fun t => t.1 == q && t.2 != 0) || (deadline && !s.passed q))).map (fun q =>
    (q, match s.trials.find? (fun t => t.1 == q) with | some t => t.2 | none => 0x0D))

/-- Once every roster position runs the old firmware, UNWIND ends with OK and COMMIT with DOMAIN_ABORT naming the position
that failed (R176, R177, R385, R387). -/
def Module.settleUnwind (m : Module) : Module :=
  let s := m.session
  if s.opener && s.phase == .unwound && s.notUnwound.isEmpty then
    let d := match s.failure with | some f => f.1 | none => 0
    (m.endFinals 0x0707 stOk 0).endFinals 0x0705 stDomainAbort (BitVec.ofNat 16 d)
  else m
/-- A position is noted as UNWOUND. -/
def Module.noteUnwound (m : Module) (q : Nat) : Module :=
  (m.setSession (fun s => { s with unwounds := if s.unwounds.contains q then s.unwounds else s.unwounds ++ [q] })).settleUnwind

/-- UNWIND begins: it goes to every position, and the gateway's own follows at an angle 0 (R385, R387). -/
def Module.beginUnwind (m : Module) : Module :=
  if m.session.unwindDue then m else (m.setSession (fun s => { s with unwindDue := true })).ctlAll 0x0A []

/-- This module unwinds: a bank it runs on trial goes back, and a module that has committed resets; every other discards its
state and is UNWOUND at once (R387). -/
def Module.unwindHere (m : Module) : Module :=
  let s := m.session
  let resets := (s.phase == .committed || s.phase == .trial) && !s.isCurrent
  let m := if m.upd.select = 0 then m
    else { m with upd := { m.upd with swapped := !m.upd.swapped, select := 0, bootCount := 0 } }
  let m := m.setSession (fun s =>
    { s with phase := .unwound, commitAt := none, voteClose := none, confirmBy := none, unwindDue := resets && !s.opener })
  if resets then { m with resetDue := some .unwind, prov := { m.prov with coreFb := true } }
  else if s.opener then m.noteUnwound m.ownPos
  else m.ctlGateway 0x0B 0 []

/-- The gateway judges what the trials tell: any failure begins UNWIND, and every pass ends COMMIT (R176, R385). -/
def Module.judgeTrials (m : Module) (deadline : Bool) : Module :=
  let s := m.session
  if s.opener && !s.confirmSent && !s.unwindDue && (s.phase == .committed || s.phase == .trial) then
    match s.lowestFailed deadline with
    | some f => (m.setSession (fun s => { s with failure := some f })).beginUnwind
    | none => if s.allPassed then m.endFinals 0x0705 stOk 0 else m
  else m
/-- A trial report is noted at the gateway. -/
def Module.noteTrial (m : Module) (q : Nat) (cause : Byte) : Module :=
  (m.setSession (fun s =>
    { s with trials := (s.trials.filter (fun t => t.1 != q)) ++ [(q, cause)] })).judgeTrials false

/-- This module's own TRIAL report: to the gateway, or noted here where this is the gateway (R366, R383). -/
def Module.reportTrial (m : Module) (cause : Byte) : Module :=
  let s := m.session
  if s.opener then m.noteTrial m.ownPos cause
  else m.ctlGateway 7 cause (u40 ((s.commitCycle.getD 0).toNat) ++ rsv 3)

/-! ### Commit and trial (R380-R385) -/

/-- COMMIT_CYCLE as rebuilt (R380). -/
def Module.commitCycleOf (m : Module) (p : Packet) : Int := rebuild m.clk.cycle.toNat (BitVec.ofNat 32 (p.field 4 4))
/-- The body of a COMMIT frame (R366). -/
def commitBody (c : Cycle) : List Byte := u40 c.toNat ++ rsv 3

/-- COMMIT. -/
def opCommit : Op :=
  { code := 0x0705, accepts := true,
    judge := fun m p =>
      let d := m.commitCycleOf p - m.clk.cycle.toNat
      firstOf [lengthIs p 8, m.atOpener p, m.inPhase p (m.session.phase == .prepared),
        need (decide (64 ≤ d) && decide (d ≤ 4096)) 4],
    act := fun m p _ =>
      let c := m.commitCycleOf p
      let cycle := BitVec.ofInt 40 c
      let m := m.setSession (fun s =>
        { s with
          phase := .committed, commitCycle := some cycle, commitAt := some (c.toNat * 65536), late := false, trials := []
          confirmSent := false, failure := none, finals := s.finals ++ [m.finalRef 0x0705 p] })
      (m.ctlAll 6 (commitBody cycle), some .accepted) }
/-- COMMIT (R380). -/
def execCommit (dt : Nat) (p : Packet) (s : State) : Result := s.serve dt opCommit p

/-- COMMIT at a roster module: it commits at the instant named, or at the next angle 0 when that has passed; a module that is
not PREPARED reports NOT_PREPARED (R381, R382). -/
def Module.takeCommit (m : Module) (u : UpdHdr) (cycle : Cycle) : Module :=
  let s := m.session
  let same := s.id == u.session
  if same && s.phase == .prepared then
    let late := !m.clk.onTime (cycle.toNat * 65536)
    m.setSession (fun s =>
      { s with
        phase := .committed, commitCycle := some cycle, late := late
        commitAt := some (if late then (m.clk.cycle.toNat + 1) * 65536 else cycle.toNat * 65536) })
  else if same && (s.phase == .committed || s.phase == .trial || s.phase == .confirmed || s.phase == .unwound) then m
  else m.replyCtl u 7 0x0E (u40 0 ++ rsv 3)
/-- UPDATE_CTL_COMMIT (R381, R382). -/
def execUpdateCtlCommit (dt : Nat) (hdr : RingHdr) (u : UpdHdr) (cycle : Cycle) (s : State) : Result :=
  s.on dt (fun m => m.onCtl hdr (fun m =>
    if m.session.opener && m.session.id = u.session then m else m.takeCommit u cycle))

/-- The commit instant: the module fallback is committed, the banks exchange roles with TRIAL_PENDING, and a warm reset
follows; a CURRENT module only reports (R365, R381). -/
def Module.commitNow (m : Module) (c : Nat) : Module :=
  let s := m.session
  let slices := (List.range m.variant.slices).filter (fun n => (m.slice n).loaded)
  let m := m.setSession (fun s =>
    { s with
      commitAt := none, before := slices
      commitCycle := if s.opener then s.commitCycle else some (BitVec.ofNat 40 (c / 65536))
      phase := if s.isCurrent then .trial else s.phase })
  if s.isCurrent then m.reportTrial 0
  else
    { m with
      prov := { m.prov with coreFb := true }
      upd := { m.upd with swapped := !m.upd.swapped, select := 1, bootCount := 0 }
      resetDue := some .trial }
/-- COMMIT_INSTANT (R381). -/
def execCommitInstant (dt : Nat) (s : State) : Result :=
  s.on dt (fun m =>
    match m.session.commitAt with
    | some c => if m.coresUp && m.session.phase == .committed && decide (c ≤ m.au) then m.commitNow c else m
    | none => m)

/-- The trial of new images: passed with stages 1 to 7, the slices and the entropy test; a slice held failed is reported at
once (R383). -/
def Module.judgeTrial (m : Module) : Module :=
  let s := m.session
  if s.before.any (fun n => (m.slice n).failed) then
    if s.cause = 0x0C then m else (m.setSession (fun s => { s with cause := 0x0C })).reportTrial 0x0C
  else if s.before.all (fun n => (m.slice n).loaded) && m.ent.healthy then
    (({ m with upd := { m.upd with select := 2 } }).setSession (fun s => { s with phase := .trial })).reportTrial 0
  else m
/-- TRIAL_PASS (R383). -/
def execTrialPass (dt : Nat) (s : State) : Result :=
  s.on dt (fun m =>
    if m.session.phase == .committed && m.upd.select == 1 && m.ringReady then m.judgeTrial else m)

/-- The trial deadline, in au (R385). -/
def Session.trialBy (s : Session) : Option Nat := s.commitCycle.map (fun c => (c.toNat + 1500) * 65536)

/-- COMMIT goes again to each position that has sent no TRIAL, until the trial deadline (R382). -/
def Module.resendCommit (m : Module) : Module :=
  let s := m.session
  match s.commitCycle, s.trialBy with
  | some c, some d =>
    if m.clk.onTime d && !s.unwindDue then
      m.sendEach (s.roster.filter (fun q => !s.trials.any (fun t => t.1 == q))) 6 (commitBody c)
    else m
  | _, _ => m

/-- What is sent again every 64 wefts: TRIAL by a module on trial; by the gateway COMMIT, CONFIRM and UNWIND to those that
have not answered (R382, R383, R386, R387). -/
def Module.resendStep (m : Module) : Module :=
  let s := m.session
  if !s.opener then (if s.phase == .trial then m.reportTrial 0 else m)
  else if s.confirmSent then m.sendEach s.unconfirmed 8 []
  else match s.phase with
    | .trial => m.resendCommit
    | .committed => if m.upd.select = 0 then m else m.resendCommit
    | .unwound => m.sendEach s.notUnwound 0x0A []
    | _ => m
/-- TRIAL_RESEND (R382, R383, R386, R387). -/
def execTrialResend (dt : Nat) (s : State) : Result :=
  s.on dt (fun m =>
    if m.ringUp && m.ringReady && decide (64 ≤ m.upd.wefts) then
      ({ m with upd := { m.upd with wefts := 0 } }).resendStep
    else m)

/-- At the gateway of a session a roster position reports (R385-R387). -/
def Module.reportsTo (m : Module) (u : UpdHdr) (src : Byte) : Bool :=
  m.session.opener && m.session.id = u.session && m.session.roster.contains src.toNat
/-- TRIAL at the gateway (R385). -/
def execTrial (dt : Nat) (hdr : RingHdr) (u : UpdHdr) (_cycle : Cycle) (s : State) : Result :=
  s.on dt (fun m => m.onCtl hdr (fun m => if m.reportsTo u hdr.src then m.noteTrial hdr.src.toNat u.cause else m))
/-- TRIAL_DEADLINE (R97, R385). -/
def execTrialDeadline (dt : Nat) (s : State) : Result :=
  s.on dt (fun m =>
    match m.session.trialBy with
    | some d => if m.coresUp && !m.clk.onTime d then m.judgeTrials true else m
    | none => m)

/-! ### Confirm (R362, R370, R386) -/

/-- CONFIRM. -/
def opConfirm : Op :=
  { code := 0x0706, accepts := true,
    judge := fun m p =>
      let s := m.session
      firstOf [lengthIs p 4, m.atOpener p,
        m.inPhase p (s.allPassed && !s.unwindDue && (s.phase == .trial || s.phase == .confirmed) && !s.unconfirmed.isEmpty),
        busyUnless s.confirmBy.isNone],
    act := fun m p _ =>
      let again := m.session.confirmSent
      let m := m.setSession (fun s =>
        { s with confirmSent := true, confirmBy := some (m.au + 1500 * 65536), finals := s.finals ++ [m.finalRef 0x0706 p] })
      (if again then m.sendEach m.session.unconfirmed 8 [] else m.ctlAll 8 [], some .accepted) }
/-- CONFIRM (R386). -/
def execConfirm (dt : Nat) (p : Packet) (s : State) : Result := s.serve dt opConfirm p

/-- The manifest of the images that a CONFIRM makes final: those of the ACTIVE bank, or of the session's for a CURRENT
module (R365, R386). -/
def Module.sessionManifest (m : Module) : List Byte :=
  if m.session.isCurrent then m.upd.escrow.manifest else m.upd.active.manifestBytes
/-- Fuses to be burnt: up to min(SEC_VERSION, 255) (R362). -/
def Module.fuseTarget (m : Module) : Nat := min (secOf m.sessionManifest) 255

/-- A CONFIRMED report is noted; with all of them CONFIRM ends, DETAIL naming the lowest position that reported FUSE_FAIL
(R386). -/
def Module.noteConfirmed (m : Module) (q : Nat) (cause : Byte) : Module :=
  let m := m.setSession (fun s =>
    { s with confirms := (s.confirms.filter (fun c => c.1 != q)) ++ [(q, cause)] })
  let s := m.session
  if s.unconfirmed.isEmpty then
    let bad := s.roster.find? (fun q => s.confirms.any (fun c => c.1 == q && c.2 == 0x10))
    (m.setSession (fun s => { s with confirmBy := none })).endFinals 0x0706 stOk (BitVec.ofNat 16 (bad.getD 0xFFFF))
  else m
/-- This module's own CONFIRMED. -/
def Module.reportConfirmed (m : Module) : Module :=
  let c := m.session.cause
  if m.session.opener then m.noteConfirmed m.ownPos (if c = 0x10 then c else 0)
  else m.ctlGateway 9 (if c = 0x10 then c else 0) []

/-- The steps of CONFIRM at a module that has passed its trial: fuses, settings, bank-select record, CONFIRMED, and the push
to both neighbours; `readBurnt` is how many fuses read burnt, from the first, once burning has ended (R370, R386). -/
def Module.confirmHere (m : Module) (readBurnt : Nat) : Module :=
  let target := m.fuseTarget
  let fuses := max m.upd.fuses (min readBurnt target)
  let cause : Byte := if fuses < target then 0x10 else m.session.cause
  let settings := if m.session.isCurrent then none else m.upd.active.settings
  let m := { m with upd := { m.upd with fuses := fuses } }
  let m := match settings with
    | some i => m.storeItems i
    | none => { m with ring := { m.ring with pushE := true, pushW := true } }
  let m := { m with upd := { m.upd with select := 0, bootCount := 0 } }
  (m.setSession (fun s => { s with phase := .confirmed, cause := cause })).reportConfirmed
/-- UPDATE_CTL_CONFIRM (R386): at a roster module the frame, at the gateway its own part of the CONFIRM it has sent. -/
def execUpdateCtlConfirm (dt : Nat) (hdr : RingHdr) (u : UpdHdr) (readBurnt : Nat) (s : State) : Result :=
  s.on dt (fun m =>
    let f := fun (m : Module) =>
      if m.session.phase == .trial then m.confirmHere readBurnt
      else if m.session.phase == .confirmed then m.reportConfirmed
      else m
    if m.session.id = u.session then
      if m.session.opener then (if m.coresUp && m.session.confirmSent then f m else m) else m.onCtl hdr f
    else m)

/-- CONFIRMED at the gateway (R386). -/
def execConfirmed (dt : Nat) (hdr : RingHdr) (u : UpdHdr) (s : State) : Result :=
  s.on dt (fun m => m.onCtl hdr (fun m => if m.reportsTo u hdr.src then m.noteConfirmed hdr.src.toNat u.cause else m))
/-- CONFIRM_DEADLINE: CONFIRM ends with DOMAIN_ABORT naming the lowest position that did not answer (R97, R386). -/
def execConfirmDeadline (dt : Nat) (s : State) : Result :=
  s.on dt (fun m =>
    match m.session.confirmBy with
    | some d =>
      if m.coresUp && m.session.opener && !m.clk.onTime d then
        (m.setSession (fun s => { s with confirmBy := none })).endFinals 0x0706 stDomainAbort
          (BitVec.ofNat 16 (m.session.unconfirmed.headD 0))
      else m
    | none => m)

/-! ### Unwind and abort (R387, R389) -/

/-- UNWIND. -/
def opUnwind : Op :=
  { code := 0x0707, accepts := true,
    judge := fun m p =>
      let s := m.session
      firstOf [lengthIs p 4, m.atOpener p,
        m.inPhase p ((s.phase == .committed || s.phase == .trial) && !s.confirmSent)],
    act := fun m p _ =>
      let m := m.setSession (fun s => { s with finals := s.finals ++ [m.finalRef 0x0707 p] })
      (m.beginUnwind, some .accepted) }
/-- UNWIND (R387). -/
def execUnwind (dt : Nat) (p : Packet) (s : State) : Result := s.serve dt opUnwind p

/-- UPDATE_CTL_UNWIND at a roster module; one already UNWOUND answers again (R387). -/
def execUpdateCtlUnwind (dt : Nat) (hdr : RingHdr) (u : UpdHdr) (s : State) : Result :=
  s.on dt (fun m => m.onCtl hdr (fun m =>
    if m.session.id = u.session && !m.session.opener then
      match m.session.phase with
      | .idle | .confirmed => m
      | .unwound => if m.session.unwindDue then m else m.ctlGateway 0x0B 0 []
      | _ => m.unwindHere
    else m))
/-- UNWOUND at the gateway (R387). -/
def execUnwound (dt : Nat) (hdr : RingHdr) (u : UpdHdr) (s : State) : Result :=
  s.on dt (fun m => m.onCtl hdr (fun m => if m.reportsTo u hdr.src then m.noteUnwound hdr.src.toNat else m))

/-- The phases in which a session may be aborted (R389). -/
def Phase.mayAbort : Phase → Bool
  | .receiving | .assembled | .prepared => true
  | _ => false
/-- The session ends ABORTED here (R353, R389). -/
def Module.abortHere (m : Module) : Module := m.setSession (fun s => { s with phase := .aborted, voteClose := none })

/-- UPDATE_ABORT. -/
def opUpdateAbort : Op :=
  { code := 0x0708,
    judge := fun m p => firstOf [lengthIs p 4, m.inPhase p m.session.phase.mayAbort],
    act := fun m _ _ =>
      let low := match m.session.lowestNo with | some f => f.1 | none => 0
      let m := if m.session.opener && !m.inRom then m.ctlAll 0x0C [] else m
      (m.abortHere.endFinals 0x0704 stDomainAbort (BitVec.ofNat 16 low), some (.ok [])) }
/-- UPDATE_ABORT (R389): a vote still open ends with it. -/
def execUpdateAbort (dt : Nat) (p : Packet) (s : State) : Result := s.serve dt opUpdateAbort p

/-- ABORT at a roster module (R389). -/
def execUpdAbort (dt : Nat) (hdr : RingHdr) (u : UpdHdr) (s : State) : Result :=
  s.on dt (fun m => m.onCtl hdr (fun m =>
    if m.session.id = u.session && !m.session.opener && m.session.phase.mayAbort then m.abortHere else m))

/-! ### Recovery from the boot ROM (R391) -/

/-- The vault configuration's schema major differs from a manifest's. -/
def Module.majorDiffers (m : Module) (man : List Byte) : Bool :=
  m.vault.config.any (fun c => c.schema.toNat / 256 != fieldAt man 0xD 1)

/-- The configuration at its defaults, sealed as the one before it was (R391). -/
def Module.clearedConfig (m : Module) : Option StoredConfig :=
  m.vault.config.map (fun c =>
    let d : StoredConfig := { c with revision := c.revision + 1, items := Items.default }
    if m.configSealed then m.seal d else { d with sealed := .unsealed })

/-- The outcome of RECOVER_ACTIVATE (R391). -/
def Module.recover (m : Module) : Module × Option Ans :=
  let esc := m.upd.escrow
  let man := esc.manifestBytes
  if !m.signaturesOk man then (m, some ⟨0, stSignatureBad, 0, []⟩)
  else if !esc.allGood then (m, some ⟨0, stBlockBad, 0, []⟩)
  else if secOf man < m.upd.fuses then (m, some ⟨0, stVersionRefused, 1, []⟩)
  else if m.majorDiffers man && !esc.clean then (m, some ⟨0, stVersionRefused, 3, []⟩)
  else
    ({ m with
      upd := { m.upd with swapped := !m.upd.swapped, select := 0, bootCount := 0 }
      vault := { m.vault with config := if esc.clean then m.clearedConfig else m.vault.config }
      resetDue := some .hostCold }, some (.ok []))

/-- RECOVER_ACTIVATE. -/
def opRecoverActivate : Op :=
  { code := 0x0709,
    judge := fun m p => firstOf [lengthIs p 4, need (p.field 0 4 == m.statusSession.toNat) 0],
    act := fun m _ _ => m.recover,
    after := fun m _ => m.resetStep }
/-- RECOVER_ACTIVATE (R177, R391). -/
def execRecoverActivate (dt : Nat) (p : Packet) (s : State) : Result := s.serve dt opRecoverActivate p

/-! ### At ring ready after a hub reset (R379, R384, R387) -/

/-- What the gateway's session record calls for (R378, R379, R384). -/
def Module.resumeGateway (m : Module) : Module :=
  let s := m.session
  match s.phase with
  | .assembled | .prepared =>
    if s.phase == .prepared || s.voteClose.isSome then
      (m.setSession (fun s => { s with phase := .assembled, cause := 0x0B, voteClose := none, votes := [] })).ctlAll 5 []
    else m
  | .committed =>
    match s.commitAt with
    | some c =>
      if m.clk.onTime c then m
      else m.setSession (fun s => { s with commitAt := some ((m.clk.cycle.toNat + 1) * 65536), late := true })
    | none => if s.unwindDue then m.ctlAll 0x0A [] else m.resendCommit
  | .trial =>
    if s.confirmSent then m.sendEach s.unconfirmed 8 []
    else if s.unwindDue then m.ctlAll 0x0A []
    else m.resendCommit
  | .confirmed => m.sendEach s.unconfirmed 8 []
  | .unwound =>
    let m := if s.unwindDue then
        (m.setSession (fun s => { s with failure := some (m.ownPos, 0x0C) })).ctlAll 0x0A []
      else m.sendEach s.notUnwound 0x0A []
    (m.setSession (fun s => { s with unwindDue := false })).noteUnwound m.ownPos
  | _ => m

/-- A member that has gone back to the old images answers: TRIAL_FAILED where its trial boot failed, else UNWOUND (R384,
R387). -/
def Module.resumeMember (m : Module) : Module :=
  let s := m.session
  if s.phase == .unwound && s.unwindDue then
    let m := m.setSession (fun s => { s with unwindDue := false, trials := [] })
    if s.trials.isEmpty then m.ctlGateway 0x0B 0 [] else m.reportTrial 0x0C
  else m

/-- Ring ready after a hub reset. -/
def Module.resumeSession (m : Module) : Module :=
  if m.session.restarted then
    let m := m.setSession (fun s => { s with restarted := false })
    if m.session.opener then m.resumeGateway else m.resumeMember
  else m

/-! ### The cycle start (R72, R387) -/

/-- An UNWIND frame of this gateway still waits to be inserted. -/
def Module.unwindWaits (m : Module) : Bool := m.ring.txq.any (fun f => f.ty == 5 && fieldAt f.payload 0 1 == 0x0A)

/-- The angle wraps, what waits for a cycle start follows, and a gateway whose UNWIND has left unwinds itself (R71, R72,
R387). -/
def Module.cycleStart (m : Module) : Module :=
  if m.clk.wrapDue then
    let m := ({ m with clk := m.clk.wrap }).cycleBegins
    let s := m.session
    if m.coresUp && s.opener && s.unwindDue && (s.phase == .committed || s.phase == .trial) && !m.unwindWaits then
      m.unwindHere
    else m
  else m
/-- CYCLE_START (R72). -/
def execCycleStart (dt : Nat) (s : State) : Result := s.on dt (fun m => m.cycleStart)

end Sys2Proof.Machine
end

