-- ==== Sys2Proof/Machine/Start.lean ====
section
/-! DEFINITION. Start-up and the hub's resets: the stages of R47, the configuration at stage 7, and the fatal errors with
their dump and summary (spec/01, spec/02, sections 4 to 6 of spec/16). -/

namespace Sys2Proof.Machine
open Sys2Proof

/-! ### Stages 1 to 3 (R47, R50, R52, R384, R405) -/

/-- Ticks from a valid supply to the latest end of stage 1 (R47), and from there to the last HELLO in time (R471; log 86). -/
def helloTicks : Nat := 10000000 + 2000000
/-- POWER_ON: a supply becomes valid from unpowered, and every slice's HELLO is awaited (R47, R300, R301, R471). -/
def Module.powerOn (m : Module) (supply : Supply) : Module :=
  if m.stage = .unpowered then
    let mains := supply == .mains
    let m := { m with
      stage := .rails
      pow := { m.pow with mains := mains, mainsSince := m.now, backup := !mains, onBackup := !mains } }
    let m := { m with pow := { m.pow with ledger := m.ledgerFor, countFrom := m.now } }
    m.each (List.range m.variant.slices) (fun n m => m.setSlice n (fun h => { h with awaitHello := some (m.now + helloTicks) }))
  else m
/-- POWER_ON (R47). -/
def execPowerOn (dt : Nat) (supply : Supply) (s : State) : Result := s.on dt (fun m => m.powerOn supply)

/-- A bank that the boot ROM boots: SEC_VERSION at or above the floor and, for a bank that an update has written, the
signatures that its manifest calls for and the digests (R50, R362, R411). The digests as read come with the command. -/
def Module.bootable (m : Module) (digestsOk : Bool) : Bool :=
  let b := m.upd.active
  let man := b.manifest
  let signed := Config.ed25519Verify Config.vendorKey (signedPart man) ((man.drop 0x260).take 64) &&
    (!cosigned man || (match m.vault.cosign with
      | some k => Config.ed25519Verify k (signedPart man) ((man.drop 0x2A0).take 64)
      | none => true))
  digestsOk && decide (m.upd.fuses ≤ b.versions.2.1.toNat) && ((b.factory && man.isEmpty) || (signed && b.allGood))

/-- A trial boot that was cut short: the banks go back, the boot has cause UNWIND, and the session is UNWOUND with
TRIAL_FAILED to report (R384). -/
def Module.bootBack (m : Module) : Module :=
  let m := { m with
    upd := { m.upd with swapped := !m.upd.swapped, select := 0, bootCount := 0 }
    latestCause := 7, firstCause := if m.unread ≤ 1 then 7 else m.firstCause }
  m.setSession (fun s =>
    { s with phase := .unwound, cause := 0x0C, unwindDue := true, trials := s.trials ++ [(255, 0x0C)], commitAt := none })

/-- Every slice is held off: nothing that ran before goes on (R50). -/
def Module.slicesOff (m : Module) : Module := m.each (List.range m.variant.slices) (fun n m => m.sliceRestart n 3)
/-- The boot ROM reads the bank-select record, then checks the ACTIVE bank: it boots it, or stays with every channel off (R50, R384).
What answers on MAINT there carries the hub epoch of before the reset: R68 raises it at every hub reset, R47 at stage 3, which this
start never reaches (log 74). -/
def Module.boot (m : Module) (digestsOk : Bool) : Module :=
  if m.stage = .rails ∨ m.stage = .boot then
    let m := if m.upd.select = 1 then
        if m.upd.bootCount = 0 then { m with upd := { m.upd with bootCount := 1 } } else m.bootBack
      else m
    let v := m.upd.active.versions
    let m := { m with upd := { m.upd with fwVersion := v.1, secVersion := v.2.1, schema := v.2.2 } }
    if m.bootable digestsOk then { m with stage := .vault } else { m with stage := .bootRom, maint := Uart.maintReset }.slicesOff
  else m
/-- BOOT_CHECK (R50, R362, R384). -/
def execBootCheck (dt : Nat) (digestsOk : Bool) (s : State) : Result := s.on dt (fun m => m.boot digestsOk)

/-- A PENDING key becomes CURRENT and the old one PREVIOUS; a configuration that verified is sealed anew with the same
REVISION and is to be pushed (R405). -/
def Module.promoteKey (m : Module) : Module :=
  if m.vault.altPending then
    let good := m.configSealed
    let m := { m with vault := { m.vault with
      current := m.vault.alternate, alternate := m.vault.current, altPending := false } }
    if good then
      let m := { m with
        vault := { m.vault with config := m.vault.config.map m.seal }
        ring := { m.ring with pushE := true, pushW := true } }
      if m.variant.hasRing then m else m.erasePrevious
    else m
  else m

/-- The configuration of the position is loaded: its items are in force where it is valid (R47, R59, R62). -/
def Module.loadConfig (m : Module) : Module := { m with inUse := m.configSealed }

/-- The tracker's reference as the configuration names it (R83). -/
def Clock.nameRef (c : Clock) (p : Nat) : Clock :=
  if c.tracker = .free || (c.tracker = .synthetic && !c.altRef) then { c with ref := p }
  else { c with takePrimary := c.takePrimary || (decide (p ≠ c.ref) && !c.altRef) }

/-- The entropy unit enters STARTUP and its test runs, unless it is LATCHED (R393, R396). -/
def Entropy.begin (e : Entropy) (now : Nat) : Entropy :=
  if e.state = 3 then e else { e with state := 0, testing := true, failing := none, poolAt := now }

/-- A fatal error or a lockstep mismatch is in force, and only its reset is still to come (R20, R21, R444). -/
def Module.halted (m : Module) : Bool := m.prov.lockstep || m.prov.fatal

/-- Stage 3, at whose end the lanes begin to train (R47, R49, R52, R68, R342, R343, R393, R400, R405, R414). After a power-on the hub
knows no slice epoch yet. -/
def Module.vaultStage (m : Module) : Module :=
  if m.stage = .vault && m.diag.bist.isNone && !m.halted then
    let first := (m.slice 0).epoch == 0
    let base := (m.vault.checkpoint.getD 0) + 65536
    let m := { m with vault := { m.vault with
      hubEpoch := nextEpoch m.vault.hubEpoch, checkpoint := if first then some base else m.vault.checkpoint } }
    let m := (m.meterStart first).promoteKey.loadConfig
    let claim := if m.variant.hasRing then BitVec.ofNat 8 (posByte m.ownClaim) else 0
    let m := { m with
      clk := m.clk.nameRef m.effective.refPrimary
      ent := m.ent.begin m.now
      maint := Uart.maintReset
      drop := Uart.dropReset claim }.reloadAll
    let host := m.latestCause == ResetCause.hostWarm.code || m.latestCause == ResetCause.hostCold.code
    (if host then m.entropyEvent 5 0 else m).trainLanes
  else m
/-- VAULT_STAGE (R52). -/
def execVaultStage (dt : Nat) (s : State) : Result := s.on dt (fun m => m.vaultStage)

/-! ### Stage 6 (R47, R53, R54) -/

/-- Every slice's start pattern is due at the next zero crossing of its bus, and the module fallback of the reset ends there (R47,
R53, R54, R57, R64). -/
def Module.startsDue (m : Module) : Module :=
  { m with prov := { m.prov with coreFb := false } }.each (List.range m.variant.slices) (fun n m =>
    m.setSlice n (fun h => { h with startDue := true }))

/-- The UM-96S's stage 7 ends with stage 6: its own configuration decides (R49, R59). -/
def Module.aloneReady (m : Module) : Module :=
  if m.configValid then
    if m.inUse then ({ m with stage := .ready }).resumeSession else ({ m with inUse := true }).reloadAll
  else m.enterShelf

/-- Stage 6: the angle is locked and the start pattern is due; a joining module listens for weft headers from now on (R47, R53,
R260). -/
def Module.firstLamp (m : Module) : Module :=
  if m.stage = .lock && steadyTracker m.clk.tracker && !m.halted then
    let m := { m with stage := .lamps, clk := { m.clk with headerGap := 0 } }.startsDue
    if m.variant.hasRing then m else m.aloneReady
  else m
/-- FIRST_LAMP_CONTROL (R47, R53). -/
def execFirstLampControl (dt : Nat) (s : State) : Result := s.on dt (fun m => m.firstLamp)

/-! ### Stage 7 (R45, R47, R59-R62, R70, R89, R379) -/

/-- A neighbour's copy of this position that is valid (R59, R406). -/
def Module.copyOk (m : Module) (c : Escrow) : Bool :=
  c.position == m.positionByte && m.verifies c.bytes c.mac &&
    (parseImage m.variant m.upd.schema m.positionByte c.bytes).isSome
/-- The copy of the highest revision, of equal ones the E-side one (R59, R60). -/
def bestCopy (e w : Option Escrow) : Option Escrow :=
  match e, w with
  | some a, some b => some (if a.revision.toNat < b.revision.toNat then b else a)
  | some a, none => some a
  | none, b => b
/-- The two valid copies have one revision and differ (R60). -/
def copiesSplit (e w : Option Escrow) : Bool :=
  match e, w with
  | some a, some b => a.revision == b.revision && a.bytes != b.bytes
  | _, _ => false

/-- A copy of a neighbour's configuration is of the module that is now the neighbour on that side (R46, R295). -/
def Module.heldFor (m : Module) (side : Side) (c : Option Escrow) : Option Escrow :=
  c.filter (fun c => c.position == m.peerPosition side)
/-- A module whose configuration is for another position keeps nothing from its old place but the domain key: neither that
configuration nor the copies of its old neighbours' (R46). -/
def Module.dropOldPlace (m : Module) : Module :=
  if m.vault.config.any (fun c => c.position != m.positionByte) then
    { m with vault := { m.vault with
      config := none, escrowE := m.heldFor .east m.vault.escrowE, escrowW := m.heldFor .west m.vault.escrowW } }
  else m

/-- A copy is taken: it is stored in the canonical form and comes into force, and the slices are loaded with it (R59, R60, R83, R310,
R327, R474). -/
def Module.takeCopy (m : Module) (c : Escrow) (split : Bool) : Module :=
  let items := (parseImage m.variant m.upd.schema m.positionByte c.bytes).getD Items.default
  let m := m.dropOldPlace
  let s : StoredConfig := m.seal ⟨m.positionByte, m.upd.schema, c.revision, items, .unsealed⟩
  let m := { m with
    vault := { m.vault with config := some s }
    ring := { m.ring with split := split }
    inUse := true }
  (m.primaryNamed.capBackup.judgeLedgerFree).reloadAll

/-- The epoch of a module that takes its configuration from escrow: the higher of those recorded for its position, plus one;
its spans authenticate afresh under it (R45, R70, R268). -/
def Module.escrowEpoch (m : Module) (east west : Option Escrow) : Module :=
  let of := fun (c : Option Escrow) => match c with
    | some c => if c.position = m.positionByte then c.epoch.toNat else 0
    | none => 0
  let top := max (max (of east) (of west)) (max (m.peerSeen .east).toNat (m.peerSeen .west).toNat)
  let e : Word16 := if top = 0 then 1 else nextEpoch (BitVec.ofNat 16 top)
  ((({ m with vault := { m.vault with hubEpoch := e } }).reauth .east).reauth .west)

/-- The module keeps its own configuration and is to push it where a copy is absent or older (R59). -/
def Module.keepOwn (m : Module) (e w : Option Escrow) : Module :=
  let old := fun (c : Option Escrow) => match c with | some c => decide (c.revision.toNat < m.revision.toNat) | none => true
  let same := fun (c : Option Escrow) => c.any (fun c => c.revision == m.revision)
  { m with
    stage := .ready, shelf := false
    ring := { m.ring with
      pushE := m.ring.pushE || old e, pushW := m.ring.pushW || old w, escrowE := same e, escrowW := same w } }

/-- The table of R59; the module is at stage `.ready` where it keeps its own configuration or is in the shelf state. -/
def Module.settleConfig (m : Module) (east west : Option Escrow) : Module :=
  let e := east.filter m.copyOk
  let w := west.filter m.copyOk
  if m.configValid then
    match bestCopy e w with
    | some c =>
      if m.revision.toNat < c.revision.toNat then m.takeCopy c (copiesSplit e w)
      else if m.inUse then (m.keepOwn e w).storeSize else ({ m with inUse := true }).reloadAll
    | none => if m.inUse then (m.keepOwn e w).storeSize else ({ m with inUse := true }).reloadAll
  else
    match bestCopy e w with
    | some c => (m.takeCopy c (copiesSplit e w)).escrowEpoch east west
    | none => if m.shelf && m.stage == .ready then m else m.dropOldPlace.enterShelf

/-- Weft headers come from the domain's reference (R79, R287). -/
def Module.headerHeard (m : Module) : Bool := m.ring.reference != 0xFF && decide (m.clk.headerGap < 64)

/-- Ring ready: the domain angle is adopted or this module becomes the reference, PRESENCE goes to all, what was held goes
out, and the session resumes (R77, R89, R90, R289, R294, R299, R379). -/
def Module.joinRing (m : Module) : Module :=
  let m := if m.ring.isRef then m
    else if m.headerHeard then
      { m with clk := { m.clk with tracker := .domain, altRef := false, rebaseDue := true, takePrimary := false } }
    else m.becomeRef
  ((m.sendPresence 0xFE).flushHeld.pushEscrow).resumeSession

/-- Stage 7: the module has its place in a ring that a header has reached or of which it is to be the reference, or the ring has no
place for it (R47, R59, R62, R89, R262). -/
def Module.stage7 (m : Module) (east west : Option Escrow) : Module :=
  let due := m.stage == .lamps || (m.stage == .ready && m.shelf)
  let formed := m.ring.unpositioned ||
    (m.ring.position.isSome && m.ring.form != .none && (m.ring.isRef || m.headerHeard || m.takeoverDue))
  if m.ringUp && due && formed && !m.halted then
    let m := m.settleConfig east west
    if m.ringReady then m.joinRing else m
  else m
/-- RING_READY (R59). -/
def execRingReady (dt : Nat) (east west : Option Escrow) (s : State) : Result := s.on dt (fun m => m.stage7 east west)

/-! ### The dump header (R446) -/

/-- The header of R446, its CRC included. -/
def dumpHeader (d : DumpRec) : List Byte :=
  let body := u32 0x504D5544 ++ u16 1 ++ u16 0x200 ++ u32 d.seq.toNat ++ u8 d.cause.toNat ++ u8 d.flags.toNat ++
    u16 d.hubEpoch.toNat ++ u40 d.cycle.toNat ++ u16 d.angle.toNat ++ rsv 1 ++ u64 d.tick.toNat ++ u32 d.fw.toNat ++
    u16 d.sec.toNat ++ u16 d.schema.toNat ++ u8 d.variant.toNat ++ u8 d.position.toNat ++ u8 d.tracker.toNat ++
    u8 d.supply.toNat ++ u32 d.detail.toNat ++ u8 d.bist.toNat ++ rsv 1 ++ u16 d.bistSel.toNat ++ u32 d.bistUnit.toNat ++
    u16 d.sections ++ rsv 2 ++ u32 d.bytes
  let padded := padTo 0xFC body
  padded ++ u32 (crc32c padded).toNat

/-! ### Resets (R20-R22, R63-R65, R440) -/

/-- The module fallback that goes before a reset is committed and shows on every slice that the hub drives (R20, R63, R381). -/
def Module.fallbackShows (m : Module) : Bool :=
  (m.prov.coreFb || m.prov.lockstep) && (List.range m.variant.slices).all (fun n =>
    !m.sliceRuns n || (m.slice n).stored || !(m.stage == .lamps || m.stage == .ready) ||
      (sliceChans n).all (fun ch => (m.chan ch).fb == 3))

/-- A FULL_DDR self-test waits for its reset (R440). -/
def Module.fullDdr (m : Module) : Bool := match m.diag.bist with | some (_, 4, _) => true | _ => false

/-- The header of a dump in progress, with its CRC, is written last: from then on the dump is held (R444, R445). -/
def Module.finishDump (m : Module) : Module :=
  match m.diag.writing with
  | some r =>
    let m := m.poke (4096 * dumpFirst) (dumpHeader r)
    { m with diag := { m.diag with dump := some r.seq, writing := none } }
  | none => m

/-- What a reset waits for: an unwind's and a fatal error's for nothing more, a commanded one for its reply, and each but those two
until the module fallback shows (R20, R21, R63, R381, R387, R444). -/
def Module.resetReady (m : Module) (cause : ResetCause) : Bool :=
  match cause with
  | .unwind | .fatal => true
  | .ring | .hostWarm | .hostCold => m.resetClear && m.fallbackShows
  | _ => m.fallbackShows
/-- The hub performs the reset that is due (R20, R21, R63, R64, R381, R387, R444); a dump in progress is completed before it; FULL_DDR
tests the DDR before the start goes on at stage 3 (R440). A watchdog's reset is part of the step that causes it (R22). -/
def Module.warmReset (m : Module) (cause : ResetCause) : Module :=
  if m.resetDue = some cause && m.resetReady cause then
    let m := m.finishDump
    if m.fullDdr && cause == .hostCold then
      let test := m.diag.bist
      let m := m.hubReset cause
      { m with stage := .vault, diag := { m.diag with bist := test } }
    else m.hubReset cause
  else m
/-- HUB_WARM_RESET (R64). -/
def execHubWarmReset (dt : Nat) (cause : ResetCause) (s : State) : Result := s.on dt (fun m => m.warmReset cause)

/-- The Keeper pair runs: from stage 3 on, but for standby (R47, R324). -/
def Module.keeperUp (m : Module) : Bool := m.coresUp || m.stage == .vault

/-! ### Summary and dump (R443-R449, R452) -/

/-- EVENT_LOG: the headers of the last replies and events, oldest first (R447). -/
def Module.logBytes (m : Module) (n : Nat) : List Byte :=
  (((m.tel.log.take n).reverse).map (fun (r : Reply) => r.bytes.take 32)).flatten
/-- LEDGER: the LEDGER_READ payload, padded (R447). -/
def Module.ledgerSection (m : Module) : List Byte := padTo 64 m.ledgerPayload
/-- RING: the RING_STATUS payload, then the epochs recorded (R447). -/
def Module.ringSection (m : Module) : List Byte :=
  m.ringPayload ++ ((List.range 64).map (fun p => u16 (Tbl.get (0 : Word16) m.ring.epochs p).toNat)).flatten
/-- TILLS: every descriptor not CLOSED, cut at the limit (R447). -/
def Module.openTills (m : Module) : List Nat := (m.win.tills.filter (fun e => e.2.state != 0)).map (fun e => e.1)
/-- Word `i` of step `k` of a slice's last samples; a free value where its bin has not come (R235, R447; logs 8, 87). -/
def Module.traceWord (m : Module) (n k i : Nat) : List Byte :=
  match ((Tbl.get [] (m.slice n).trace (k / 4)).getD (k % 4) [])[i]? with
  | some w => u16 w.toNat
  | none => [Config.coreByte m.free (20000 * n + 34 * k + 2 * i), Config.coreByte m.free (20000 * n + 34 * k + 2 * i + 1)]
/-- One slice's part of SLICE_TRACE: its head, the 16 current words of each odd step, then the 512 VBUS_A words (R447; log 87). -/
def Module.traceOf (m : Module) (n : Nat) : List Byte :=
  u8 n ++ u8 (m.slice n).epoch.toNat ++ rsv 2 ++ u40 m.clk.cycle.toNat ++ rsv 7 ++
    ((List.range 256).map (fun j => ((List.range 16).map (fun p => m.traceWord n (2 * j + 1) (p + 1))).flatten)).flatten ++
    ((List.range 512).map (fun k => m.traceWord n k 0)).flatten
/-- CORE: its layout and so its length, up to 256 KiB, are not published (R447; log 8). -/
def Module.coreSection (m : Module) : List Byte :=
  (List.range ((Config.freeInt m.free).toNat % 262145)).map (fun i => Config.coreByte (m.free + 1) i)

/-- The sections in KIND order, each with its TRUNCATED flag (R447). -/
def Module.dumpSections (m : Module) : List (Nat × Bool × List Byte) :=
  [(1, false, m.logBytes 256),
   (2, decide (14336 < m.openTills.length),
     ((m.openTills.take 14336).map (fun t => m.tillBytes (BitVec.ofNat 16 t))).flatten),
   (3, false, (((List.range m.variant.slices).filter m.present).map m.traceOf).flatten),
   (4, false, m.ledgerSection),
   (5, false, m.ringSection),
   (6, false, ((List.range m.variant.channels).map (fun ch => (m.faultEntries ch).flatten)).flatten),
   (7, false, m.coreSection)]

/-- The directory: each section follows the one before it, from offset 0x200 (R446; the placing is the model's choice,
log 14). -/
def directory : Nat → List (Nat × Bool × List Byte) → List Byte
  | _, [] => []
  | o, (k, cut, b) :: rest =>
    u16 k ++ u16 (bit cut) ++ u32 o ++ u32 b.length ++ u32 (crc32c b).toNat ++ directory (o + b.length) rest

/-- A fault's record: the header's fields, and the summary's LEDGER, RING and LOG (R446, R448). -/
def Module.faultRec (m : Module) (cause : Nat) (detail : Word32) (sections bytes : Nat) (flags : Byte) (log : List Byte) :
    DumpRec :=
  { seq := m.diag.seq + 1, cause := BitVec.ofNat 8 cause, flags := flags, hubEpoch := m.vault.hubEpoch
    cycle := m.clk.cycle, angle := m.clk.angle, tick := m.clk.tick, fw := m.upd.fwVersion, sec := m.upd.secVersion
    schema := m.upd.schema, variant := m.variant.code, position := m.positionByte
    tracker := BitVec.ofNat 8 m.clk.tracker.code, supply := BitVec.ofNat 8 m.pow.bits, detail := detail
    bist := match m.diag.bist with | some (_, t, _) => BitVec.ofNat 8 t | none => 0xFF
    bistSel := match m.diag.bist with | some (_, _, s) => s | none => 0
    bistUnit := match m.diag.bist, m.diag.unit with
      | none, _ => 0
      | some _, some k => BitVec.ofNat 32 (4096 * k)
      | some _, none => BitVec.ofInt 32 (Config.freeInt (m.free + 2))
    sections := sections, bytes := bytes, ledger := m.ledgerSection, ring := m.ringPayload, log := log
    count := satInc m.diag.faults }

/-- The summary parts: LAST always, FIRST with a DDR dump or where it was not HELD (R448, R449). -/
def Diag.note (d : Diag) (r : DumpRec) (ddr : Bool) : Diag :=
  { d with
    seq := r.seq, faults := satInc d.faults, last := some r
    first := if ddr then some r else match d.first with | some f => some f | none => some r }

/-- The dump-area pages are claimed, and the sections and the directory written; the header is still to come (R105, R107, R444,
R446). -/
def Module.writeDump (m : Module) (r : DumpRec) (secs : List (Nat × Bool × List Byte)) : Module :=
  let base := 4096 * dumpFirst
  let m := m.poke (base + 0x200) (secs.map (fun s => s.2.2)).flatten
  let m := m.poke (base + 0x100) (padTo 256 (directory 0x200 secs))
  { m with
    win := { m.win with passbook := Tbl.setRange (0 : BitVec 2) m.win.passbook dumpFirst (List.replicate 256 2) }
    diag := { m.diag with writing := some r } }

/-- Keeper writes the summary and, where no dump is held, the dump up to its header (R444, R445, R449). -/
def Module.writeFault (m : Module) (cause : Nat) (detail : Word32) : Module :=
  let active : Byte := if m.diag.bist.isSome then 4 else 0
  let ddr := m.diag.dump.isNone
  let secs := m.dumpSections
  let size := 0x200 + (secs.map (fun s => s.2.2.length)).sum
  let r := if ddr then m.faultRec cause detail 7 size (1 ||| active) (m.logBytes 32)
    else m.faultRec cause detail (Config.freeInt (m.free + 3)).toNat (Config.freeInt (m.free + 4)).toNat active (m.logBytes 32)
  let m := { m with diag := m.diag.note r ddr }
  let m := if ddr then m.writeDump r secs else m
  { m with free := m.free + 5 }

/-- A fault that resets the hub: fallback and VITAL-OK in this tick, then summary and dump where it has a cause for them, and the
reset is due. A second one ends the writing of the first, whose reset follows (R20, R21, R225, R443, R444; log 88). -/
def Module.faulted (m : Module) (f : Proving → Proving) (dump : Option (Nat × Word32)) (cause : ResetCause) : Module :=
  if m.halted then { m with diag := { m.diag with writing := none } }
  else
    let m := ({ m with prov := f m.prov }).vitalStop
    let m := match dump with | some d => m.writeFault d.1 d.2 | none => m
    { m.endUnit with resetDue := some cause }
/-- A fatal error is declared (R225, R443, R444). -/
def Module.fatal (m : Module) (cause : Nat) (detail : Word32) : Module :=
  m.faulted (fun p => { p with fatal := true }) (some (cause, detail)) .fatal
/-- CAUSE and DETAIL of a fatal error (R443, R446). -/
def FatalCause_code : FatalCause → Nat × Word32
  | .ecc a => (1, a)
  | .firmware => (4, 0)
/-- FATAL_ERROR (R444). -/
def execFatalError (dt : Nat) (cause : FatalCause) (s : State) : Result :=
  s.on dt (fun m => if m.keeperUp then m.fatal (FatalCause_code cause).1 (FatalCause_code cause).2 else m)

/-- The hub die's temperature, in 0.01 °C; from 125.00 °C on it is a fatal error (R315). -/
def Module.overtemp (m : Module) (temp : Int) : Module :=
  let m := { m with pow := { m.pow with hubTemp := temp } }
  if 12500 ≤ temp then m.fatal 3 (BitVec.ofInt 32 temp) else m
/-- HUB_OVERTEMP (R315). -/
def execHubOvertemp (dt : Nat) (temp : Int) (s : State) : Result :=
  s.on dt (fun m => if m.keeperUp then m.overtemp temp else m)

/-- A lockstep mismatch: fallback and VITAL-OK, a dump where the Teller pair disagrees, then the warm reset (R20, R21). -/
def Module.mismatch2 (m : Module) (dump : Option (Nat × Word32)) (cause : ResetCause) : Module :=
  m.faulted (fun p => { p with lockstep := true }) dump cause
/-- LOCKSTEP_TELLER (R20, R443). -/
def execLockstepTeller (dt : Nat) (s : State) : Result :=
  s.on dt (fun m => if m.keeperUp then m.mismatch2 (some (2, 0)) .lockstepTeller else m)
/-- LOCKSTEP_KEEPER (R21). -/
def execLockstepKeeper (dt : Nat) (s : State) : Result :=
  s.on dt (fun m => if m.keeperUp then m.mismatch2 none .lockstepKeeper else m)

/-- KEEPER_STALL: latched, with the module fallback and an open VITAL-OK (R22, R225). -/
def execKeeperStall (dt : Nat) (s : State) : Result :=
  s.on dt (fun m => if m.keeperUp then ({ m with prov := { m.prov with stall := true } }).vitalStop else m)
/-- KEEPER_HEARTBEAT_RETURN: after a stall, a warm reset at once (R22). -/
def execKeeperHeartbeatReturn (dt : Nat) (s : State) : Result :=
  s.on dt (fun m => if m.keeperUp && m.prov.stall then m.hubReset .watchdog else m)
/-- HUB_WATCHDOG (R22). -/
def execHubWatchdog (dt : Nat) (s : State) : Result := s.on dt (fun m => if m.keeperUp then m.hubReset .watchdog else m)

end Sys2Proof.Machine
end

