-- ==== Sys2Proof/Machine/EntropyOps.lean ====
section
/-! DEFINITION. The entropy unit and the keys: the opcodes 0x08xx, health tests, restarts, reseeds and deadlines
(spec/14). -/

namespace Sys2Proof.Machine
open Sys2Proof

/-! ### RANDOM and ENTROPY_STATUS (R178, R179, R401, R402) -/

/-- RANDOM. -/
def opRandom : Op :=
  { code := 0x0801,
    judge := fun _ p => firstOf [lengthIs p 4, need (decide (1 ≤ p.field 0 2) && decide (p.field 0 2 ≤ 1024)) 0],
    act := fun m p _ =>
      if m.entropyReady then ((m.draw (p.field 0 2)).1, some (.ok (m.draw (p.field 0 2)).2))
      else if m.ent.healthy then (m.awaitEntropy 3 (p.field 0 2) (some (0x0801, p)), none)
      else (m, some ⟨0, stEntropyFault, 3, []⟩) }
/-- RANDOM (R178, R402): one generate call, a wait behind a reseed, or NOT_READY at once. -/
def execRandom (dt : Nat) (p : Packet) (s : State) : Result := s.serve dt opRandom p

/-- The ENTROPY_STATUS payload (R178). -/
def Entropy.payload (e : Entropy) : List Byte :=
  u8 e.state ++ u8 e.restarts ++ rsv 2 ++ u32 e.rct.toNat ++ u32 e.apt.toNat ++ rsv 4
/-- ENTROPY_STATUS. -/
def opEntropyStatus : Op :=
  { code := 0x0802, bcast := true, judge := fun _ p => lengthIs p 0,
    act := fun m _ _ => (m, some (.ok m.ent.payload)) }
/-- ENTROPY_STATUS (R178). -/
def execEntropyStatus (dt : Nat) (p : Packet) (s : State) : Result := s.serve dt opEntropyStatus p

/-! ### Keys (R62, R374, R404, R411) -/

/-- All bytes are zero. -/
def allZero (bs : List Byte) : Bool := bs.all (· == 0)

/-- The first domain key: it becomes CURRENT, both spans authenticate afresh, an unsealed configuration is sealed under it,
and the shelf state may end (R62, R404). -/
def Module.firstKey (m : Module) (key : List Byte) : Module :=
  let m := { m with vault := { m.vault with current := some key } }
  let m := match m.vault.config with
    | some c => if c.sealed = Seal.unsealed then { m with vault := { m.vault with config := some (m.seal c) } } else m
    | none => m
  let m := if m.variant.hasRing then (m.reauth .east).reauth .west else m
  m.leaveShelf
/-- DOMAIN_KEY_WRITE on the key store (R404). -/
def Module.writeKey (m : Module) (key : List Byte) : Module :=
  match m.vault.current with
  | none => m.firstKey key
  | some k =>
    if k = key then
      if m.vault.altPending then { m with vault := { m.vault with alternate := none, altPending := false } } else m
    else { m with vault := { m.vault with alternate := some key, altPending := true } }
/-- DOMAIN_KEY_WRITE. -/
def opDomainKeyWrite : Op :=
  { code := 0x0803,
    judge := fun m p => firstOf [lengthIs p 32, need (!allZero p.params) 0, busyUnless (!m.updateHolds)],
    act := fun m p _ => (m.writeKey p.params, some (.ok [])) }
/-- DOMAIN_KEY_WRITE (R404). -/
def execDomainKeyWrite (dt : Nat) (p : Packet) (s : State) : Result := s.serve dt opDomainKeyWrite p

/-- The signature of a COSIGN_KEY_SET is by the key in the slot over the new key, or all zero for an empty slot (R179). -/
def Module.cosignOk (m : Module) (key sig : List Byte) : Bool :=
  match m.vault.cosign with
  | none => allZero sig
  | some k => Config.ed25519Verify k key sig
/-- COSIGN_KEY_SET. -/
def opCosignKeySet : Op :=
  { code := 0x0804,
    judge := fun m p => firstOf [lengthIs p 100, need (p.field 0 1 == 0) 0, busyUnless (!m.session.phase.isOpen)],
    act := fun m p _ =>
      let key := (p.params.drop 4).take 32
      if m.cosignOk key (p.params.drop 36) then
        ({ m with vault := { m.vault with cosign := if allZero key then none else some key } }, some (.ok []))
      else (m, some ⟨0, stSignatureBad, 0, []⟩) }
/-- COSIGN_KEY_SET (R179, R374, R411). -/
def execCosignKeySet (dt : Nat) (p : Packet) (s : State) : Result := s.serve dt opCosignKeySet p

/-! ### Requests that wait (R397, R401, R402) -/

/-- A waiting request fails, with the DETAIL of its reason: a handshake waits for its next attempt, an opcode is answered
ENTROPY_FAULT (R401, R402). -/
def Module.failRequest (m : Module) (detail : Word16) (r : EntReq) : Module :=
  match r.consumer, r.serves with
  | 0, _ => m.authLater .east
  | 1, _ => m.authLater .west
  | _, some (op, p) => m.complete op p 0 stEntropyFault detail []
  | _, none => m

/-- A handshake still wants its nonce (R268). -/
def Module.wantsNonce (m : Module) (side : Side) : Bool :=
  (m.span side).auth == .none && (m.span side).deadline == none && m.spanUp side && m.vault.current.isSome

/-- A waiting request is served by one generate call (R395, R401). -/
def Module.serveRequest (m : Module) (r : EntReq) : Module :=
  let d := m.draw r.bytes
  match r.consumer, r.serves with
  | 0, _ => if m.wantsNonce .east then d.1.sendA d.2 else m
  | 1, _ => if m.wantsNonce .west then d.1.sendB d.2 else m
  | 2, some (op, p) =>
    if m.session.phase.isOpen then m.complete op p 0 stBusy 0 []
    else
      let o := d.1.openAt p (sessionNumber d.2)
      (match o.2 with | some a => o.1.complete op p a.rflags a.status a.detail a.payload | none => o.1)
  | _, some (op, p) => d.1.complete op p 0 stOk 0 d.2
  | _, none => m
/-- The same where no further reseed has become due; else the request goes on waiting (R395, R402). -/
def Module.serveOrKeep (m : Module) (r : EntReq) : Module :=
  if m.ent.reseedDue m.now then { m with ent := { m.ent with waiting := m.ent.waiting ++ [r] } } else m.serveRequest r

/-- A request that comes before another: by stamp, then link authentication, session number, RANDOM (R401). -/
def EntReq.before (a b : EntReq) : Bool := decide (a.stamp < b.stamp) || (a.stamp == b.stamp && decide (a.consumer ≤ b.consumer))
/-- Put a request into its place. -/
def placeReq (r : EntReq) : List EntReq → List EntReq
  | [] => [r]
  | q :: qs => if r.before q && !q.before r then r :: q :: qs else q :: placeReq r qs
/-- The waiting requests in the order in which they are served. -/
def reqOrder (l : List EntReq) : List EntReq := l.foldl (fun acc r => placeReq r acc) []

/-! ### States, faults and restarts (R392, R393, R395-R400) -/

/-- The entropy unit runs: not before stage 3, in standby or unpowered (R393). -/
def Module.entropyRuns (m : Module) : Bool := m.coresUp

/-- CAUSE of a failed test (R400). -/
def HealthTest_code : HealthTest → Nat
  | .rct => 1 | .apt => 2 | .kat => 3

/-- RCT_FAILS or APT_FAILS counts a failed health test (R397). -/
def Entropy.countFail (e : Entropy) : HealthTest → Entropy
  | .rct => { e with rct := satInc e.rct }
  | .apt => { e with apt := satInc e.apt }
  | .kat => e
/-- The DRBG is zeroed and the pool flushed; a restart begins 1 s later (R397, R398). -/
def Entropy.stop (e : Entropy) (now : Nat) : Entropy :=
  { e with
    state := 2, drbg := false, generated := 0, pool := 0, poolAt := now, testing := false
    restartAt := some (now + 100000000), waiting := [] }

/-- A health test fails: in HEALTHY every waiting request fails and the unit restarts; a start-up test in progress has failed, and its
end decides (R392, R393, R396, R397, R400). -/
def Module.healthFails (m : Module) (test : HealthTest) : Module :=
  if m.entropyRuns && test != .kat then
    let waiting := m.ent.waiting
    let healthy := m.ent.healthy
    let m := { m with ent := { m.ent.countFail test with
      failing := if m.ent.testing then m.ent.failing.or (some test) else m.ent.failing } }
    if healthy then
      let m := { m with ent := m.ent.stop m.now }
      ((reqOrder waiting).foldl (fun m r => m.failRequest 1 r) m).entropyEvent (HealthTest_code test) waiting.length
    else m
  else m
/-- HEALTH_TEST_FAIL (R397). -/
def execHealthTestFail (dt : Nat) (test : HealthTest) (s : State) : Result := s.on dt (fun m => m.healthFails test)

/-- A restart begins 1 s after the failure: the start-up test runs (R393, R398). -/
def Module.entropyRestart (m : Module) : Module :=
  match m.ent.restartAt with
  | some t =>
    if m.entropyRuns && m.ent.state == 2 && decide (t ≤ m.now) then
      { m with ent := { m.ent with restartAt := none, testing := true, failing := none, poolAt := m.now } }
    else m
  | none => m
/-- ENTROPY_RESTART (R398). -/
def execEntropyRestart (dt : Nat) (s : State) : Result := s.on dt (fun m => m.entropyRestart)

/-- The unit after a start-up test (R395, R396, R398). -/
def Entropy.afterTest (e : Entropy) (now : Nat) (failure : Option HealthTest) : Entropy :=
  match failure with
  | none =>
    { e with
      state := 1, restarts := 0, drbg := true, generated := 0, reseedAt := now, pool := 0, poolAt := now, testing := false,
      restartAt := none }
  | some _ =>
    if 3 ≤ e.restarts + 1 then
      { e with state := 3, restarts := 3, drbg := false, pool := 0, testing := false, restartAt := none }
    else
      { e with
        state := 2, restarts := e.restarts + 1, drbg := false, pool := 0, testing := false
        restartAt := some (now + 100000000) }
/-- A start-up test ends: failed where a health test failed in it, which RCT_FAILS or APT_FAILS has counted or counts now, or where
`failure` says so (R393, R396-R398, R400). -/
def Module.startupDone (m : Module) (failure : Option HealthTest) : Module :=
  if m.entropyRuns && m.ent.testing then
    let e := match m.ent.failing, failure with | none, some t => m.ent.countFail t | _, _ => m.ent
    let failure := m.ent.failing.or failure
    let m := { m with ent := { e.afterTest m.now failure with failing := none } }
    m.entropyEvent (match failure with | some t => HealthTest_code t | none => 4) 0
  else m
/-- STARTUP_TEST_DONE (R396). -/
def execStartupTestDone (dt : Nat) (failure : Option HealthTest) (s : State) : Result :=
  s.on dt (fun m => m.startupDone failure)

/-- A due reseed takes one pool output; every waiting request that is on time is then served (R395, R401, R402). -/
def Module.reseed (m : Module) : Module :=
  let e := m.ent.fill m.now
  if m.entropyRuns && e.healthy && e.reseedDue m.now && decide (1 ≤ e.pool) then
    let onTime := e.waiting.filter (fun r => decide (m.now ≤ r.deadline))
    let late := e.waiting.filter (fun r => !decide (m.now ≤ r.deadline))
    let m := { m with ent := { e with pool := e.pool - 1, generated := 0, reseedAt := m.now, waiting := late } }
    (reqOrder onTime).foldl (fun m r => m.serveOrKeep r) m
  else m
/-- RESEED (R395). -/
def execReseed (dt : Nat) (s : State) : Result := s.on dt (fun m => m.reseed)

/-- Requests whose deadline has passed fail (R98, R402). -/
def Module.requestDeadline (m : Module) : Module :=
  if m.entropyRuns then
    let late := m.ent.waiting.filter (fun r => m.expired r.deadline)
    let m := { m with ent := { m.ent with waiting := m.ent.waiting.filter (fun r => !m.expired r.deadline) } }
    (reqOrder late).foldl (fun m r => m.failRequest 2 r) m
  else m
/-- ENTROPY_REQUEST_DEADLINE (R402). -/
def execEntropyRequestDeadline (dt : Nat) (s : State) : Result := s.on dt (fun m => m.requestDeadline)

end Sys2Proof.Machine
end

