-- ==== Sys2Proof/Machine/Serial.lean ====
section
/-! DEFINITION. The serial ports: the opcodes 0x09xx, characters, timeouts, breaks and the sleep receiver (spec/15), and the
way of a reply out of the module, by a report till or a port. -/

namespace Sys2Proof.Machine
open Sys2Proof

/-! ### Settings, breaks and replies on a port (R181, R422, R423, R425) -/

/-- The port that PORT names (R180): 0 MAINT, 1 DROP. -/
def portOf (n : Nat) : Port := if n = 0 then .maint else .drop

/-- New settings take effect: a frame in progress is interrupted and the holding register emptied (R422). -/
def Uart.change (u : Uart) (oversample divider mode : Nat) (address mask : Byte) (sleep : Nat) : Uart :=
  { u.interrupt with
    oversample := oversample, divider := divider, addr9 := mode % 2 == 1, loopback := mode / 2 % 2 == 1
    echo := mode / 4 % 2 == 1, address := address, mask := mask, sleep := sleep, holding := none }

/-- A break begins on the transmit line; a looped port's line stays idle (R425, R428). -/
def Module.beginBreak (m : Module) (port : Port) (bits : Nat) : Module :=
  let m := m.setPort port (fun u => { u with brk := some bits })
  if (m.port port).loopback then m else m.put (.brk port bits)

/-- What waited for replies that have gone happens in its order; a break waits for the break before it (R181, R425). -/
def Module.runJobs (m : Module) (port : Port) : Nat → Module
  | 0 => m
  | fuel + 1 =>
    match (m.port port).jobs with
    | (0, .set o d mode a k sleep) :: rest =>
      ((m.setPort port (fun u => { u with jobs := rest })).setPort port
        (fun u => u.change o d mode a k sleep)).runJobs port fuel
    | (0, .brk bits) :: rest =>
      if (m.port port).brk.isSome then m
      else (m.setPort port (fun u => { u with jobs := rest })).beginBreak port bits
    | _ => m
/-- Everything that can happen now on a port. -/
def Module.portJobs (m : Module) (port : Port) : Module := m.runJobs port (m.port port).jobs.length

/-- A change waits for the replies now queued on the port (R181, R425). -/
def Module.addJob (m : Module) (port : Port) (j : PortJob) : Module :=
  (m.setPort port (fun u => { u with jobs := u.jobs ++ [(u.txq.length, j)] })).portJobs port

/-- The settings that a UART_SET names. -/
def uartJob (p : Packet) : PortJob :=
  .set (p.field 1 1) (p.field 2 2) (p.field 4 1) (BitVec.ofNat 8 (p.field 5 1)) (BitVec.ofNat 8 (p.field 6 1)) (p.field 7 1)
/-- UART_SET: after its own reply when it came on the port it names, else at once (R181, R422). -/
def Module.uartSet (m : Module) (p : Packet) : Module :=
  let port := portOf (p.field 0 1)
  if p.path = portPath port then m.addJob port (uartJob p)
  else m.setPort port (fun u => u.change (p.field 1 1) (p.field 2 2) (p.field 4 1) (BitVec.ofNat 8 (p.field 5 1))
    (BitVec.ofNat 8 (p.field 6 1)) (p.field 7 1))

/-- UART_SET. -/
def opUartSet : Op :=
  { code := 0x0901,
    judge := fun _ p =>
      let port := p.field 0 1
      let mode := p.field 4 1
      firstOf [lengthIs p 8,
        need (decide (port ≤ 1)) 0,
        need ([16, 8, 3].contains (p.field 1 1)) 1,
        need (decide (1 ≤ p.field 2 2) && decide (p.field 2 2 ≤ 4095)) 2,
        need (mode % 2 == port && !(mode / 2 % 2 == 1 && mode / 4 % 2 == 1)) 4,
        need (decide (p.field 7 1 ≤ 4) && !(port == 0 && p.field 7 1 != 0)) 7],
    act := fun m _ _ => (m, some (.ok [])),
    after := fun m p => m.uartSet p }
/-- UART_SET (R180, R181, R413, R422). -/
def execUartSet (dt : Nat) (p : Packet) (s : State) : Result := s.serve dt opUartSet p

/-- The UART_STATUS payload (R180). -/
def Uart.payload (u : Uart) : List Byte :=
  u32 u.noise.toNat ++ u32 u.ovr.toNat ++ u32 u.framing.toNat ++ u32 u.breaks.toNat ++ u16 u.lastBits.toNat ++ rsv 2 ++
    u32 u.lastLpo.toNat ++ u32 u.discarded.toNat ++ u32 u.crcBad.toNat
/-- UART_STATUS. -/
def opUartStatus : Op :=
  { code := 0x0902,
    judge := fun _ p => firstOf [lengthIs p 4, need (decide (p.field 0 1 ≤ 1)) 0],
    act := fun m p _ => (m, some (.ok (m.port (portOf (p.field 0 1))).payload)) }
/-- UART_STATUS (R180, R181). -/
def execUartStatus (dt : Nat) (p : Packet) (s : State) : Result := s.serve dt opUartStatus p

/-- UART_BREAK. -/
def opUartBreak : Op :=
  { code := 0x0903,
    judge := fun _ p => firstOf [lengthIs p 4, need (decide (p.field 0 1 ≤ 1)) 0, need (decide (1 ≤ p.field 2 2)) 2],
    act := fun m _ _ => (m, some (.ok [])),
    after := fun m p => m.addJob (portOf (p.field 0 1)) (.brk (p.field 2 2)) }
/-- UART_BREAK (R181, R425): the break follows every reply queued on its port. -/
def execUartBreak (dt : Nat) (p : Packet) (s : State) : Result := s.serve dt opUartBreak p

/-- A byte of a frame on the line: 0xC0 and 0xDB are sent as two characters (R147). -/
def stuffed (b : Byte) : List Byte := if b = 0xC0 then [0xDB, 0xDC] else if b = 0xDB then [0xDB, 0xDD] else [b]
/-- The characters of a reply: its stuffed bytes between two ENDs (R147, R423). -/
def frameChars (bs : List Byte) : List Byte := [0xC0] ++ (bs.map stuffed).flatten ++ [0xC0]

/-- The stop bit of a reply's closing END leaves a port: what waited for it begins, and a reset, standby or lane test that
waited for it may follow (R164, R181, R324, R423, R439). -/
def Module.replySent (m : Module) (port : Port) : Module :=
  let u := m.port port
  if m.portRuns port && u.brk.isNone then
    match u.txq with
    | [] => m
    | r :: rest =>
      let m := if u.loopback then m else m.put (.serial port (frameChars r.bytes))
      let m := m.setPort port (fun u => { u with txq := rest, jobs := u.jobs.map (fun (j : Nat × PortJob) => (j.1 - 1, j.2)) })
      (m.portJobs port).resetStep.standbyStep.prbsStep
  else m
/-- REPLY_SENT_IN_FULL (R181, R423). -/
def execReplySentInFull (dt : Nat) (port : Port) (s : State) : Result := s.on dt (fun m => m.replySent port)

/-- A transmitted break ends, the idle bit times after it included (R425). -/
def Module.breakSent (m : Module) (port : Port) : Module :=
  if (m.port port).brk.isSome then (m.setPort port (fun u => { u with brk := none })).portJobs port else m
/-- UART_BREAK_END (R425). -/
def execUartBreakEnd (dt : Nat) (port : Port) (s : State) : Result := s.on dt (fun m => m.breakSent port)

/-! ### Receiving (R417-R421, R426-R432) -/

/-- CHARACTER on a running receiver; while DROP has not resumed after a wake, a frame addressed to this module is counted as
discarded (R432). -/
def Module.character (m : Module) (port : Port) (c : BitVec 9) (startOne stopOne noisy : Bool) : Module :=
  if m.hears port then m.receive port c startOne stopOne noisy
  else if port == .drop && m.coresUp && m.dropAsleep && !startOne && stopOne && !noisy && m.drop.matches c then
    m.setPort .drop (fun u => { u with discarded := satInc u.discarded })
  else m
/-- CHARACTER (R417). -/
def execCharacter (dt : Nat) (port : Port) (c : BitVec 9) (startOne stopOne noisy : Bool) (s : State) : Result :=
  s.on dt (fun m => m.character port c startOne stopOne noisy)

/-- RECEIVE_TIMEOUT (R420). -/
def execReceiveTimeout (dt : Nat) (port : Port) (s : State) : Result :=
  s.on dt (fun m => if m.portRuns port then m.setPort port (fun u => u.expire m.now) else m)

/-- A received break has ended: counted, measured, a frame in progress interrupted and DROP deselected; a long one returns
MAINT to its default settings (R426, R427). -/
def Module.breakHeard (m : Module) (port : Port) (bits lpo : Nat) : Module :=
  if m.hears port then
    let m := m.setPort port (fun u =>
      { (u.expire m.now).interrupt with
        selected := false, breaks := satInc u.breaks, lastBits := BitVec.ofNat 16 (min bits 65535)
        lastLpo := BitVec.ofNat 32 (min lpo 4294967295) })
    if port == .maint && decide (7680 ≤ lpo) then m.setPort .maint (fun u => u.change 16 26 0 0 0 0) else m
  else m
/-- BREAK (R426). -/
def execSerialBreak (dt : Nat) (port : Port) (bits lpo : Nat) (s : State) : Result :=
  s.on dt (fun m => m.breakHeard port bits lpo)

/-- A character on the LPO receiver in standby: NOISE and FRAMING count, breaks are ignored, and a clean matching address
character wakes the hub (R426, R431). -/
def Module.sleepChar (m : Module) (c : BitVec 9) (stopOne noisy : Bool) : Module :=
  if m.stage == .standby && m.drop.sleep != 0 && (stopOne || c != 0) then
    let m := m.setPort .drop (fun u => u.judge stopOne noisy false)
    if stopOne && !noisy && m.drop.matches c then m.wake 7 else m
  else m
/-- DROP_WAKE (R431). -/
def execDropWake (dt : Nat) (c : BitVec 9) (stopOne noisy : Bool) (s : State) : Result :=
  s.on dt (fun m => m.sleepChar c stopOne noisy)

/-- DROP_RESUME: the running receiver takes characters again, on its own settings (R432). -/
def execDropResume (dt : Nat) (s : State) : Result :=
  s.on dt (fun m => if m.coresUp then m.setPort .drop (fun u => { u with resumeAt := none }) else m)

/-! ### Report entries (R125, R126, R435) -/

/-- REPORT_ENTRY_PLACE: the oldest waiting entry of a till goes into a posted buffer; what waited for a reply follows
(R125, R164, R324, R435, R439). -/
def execReportEntryPlace (dt : Nat) (till : Word16) (s : State) : Result :=
  s.on dt (fun m => if m.tillTest then m else (m.placeEntry till).resetStep.standbyStep.prbsStep)

end Sys2Proof.Machine
end

