-- ==== Sys2Proof/Machine/Diagnose.lean ====
section
/-! DEFINITION. Self-test and the dump summary: the opcodes 0x0Axx, the end of a test, and the vault scrub (spec/16,
R317). -/

namespace Sys2Proof.Machine
open Sys2Proof

/-! ### BIST_RUN (R182, R183, R317, R433-R440) -/

/-- A lane by its LANE code (R171). -/
def laneByCode (n : Nat) : Option Lane :=
  match n with
  | 0 => some .h | 1 => some .e0 | 2 => some .e1 | 3 => some .w0 | 4 => some .w1 | _ => none

/-- The slices that a self-test of slices tests (R182). -/
def Module.bistSlices (m : Module) (target : Nat) (select : Word16) : List Nat :=
  (List.range m.variant.slices).filter (bistHits target select)

/-- SELECT suits TARGET (R182, R183, R434). -/
def Module.selectOk (m : Module) (p : Packet) : Bool :=
  let target := p.field 0 1
  let select := p.field 2 2
  let fromPort := match p.path with | .maint | .drop => true | _ => false
  if target = 2 || target = 6 then select == 0xFFFF || decide (select < m.variant.slices)
  else if target = 5 then (select == 0xFFFF || decide (select ≤ 4)) && (fromPort || (select != 0 && select != 0xFFFF))
  else select == 0

/-- The precondition of a target (R183, R434). -/
def Module.bistFree (m : Module) (p : Packet) : Bool :=
  let target := p.field 0 1
  let ph := m.session.phase
  let slices := m.bistSlices target (BitVec.ofNat 16 (p.field 2 2))
  m.diag.bist.isNone &&
    (match target with
     | 0 => m.win.tills.all (fun e => decide (e.1 ≤ 1) || e.2.state == 0)
     | 4 => m.diag.dump.isNone && !(ph == .prepared || ph == .committed || ph == .trial)
     | _ => slices.all (fun n => (m.slice n).loaded && !(m.slice n).failed))

/-- Cost in groats and slices of a run (R317). -/
def Module.bistCost (m : Module) (p : Packet) : Nat × List Nat :=
  let slices := m.bistSlices (p.field 0 1) (BitVec.ofNat 16 (p.field 2 2))
  match p.field 0 1 with
  | 0 => (300, [])
  | 1 => (200, [])
  | 2 => (150 * slices.length, slices)
  | 3 => (3000, [])
  | 4 => (40000, [])
  | 5 => (2000, [])
  | _ => (100 * slices.length, slices)

/-- A self-test begins: a test of slices is asked of each by a REQUEST, and MODULE_DDR takes its first unit (R230, R434, R436; log 89). -/
def Module.beginTest (m : Module) (target : Nat) (select : Word16) : Module :=
  if target = 2 then m.each (m.bistSlices 2 select) (fun n m => m.sendSlice n (.request .ramTest) none)
  else if target = 6 then m.each (m.bistSlices 6 select) (fun n m => m.sendSlice n (.request .adcTest) none)
  else if target = 4 then { m with resetDue := some .hostCold }
  else m.nextUnit

/-- BIST_RUN. -/
def opBistRun : Op :=
  { code := 0x0A01, accepts := true,
    absent := fun m p =>
      p.field 0 1 == 5 && (match laneByCode (p.field 2 2) with | some l => !m.variant.fits l | none => false),
    judge := fun m p =>
      firstOf [lengthIs p 4, need (decide (p.field 0 1 ≤ 6)) 0, need (m.selectOk p) 2, busyUnless (m.bistFree p)],
    cost := fun m p => some (m.bistCost p),
    act := fun m p _ =>
      let target := p.field 0 1
      let select := BitVec.ofNat 16 (p.field 2 2)
      (({ m with diag := { m.diag with bist := some (m.finalRef 0x0A01 p, target, select) } }).beginTest target select,
        some .accepted),
    after := fun m _ => m.resetStep.prbsStep }
/-- BIST_RUN (R433, R434). -/
def execBistRun (dt : Nat) (p : Packet) (s : State) : Result := s.serve dt opBistRun p

/-! ### BIST_DONE (R435, R437, R439-R442, R449) -/

/-- The faults of a memory target: in SLICE_RAM those of the slices tested (R434). -/
def Module.memFaults (m : Module) (target : Nat) (select : Word16) (found : BistFound) : List MemFault :=
  if target = 2 then found.memory.filter (fun f => (m.bistSlices 2 select).contains f.slice) else found.memory
/-- The entry of a memory fault (R442). -/
def memEntry (target : Nat) (f : MemFault) : List Byte :=
  u32 f.address ++ u8 (if target = 2 then f.slice else 0xFF) ++ u8 f.bits.toNat ++ u8 f.element ++ rsv 1
/-- The entries of a memory target: the first 64 faults (R442). -/
def memEntries (target : Nat) (l : List MemFault) : List Byte := ((l.take 64).map (memEntry target)).flatten

/-- OUTCOME of a lane: FAIL with any bit error, NO_LOCK without block lock (R442). -/
def laneOutcome : Option Nat → Nat
  | none => 2
  | some e => if e = 0 then 0 else 1
/-- The entry of a lane (R442). -/
def laneEntry (l : Lane) (x : Option Nat × Nat) : List Byte :=
  u8 l.code ++ u8 (laneOutcome x.1) ++ rsv 2 ++ u32 (min (x.1.getD 0) 4294967295) ++ u64 x.2

/-- The mean of 64 codes; where it is no whole code, which of its two neighbours is a free value (R442; logs 8, 90). -/
def meanCode (k : Nat) (sum : Int) : Int := if sum % 64 = 0 then sum / 64 else sum / 64 + Config.freeInt k % 2
/-- VERDICT of a path by the limits of R244, of both the offset (R438, R442; logs 73, 90). -/
def pathVerdict (sums : List (Int × Int)) (i : Nat) : Nat :=
  let x := sums.getD i (0, 0)
  let ref := sums.getD 18 (0, 0)
  let o := Config.calOffset i (64, x.1) (64, x.2) (64, ref.1) (64, ref.2)
  let g := Config.calGain i (64, x.1) (64, x.2) (64, ref.1) (64, ref.2)
  if 100 < o.natAbs then 1 else if CalPath_ok ⟨o, g⟩ then 0 else 2
/-- The 19 entries of a slice, its means as sample words under its ADC_ALIGN (R249, R442). -/
def Module.pathEntries (m : Module) (n : Nat) (sums : List (Int × Int)) : List Byte :=
  ((List.range 19).map (fun i =>
    let x := sums.getD i (0, 0)
    let word := fun (k : Nat) (s : Int) => u16 (sampleWord (m.alignLeft n) (endCode (meanCode (m.free + 38 * n + k) s))).toNat
    u8 n ++ u8 i ++ word (2 * i) x.1 ++ word (2 * i + 1) x.2 ++ u8 (pathVerdict sums i) ++ rsv 1)).flatten
/-- The paths of a slice that do not pass. -/
def badPaths (sums : List (Int × Int)) : Nat := ((List.range 19).filter (fun i => pathVerdict sums i != 0)).length

/-- UNITS, FAULTS and the entries of a result (R436, R441, R442; log 90). -/
def Module.testResult (m : Module) (target : Nat) (select : Word16) (found : BistFound) : Nat × Nat × List (List Byte) :=
  let slices := m.bistSlices target select
  let lanes := (m.prbsLanes select).zipIdx.map (fun (l : Lane × Nat) => (l.1, found.lanes.getD l.2 (none, 0)))
  let paths := slices.zipIdx.map (fun (n : Nat × Nat) => (n.1, found.paths.getD n.2 []))
  let faults := m.memFaults target select found
  if target = 5 then
    (lanes.length, (lanes.filter (fun l => laneOutcome l.2.1 != 0)).length, lanes.map (fun l => laneEntry l.1 l.2))
  else if target = 6 then
    (slices.length, (paths.map (fun x => badPaths x.2)).sum,
      (paths.map (fun x => chunks 8 19 (m.pathEntries x.1 x.2))).flatten)
  else
    (if target = 1 then 512 else if target = 2 then 256 * slices.length else found.units, faults.length,
      (faults.take 64).map (memEntry target))
/-- The FINAL payload (R441). -/
def Module.bistPayload (m : Module) (target : Nat) (select : Word16) (found : BistFound) : List Byte :=
  let r := m.testResult target select found
  u8 target ++ u8 (bit (r.2.1 != 0)) ++ u16 select.toNat ++ u32 (min r.1 4294967295) ++ u32 (min r.2.1 4294967295) ++
    u16 r.2.2.length ++ rsv 2 ++ r.2.2.flatten

/-- The result of FULL_DDR is a summary of its own (R440, R443, R446, R449). -/
def Module.fullDdrDone (m : Module) (found : BistFound) : Module :=
  let r := m.faultRec 5 (BitVec.ofNat 32 (min found.memory.length 4294967295)) (Config.freeInt (m.free + 3)).toNat
    (Config.freeInt (m.free + 4)).toNat 4 (padTo 1024 (memEntries 4 found.memory))
  { m with diag := { m.diag.note r false with bist := none }, free := m.free + 5 }

/-- What the end of a test leaves: TILL_SRAM a zeroed table but for tills 0 and 1, MODULE_DDR its last unit restored, LANE_PRBS31 lanes
in training (R253, R435, R436, R439). -/
def Module.afterTest (m : Module) (target : Nat) (select : Word16) : Module :=
  if target = 0 then { m with win := { m.win with tills := m.win.tills.filter (fun e => decide (e.1 ≤ 1)) } }
  else if target = 5 then
    (m.prbsLanes select).foldl (fun m l => (m.setLane l (fun s => { s with state := 0 })).trainLane l) m
  else m.endUnit

/-- A test that may end now: its slices have answered, its lanes have gone down (R230, R439). -/
def Module.testRan (m : Module) (target : Nat) (select : Word16) : Bool :=
  (m.bistSlices target select).all (fun n => !(m.slice n).unacked.any (fun u =>
    match u.msg with | .request .ramTest | .request .adcTest => true | _ => false)) &&
  (target != 5 || (m.prbsLanes select).all (fun l => (m.lane l).state == 4))

/-- A self-test ends: the FINAL event carries the result, then a slice with a faulty RAM is reset (R433, R437, R441). -/
def Module.testDone (m : Module) (found : BistFound) : Module :=
  match m.diag.bist with
  | none => m
  | some (f, target, select) =>
    if target = 4 then (if m.stage = .vault then m.fullDdrDone found else m)
    else if m.coresUp && m.testRan target select then
      let payload := m.bistPayload target select found
      let bad := ((m.memFaults target select found).map (fun f => f.slice)).eraseDups
      let m := { m with diag := { m.diag with bist := none }, free := m.free + 38 * m.variant.slices }
      let m := (m.afterTest target select).final f stOk 0 payload
      if target = 2 then m.each bad (fun n m => m.sliceReset n true) else m
    else m
/-- BIST_DONE (R441). -/
def execBistDone (dt : Nat) (found : BistFound) (s : State) : Result := s.on dt (fun m => m.testDone found)

/-! ### The summary (R448, R451) -/

/-- A part of the vault summary, 2 KiB (R448). -/
def summaryPart (r : Option DumpRec) : List Byte :=
  let body := match r with
    | some r => padTo 0x100 (dumpHeader r) ++ u8 1 ++ rsv 1 ++ u16 r.count.toNat ++ rsv 12 ++ padTo 64 r.ledger ++
        padTo 48 r.ring ++ padTo 1024 r.log
    | none => []
  let body := (padTo 0x7FC body).take 0x7FC
  body ++ u32 (crc32c body).toNat

/-- DUMP_SUMMARY. -/
def opDumpSummary : Op :=
  { code := 0x0A02,
    judge := fun _ p => firstOf [lengthIs p 4, need (decide (p.field 0 1 ≤ 1)) 0],
    act := fun m p _ => (m, some (.ok (summaryPart (if p.field 0 1 = 0 then m.diag.first else m.diag.last)))) }
/-- DUMP_SUMMARY (R448). -/
def execDumpSummary (dt : Nat) (p : Packet) (s : State) : Result := s.serve dt opDumpSummary p

/-- The dump-area pages are freed, both parts and FAULT_COUNT cleared; SEQ keeps counting (R104, R451). -/
def Module.releaseDump (m : Module) : Module :=
  { m with
    win := { m.win with passbook := m.win.passbook.filter (fun e => !(decide (dumpFirst ≤ e.1) && e.2 == 2)) }
    diag := { m.diag with dump := none, first := none, last := none, faults := 0 } }
/-- DUMP_RELEASE. -/
def opDumpRelease : Op :=
  { code := 0x0A03, judge := fun _ p => lengthIs p 0,
    act := fun m _ _ => (m.releaseDump, some ⟨0, stOk, if m.diag.dump.isSome then 0 else 1, []⟩) }
/-- DUMP_RELEASE (R183, R451). -/
def execDumpRelease (dt : Nat) (p : Packet) (s : State) : Result := s.serve dt opDumpRelease p

/-! ### Vault scrub (R317) -/

/-- VAULT_SCRUB: one pass over 64 KiB, when the ledger admits it; the vault holds the same afterwards (R317, R318). -/
def execVaultScrub (dt : Nat) (s : State) : Result := s.on dt id

end Sys2Proof.Machine
end

