-- ==== Sys2Proof/Machine/MeterOps.lean ====
section
/-! DEFINITION. The metering opcodes, 0x06xx, and the metering commands (section 7 of spec/06, spec/12). -/

namespace Sys2Proof.Machine
open Sys2Proof

/-- A UM-96S meters nothing: every 0x06xx opcode is UNIT_ABSENT there (R5, R333). -/
def noMeter (m : Module) (_ : Packet) : Bool := !m.variant.metering

/-! ### ENERGY_READ (R174, R175, R350) -/

/-- First counter of item `n` in a scope: 0 channel, 1 slice, 2 module (R335). -/
def energyBase (scope n : Nat) : Nat :=
  match scope with
  | 0 => 8 * n
  | 1 => 3072 + 8 * n
  | _ => 3264
/-- How many items a scope has. -/
def Variant.scopeSize (v : Variant) : Nat → Nat
  | 0 => v.channels
  | 1 => v.slices
  | _ => 1
/-- CYCLE and ANGLE, then the items of ENERGY_READ. -/
def Module.energyPayload (m : Module) (scope tariff first count : Nat) : List Byte :=
  u40 (m.meter.committed / 65536) ++ u16 m.meter.committed ++ rsv 1 ++
  (((List.range count).map (fun i =>
    let k := energyBase scope (first + i)
    if tariff = 0xFF then ((List.range 8).map (fun t => u64 (m.meter.counter (k + t)))).flatten
    else u64 (m.meter.counter (k + tariff)))).flatten)

/-- ENERGY_READ. -/
def opEnergyRead : Op :=
  { code := 0x0601, absent := noMeter,
    judge := fun m p =>
      let scope := p.field 0 1
      let tariff := p.field 1 1
      let size := m.variant.scopeSize scope
      let most := if scope = 2 then 1 else if tariff = 0xFF then 63 else 384
      firstOf [lengthIs p 8, need (decide (scope ≤ 2)) 0, need (decide (tariff ≤ 7) || tariff == 0xFF) 1,
        need (decide (p.field 2 2 < size)) 2,
        need (decide (1 ≤ p.field 4 2) && decide (p.field 4 2 ≤ most) && decide (p.field 2 2 + p.field 4 2 ≤ size)) 4],
    act := fun m p _ => (m, some (.ok (m.energyPayload (p.field 0 1) (p.field 1 1) (p.field 2 2) (p.field 4 2)))) }
/-- ENERGY_READ (R175, R350, R351). -/
def execEnergyRead (dt : Nat) (p : Packet) (s : State) : Result := s.serve dt opEnergyRead p

/-! ### TARIFF_AT (R174, R175, R334) -/

/-- The slot of a change: that of the same cycle, else the first free one. -/
def Meter.tariffSlot (t : Meter) (cycle : Nat) : Option Nat :=
  match t.pendingTariffs.find? (fun e => e.2.1 == cycle) with
  | some e => some e.1
  | none => ((List.range 32).map (fun i => 3298 + i)).find? (fun k => decide (t.counter k < 2 ^ 63))

/-- TARIFF_AT. -/
def opTariffAt : Op :=
  { code := 0x0602, absent := noMeter,
    judge := fun m p =>
      firstOf [lengthIs p 12, need (decide (p.field 0 1 ≤ 7)) 0,
        if p.field 4 5 ≤ m.clk.cycle.toNat then some (stLate, 0) else none,
        busyUnless (m.meter.tariffSlot (p.field 4 5)).isSome],
    act := fun m p _ =>
      let m := match m.meter.tariffSlot (p.field 4 5) with
        | some k => { m with meter := m.meter.setCounter k (pendingWord (p.field 4 5) (p.field 0 1)) }
        | none => m
      (m.pass, some (.ok (u8 m.meter.pendingTariffs.length ++ rsv 3))) }
/-- TARIFF_AT (R175, R334, R340): written in a pass of its own before the reply. -/
def execTariffAt (dt : Nat) (p : Packet) (s : State) : Result := s.serve dt opTariffAt p

/-! ### DEMAND_SET and DEMAND_READ (R174, R175, R336, R338) -/

/-- DEMAND_SET. -/
def opDemandSet : Op :=
  { code := 0x0603, absent := noMeter,
    judge := fun _ p =>
      let interval := p.field 0 4
      let kind := p.field 4 1
      let subs := p.field 5 1
      firstOf [lengthIs p 8, need (decide (1500 ≤ interval) && decide (interval ≤ 4320000)) 0,
        need (decide (kind ≤ 1)) 4,
        need (if kind = 0 then subs == 0 else decide (2 ≤ subs) && decide (subs ≤ 15)) 5,
        need (kind == 0 || interval % subs == 0) 0],
    act := fun m p _ =>
      let w := 2 ^ 63 + p.field 0 4 + p.field 4 1 * 2 ^ 32 + p.field 5 1 * 2 ^ 36
      ({ m with meter := m.meter.setCounter 3297 w }.pass, some (.ok [])) }
/-- DEMAND_SET (R175, R336): it waits for the next close. -/
def execDemandSet (dt : Nat) (p : Packet) (s : State) : Result := s.serve dt opDemandSet p

/-- LAST_W, MAX_W, MAX_CYCLE and NEXT_CLOSE. -/
def Module.demandPayload (m : Module) : List Byte :=
  u32 (m.meter.counter 3274) ++ u32 (m.meter.counter 3272) ++ u40 (m.meter.counter 3273) ++ rsv 3 ++
  u40 (m.meter.closeAfter m.clk.cycle.toNat) ++ rsv 3

/-- DEMAND_READ. -/
def opDemandRead : Op :=
  { code := 0x0604, absent := noMeter,
    judge := fun _ p => firstOf [lengthIs p 4, need (decide (p.field 0 1 ≤ 1)) 0],
    act := fun m p _ =>
      (if p.field 0 1 = 1 then { m with meter := m.meter.setCounters [(3272, 0), (3273, 0)] }.pass else m,
       some (.ok m.demandPayload)) }
/-- DEMAND_READ (R338): the values before the reset are returned. -/
def execDemandRead (dt : Nat) (p : Packet) (s : State) : Result := s.serve dt opDemandRead p

/-! ### BOUNDARY_READ (R174, R347) -/

/-- BOUNDARY_READ. -/
def opBoundaryRead : Op :=
  { code := 0x0605, absent := noMeter,
    judge := fun m p => firstOf [lengthIs p 4, need (decide (p.field 0 2 < m.vault.records.length)) 0],
    act := fun m p _ =>
      (m, match m.vault.records[p.field 0 2]? with
        | some b => some (.ok b.bytes)
        | none => some ⟨0, stBadParam, 0x20, []⟩) }
/-- BOUNDARY_READ (R347). -/
def execBoundaryRead (dt : Nat) (p : Packet) (s : State) : Result := s.serve dt opBoundaryRead p

/-! ### The metering commands -/

/-- HALF_CYCLE_COMMIT: at the instant 256 au after a half-cycle's end (R330). -/
def execHalfCycleCommit (dt : Nat) (s : State) : Result :=
  s.on dt (fun m =>
    match m.meter.ended with
    | some (b, ticks, tariff) => if m.coresUp && decide (b + 256 ≤ m.au) then m.commitHalf b ticks tariff else m
    | none => m)

/-- Cycles between persistence passes: one of every eight occasions in LEAN, STANDBY_ARMED and at a hub above its limit
(R315, R323, R340). -/
def Module.passPeriod (m : Module) : Nat := if m.pow.ledger ≠ 0 ∨ m.hubHeat < 0 then 2048 else 256

/-- PERSISTENCE_PASS: at its interval (R340). -/
def execPersistencePass (dt : Nat) (s : State) : Result :=
  s.on dt (fun m => if m.coresUp && decide (m.passPeriod ≤ m.meter.sincePass) then m.pass else m)

/-- DEMAND_CLOSE: at a grid close, once its half-cycle is committed (R336, R337, R345). -/
def execDemandClose (dt : Nat) (s : State) : Result := s.on dt (fun m => if m.coresUp then m.demandClose else m)

/-- TARIFF_CHANGE: at C:0 of its cycle (R334). -/
def execTariffChange (dt : Nat) (s : State) : Result := s.on dt (fun m => if m.coresUp then m.tariffChange else m)

end Sys2Proof.Machine
end

