-- ==== Sys2Proof/Machine/Dispatch.lean ====
section
/-! DEFINITION. The meaning of every command: one arm per constructor. -/

namespace Sys2Proof.Machine
open Sys2Proof

/-- What a command does to everything but the queue. -/
def exec (i : Instr) (s : State) : Host.Outcome State Fault Refusal :=
  match i with
  | .capabilityRead dt p => Sys2Proof.Machine.execCapabilityRead dt p s
  | .statusRead dt p => Sys2Proof.Machine.execStatusRead dt p s
  | .timeRead dt p => Sys2Proof.Machine.execTimeRead dt p s
  | .tillOpen dt p => Sys2Proof.Machine.execTillOpen dt p s
  | .tillClose dt p => Sys2Proof.Machine.execTillClose dt p s
  | .tillRead dt p => Sys2Proof.Machine.execTillRead dt p s
  | .scheduleCancel dt p => Sys2Proof.Machine.execScheduleCancel dt p s
  | .tagQuery dt p => Sys2Proof.Machine.execTagQuery dt p s
  | .reset dt p => Sys2Proof.Machine.execReset dt p s
  | .configWrite dt p => Sys2Proof.Machine.execConfigWrite dt p s
  | .configRead dt p => Sys2Proof.Machine.execConfigRead dt p s
  | .channelSet dt p => Sys2Proof.Machine.execChannelSet dt p s
  | .aspectDefine dt p => Sys2Proof.Machine.execAspectDefine dt p s
  | .aspectShow dt p => Sys2Proof.Machine.execAspectShow dt p s
  | .aspectDelete dt p => Sys2Proof.Machine.execAspectDelete dt p s
  | .flashSet dt p => Sys2Proof.Machine.execFlashSet dt p s
  | .channelRead dt p => Sys2Proof.Machine.execChannelRead dt p s
  | .swatchLearn dt p => Sys2Proof.Machine.execSwatchLearn dt p s
  | .swatchRead dt p => Sys2Proof.Machine.execSwatchRead dt p s
  | .swatchMode dt p => Sys2Proof.Machine.execSwatchMode dt p s
  | .responseSet dt p => Sys2Proof.Machine.execResponseSet dt p s
  | .faultRead dt p => Sys2Proof.Machine.execFaultRead dt p s
  | .faultClear dt p => Sys2Proof.Machine.execFaultClear dt p s
  | .openWireTest dt p => Sys2Proof.Machine.execOpenWireTest dt p s
  | .ringStatus dt p => Sys2Proof.Machine.execRingStatus dt p s
  | .laneStatus dt p => Sys2Proof.Machine.execLaneStatus dt p s
  | .ringEnumerate dt p => Sys2Proof.Machine.execRingEnumerate dt p s
  | .escrowPush dt p => Sys2Proof.Machine.execEscrowPush dt p s
  | .ledgerRead dt p => Sys2Proof.Machine.execLedgerRead dt p s
  | .ledgerSet dt p => Sys2Proof.Machine.execLedgerSet dt p s
  | .standbyEnter dt p => Sys2Proof.Machine.execStandbyEnter dt p s
  | .energyRead dt p => Sys2Proof.Machine.execEnergyRead dt p s
  | .tariffAt dt p => Sys2Proof.Machine.execTariffAt dt p s
  | .demandSet dt p => Sys2Proof.Machine.execDemandSet dt p s
  | .demandRead dt p => Sys2Proof.Machine.execDemandRead dt p s
  | .boundaryRead dt p => Sys2Proof.Machine.execBoundaryRead dt p s
  | .updateOpen dt p => Sys2Proof.Machine.execUpdateOpen dt p s
  | .blockPut dt p => Sys2Proof.Machine.execBlockPut dt p s
  | .updateStatus dt p => Sys2Proof.Machine.execUpdateStatus dt p s
  | .prepare dt p => Sys2Proof.Machine.execPrepare dt p s
  | .commit dt p => Sys2Proof.Machine.execCommit dt p s
  | .confirm dt p => Sys2Proof.Machine.execConfirm dt p s
  | .unwind dt p => Sys2Proof.Machine.execUnwind dt p s
  | .updateAbort dt p => Sys2Proof.Machine.execUpdateAbort dt p s
  | .recoverActivate dt p => Sys2Proof.Machine.execRecoverActivate dt p s
  | .random dt p => Sys2Proof.Machine.execRandom dt p s
  | .entropyStatus dt p => Sys2Proof.Machine.execEntropyStatus dt p s
  | .domainKeyWrite dt p => Sys2Proof.Machine.execDomainKeyWrite dt p s
  | .cosignKeySet dt p => Sys2Proof.Machine.execCosignKeySet dt p s
  | .uartSet dt p => Sys2Proof.Machine.execUartSet dt p s
  | .uartStatus dt p => Sys2Proof.Machine.execUartStatus dt p s
  | .uartBreak dt p => Sys2Proof.Machine.execUartBreak dt p s
  | .bistRun dt p => Sys2Proof.Machine.execBistRun dt p s
  | .dumpSummary dt p => Sys2Proof.Machine.execDumpSummary dt p s
  | .dumpRelease dt p => Sys2Proof.Machine.execDumpRelease dt p s
  | .doorbell dt till prod epoch => Sys2Proof.Machine.execDoorbell dt till prod epoch s
  | .attach dt sysPage => Sys2Proof.Machine.execAttach dt sysPage s
  | .detach dt => Sys2Proof.Machine.execDetach dt s
  | .keepalive dt ms => Sys2Proof.Machine.execKeepalive dt ms s
  | .pxRequest dt first count expect new seq => Sys2Proof.Machine.execPxRequest dt first count expect new seq s
  | .pendingClear dt first data => Sys2Proof.Machine.execPendingClear dt first data s
  | .wr dt offset data good => Sys2Proof.Machine.execWr dt offset data good s
  | .rd dt tag offset len good => Sys2Proof.Machine.execRd dt tag offset len good s
  | .hostHello dt good => Sys2Proof.Machine.execHostHello dt good s
  | .keepaliveExpiry dt => Sys2Proof.Machine.execKeepaliveExpiry dt s
  | .reportEntryPlace dt till => Sys2Proof.Machine.execReportEntryPlace dt till s
  | .pageEcc dt source word => Sys2Proof.Machine.execPageEcc dt source word s
  | .powerOn dt supply => Sys2Proof.Machine.execPowerOn dt supply s
  | .bootCheck dt digestsOk => Sys2Proof.Machine.execBootCheck dt digestsOk s
  | .vaultStage dt => Sys2Proof.Machine.execVaultStage dt s
  | .sliceReload dt slice outcome => Sys2Proof.Machine.execSliceReload dt slice outcome s
  | .helloWaitExpiry dt slice => Sys2Proof.Machine.execHelloWaitExpiry dt slice s
  | .firstLampControl dt => Sys2Proof.Machine.execFirstLampControl dt s
  | .ringReady dt east west => Sys2Proof.Machine.execRingReady dt east west s
  | .hubWarmReset dt cause => Sys2Proof.Machine.execHubWarmReset dt cause s
  | .lockstepTeller dt => Sys2Proof.Machine.execLockstepTeller dt s
  | .lockstepKeeper dt => Sys2Proof.Machine.execLockstepKeeper dt s
  | .keeperStall dt => Sys2Proof.Machine.execKeeperStall dt s
  | .keeperHeartbeatReturn dt => Sys2Proof.Machine.execKeeperHeartbeatReturn dt s
  | .hubWatchdog dt => Sys2Proof.Machine.execHubWatchdog dt s
  | .fatalError dt cause => Sys2Proof.Machine.execFatalError dt cause s
  | .hubOvertemp dt temp => Sys2Proof.Machine.execHubOvertemp dt temp s
  | .verdict dt slice hdr bin cyc codes => Sys2Proof.Machine.execVerdict dt slice hdr bin cyc codes s
  | .sliceSilent dt slice => Sys2Proof.Machine.execSliceSilent dt slice s
  | .samples dt slice hdr bin steps => Sys2Proof.Machine.execSamples dt slice hdr bin steps s
  | .xing dt slice hdr rising stamp => Sys2Proof.Machine.execXing dt slice hdr rising stamp s
  | .sliceReply dt slice hdr ofSeq ans => Sys2Proof.Machine.execSliceReply dt slice hdr ofSeq ans s
  | .trip dt slice hdr pos => Sys2Proof.Machine.execTrip dt slice hdr pos s
  | .sliceHello dt slice good cause => Sys2Proof.Machine.execSliceHello dt slice good cause s
  | .sliceLinkDeadline dt slice seq => Sys2Proof.Machine.execSliceLinkDeadline dt slice seq s
  | .sliceLinkSilence dt slice => Sys2Proof.Machine.execSliceLinkSilence dt slice s
  | .sliceReissue dt slice => Sys2Proof.Machine.execSliceReissue dt slice s
  | .calibrationUpdate dt slice => Sys2Proof.Machine.execCalibrationUpdate dt slice s
  | .timeFrameSend dt => Sys2Proof.Machine.execTimeFrameSend dt s
  | .planDispatch dt id => Sys2Proof.Machine.execPlanDispatch dt id s
  | .load dt slice hdr start block => Sys2Proof.Machine.execLoad dt slice hdr start block s
  | .plan dt slice hdr body => Sys2Proof.Machine.execPlan dt slice hdr body s
  | .timeFrame dt slice hdr body => Sys2Proof.Machine.execTimeFrame dt slice hdr body s
  | .sliceRequest dt slice hdr req => Sys2Proof.Machine.execSliceRequest dt slice hdr req s
  | .linkResetSequence dt slice => Sys2Proof.Machine.execLinkResetSequence dt slice s
  | .sliceHubSilence dt slice => Sys2Proof.Machine.execSliceHubSilence dt slice s
  | .sliceHelloTimer dt slice => Sys2Proof.Machine.execSliceHelloTimer dt slice s
  | .storedFallbackHalfCycle dt slice => Sys2Proof.Machine.execStoredFallbackHalfCycle dt slice s
  | .sliceBinEnd dt slice bin codes => Sys2Proof.Machine.execSliceBinEnd dt slice bin codes s
  | .swatchTrack dt slice pos => Sys2Proof.Machine.execSwatchTrack dt slice pos s
  | .overcurrentTrip dt channel peak => Sys2Proof.Machine.execOvercurrentTrip dt channel peak s
  | .thermalCut dt slice => Sys2Proof.Machine.execThermalCut dt slice s
  | .openWireChannelTest dt channel => Sys2Proof.Machine.execOpenWireChannelTest dt channel s
  | .swatchLearnBegin dt channel => Sys2Proof.Machine.execSwatchLearnBegin dt channel s
  | .swatchLearnDone dt channel => Sys2Proof.Machine.execSwatchLearnDone dt channel s
  | .flywheelEntry dt => Sys2Proof.Machine.execFlywheelEntry dt s
  | .alternateTakeover dt => Sys2Proof.Machine.execAlternateTakeover dt s
  | .primaryReturn dt stamp => Sys2Proof.Machine.execPrimaryReturn dt stamp s
  | .domainHoldEntry dt => Sys2Proof.Machine.execDomainHoldEntry dt s
  | .cycleStart dt => Sys2Proof.Machine.execCycleStart dt s
  | .cycleCheckpoint dt => Sys2Proof.Machine.execCycleCheckpoint dt s
  | .halfCycleBoundary dt means => Sys2Proof.Machine.execHalfCycleBoundary dt means s
  | .planEntryAction dt id => Sys2Proof.Machine.execPlanEntryAction dt id s
  | .zeroCrossTimeout dt channel => Sys2Proof.Machine.execZeroCrossTimeout dt channel s
  | .flashBoundary dt => Sys2Proof.Machine.execFlashBoundary dt s
  | .dimFiring dt channel => Sys2Proof.Machine.execDimFiring dt channel s
  | .fallbackApply dt slice => Sys2Proof.Machine.execFallbackApply dt slice s
  | .vitalOkResume dt => Sys2Proof.Machine.execVitalOkResume dt s
  | .mainsValid dt dv => Sys2Proof.Machine.execMainsValid dt dv s
  | .mainsInvalid dt dv => Sys2Proof.Machine.execMainsInvalid dt dv s
  | .backupValid dt cv => Sys2Proof.Machine.execBackupValid dt cv s
  | .backupInvalid dt cv => Sys2Proof.Machine.execBackupInvalid dt cv s
  | .toMains dt => Sys2Proof.Machine.execToMains dt s
  | .backupIntegrate dt groats => Sys2Proof.Machine.execBackupIntegrate dt groats s
  | .backupCheckpoint dt => Sys2Proof.Machine.execBackupCheckpoint dt s
  | .backupRefill dt => Sys2Proof.Machine.execBackupRefill dt s
  | .thermalModel dt slice hub => Sys2Proof.Machine.execThermalModel dt slice hub s
  | .standbyCountdown dt => Sys2Proof.Machine.execStandbyCountdown dt s
  | .standbyCheckpoint dt => Sys2Proof.Machine.execStandbyCheckpoint dt s
  | .halfCycleCommit dt => Sys2Proof.Machine.execHalfCycleCommit dt s
  | .persistencePass dt => Sys2Proof.Machine.execPersistencePass dt s
  | .demandClose dt => Sys2Proof.Machine.execDemandClose dt s
  | .tariffChange dt => Sys2Proof.Machine.execTariffChange dt s
  | .linkUp dt lane fec => Sys2Proof.Machine.execLinkUp dt lane fec s
  | .laneLockLoss dt lane => Sys2Proof.Machine.execLaneLockLoss dt lane s
  | .unwrap dt side => Sys2Proof.Machine.execUnwrap dt side s
  | .hello dt hdr position claim variant flags name epochSeen => Sys2Proof.Machine.execHello dt hdr position claim variant flags name epochSeen s
  | .helloSend dt => Sys2Proof.Machine.execHelloSend dt s
  | .helloTimeout dt side => Sys2Proof.Machine.execHelloTimeout dt side s
  | .echo dt lane tickSent => Sys2Proof.Machine.execEcho dt lane tickSent s
  | .echoReply dt lane tickSent turn => Sys2Proof.Machine.execEchoReply dt lane tickSent turn s
  | .authA dt hdr na => Sys2Proof.Machine.execAuthA dt hdr na s
  | .authB dt hdr nb mb => Sys2Proof.Machine.execAuthB dt hdr nb mb s
  | .authC dt hdr ma => Sys2Proof.Machine.execAuthC dt hdr ma s
  | .authRetry dt side => Sys2Proof.Machine.execAuthRetry dt side s
  | .domainJoin dt => Sys2Proof.Machine.execDomainJoin dt s
  | .enumerate dt hdr count wWard all384 ringSize highest => Sys2Proof.Machine.execEnumerate dt hdr count wWard all384 ringSize highest s
  | .enumDone dt hdr positions form refList => Sys2Proof.Machine.execEnumDone dt hdr positions form refList s
  | .enumRefuse dt hdr cause => Sys2Proof.Machine.execEnumRefuse dt hdr cause s
  | .enumTimeout dt highest => Sys2Proof.Machine.execEnumTimeout dt highest s
  | .slotNotice dt hdr weft slot loop => Sys2Proof.Machine.execSlotNotice dt hdr weft slot loop s
  | .escrowAck dt hdr revision => Sys2Proof.Machine.execEscrowAck dt hdr revision s
  | .weftHeader dt lane h => Sys2Proof.Machine.execWeftHeader dt lane h s
  | .weftHeaderSend dt => Sys2Proof.Machine.execWeftHeaderSend dt s
  | .referenceTakeover dt => Sys2Proof.Machine.execReferenceTakeover dt s
  | .insertion dt duration => Sys2Proof.Machine.execInsertion dt duration s
  | .ringFrameForward dt lane ty hdr payload good inserted reach => Sys2Proof.Machine.execRingFrameForward dt lane ty hdr payload good inserted reach s
  | .request dt hdr opcode p => Sys2Proof.Machine.execRequest dt hdr opcode p s
  | .ringReply dt hdr r => Sys2Proof.Machine.execRingReply dt hdr r s
  | .ringReplyTimeout dt till => Sys2Proof.Machine.execRingReplyTimeout dt till s
  | .block dt side hdr b => Sys2Proof.Machine.execBlock dt side hdr b s
  | .escrow dt side hdr position epoch revision total offset data mac => Sys2Proof.Machine.execEscrow dt side hdr position epoch revision total offset data mac s
  | .presence dt hdr position variant epoch => Sys2Proof.Machine.execPresence dt hdr position variant epoch s
  | .change dt hdr cause subject epoch => Sys2Proof.Machine.execChange dt hdr cause subject epoch s
  | .event dt hdr r => Sys2Proof.Machine.execEvent dt hdr r s
  | .updOpen dt hdr u clean manifest => Sys2Proof.Machine.execUpdOpen dt hdr u clean manifest s
  | .need dt side hdr u first count => Sys2Proof.Machine.execNeed dt side hdr u first count s
  | .blockStall dt => Sys2Proof.Machine.execBlockStall dt s
  | .voteCall dt hdr u angle cycle => Sys2Proof.Machine.execVoteCall dt hdr u angle cycle s
  | .vote dt hdr u yes => Sys2Proof.Machine.execVote dt hdr u yes s
  | .voteClose dt => Sys2Proof.Machine.execVoteClose dt s
  | .voteRelease dt hdr u => Sys2Proof.Machine.execVoteRelease dt hdr u s
  | .updateCtlCommit dt hdr u cycle => Sys2Proof.Machine.execUpdateCtlCommit dt hdr u cycle s
  | .commitInstant dt => Sys2Proof.Machine.execCommitInstant dt s
  | .trialPass dt => Sys2Proof.Machine.execTrialPass dt s
  | .trialResend dt => Sys2Proof.Machine.execTrialResend dt s
  | .trial dt hdr u cycle => Sys2Proof.Machine.execTrial dt hdr u cycle s
  | .trialDeadline dt => Sys2Proof.Machine.execTrialDeadline dt s
  | .updateCtlConfirm dt hdr u readBurnt => Sys2Proof.Machine.execUpdateCtlConfirm dt hdr u readBurnt s
  | .confirmed dt hdr u => Sys2Proof.Machine.execConfirmed dt hdr u s
  | .confirmDeadline dt => Sys2Proof.Machine.execConfirmDeadline dt s
  | .updateCtlUnwind dt hdr u => Sys2Proof.Machine.execUpdateCtlUnwind dt hdr u s
  | .unwound dt hdr u => Sys2Proof.Machine.execUnwound dt hdr u s
  | .updAbort dt hdr u => Sys2Proof.Machine.execUpdAbort dt hdr u s
  | .healthTestFail dt test => Sys2Proof.Machine.execHealthTestFail dt test s
  | .entropyRestart dt => Sys2Proof.Machine.execEntropyRestart dt s
  | .startupTestDone dt failure => Sys2Proof.Machine.execStartupTestDone dt failure s
  | .reseed dt => Sys2Proof.Machine.execReseed dt s
  | .entropyRequestDeadline dt => Sys2Proof.Machine.execEntropyRequestDeadline dt s
  | .character dt port c startOne stopOne noisy => Sys2Proof.Machine.execCharacter dt port c startOne stopOne noisy s
  | .receiveTimeout dt port => Sys2Proof.Machine.execReceiveTimeout dt port s
  | .serialBreak dt port bits lpo => Sys2Proof.Machine.execSerialBreak dt port bits lpo s
  | .dropWake dt c stopOne noisy => Sys2Proof.Machine.execDropWake dt c stopOne noisy s
  | .dropResume dt => Sys2Proof.Machine.execDropResume dt s
  | .bistDone dt found => Sys2Proof.Machine.execBistDone dt found s
  | .notWellFormedPacket dt opcode p => Sys2Proof.Machine.execNotWellFormedPacket dt opcode p s
  | .undefinedOpcode dt opcode p => Sys2Proof.Machine.execUndefinedOpcode dt opcode p s
  | .reserveArmed dt groats => Sys2Proof.Machine.execReserveArmed dt groats s
  | .sliceWatchdog dt slice => Sys2Proof.Machine.execSliceWatchdog dt slice s
  | .sliceSupplyLoss dt slice => Sys2Proof.Machine.execSliceSupplyLoss dt slice s
  | .enumRefuseSend dt => Sys2Proof.Machine.execEnumRefuseSend dt s
  | .replySentInFull dt port => Sys2Proof.Machine.execReplySentInFull dt port s
  | .uartBreakEnd dt port => Sys2Proof.Machine.execUartBreakEnd dt port s
  | .vaultScrub dt => Sys2Proof.Machine.execVaultScrub dt s
  | .inrushWindowEnd dt channel => Sys2Proof.Machine.execInrushWindowEnd dt channel s

end Sys2Proof.Machine
end

