-- ==== Sys2Proof/Safety.lean ====
section
/-! DEFINITION. The terms in which statements are made: an admitted packet, the module at the moment a command acts, the
canonical form of the tables, and when VITAL-OK may toggle. -/

namespace Sys2Proof.Machine
open Sys2Proof

/-- The window's memory, passbook and till table are in their canonical form. -/
def Safe (m : Module) : Prop :=
  Memory.wf m.win.mem = true ∧ Tbl.wf 0 m.win.passbook = true ∧ Tbl.wf Till.closed m.win.tills = true

/-- VITAL-OK is driven closed only while no condition of R225 holds and R51 has been met since the hub reset. -/
def VitalSafe (m : Module) : Prop := m.prov.toggling = true → m.vitalFree = true

/-- A run that stops nowhere: the next step answers a next state. -/
def Runs (s : State) : Prop := ∃ t, step s = .next t

/-- A packet's row at its turn: the module `dt` ticks after the command before, the packet out of the queue. -/
def State.turn (s : State) (dt : Nat) (p : Packet) : Module := (s.m.elapse dt).dequeue p

/-- The packet is taken: no TILL_SRAM test runs (R435), its path is served (R49, R50, R324, R444), and it is the next of those that
have arrived (R39). -/
def Taken (code : Word16) (p : Packet) (s : State) (dt : Nat) : Prop :=
  (s.m.elapse dt).tillTest = false ∧ (s.m.elapse dt).takes p.path = true ∧ (s.m.elapse dt).atTurn code p true = true

/-- The packet is taken, is new, is meant for this position, and passes every check of R139. -/
def Admitted (op : Op) (p : Packet) (s : State) (dt : Nat) : Prop :=
  Taken op.code p s dt ∧ (s.turn dt p).retried op.code p = none ∧ (s.turn dt p).aim op p = .here ∧
    (s.turn dt p).check op p = none

/-- A plan entry as CHANNEL_SET, ASPECT_SHOW and FLASH_SET make it: it joins the plan behind those taken before it. -/
def Module.withPlan (m : Module) (till : Option Word16) (due : Nat) (acts : List (Nat × Shown))
    (flash : Option (Nat × Nat × Nat × Nat)) : Module :=
  { m with lamps := { m.lamps with
    plans := m.lamps.plans ++ [{ id := m.lamps.nextPlan, till := till, due := due, acts := acts, flash := flash,
                                 sent := false, held := [] }]
    nextPlan := m.lamps.nextPlan + 1 } }

/-- What a hub reset other than power-on leaves of the module `m` (R54, R63-R66, R149, R440). -/
structure HubReset (m t : Module) (cause : ResetCause) : Prop where
  /-- Start-up begins at the boot ROM. -/
  stage : t.stage = .boot
  /-- The cause is latched behind an unread one, and counted (R65). -/
  first : t.firstCause = if m.firstCause = 0 then cause.code else m.firstCause
  latest : t.latestCause = cause.code
  unread : t.unread = if m.unread < 255 then m.unread + 1 else 255
  /-- Tick, cycle and angle run on (R52, R64). -/
  clk : t.clk = m.clk
  /-- Window contents are kept, or zeroed by COLD (R64). -/
  mem : ∀ a, Memory.read t.win.mem a = if cause = .hostCold then 0 else Memory.read m.win.mem a
  /-- Host pages stay the host's; the till table is zeroed and the attachment ended (R64). -/
  tills : t.win.tills = []
  attached : t.win.attached = false
  pages : ∀ k, t.win.code k = 1 ↔ m.win.code k = 1 ∧ cause ≠ .hostCold
  /-- No packet taken before is answered, and no reply memory survives (R66, R149). -/
  tel : t.tel = Teller.reset
  /-- Fault records, learnings and VITAL-OK start afresh (R51, R64). -/
  prov : t.prov = { Proving.reset with coreFb := true, lastToggle := if m.prov.toggling then m.clk.tick.toNat else m.prov.lastToggle }
  /-- Ring state starts afresh, with every lane down (R64). -/
  ring : t.ring = Ring.reset
  /-- No command, start pattern, plan or aspect survives; the module fallback is in force on every channel (R54, R63). -/
  chans : ∀ c, (t.chan c).cmd = none ∧ (t.chan c).start = none
  plans : t.lamps.plans = []
  aspects : t.lamps.aspects = []
  /-- The banks and the vault's configuration are kept (R64). -/
  banks : t.upd.bank0 = m.upd.bank0 ∧ t.upd.bank1 = m.upd.bank1 ∧ t.upd.swapped = m.upd.swapped
  config : t.vault.config = m.vault.config
  epoch : t.vault.hubEpoch = m.vault.hubEpoch

end Sys2Proof.Machine
end

