-- ==== Sys2Proof/WellFormed.lean ====
section
/-! DEFINITION. When a command is well formed: its operands fit the fields that carry them. -/

namespace Sys2Proof

/-- A slice position of the largest variant (R3). -/
def sliceOk (n : Nat) : Bool := decide (n < 24)
/-- A channel of the largest variant (R3). -/
def channelOk (n : Nat) : Bool := decide (n < 384)

/-- A packet fits its header: at most 65,504 parameter bytes, and a ring source is a position (R132, R140). -/
def Packet.wf (p : Packet) : Bool :=
  decide (p.params.length ≤ 65504) &&
    (match p.path with | .ring src _ => decide (src.toNat < 64) | _ => true)

/-- A slot frame's header: a loop, a source position, a destination (R275). -/
def RingHdr.wf (h : RingHdr) : Bool :=
  decide (h.loop < 2) && decide (h.src.toNat < 64) && (decide (h.dst.toNat < 64) || h.dst == 0xFE)

/-- An escrow copy: at most 192 KiB with a 32-byte HMAC (R29, R44). -/
def Escrow.wf (e : Escrow) : Bool := decide (e.bytes.length ≤ 196608) && decide (e.mac.length = 32)

/-- A weft header names a loop (R274). -/
def WeftHdr.wf (h : WeftHdr) : Bool := decide (h.loop < 2)

/-- The opcodes of the opcode tables, group by group: the last number of each group (R156). -/
def definedOpcode (op : Word16) : Bool :=
  let n := op.toNat % 256
  let last := match op.toNat / 256 with
    | 1 => 11 | 2 => 6 | 3 => 7 | 4 => 4 | 5 => 3 | 6 => 5 | 7 => 9 | 8 => 4 | 9 => 3 | 10 => 3 | _ => 0
  decide (1 ≤ n) && decide (n ≤ last)

/-- A bin's conversions: four steps, of which an odd one holds VBUS_A and the 16 currents, an even one at least VBUS_A and VBUS_B
(R242). -/
def stepsOk (lengths : List Nat) : Bool :=
  match lengths with
  | [a, b, c, d] => decide (2 ≤ a) && b == 17 && decide (2 ≤ c) && d == 17
  | _ => false

/-- The sums of a load's conversions: the entries 2 to 39 of the auxiliary sequence (R243, R244). -/
def LoadOutcome.wf : LoadOutcome → Bool
  | .measured sums => sums.length == 38
  | _ => true

/-- A load block fits its 18 paths, its 16 positions or its swatch's 128 bins (R56, R207, R244). -/
def LoadBlock.wf : LoadBlock → Bool
  | .firmware => true
  | .calibration paths _ => paths.length == 18
  | .swatch pos w => decide (pos < 16) && w.bins.length == 128
  | .fallback patterns => patterns.length == 16
  | .startPattern patterns => patterns.length == 16

/-- A PLAN frame holds up to 32 entries of the slice's channels (R230). -/
def PlanBody.wf : PlanBody → Bool
  | .entries acts => decide (acts.length ≤ 32) && acts.all (fun a => decide (a.pos < 16))
  | .calibration paths => paths.length == 18
  | .fallback patterns => patterns.length == 16
  | .flash gen _ _ _ => decide (gen < 2)
  | .values pos _ _ _ _ => decide (pos < 16)
  | .swatch pos w => decide (pos < 16) && w.bins.length == 128

/-- A command's operands fit their fields. -/
def wellFormed : Instr → Bool
  | .capabilityRead _ p => p.wf
  | .statusRead _ p => p.wf
  | .timeRead _ p => p.wf
  | .tillOpen _ p => p.wf
  | .tillClose _ p => p.wf
  | .tillRead _ p => p.wf
  | .scheduleCancel _ p => p.wf
  | .tagQuery _ p => p.wf
  | .reset _ p => p.wf
  | .configWrite _ p => p.wf
  | .configRead _ p => p.wf
  | .channelSet _ p => p.wf
  | .aspectDefine _ p => p.wf
  | .aspectShow _ p => p.wf
  | .aspectDelete _ p => p.wf
  | .flashSet _ p => p.wf
  | .channelRead _ p => p.wf
  | .swatchLearn _ p => p.wf
  | .swatchRead _ p => p.wf
  | .swatchMode _ p => p.wf
  | .responseSet _ p => p.wf
  | .faultRead _ p => p.wf
  | .faultClear _ p => p.wf
  | .openWireTest _ p => p.wf
  | .ringStatus _ p => p.wf
  | .laneStatus _ p => p.wf
  | .ringEnumerate _ p => p.wf
  | .escrowPush _ p => p.wf
  | .ledgerRead _ p => p.wf
  | .ledgerSet _ p => p.wf
  | .standbyEnter _ p => p.wf
  | .energyRead _ p => p.wf
  | .tariffAt _ p => p.wf
  | .demandSet _ p => p.wf
  | .demandRead _ p => p.wf
  | .boundaryRead _ p => p.wf
  | .updateOpen _ p => p.wf
  | .blockPut _ p => p.wf
  | .updateStatus _ p => p.wf
  | .prepare _ p => p.wf
  | .commit _ p => p.wf
  | .confirm _ p => p.wf
  | .unwind _ p => p.wf
  | .updateAbort _ p => p.wf
  | .recoverActivate _ p => p.wf
  | .random _ p => p.wf
  | .entropyStatus _ p => p.wf
  | .domainKeyWrite _ p => p.wf
  | .cosignKeySet _ p => p.wf
  | .uartSet _ p => p.wf
  | .uartStatus _ p => p.wf
  | .uartBreak _ p => p.wf
  | .bistRun _ p => p.wf
  | .dumpSummary _ p => p.wf
  | .dumpRelease _ p => p.wf
  | .doorbell _ _ _ _ => true
  | .attach _ _ => true
  | .detach _ => true
  | .keepalive _ _ => true
  | .pxRequest _ _ _ _ _ _ => true
  | .pendingClear _ first data => decide (0 < data.length) && decide (first + data.length ≤ 512)
  | .wr _ _ data _ => decide (0 < data.length) && decide (data.length ≤ 65536)
  | .rd _ tag _ _ _ => decide (tag < 65536)
  | .hostHello _ _ => true
  | .keepaliveExpiry _ => true
  | .reportEntryPlace _ _ => true
  | .pageEcc _ source word => decide (source.toNat ≤ 3) && decide (word.toNat < 0x4000000) && decide (word.toNat % 8 = 0)
  | .powerOn _ _ => true
  | .bootCheck _ _ => true
  | .vaultStage _ => true
  | .sliceReload _ slice outcome => sliceOk slice && outcome.wf
  | .helloWaitExpiry _ slice => sliceOk slice
  | .firstLampControl _ => true
  | .ringReady _ east west => east.all Escrow.wf && west.all Escrow.wf
  | .hubWarmReset _ _ => true
  | .lockstepTeller _ => true
  | .lockstepKeeper _ => true
  | .keeperStall _ => true
  | .keeperHeartbeatReturn _ => true
  | .hubWatchdog _ => true
  | .fatalError _ _ => true
  | .hubOvertemp _ _ => true
  | .verdict _ slice _ bin _ _ => sliceOk slice && decide (bin < 128)
  | .sliceSilent _ slice => sliceOk slice
  | .samples _ slice _ bin steps => sliceOk slice && decide (bin < 128) && stepsOk (steps.map List.length)
  | .xing _ slice _ _ stamp => sliceOk slice && decide (stamp < 2 ^ 64)
  | .sliceReply _ slice _ _ _ => sliceOk slice
  | .trip _ slice _ pos => sliceOk slice && (match pos with | some k => decide (k < 16) | none => true)
  | .sliceHello _ slice _ _ => sliceOk slice
  | .sliceLinkDeadline _ slice _ => sliceOk slice
  | .sliceLinkSilence _ slice => sliceOk slice
  | .sliceReissue _ slice => sliceOk slice
  | .calibrationUpdate _ slice => sliceOk slice
  | .timeFrameSend _ => true
  | .planDispatch _ _ => true
  | .load _ slice _ _ block => sliceOk slice && block.wf
  | .plan _ slice _ body => sliceOk slice && body.wf
  | .timeFrame _ slice _ _ => sliceOk slice
  | .sliceRequest _ slice _ _ => sliceOk slice
  | .linkResetSequence _ slice => sliceOk slice
  | .sliceHubSilence _ slice => sliceOk slice
  | .sliceHelloTimer _ slice => sliceOk slice
  | .storedFallbackHalfCycle _ slice => sliceOk slice
  | .sliceBinEnd _ slice bin codes => sliceOk slice && decide (bin < 128) && stepsOk (codes.map List.length)
  | .swatchTrack _ slice pos => sliceOk slice && decide (pos < 16)
  | .overcurrentTrip _ channel _ => channelOk channel
  | .thermalCut _ slice => sliceOk slice
  | .openWireChannelTest _ channel => channelOk channel
  | .swatchLearnBegin _ channel => channelOk channel
  | .swatchLearnDone _ channel => channelOk channel
  | .flywheelEntry _ => true
  | .alternateTakeover _ => true
  | .primaryReturn _ _ => true
  | .domainHoldEntry _ => true
  | .cycleStart _ => true
  | .cycleCheckpoint _ => true
  | .halfCycleBoundary _ means => decide (means.length ≤ 24)
  | .planEntryAction _ _ => true
  | .zeroCrossTimeout _ channel => channelOk channel
  | .flashBoundary _ => true
  | .dimFiring _ channel => channelOk channel
  | .fallbackApply _ slice => sliceOk slice
  | .vitalOkResume _ => true
  | .mainsValid _ _ => true
  | .mainsInvalid _ _ => true
  | .backupValid _ _ => true
  | .backupInvalid _ _ => true
  | .toMains _ => true
  | .backupIntegrate _ _ => true
  | .backupCheckpoint _ => true
  | .backupRefill _ => true
  | .thermalModel _ slice _ => sliceOk slice
  | .standbyCountdown _ => true
  | .standbyCheckpoint _ => true
  | .halfCycleCommit _ => true
  | .persistencePass _ => true
  | .demandClose _ => true
  | .tariffChange _ => true
  | .linkUp _ _ _ => true
  | .laneLockLoss _ _ => true
  | .unwrap _ _ => true
  | .hello _ hdr _ _ _ _ _ _ => hdr.lane != Lane.h
  | .helloSend _ => true
  | .helloTimeout _ _ => true
  | .echo _ lane _ => lane != Lane.h
  | .echoReply _ lane _ _ => lane != Lane.h
  | .authA _ hdr na => hdr.lane != Lane.h && decide (na.length = 16)
  | .authB _ hdr nb mb => hdr.lane != Lane.h && decide (nb.length = 16) && decide (mb.length = 32)
  | .authC _ hdr ma => hdr.lane != Lane.h && decide (ma.length = 32)
  | .authRetry _ _ => true
  | .domainJoin _ => true
  | .enumerate _ hdr _ _ _ ringSize highest => hdr.lane != Lane.h && decide (ringSize ≤ 64) && decide (highest < 256)
  | .enumDone _ hdr _ _ refList => hdr.lane != Lane.h && decide (refList.length = 4)
  | .enumRefuse _ hdr _ => hdr.lane != Lane.h
  | .enumTimeout _ highest => decide (highest < 256)
  | .slotNotice _ hdr _ _ _ => hdr.lane != Lane.h
  | .escrowAck _ hdr _ => hdr.lane != Lane.h
  | .weftHeader _ lane h => lane != Lane.h && h.wf
  | .weftHeaderSend _ => true
  | .referenceTakeover _ => true
  | .insertion _ _ => true
  | .ringFrameForward _ lane _ hdr payload _ _ _ => lane != Lane.h && hdr.wf && decide (payload.length ≤ 65536)
  | .request _ hdr _ p => hdr.wf && p.wf
  | .ringReply _ hdr r => hdr.wf && decide (r.payload.length ≤ 4064)
  | .ringReplyTimeout _ _ => true
  | .block _ _ hdr b => hdr.wf && decide (b.length ≤ 65536)
  | .escrow _ _ hdr _ _ _ _ _ data mac => hdr.wf && decide (data.length ≤ 65536) && decide (mac.length = 32)
  | .presence _ hdr position _ _ => hdr.wf && decide (position.toNat < 64)
  | .change _ hdr _ _ _ => hdr.wf
  | .event _ hdr r => hdr.wf && decide (r.payload.length ≤ 4064)
  | .updOpen _ hdr _ _ _ => hdr.wf
  | .need _ _ hdr _ _ _ => hdr.wf
  | .blockStall _ => true
  | .voteCall _ hdr _ _ _ => hdr.wf
  | .vote _ hdr _ _ => hdr.wf
  | .voteClose _ => true
  | .voteRelease _ hdr _ => hdr.wf
  | .updateCtlCommit _ hdr _ _ => hdr.wf
  | .commitInstant _ => true
  | .trialPass _ => true
  | .trialResend _ => true
  | .trial _ hdr _ _ => hdr.wf
  | .trialDeadline _ => true
  | .updateCtlConfirm _ hdr _ readBurnt => hdr.wf && decide (readBurnt ≤ 255)
  | .confirmed _ hdr _ => hdr.wf
  | .confirmDeadline _ => true
  | .updateCtlUnwind _ hdr _ => hdr.wf
  | .unwound _ hdr _ => hdr.wf
  | .updAbort _ hdr _ => hdr.wf
  | .healthTestFail _ _ => true
  | .entropyRestart _ => true
  | .startupTestDone _ _ => true
  | .reseed _ => true
  | .entropyRequestDeadline _ => true
  | .character _ _ _ _ _ _ => true
  | .receiveTimeout _ _ => true
  | .serialBreak _ _ _ _ => true
  | .dropWake _ _ _ _ => true
  | .dropResume _ => true
  | .bistDone _ found => decide (found.lanes.length ≤ 5) && found.paths.all (fun l => decide (l.length = 19))
  | .notWellFormedPacket _ _ p => p.wf
  | .undefinedOpcode _ opcode p => p.wf && !definedOpcode opcode
  | .reserveArmed _ _ => true
  | .sliceWatchdog _ slice => sliceOk slice
  | .sliceSupplyLoss _ slice => sliceOk slice
  | .enumRefuseSend _ => true
  | .replySentInFull _ _ => true
  | .uartBreakEnd _ _ => true
  | .vaultScrub _ => true
  | .inrushWindowEnd _ channel => channelOk channel

end Sys2Proof
end

