-- ==== Sys2Proof/Certificates/Slice0/Obligations.lean ====
section
/-! DEFINITION. The statements for the provers. Throughout, `s.turn dt p` is the module when a packet's row acts, and
`s.m.elapse dt` when any other row acts; every statement of a row says the whole next state, so that what it does not name
is unchanged. -/

open Sys2Proof Sys2Proof.Machine

/-! ### Opcodes: what each does with an admitted packet -/

/-- CAPABILITY_READ, STATUS_READ, TIME_READ, TILL_READ, TAG_QUERY and CONFIG_READ answer and change nothing else, but
that STATUS_READ with CLEAR 0 clears the causes (R65, R162) and TIME_READ clears STEPPED (R74). The other reads answer
from the state and change nothing but what an answer changes; a DEMAND_READ with RESET_MAX clears the maximum after
its values are taken (R338). Where it goes beyond the rules, it states the model's own readings: log 21, 24, 30, 71, 72. -/
def Obligations.Reads : Prop :=
  ((∀ (s : State) (dt : Nat) (p : Packet) (m : Module), m = s.turn dt p → Admitted opCapabilityRead p s dt →
     exec (.capabilityRead dt p) s = .next { s with m := m.answer 0x0101 p 0 stOk 0 m.capability }) ∧
   (∀ (s : State) (dt : Nat) (p : Packet) (m : Module), m = s.turn dt p → Admitted opStatusRead p s dt →
     p.field 0 1 = 0 →
     exec (.statusRead dt p) s = .next { s with
       m := { m with firstCause := 0, latestCause := 0, unread := 0 }.answer 0x0102 p 0 stOk 0 m.statusPayload }) ∧
   (∀ (s : State) (dt : Nat) (p : Packet) (m : Module), m = s.turn dt p → Admitted opStatusRead p s dt →
     p.field 0 1 = 1 →
     exec (.statusRead dt p) s = .next { s with m := m.answer 0x0102 p 0 stOk 0 m.statusPayload }) ∧
   (∀ (s : State) (dt : Nat) (p : Packet) (m : Module), m = s.turn dt p → Admitted opTimeRead p s dt →
     exec (.timeRead dt p) s = .next { s with
       m := { m with clk := { m.clk with stepped := false } }.answer 0x0103 p 0 stOk 0 m.timePayload }) ∧
   (∀ (s : State) (dt : Nat) (p : Packet) (m : Module), m = s.turn dt p → Admitted opTillRead p s dt →
     exec (.tillRead dt p) s = .next { s with
       m := m.answer 0x0106 p 0 stOk 0 (m.tillBytes (BitVec.ofNat 16 (p.field 0 2))) }) ∧
   (∀ (s : State) (dt : Nat) (p : Packet) (m : Module), m = s.turn dt p → Admitted opTagQuery p s dt →
     exec (.tagQuery dt p) s = .next { s with m := m.answer 0x0108 p 0 stOk 0 (m.tagPayload p) }) ∧
   (∀ (s : State) (dt : Nat) (p : Packet) (m : Module), m = s.turn dt p → Admitted opConfigRead p s dt →
     exec (.configRead dt p) s = .next { s with
       m := m.answer 0x010B p 0 stOk 0 (u32 (m.region (p.field 0 1)).1 ++ u32 (m.region (p.field 0 1)).2.length ++
         u32 (p.field 4 4) ++ rsv 4 ++ (((m.region (p.field 0 1)).2.drop (p.field 4 4)).take (p.field 2 2))) })) ∧
  ((∀ (s : State) (dt : Nat) (p : Packet) (m : Module), m = s.turn dt p → Admitted opChannelRead p s dt →
     exec (.channelRead dt p) s = .next { s with
       m := m.answer 0x0206 p 0 stOk 0 (p.range.map m.channelEntry).flatten }) ∧
   (∀ (s : State) (dt : Nat) (p : Packet) (m : Module), m = s.turn dt p → Admitted opFaultRead p s dt →
     exec (.faultRead dt p) s = .next { s with
       m := m.answer 0x0305 p 0 stOk 0 (u16 (m.faultPage p.range 507).1.length ++ u16 (m.faultPage p.range 507).2 ++
         (m.faultPage p.range 507).1.flatten) }) ∧
   (∀ (s : State) (dt : Nat) (p : Packet) (m : Module), m = s.turn dt p → Admitted opRingStatus p s dt →
     exec (.ringStatus dt p) s = .next { s with m := m.answer 0x0401 p 0 stOk 0 m.ringPayload }) ∧
   (∀ (s : State) (dt : Nat) (p : Packet) (m : Module) (l : Lane), m = s.turn dt p →
     Admitted opLaneStatus p s dt → laneOf (p.field 0 1) = some l →
     exec (.laneStatus dt p) s = .next { s with m := m.answer 0x0402 p 0 stOk 0 (lanePayload (m.lane l) m.now) }) ∧
   (∀ (s : State) (dt : Nat) (p : Packet) (m : Module), m = s.turn dt p → Admitted opLedgerRead p s dt →
     exec (.ledgerRead dt p) s = .next { s with m := m.answer 0x0501 p 0 stOk 0 m.ledgerPayload }) ∧
   (∀ (s : State) (dt : Nat) (p : Packet) (m : Module), m = s.turn dt p → Admitted opEnergyRead p s dt →
     exec (.energyRead dt p) s = .next { s with
       m := m.answer 0x0601 p 0 stOk 0
         (m.energyPayload (p.field 0 1) (p.field 1 1) (p.field 2 2) (p.field 4 2)) }) ∧
   (∀ (s : State) (dt : Nat) (p : Packet) (m : Module), m = s.turn dt p → Admitted opDemandRead p s dt →
     exec (.demandRead dt p) s = .next { s with
       m := (if p.field 0 1 = 1 then { m with meter := m.meter.setCounters [(3272, 0), (3273, 0)] }.pass else m).answer
         0x0604 p 0 stOk 0 m.demandPayload }) ∧
   (∀ (s : State) (dt : Nat) (p : Packet) (m : Module) (b : Boundary), m = s.turn dt p →
     Admitted opBoundaryRead p s dt → m.vault.records[p.field 0 2]? = some b →
     exec (.boundaryRead dt p) s = .next { s with m := m.answer 0x0605 p 0 stOk 0 b.bytes }) ∧
   (∀ (s : State) (dt : Nat) (p : Packet) (m : Module), m = s.turn dt p → Admitted opUpdateStatus p s dt →
     exec (.updateStatus dt p) s = .next { s with
       m := m.answer 0x0703 p 0 stOk m.updateStatus.1 m.updateStatus.2 }) ∧
   (∀ (s : State) (dt : Nat) (p : Packet) (m : Module), m = s.turn dt p → Admitted opEntropyStatus p s dt →
     exec (.entropyStatus dt p) s = .next { s with m := m.answer 0x0802 p 0 stOk 0 m.ent.payload }) ∧
   (∀ (s : State) (dt : Nat) (p : Packet) (m : Module), m = s.turn dt p → Admitted opUartStatus p s dt →
     exec (.uartStatus dt p) s = .next { s with
       m := m.answer 0x0902 p 0 stOk 0 (m.port (portOf (p.field 0 1))).payload }) ∧
   (∀ (s : State) (dt : Nat) (p : Packet) (m : Module), m = s.turn dt p → Admitted opDumpSummary p s dt →
     exec (.dumpSummary dt p) s = .next { s with
       m := m.answer 0x0A02 p 0 stOk 0 (summaryPart (if p.field 0 1 = 0 then m.diag.first else m.diag.last)) }))

/-- TILL_OPEN opens the till named with the fields of its block, TILL_CLOSE discards what waits for its till and
answers how many entries that were (a command till closes when every packet taken from it has its reply), and
SCHEDULE_CANCEL frees its till and drops the command (R116, R130, R160, R163). Where it goes beyond the rules, it
states the model's own readings: log 17. -/
def Obligations.TillCommands : Prop :=
  (∀ (s : State) (dt : Nat) (p : Packet) (m : Module), m = s.turn dt p → Admitted opTillOpen p s dt →
    exec (.tillOpen dt p) s = .next { s with
      m := (m.setTill (BitVec.ofNat 16 (p.field 0 2)) (fun _ =>
        { kind := BitVec.ofNat 8 (p.field 2 1), state := 1, epoch := m.vault.hostEpoch,
          link := BitVec.ofNat 16 (p.field 10 2), count := 0, errors := 0, lost := 0,
          base := BitVec.ofNat 32 (p.field 4 4), len := BitVec.ofNat 16 (p.field 8 2), prod := 0, cons := 0, due := 0,
          tag := 0 })).answer 0x0104 p 0 stOk 0 [] }) ∧
  (∀ (s : State) (dt : Nat) (p : Packet) (m : Module) (id : Word16), m = s.turn dt p →
    id = BitVec.ofNat 16 (p.field 0 2) → Admitted opTillClose p s dt → (m.till id).kind = 3 → (m.till id).state = 1 →
    exec (.tillClose dt p) s = .next { s with
      m := ({ m with win := { m.win with
          waiting := m.win.waiting.filter (fun (w : Waiting) => w.till != id)
          losses := Tbl.erase m.win.losses id.toNat
          rung := Tbl.erase m.win.rung id.toNat
          stopped := Tbl.erase m.win.stopped id.toNat
          tills := Tbl.erase m.win.tills id.toNat } }).overflows.answer 0x0105 p 0 stOk 0
        (u32 (m.win.waiting.filter (fun (w : Waiting) => w.till == id)).length) }) ∧
  (∀ (s : State) (dt : Nat) (p : Packet) (m : Module) (id : Word16), m = s.turn dt p →
    id = BitVec.ofNat 16 (p.field 0 2) → Admitted opTillClose p s dt → (m.till id).kind = 2 → (m.till id).state = 1 →
    exec (.tillClose dt p) s = .next { s with
      m := ((fun (c : Module) => if p.path = .laneH id then c else c.settleClosing id) ({ m with win := { m.win with
          waiting := m.win.waiting.filter (fun (w : Waiting) => w.till != id)
          losses := Tbl.erase m.win.losses id.toNat
          rung := Tbl.erase m.win.rung id.toNat
          stopped := Tbl.erase m.win.stopped id.toNat
          tills := Tbl.modify Till.closed m.win.tills id.toNat (fun t => { t with state := 2 }) } })).overflows.answer
        0x0105 p 0 stOk 0 (u32 (m.win.waiting.filter (fun (w : Waiting) => w.till == id)).length) }) ∧
  (∀ (s : State) (dt : Nat) (p : Packet) (m : Module) (id : Word16), m = s.turn dt p →
    id = BitVec.ofNat 16 (p.field 0 2) → Admitted opScheduleCancel p s dt →
    exec (.scheduleCancel dt p) s = .next { s with
      m := ({ m with
          win := { m.win with tills := Tbl.erase m.win.tills id.toNat }
          lamps := { m.lamps with plans := m.lamps.plans.filter (fun (e : Plan) => e.till != some id) } }).answer
        0x0107 p 0 stOk 0 [] })

/-- RESET and STANDBY_ENTER answer first and act once the reply has gone; DUMP_RELEASE frees the dump and both summary
parts; the two key opcodes write their slot (R164, R179, R324, R404, R411, R451). Where it goes beyond the rules, it
states the model's own readings: log 9, 54. -/
def Obligations.ControlCommands : Prop :=
  (∀ (s : State) (dt : Nat) (p : Packet) (m : Module), m = s.turn dt p → Admitted opReset p s dt →
    exec (.reset dt p) s = .next { s with
      m := ({ m with resetDue := some (resetCauseOf p) }.answer 0x0109 p 0 stOk 0 []).resetStep }) ∧
  (∀ (s : State) (dt : Nat) (p : Packet) (m : Module), m = s.turn dt p → Admitted opStandbyEnter p s dt →
    exec (.standbyEnter dt p) s = .next { s with
      m := ({ m with pow := { m.pow with standbyDue := true } }.answer 0x0503 p 0 stOk 0 []).standbyStep }) ∧
  (∀ (s : State) (dt : Nat) (p : Packet) (m : Module), m = s.turn dt p → Admitted opDumpRelease p s dt →
    exec (.dumpRelease dt p) s = .next { s with
      m := ({ m with
          win := { m.win with passbook := m.win.passbook.filter (fun e => !(decide (16128 ≤ e.1) && e.2 == 2)) }
          diag := { m.diag with dump := none, first := none, last := none, faults := 0 } }).answer
        0x0A03 p 0 stOk (if m.diag.dump.isSome then 0 else 1) [] }) ∧
  (∀ (s : State) (dt : Nat) (p : Packet) (m : Module) (k : List Byte), m = s.turn dt p →
    Admitted opDomainKeyWrite p s dt → m.vault.current = some k → k ≠ p.params →
    exec (.domainKeyWrite dt p) s = .next { s with
      m := ({ m with vault := { m.vault with alternate := some p.params, altPending := true } }).answer
        0x0803 p 0 stOk 0 [] }) ∧
  (∀ (s : State) (dt : Nat) (p : Packet) (m : Module), m = s.turn dt p → Admitted opDomainKeyWrite p s dt →
    (m.vault.current = some p.params → exec (.domainKeyWrite dt p) s = .next { s with
      m := (if m.vault.altPending then { m with vault := { m.vault with alternate := none, altPending := false } }
        else m).answer 0x0803 p 0 stOk 0 [] }) ∧
    (m.vault.current = none → exec (.domainKeyWrite dt p) s = .next { s with
      m := (m.firstKey p.params).answer 0x0803 p 0 stOk 0 [] })) ∧
  (∀ (s : State) (dt : Nat) (p : Packet) (m : Module), m = s.turn dt p → Admitted opCosignKeySet p s dt →
    m.vault.cosign = none → allZero (p.params.drop 36) = true → allZero ((p.params.drop 4).take 32) = false →
    exec (.cosignKeySet dt p) s = .next { s with
      m := ({ m with vault := { m.vault with cosign := some ((p.params.drop 4).take 32) } }).answer
        0x0804 p 0 stOk 0 [] }) ∧
  (∀ (s : State) (dt : Nat) (p : Packet) (m : Module) (k : List Byte), m = s.turn dt p →
    Admitted opCosignKeySet p s dt → m.vault.cosign = some k →
    exec (.cosignKeySet dt p) s = .next { s with
      m := if Config.ed25519Verify k ((p.params.drop 4).take 32) (p.params.drop 36) then
          ({ m with vault := { m.vault with
            cosign := if allZero ((p.params.drop 4).take 32) then none else some ((p.params.drop 4).take 32) } }).answer
            0x0804 p 0 stOk 0 []
        else m.answer 0x0804 p 0 0x4001 0 [] })

/-- CHANNEL_SET, ASPECT_SHOW and FLASH_SET without TIMED act 1,024 au after they are taken and hold no schedule till
(R137, R199); ASPECT_SHOW copies the contents when it is taken (R168). A timed CHANNEL_SET, ASPECT_SHOW or FLASH_SET
takes the free schedule till, acts at the instant that execute-at gives, and is answered with the till in DETAIL and
LATE_EXECUTED where LATE_OK let it in late (R113, R136-R138). Where it goes beyond the rules, it states the model's
own readings: log 5. -/
def Obligations.LampCommands : Prop :=
  ((∀ (s : State) (dt : Nat) (p : Packet) (m : Module), m = s.turn dt p → Admitted opChannelSet p s dt →
     p.flags.getLsbD 0 = false →
     exec (.channelSet dt p) s = .next { s with
       m := (m.withPlan none (m.clk.cycle.toNat * 65536 + m.clk.angle.toNat + 1024)
         (actsOf (entriesOf p 4 (p.field 0 2))) none).answer 0x0201 p 0 stOk 0 [] }) ∧
   (∀ (s : State) (dt : Nat) (p : Packet) (m : Module), m = s.turn dt p → Admitted opAspectShow p s dt →
     p.flags.getLsbD 0 = false →
     exec (.aspectShow dt p) s = .next { s with
       m := (m.withPlan none (m.clk.cycle.toNat * 65536 + m.clk.angle.toNat + 1024)
         ((aspectsOf p).map (fun a => Tbl.get [] m.lamps.aspects a)).flatten none).answer 0x0203 p 0 stOk 0 [] }) ∧
   (∀ (s : State) (dt : Nat) (p : Packet) (m : Module), m = s.turn dt p → Admitted opFlashSet p s dt →
     p.flags.getLsbD 0 = false →
     exec (.flashSet dt p) s = .next { s with
       m := (m.withPlan none (m.clk.cycle.toNat * 65536 + m.clk.angle.toNat + 1024) []
         (some (p.field 0 1, p.field 2 2, p.field 4 2, p.field 6 2))).answer 0x0205 p 0 stOk 0 [] })) ∧
  ((∀ (s : State) (dt : Nat) (p : Packet) (m : Module) (due : Nat) (late : Bool) (t : Word16), m = s.turn dt p →
     Admitted opChannelSet p s dt → p.flags.getLsbD 0 = true → m.clk.execAt p = some (due, late) → m.freeSched = some t →
     exec (.channelSet dt p) s = .next { s with
       m := ((m.schedule p t due).withPlan (some t) due (actsOf (entriesOf p 4 (p.field 0 2))) none).answer
         0x0201 p (if late then 8 else 0) stOk t [] }) ∧
   (∀ (s : State) (dt : Nat) (p : Packet) (m : Module) (due : Nat) (late : Bool) (t : Word16), m = s.turn dt p →
     Admitted opAspectShow p s dt → p.flags.getLsbD 0 = true → m.clk.execAt p = some (due, late) → m.freeSched = some t →
     exec (.aspectShow dt p) s = .next { s with
       m := ((m.schedule p t due).withPlan (some t) due
         ((aspectsOf p).map (fun a => Tbl.get [] m.lamps.aspects a)).flatten none).answer
         0x0203 p (if late then 8 else 0) stOk t [] }) ∧
   (∀ (s : State) (dt : Nat) (p : Packet) (m : Module) (due : Nat) (late : Bool) (t : Word16), m = s.turn dt p →
     Admitted opFlashSet p s dt → p.flags.getLsbD 0 = true → m.clk.execAt p = some (due, late) → m.freeSched = some t →
     exec (.flashSet dt p) s = .next { s with
       m := ((m.schedule p t due).withPlan (some t) due []
         (some (p.field 0 1, p.field 2 2, p.field 4 2, p.field 6 2))).answer
         0x0205 p (if late then 8 else 0) stOk t [] }))

/-- ASPECT_DEFINE replaces an aspect's whole content and ASPECT_DELETE leaves it with none: no other aspect changes
(R167, R198). SWATCH_MODE, RESPONSE_SET and LEDGER_SET store the changed items under the next REVISION; FAULT_CLEAR
clears the records that are latched and no longer active and counts both kinds (R32, R170, R216, R228, R310, R328). -/
def Obligations.AspectAndSettingCommands : Prop :=
  ((∀ (s : State) (dt : Nat) (p : Packet) (m : Module), m = s.turn dt p → Admitted opAspectDefine p s dt →
     ∃ l : Tbl (List (Nat × Shown)),
       exec (.aspectDefine dt p) s = .next { s with
         m := ({ m with lamps := { m.lamps with aspects := l } }).answer 0x0202 p 0 stOk 0 [] } ∧
       ∀ k, Tbl.get [] l k = if k = p.field 0 2 then actsOf (entriesOf p 4 (p.field 2 2)) else Tbl.get [] m.lamps.aspects k) ∧
   (∀ (s : State) (dt : Nat) (p : Packet) (m : Module), m = s.turn dt p → Admitted opAspectDelete p s dt →
     Tbl.wf ([] : List (Nat × Shown)) m.lamps.aspects = true →
     ∃ l : Tbl (List (Nat × Shown)),
       exec (.aspectDelete dt p) s = .next { s with
         m := ({ m with lamps := { m.lamps with aspects := l } }).answer 0x0204 p 0 stOk 0 [] } ∧
       ∀ k, Tbl.get [] l k = if k = p.field 0 2 then [] else Tbl.get [] m.lamps.aspects k)) ∧
  ((∀ (s : State) (dt : Nat) (p : Packet) (m : Module), m = s.turn dt p → Admitted opSwatchMode p s dt →
     exec (.swatchMode dt p) s = .next { s with
       m := (((m.storeItems (p.range.foldl (fun i ch => i.swatchMode (p.field 4 1) ch) m.items)).configChanged
         m.items).stopLearning (fun ch => p.range.contains ch) 3 false).answer 0x0303 p 0 stOk 0 [] }) ∧
   (∀ (s : State) (dt : Nat) (p : Packet) (m m' : Module), m = s.turn dt p → Admitted opResponseSet p s dt →
     m' = (m.storeItems (p.range.foldl (fun i ch => i.respond (p.field 4 1) (p.field 6 2) ch) m.items)).configChanged
       m.items →
     exec (.responseSet dt p) s = .next { s with m := m'.answer 0x0304 p 0 stOk 0 (u32 m'.revision.toNat) }) ∧
   (∀ (s : State) (dt : Nat) (p : Packet) (m m' : Module), m = s.turn dt p → Admitted opLedgerSet p s dt →
     m' = (m.storeItems { m.items with
       capacity := BitVec.ofNat 32 (p.field 0 4), p3Reserve := BitVec.ofNat 32 (p.field 4 4)
       leanBelow := BitVec.ofNat 32 (p.field 8 4), standbyAfter := BitVec.ofNat 16 (p.field 12 2) }).configChanged
       m.items →
     exec (.ledgerSet dt p) s = .next { s with
       m := ({ m' with pow := { m'.pow with
           account := if m'.pow.onBackup && decide (m'.pow.account.toNat ≤ (BitVec.ofNat 32 (p.field 0 4)).toNat)
             then m'.pow.account else BitVec.ofNat 32 (p.field 0 4) } }.judgeLedger 9).answer 0x0502 p 0 stOk 0
         (u32 m'.revision.toNat) }) ∧
   (∀ (s : State) (dt : Nat) (p : Packet) (m : Module), m = s.turn dt p → Admitted opFaultClear p s dt →
     exec (.faultClear dt p) s = .next { s with
       m := (m.each p.range (fun ch m => m.clearFaults ch)).answer 0x0306 p 0 stOk 0
         (u16 (m.countRecords p.range (fun r => r.latched && !r.active)) ++
           u16 (m.countRecords p.range (fun r => r.active))) }))

/-- CONFIG_WRITE stages a chunk that is not the last; the last one stores the whole image under the next REVISION
where it parses and EXPECT_REVISION is 0 or the stored one (R165). Where it goes beyond the rules, it states the
model's own readings: log 22. -/
def Obligations.ConfigWrites : Prop :=
  (∀ (s : State) (dt : Nat) (p : Packet) (m : Module) (b : List Byte), m = s.turn dt p →
    Admitted opConfigWrite p s dt → p.field 14 1 = 0 →
    b = (if p.field 8 4 = 0 then [] else (match m.staging with | some (_, _, b) => b | none => [])) →
    exec (.configWrite dt p) s = .next { s with
      m := ({ m with staging := some (BitVec.ofNat 32 (p.field 0 4), p.field 4 4, b ++ p.params.drop 16) }).answer
        0x010A p 0 stOk 0 (u32 m.revision.toNat ++ u8 m.escrowBits ++ rsv 3) }) ∧
  (∀ (s : State) (dt : Nat) (p : Packet) (m m' : Module) (b : List Byte) (i : Items), m = s.turn dt p →
    Admitted opConfigWrite p s dt → p.field 14 1 = 1 →
    b = (if p.field 8 4 = 0 then [] else (match m.staging with | some (_, _, b) => b | none => [])) →
    (p.field 0 4 = 0 ∨ p.field 0 4 = m.revision.toNat) →
    parseImage m.variant m.upd.schema m.positionByte (b ++ p.params.drop 16) = some i →
    m' = ((({ m with staging := none }.storeItems i).configChanged m.items).capBackup.judgeLedgerFree).leaveShelf →
    exec (.configWrite dt p) s = .next { s with
      m := m'.answer 0x010A p 0 stOk 0 (u32 m'.revision.toNat ++ u8 m'.escrowBits ++ rsv 3) })

/-- SWATCH_LEARN, OPEN_WIRE_TEST and BIST_RUN are answered ACCEPTED and leave their job to be done, which an open-wire
test and a self-test begin at once; a SWATCH_READ to a slice that runs sends it a REQUEST and is answered later, and
to one that does not SLICE_RESTARTED at once (R143, R170, R213, R233, R433, R472). Where it goes beyond the rules, it
states the model's own readings: log 16, 54, 89. -/
def Obligations.LongCommands : Prop :=
  (∀ (s : State) (dt : Nat) (p : Packet) (m : Module), m = s.turn dt p → Admitted opSwatchLearn p s dt →
    exec (.swatchLearn dt p) s = .next { s with
      m := ({ m with prov := { m.prov with
        learns := m.prov.learns ++
          [({ ref := m.finalRef 0x0301 p, cycles := p.field 4 2,
              chans := p.range.map (fun ch => (ch, false, m.learnNow ch)),
              restarted := p.range.any (fun ch => !m.sliceRuns (ch / 16)) } : LearnJob)] } }.answer 0x0301 p 0 stAccepted 0
        []).settleLearns }) ∧
  (∀ (s : State) (dt : Nat) (p : Packet) (m : Module), m = s.turn dt p → Admitted opOpenWireTest p s dt →
    exec (.openWireTest dt p) s = .next { s with
      m := ({ m with prov := { m.prov with
        wires := m.prov.wires ++
          [({ ref := m.finalRef 0x0307 p
              chans := p.range.map (fun ch => (ch, if m.sliceRuns (ch / 16) then none else some 2))
              restarted := p.range.any (fun ch => !m.sliceRuns (ch / 16)) } : WireJob)] } }.answer 0x0307 p 0 stAccepted 0
        []).settleWires.each (slicesOf p.range) (fun n c => c.startWire n) }) ∧
  (∀ (s : State) (dt : Nat) (p : Packet) (m : Module), m = s.turn dt p → Admitted opBistRun p s dt →
    exec (.bistRun dt p) s = .next { s with
      m := ((({ m with diag := { m.diag with
            bist := some (m.finalRef 0x0A01 p, p.field 0 1, BitVec.ofNat 16 (p.field 2 2)) } }).beginTest (p.field 0 1)
          (BitVec.ofNat 16 (p.field 2 2))).answer 0x0A01 p 0 stAccepted 0 []).resetStep.prbsStep }) ∧
  (∀ (s : State) (dt : Nat) (p : Packet) (m : Module), m = s.turn dt p → Admitted opSwatchRead p s dt →
    m.sliceRuns (p.field 0 2 / 16) = true →
    exec (.swatchRead dt p) s = .next { s with
      m := (m.sendSlice (p.field 0 2 / 16) (.request (.readSwatch (p.field 0 2 % 16))) (some (0x0302, p))).noteTaken 0x0302 p }) ∧
  (∀ (s : State) (dt : Nat) (p : Packet) (m : Module), m = s.turn dt p → Admitted opSwatchRead p s dt →
    m.sliceRuns (p.field 0 2 / 16) = false →
    exec (.swatchRead dt p) s = .next { s with
      m := m.answer 0x0302 p 0 stSliceRestarted (BitVec.ofNat 16 (p.field 0 2 / 16)) [] })

/-- RING_ENUMERATE makes this gateway the anchor and starts the count; ESCROW_PUSH marks the sides that can be sent
the configuration; both are answered ACCEPTED (R171, R264, R294). Where it goes beyond the rules, it states the
model's own readings: log 47, 49. -/
def Obligations.RingCommands : Prop :=
  (∀ (s : State) (dt : Nat) (p : Packet) (m : Module), m = s.turn dt p → Admitted opRingEnumerate p s dt →
    exec (.ringEnumerate dt p) s = .next { s with
      m := ({ m with ring := { m.ring with
          enumRef := m.ring.enumRef ++ [m.finalRef 0x0403 p] } }.startEnum).answer 0x0403 p 0 stAccepted 0
        [] }) ∧
  (∀ (s : State) (dt : Nat) (p : Packet) (m : Module) (e w : Bool), m = s.turn dt p →
    Admitted opEscrowPush p s dt →
    e = (m.configSealed && (m.ring.east.auth == .done && !m.ring.east.broken)) →
    w = (m.configSealed && (m.ring.west.auth == .done && !m.ring.west.broken)) →
    exec (.escrowPush dt p) s = .next { s with
      m := ({ m with ring := { m.ring with
          pushE := m.ring.pushE || e, pushW := m.ring.pushW || w
          pushRef := m.ring.pushRef ++ [(m.finalRef 0x0404 p, e, w)] } }.answer 0x0404 p 0 stAccepted 0
        []).pushEscrow.settlePushes })

/-- A tariff change goes into its slot and a demand configuration waits for the next close, each written in a pass
before the reply (R334, R336, R340). Where it goes beyond the rules, it states the model's own readings: log 27, 28.
-/
def Obligations.MeterCommands : Prop :=
  (∀ (s : State) (dt : Nat) (p : Packet) (m : Module) (k : Nat), m = s.turn dt p → Admitted opTariffAt p s dt →
    m.meter.tariffSlot (p.field 4 5) = some k →
    exec (.tariffAt dt p) s = .next { s with
      m := ({ m with
          meter := m.meter.setCounter k (2 ^ 63 + p.field 0 1 * 2 ^ 40 + p.field 4 5) }.pass).answer 0x0602 p 0 stOk 0
        (u8 (m.meter.setCounter k (2 ^ 63 + p.field 0 1 * 2 ^ 40 + p.field 4 5)).pendingTariffs.length ++ rsv 3) }) ∧
  (∀ (s : State) (dt : Nat) (p : Packet) (m : Module), m = s.turn dt p → Admitted opDemandSet p s dt →
    exec (.demandSet dt p) s = .next { s with
      m := ({ m with
          meter := m.meter.setCounter 3297 (2 ^ 63 + p.field 0 4 + p.field 4 1 * 2 ^ 32 + p.field 5 1 * 2 ^ 36) }.pass).answer 0x0603 p 0 stOk 0 [] })

/-- The update opcodes at the module that holds the session: a session opens with the number drawn, or the manifest is
refused with what fails of R357, a block is written and counted, PREPARE calls the vote, COMMIT fixes the instant,
CONFIRM and UNWIND go to the roster, UPDATE_ABORT ends the session and RECOVER_ACTIVATE swaps the banks, or refuses a
bad signature (R357, R361, R375, R380, R386, R387, R389, R391). Where it goes beyond the rules, it states the model's
own readings: log 7, 8, 9, 51, 52, 84. -/
def Obligations.UpdateCommands : Prop :=
  (∀ (s : State) (dt : Nat) (p : Packet) (m : Module), m = s.turn dt p → Admitted opUpdateOpen p s dt →
    m.inRom = false → m.entropyReady = true →
    exec (.updateOpen dt p) s = .next { s with
      m := match m.manifestCause (manifestOf p) (p.field 0 1 == 1) with
        | some (st, cause) => m.answer 0x0701 p 0 st (if st = 0x4002 then BitVec.ofNat 16 cause.toNat else 0) []
        | none => (((m.draw 4).1.openSession (sessionNumber (m.draw 4).2) (p.field 0 1 == 1) (manifestOf p) m.positionByte
            true m.newRoster).ctlAll 1 (u8 (p.field 0 1) ++ rsv 3 ++ u32 (manifestOf p).length ++ manifestOf p)).answer
          0x0701 p 0 stOk 0 (u32 (sessionNumber (m.draw 4).2).toNat) }) ∧
  (∀ (s : State) (dt : Nat) (p : Packet) (m : Module), m = s.turn dt p → Admitted opUpdateOpen p s dt →
    m.inRom = true → (partsOf (manifestOf p)).any (fun e => e.form != 0) = false →
    exec (.updateOpen dt p) s = .next { s with
      m := match m.manifestCause (manifestOf p) (p.field 0 1 == 1) with
        | some (st, cause) => m.answer 0x0701 p 0 st (if st = 0x4002 then BitVec.ofNat 16 cause.toNat else 0) []
        | none => ({ m with free := m.free + 1 }.openSession (sessionNumber (Config.randomBytes m.free 4))
            (p.field 0 1 == 1) (manifestOf p) m.positionByte true []).answer
          0x0701 p 0 stOk 0 (u32 (sessionNumber (Config.randomBytes m.free 4)).toNat) }) ∧
  (∀ (s : State) (dt : Nat) (p : Packet) (m m' : Module) (e : PartEntry) (out : List Byte), m = s.turn dt p →
    Admitted opBlockPut p s dt → m.checkBlock (blockOf p) = some (e, out) →
    m' = (if m.holdsBlock (blockIndex (blockOf p)) then m else m.newBlock (blockOf p) e out none) →
    exec (.blockPut dt p) s = .next { s with m := m'.answer 0x0702 p 0 stOk 0 (u32 m'.blocksHeld) }) ∧
  (∀ (s : State) (dt : Nat) (p : Packet) (m m' : Module), m = s.turn dt p → Admitted opPrepare p s dt →
    m' = ((m.setSession (fun x => { x with
        voteClose := some (m.voteInstant p).toNat, votes := [], failure := none
        finals := x.finals ++ [m.finalRef 0x0704 p] })).ctlAll 3
      (u16 ((m.voteInstant p).toNat % 65536) ++ rsv 2 ++ u40 ((m.voteInstant p).toNat / 65536) ++ rsv 3)).answer
      0x0704 p 0 stAccepted 0 [] →
    exec (.prepare dt p) s = .next { s with
      m := (if m'.voteCause = 0 then m'.writeSettings else m').countVote m'.ownPos (m'.voteCause == 0) m'.voteCause }) ∧
  (∀ (s : State) (dt : Nat) (p : Packet) (m : Module) (c : Cycle), m = s.turn dt p → Admitted opCommit p s dt →
    c = BitVec.ofInt 40 (m.commitCycleOf p) →
    exec (.commit dt p) s = .next { s with
      m := ((m.setSession (fun x => { x with
          phase := .committed, commitCycle := some c, commitAt := some ((m.commitCycleOf p).toNat * 65536), late := false
          trials := [], confirmSent := false, failure := none
          finals := x.finals ++ [m.finalRef 0x0705 p] })).ctlAll 6 (u40 c.toNat ++ rsv 3)).answer
        0x0705 p 0 stAccepted 0 [] }) ∧
  (∀ (s : State) (dt : Nat) (p : Packet) (m m' : Module), m = s.turn dt p → Admitted opConfirm p s dt →
    m' = m.setSession (fun x => { x with
      confirmSent := true, confirmBy := some (m.au + 1500 * 65536), finals := x.finals ++ [m.finalRef 0x0706 p] }) →
    exec (.confirm dt p) s = .next { s with
      m := (if m.session.confirmSent then m'.sendEach m'.session.unconfirmed 8 [] else m'.ctlAll 8 []).answer
        0x0706 p 0 stAccepted 0 [] }) ∧
  (∀ (s : State) (dt : Nat) (p : Packet) (m : Module), m = s.turn dt p → Admitted opUnwind p s dt →
    exec (.unwind dt p) s = .next { s with
      m := (if m.session.unwindDue then m.setSession (fun x => { x with finals := x.finals ++ [m.finalRef 0x0707 p] })
        else (m.setSession (fun x => { x with
          finals := x.finals ++ [m.finalRef 0x0707 p], unwindDue := true })).ctlAll 0x0A []).answer
        0x0707 p 0 stAccepted 0 [] }) ∧
  (∀ (s : State) (dt : Nat) (p : Packet) (m : Module), m = s.turn dt p → Admitted opUpdateAbort p s dt →
    exec (.updateAbort dt p) s = .next { s with
      m := (((if m.session.opener && !m.inRom then m.ctlAll 0x0C [] else m).setSession (fun x =>
          { x with phase := .aborted, voteClose := none })).endFinals 0x0704 stDomainAbort
            (BitVec.ofNat 16 (match m.session.lowestNo with | some f => f.1 | none => 0))).answer
        0x0708 p 0 stOk 0 [] }) ∧
  (∀ (s : State) (dt : Nat) (p : Packet) (m : Module), m = s.turn dt p → Admitted opRecoverActivate p s dt →
    m.upd.escrow.allGood = true → m.upd.fuses ≤ secOf m.upd.escrow.manifestBytes →
    (m.majorDiffers m.upd.escrow.manifestBytes = true → m.upd.escrow.clean = true) →
    exec (.recoverActivate dt p) s = .next { s with
      m := (if m.signaturesOk m.upd.escrow.manifestBytes then
          ({ m with
            upd := { m.upd with swapped := !m.upd.swapped, select := 0, bootCount := 0 }
            vault := { m.vault with config := if m.upd.escrow.clean then m.clearedConfig else m.vault.config }
            resetDue := some .hostCold }).answer 0x0709 p 0 stOk 0 []
        else m.answer 0x0709 p 0 0x4001 0 []).resetStep })

/-- RANDOM answers the bytes of one generate call; UART_SET acts after its own reply and UART_BREAK after every reply
queued on its port (R178, R181, R402, R425). Where it goes beyond the rules, it states the model's own readings: log
8, 55. -/
def Obligations.EntropyAndPortCommands : Prop :=
  (∀ (s : State) (dt : Nat) (p : Packet) (m : Module), m = s.turn dt p → Admitted opRandom p s dt →
    m.entropyReady = true →
    exec (.random dt p) s = .next { s with
      m := ({ m with free := m.free + 1, ent := { m.ent with generated := m.ent.generated + 1 } }).answer 0x0801 p 0 stOk 0
        (Config.randomBytes m.free (p.field 0 2)) }) ∧
  (∀ (s : State) (dt : Nat) (p : Packet) (m : Module), m = s.turn dt p → Admitted opUartSet p s dt →
    p.path ≠ portPath (portOf (p.field 0 1)) →
    exec (.uartSet dt p) s = .next { s with
      m := (m.answer 0x0901 p 0 stOk 0 []).setPort (portOf (p.field 0 1)) (fun u =>
        u.change (p.field 1 1) (p.field 2 2) (p.field 4 1) (BitVec.ofNat 8 (p.field 5 1)) (BitVec.ofNat 8 (p.field 6 1))
          (p.field 7 1)) }) ∧
  (∀ (s : State) (dt : Nat) (p : Packet) (m : Module), m = s.turn dt p → Admitted opUartSet p s dt →
    p.path = portPath (portOf (p.field 0 1)) →
    exec (.uartSet dt p) s = .next { s with
      m := (m.answer 0x0901 p 0 stOk 0 []).addJob (portOf (p.field 0 1))
        (.set (p.field 1 1) (p.field 2 2) (p.field 4 1) (BitVec.ofNat 8 (p.field 5 1)) (BitVec.ofNat 8 (p.field 6 1))
          (p.field 7 1)) }) ∧
  (∀ (s : State) (dt : Nat) (p : Packet) (m : Module), m = s.turn dt p → Admitted opUartBreak p s dt →
    exec (.uartBreak dt p) s = .next { s with
      m := (m.answer 0x0903 p 0 stOk 0 []).addJob (portOf (p.field 0 1)) (.brk (p.field 2 2)) })

/-- An admitted packet whose content fails its last check is answered with that status and changes nothing else: a bad
image, a block that fails R361, entropy that is not ready (R165, R361, R402). Where it goes beyond the rules, it
states the model's own readings: log 7. -/
def Obligations.RefusedContents : Prop :=
  (∀ (s : State) (dt : Nat) (p : Packet) (m : Module), m = s.turn dt p → Admitted opBlockPut p s dt →
    m.checkBlock (blockOf p) = none →
    exec (.blockPut dt p) s = .next { s with m := m.answer 0x0702 p 0 0x4000 0 [] }) ∧
  (∀ (s : State) (dt : Nat) (p : Packet) (m : Module), m = s.turn dt p → Admitted opRandom p s dt →
    m.ent.healthy = false →
    exec (.random dt p) s = .next { s with m := m.answer 0x0801 p 0 0x5000 3 [] }) ∧
  (∀ (s : State) (dt : Nat) (p : Packet) (m : Module) (b : List Byte), m = s.turn dt p →
    Admitted opConfigWrite p s dt → p.field 14 1 = 1 →
    b = (if p.field 8 4 = 0 then [] else (match m.staging with | some (_, _, b) => b | none => [])) →
    (p.field 0 4 = 0 ∨ p.field 0 4 = m.revision.toNat) →
    parseImage m.variant m.upd.schema m.positionByte (b ++ p.params.drop 16) = none →
    exec (.configWrite dt p) s = .next { s with
      m := { m with staging := none }.answer 0x010A p 0 0x2001 0x30 [] })

/-- A packet that fails a check of R139 is answered with the first failing check's status and DETAIL, and nothing else
is done; a P3 packet that the ledger does not admit is counted DEFERRED too (R139, R318, R319). The row of each of the
55 opcodes is its opcode served, so that what is stated of `State.serve` holds of every one. Where it goes beyond the
rules, it states the model's own readings: log 6, 7, 15, 64, 66, 83. -/
def Obligations.PacketsAreJudged : Prop :=
  ((∀ (s : State) (dt : Nat) (op : Op) (p : Packet) (m : Module) (st d : Word16), m = s.turn dt p →
     Taken op.code p s dt → m.retried op.code p = none → m.aim op p = .here → m.check op p = some (st, d) →
     st ≠ 0x1001 →
     s.serve dt op p = .next { s with m := m.answer op.code p 0 st d [] }) ∧
   (∀ (s : State) (dt : Nat) (op : Op) (p : Packet) (m : Module) (d : Word16), m = s.turn dt p →
     Taken op.code p s dt → m.retried op.code p = none → m.aim op p = .here → m.check op p = some (0x1001, d) →
     s.serve dt op p = .next { s with
       m := { m with pow := { m.pow with deferred := satInc m.pow.deferred } }.answer op.code p 0 0x1001 d [] }) ∧
   (∀ (s : State) (dt : Nat) (op : Op) (p : Packet) (m : Module) (st d : Word16), m = s.turn dt p →
     Taken op.code p s dt → m.retried op.code p = none → m.aim op p = .refused st d →
     s.serve dt op p = .next { s with m := m.answer op.code p 0 st d [] })) ∧
  (∀ (s : State) (dt : Nat) (p : Packet),
     exec (.capabilityRead dt p) s = s.serve dt opCapabilityRead p ∧
     exec (.statusRead dt p) s = s.serve dt opStatusRead p ∧
     exec (.timeRead dt p) s = s.serve dt opTimeRead p ∧
     exec (.tillOpen dt p) s = s.serve dt opTillOpen p ∧
     exec (.tillClose dt p) s = s.serve dt opTillClose p ∧
     exec (.tillRead dt p) s = s.serve dt opTillRead p ∧
     exec (.scheduleCancel dt p) s = s.serve dt opScheduleCancel p ∧
     exec (.tagQuery dt p) s = s.serve dt opTagQuery p ∧
     exec (.reset dt p) s = s.serve dt opReset p ∧
     exec (.configWrite dt p) s = s.serve dt opConfigWrite p ∧
     exec (.configRead dt p) s = s.serve dt opConfigRead p ∧
     exec (.channelSet dt p) s = s.serve dt opChannelSet p ∧
     exec (.aspectDefine dt p) s = s.serve dt opAspectDefine p ∧
     exec (.aspectShow dt p) s = s.serve dt opAspectShow p ∧
     exec (.aspectDelete dt p) s = s.serve dt opAspectDelete p ∧
     exec (.flashSet dt p) s = s.serve dt opFlashSet p ∧
     exec (.channelRead dt p) s = s.serve dt opChannelRead p ∧
     exec (.swatchLearn dt p) s = s.serve dt opSwatchLearn p ∧
     exec (.swatchRead dt p) s = s.serve dt opSwatchRead p ∧
     exec (.swatchMode dt p) s = s.serve dt opSwatchMode p ∧
     exec (.responseSet dt p) s = s.serve dt opResponseSet p ∧
     exec (.faultRead dt p) s = s.serve dt opFaultRead p ∧
     exec (.faultClear dt p) s = s.serve dt opFaultClear p ∧
     exec (.openWireTest dt p) s = s.serve dt opOpenWireTest p ∧
     exec (.ringStatus dt p) s = s.serve dt opRingStatus p ∧
     exec (.laneStatus dt p) s = s.serve dt opLaneStatus p ∧
     exec (.ringEnumerate dt p) s = s.serve dt opRingEnumerate p ∧
     exec (.escrowPush dt p) s = s.serve dt opEscrowPush p ∧
     exec (.ledgerRead dt p) s = s.serve dt opLedgerRead p ∧
     exec (.ledgerSet dt p) s = s.serve dt opLedgerSet p ∧
     exec (.standbyEnter dt p) s = s.serve dt opStandbyEnter p ∧
     exec (.energyRead dt p) s = s.serve dt opEnergyRead p ∧
     exec (.tariffAt dt p) s = s.serve dt opTariffAt p ∧
     exec (.demandSet dt p) s = s.serve dt opDemandSet p ∧
     exec (.demandRead dt p) s = s.serve dt opDemandRead p ∧
     exec (.boundaryRead dt p) s = s.serve dt opBoundaryRead p ∧
     exec (.updateOpen dt p) s = s.serve dt opUpdateOpen p ∧
     exec (.blockPut dt p) s = s.serve dt opBlockPut p ∧
     exec (.updateStatus dt p) s = s.serve dt opUpdateStatus p ∧
     exec (.prepare dt p) s = s.serve dt opPrepare p ∧
     exec (.commit dt p) s = s.serve dt opCommit p ∧
     exec (.confirm dt p) s = s.serve dt opConfirm p ∧
     exec (.unwind dt p) s = s.serve dt opUnwind p ∧
     exec (.updateAbort dt p) s = s.serve dt opUpdateAbort p ∧
     exec (.recoverActivate dt p) s = s.serve dt opRecoverActivate p ∧
     exec (.random dt p) s = s.serve dt opRandom p ∧
     exec (.entropyStatus dt p) s = s.serve dt opEntropyStatus p ∧
     exec (.domainKeyWrite dt p) s = s.serve dt opDomainKeyWrite p ∧
     exec (.cosignKeySet dt p) s = s.serve dt opCosignKeySet p ∧
     exec (.uartSet dt p) s = s.serve dt opUartSet p ∧
     exec (.uartStatus dt p) s = s.serve dt opUartStatus p ∧
     exec (.uartBreak dt p) s = s.serve dt opUartBreak p ∧
     exec (.bistRun dt p) s = s.serve dt opBistRun p ∧
     exec (.dumpSummary dt p) s = s.serve dt opDumpSummary p ∧
     exec (.dumpRelease dt p) s = s.serve dt opDumpRelease p)

/-- A packet for another position is forwarded in a free ring till, whose reply is due 10,000,000 ticks after the last
bit of the REQUEST leaves (SLOT_FRAME_SEND); with no free ring till, or while the ring is not ready, it is answered
BUSY (R145, R290). Where it goes beyond the rules, it states the model's own readings: log 20, 67, 91. -/
def Obligations.ForwardedPackets : Prop :=
  (∀ (s : State) (dt : Nat) (op : Op) (p : Packet) (m m' : Module) (q : Nat) (t : Word16), m = s.turn dt p →
    Taken op.code p s dt → m.retried op.code p = none → m.aim op p = .other q → m.tillOk p = true → m.ringReady = true →
    (op.accepts = true → m.ring.watches.length < 4096) → m.freeRing = some t →
    m' = (m.setTill t (fun _ =>
      { Till.closed with
        kind := 5, state := 4, epoch := Tbl.get 0 m.ring.epochs q, link := BitVec.ofNat 16 q, tag := p.tag })).ringSend 2 (BitVec.ofNat 8 q) (Tbl.get 0 m.ring.epochs q) t
      (p.bytes op.code) →
    s.serve dt op p = .next { s with
      m := { m' with ring := { m'.ring with forwards := m'.ring.forwards ++ [(t, op.code, p)] } }.noteTaken op.code p }) ∧
  (∀ (s : State) (dt : Nat) (op : Op) (p : Packet) (m : Module) (q : Nat), m = s.turn dt p →
    Taken op.code p s dt → m.retried op.code p = none → m.aim op p = .other q → m.tillOk p = true →
    (m.ringReady = false ∨ (op.accepts = true ∧ 4096 ≤ m.ring.watches.length) ∨ m.freeRing = none) →
    s.serve dt op p = .next { s with m := m.answer op.code p 0 0x1000 0 [] })

/-! ### The host window and lane H -/

/-- DOORBELL: PROD is written, and a command till's descriptors are taken up to it, each at the stamp of the doorbell
that first covered it, while a report till that stopped at a descriptor with OWN 0 goes on; a refused one changes only
the counters of R122, with the first reason of its table that applies (R119, R120, R122, R123). ATTACH opens tills 0
and 1 under a new host epoch; with a page that the host does not own it is refused with reason 5; DETACH and an
expired keep-alive make every open host-facing till STALE; KEEPALIVE sets the limit (R127-R130). Where it goes beyond
the rules, it states the model's own readings: log 17. -/
def Obligations.DoorbellsAndAttachment : Prop :=
  ((∀ (s : State) (dt : Nat) (till prod epoch : Word16) (m : Module), m = (s.m.elapse dt).restartKeepalive →
     (s.m.elapse dt).coresUp = true → m.win.attached = true → (m.till till).state = 1 → till.toNat < 0x2000 →
     epoch = m.vault.hostEpoch → (prod - (m.till till).cons).toNat ≤ (m.till till).len.toNat →
     ((m.till till).kind = 2 ∨ till = 0) → Tbl.wf Till.closed m.win.tills = true →
     exec (.doorbell dt till prod epoch) s = .next { s with
       m := (((m.setTill till (fun t => { t with prod := prod })).keepRung till
         (Tbl.get [] m.win.rung till.toNat ++ [(prod, m.clk.tick.toNat)])).takeDescs till
         (prod - (m.till till).cons).toNat).keepRung till
         (Tbl.get [] m.win.rung till.toNat ++ [(prod, m.clk.tick.toNat)]) }) ∧
   (∀ (s : State) (dt : Nat) (till prod epoch : Word16) (m : Module), m = (s.m.elapse dt).restartKeepalive →
     (s.m.elapse dt).coresUp = true → m.win.attached = true → (m.till till).state = 1 → till.toNat < 0x2000 →
     epoch = m.vault.hostEpoch → (prod - (m.till till).cons).toNat ≤ (m.till till).len.toNat →
     (m.till till).kind ≠ 2 → till ≠ 0 → Tbl.wf Till.closed m.win.tills = true →
     exec (.doorbell dt till prod epoch) s = .next { s with
       m := { m with win := { m.win with
         tills := Tbl.modify Till.closed m.win.tills till.toNat (fun t => { t with prod := prod })
         stopped := Tbl.erase m.win.stopped till.toNat } } }) ∧
   (∀ (s : State) (dt : Nat) (till prod epoch : Word16) (m : Module) (reason : Byte),
     m = (s.m.elapse dt).restartKeepalive → (s.m.elapse dt).coresUp = true →
     ((m.win.attached = false ∧ reason = 4) ∨
      (m.win.attached = true ∧ ((m.till till).state ≠ 1 ∨ 0x2000 ≤ till.toNat) ∧ reason = 1) ∨
      (m.win.attached = true ∧ (m.till till).state = 1 ∧ till.toNat < 0x2000 ∧ epoch ≠ m.vault.hostEpoch ∧ reason = 2) ∨
      (m.win.attached = true ∧ (m.till till).state = 1 ∧ till.toNat < 0x2000 ∧ epoch = m.vault.hostEpoch ∧
        (m.till till).len.toNat < (prod - (m.till till).cons).toNat ∧ reason = 3)) →
     exec (.doorbell dt till prod epoch) s = .next { s with
       m := { m with win := { m.win with
         dbErrors := satInc m.win.dbErrors, dbLastTill := till, dbLastReason := reason } } })) ∧
  ((∀ (s : State) (dt : Nat) (page : BitVec 14) (m : Module) (e : Word16), m = (s.m.elapse dt).detachHost 1 →
     (s.m.elapse dt).coresUp = true → m.win.code page.toNat = 1 → m.win.code (page.toNat + 1) = 1 →
     page.toNat + 1 < 16384 → e = nextEpoch m.vault.hostEpoch →
     exec (.attach dt page) s = .next { s with
       m := (({ m with
           vault := { m.vault with hostEpoch := e }
           win := { m.win with
             tills := dropStale m.win.tills, attached := true, detachCause := 0, applied := 0 } }.setTill 0 (fun _ =>
         sysTill e 1 page.toNat)).setTill 1 (fun _ => sysTill e 0 (page.toNat + 1))).restartKeepalive.dumpReady }) ∧
   (∀ (s : State) (dt : Nat) (page : BitVec 14) (m : Module), m = (s.m.elapse dt).detachHost 1 →
     (s.m.elapse dt).coresUp = true →
     ¬(m.win.code page.toNat = 1 ∧ m.win.code (page.toNat + 1) = 1 ∧ page.toNat + 1 < 16384) →
     exec (.attach dt page) s = .next { s with
       m := { m with win := { m.win with
         dbErrors := satInc m.win.dbErrors, dbLastTill := 0, dbLastReason := 5, detachCause := 5 } } }) ∧
   (∀ (s : State) (dt : Nat) (m : Module), m = s.m.elapse dt → m.coresUp = true → m.win.attached = true →
     exec (.detach dt) s = .next { s with
       m := { m with win := { m.win with
         attached := false, detachCause := 1, keepDeadline := none, rung := [], stopped := []
         tills := m.win.tills.map (fun e =>
           if e.1 < 0x2000 && e.2.state != 0 then (e.1, { e.2 with state := 3 }) else e) } } }) ∧
   (∀ (s : State) (dt : Nat) (ms : Word16) (m : Module), m = s.m.elapse dt → m.coresUp = true →
     exec (.keepalive dt ms) s = .next { s with
       m := { m with win := { m.win with
         keepalive := ms
         keepDeadline := if m.win.attached && ms != 0 then some (m.clk.tick.toNat + 100000 * ms.toNat) else none } } }) ∧
   (∀ (s : State) (dt d : Nat) (m : Module), m = s.m.elapse dt → m.win.keepDeadline = some d → d < m.clk.tick.toNat →
     m.win.attached = true →
     exec (.keepaliveExpiry dt) s = .next { s with
       m := { m with win := { m.win with
         attached := false, detachCause := 3, keepDeadline := none, rung := [], stopped := []
         tills := m.win.tills.map (fun e =>
           if e.1 < 0x2000 && e.2.state != 0 then (e.1, { e.2 with state := 3 }) else e) } } }) ∧
   (∀ (s : State) (dt d : Nat) (m : Module), m = s.m.elapse dt → m.win.keepDeadline = some d → m.clk.tick.toNat ≤ d →
     exec (.keepaliveExpiry dt) s = .next { s with m := m }))

/-- PX_REQUEST: every page of the range takes the new code, or, with PX_CODE 1, 2, 3 or 4, none does: a page that does
not hold the code expected, a transition the host may not make, a page of an open till's ring or of a buffer that the
module holds, or a reserved page (R104, R109). Where it goes beyond the rules, it states the model's own readings: log
18, 56, 69. -/
def Obligations.PassbookExchange : Prop :=
  (∀ (s : State) (dt : Nat) (first count : Word16) (expect new : BitVec 2) (seq : Word16) (m : Module),
    m = (s.m.elapse dt).nextUnit → m.coresUp = true → Tbl.wf 0 m.win.passbook = true → 2 ≤ first.toNat → 0 < count.toNat →
    first.toNat + count.toNat ≤ 16128 →
    ((expect = 0 ∧ new = 1) ∨ (expect = 1 ∧ new = 0) ∨ (expect = 1 ∧ new = 2)) →
    (∀ k, first.toNat ≤ k → k < first.toNat + count.toNat → m.win.code k = expect) →
    (∀ k, first.toNat ≤ k → k < first.toNat + count.toNat → ∀ b ∈ m.pagesInUse, touches b.1 b.2 k = false) →
    ∃ w : Window,
      exec (.pxRequest dt first count expect new seq) s = .next { s with
        m := { m with win := { w with pxSeqEcho := seq, pxCode := 0 } } } ∧
      w = { m.win with passbook := w.passbook } ∧
      ∀ k, w.code k = if first.toNat ≤ k ∧ k < first.toNat + count.toNat then new else m.win.code k) ∧
  (∀ (s : State) (dt : Nat) (first count : Word16) (expect new : BitVec 2) (seq : Word16) (m : Module) (k : Nat),
    m = (s.m.elapse dt).nextUnit → m.coresUp = true → 2 ≤ first.toNat → first.toNat + count.toNat ≤ 16128 →
    ((expect = 0 ∧ new = 1) ∨ (expect = 1 ∧ new = 0) ∨ (expect = 1 ∧ new = 2)) →
    first.toNat ≤ k → k < first.toNat + count.toNat → m.win.code k ≠ expect →
    (∀ j, first.toNat ≤ j → j < k → m.win.code j = expect) →
    exec (.pxRequest dt first count expect new seq) s = .next { s with
      m := { m with win := { m.win with pxSeqEcho := seq, pxCode := 1, failPage := BitVec.ofNat 16 k } } }) ∧
  (∀ (s : State) (dt : Nat) (first count : Word16) (expect new : BitVec 2) (seq : Word16) (m : Module) (k : Nat)
    (b : Nat × Nat), m = (s.m.elapse dt).nextUnit → m.coresUp = true → 2 ≤ first.toNat →
    first.toNat + count.toNat ≤ 16128 →
    ((expect = 0 ∧ new = 1) ∨ (expect = 1 ∧ new = 0) ∨ (expect = 1 ∧ new = 2)) →
    (∀ j, first.toNat ≤ j → j < first.toNat + count.toNat → m.win.code j = expect) →
    first.toNat ≤ k → k < first.toNat + count.toNat → b ∈ m.pagesInUse → touches b.1 b.2 k = true →
    (∀ j, first.toNat ≤ j → j < k → ∀ b ∈ m.pagesInUse, touches b.1 b.2 j = false) →
    exec (.pxRequest dt first count expect new seq) s = .next { s with
      m := { m with win := { m.win with pxSeqEcho := seq, pxCode := 3, failPage := BitVec.ofNat 16 k } } }) ∧
  (∀ (s : State) (dt : Nat) (first count : Word16) (expect new : BitVec 2) (seq : Word16) (m : Module),
    m = (s.m.elapse dt).nextUnit → m.coresUp = true → 2 ≤ first.toNat → 0 < count.toNat → first.toNat + count.toNat ≤ 16128 →
    ¬((expect = 0 ∧ new = 1) ∨ (expect = 1 ∧ new = 0) ∨ (expect = 1 ∧ new = 2)) →
    exec (.pxRequest dt first count expect new seq) s = .next { s with
      m := { m with win := { m.win with pxSeqEcho := seq, pxCode := 2 } } }) ∧
  (∀ (s : State) (dt : Nat) (first count : Word16) (expect new : BitVec 2) (seq : Word16) (m : Module),
    m = (s.m.elapse dt).nextUnit → m.coresUp = true →
    (first.toNat < 2 ∨ count = 0 ∨ 16128 < first.toNat + count.toNat) →
    exec (.pxRequest dt first count expect new seq) s = .next { s with
      m := { m with win := { m.win with pxSeqEcho := seq, pxCode := 4 } } })

/-- WR to a page that the host owns stores the bytes and nothing else in the window; to any other page beyond 1 it is
discarded and counted; a damaged frame of WR, RD or HOST_HELLO is discarded, counted and noticed (R103, R106, R297).
RD is completed by RDC with LOCKED for a page with passbook code 3, POISON over a failing word, RANGE outside one
page, else the window's bytes; HOST_HELLO is answered and enumerates lane H; PENDING bits written as 1 are cleared
(R111, R296, R297). Where it goes beyond the rules, it states the model's own readings: log 4, 19, 56. -/
def Obligations.WindowAccess : Prop :=
  ((∀ (s : State) (dt : Nat) (offset : Word32) (data : List Byte) (m : Module), m = (s.m.elapse dt).nextUnit →
     m.coresUp = true → Memory.wf m.win.mem = true → 0 < data.length → offset.toNat % 4096 + data.length ≤ 4096 →
     offset.toNat + data.length ≤ 0x4000000 → 4096 ≤ offset.toNat → m.win.code (offset.toNat / 4096) = 1 →
     ∃ w : Window,
       exec (.wr dt offset data true) s = .next { s with m := { m with win := w } } ∧
       w = { m.win with mem := w.mem, eccWords := w.eccWords, applied := m.win.applied + 1 } ∧
       ∀ a, Memory.read w.mem a =
         if offset.toNat ≤ a ∧ a < offset.toNat + data.length then data.getD (a - offset.toNat) 0
         else Memory.read m.win.mem a) ∧
   (∀ (s : State) (dt : Nat) (offset : Word32) (data : List Byte) (m : Module), m = (s.m.elapse dt).nextUnit →
     m.coresUp = true → 0 < data.length → offset.toNat % 4096 + data.length ≤ 4096 → offset.toNat + data.length ≤ 0x4000000 →
     4096 ≤ offset.toNat → m.win.code (offset.toNat / 4096) ≠ 1 →
     exec (.wr dt offset data true) s = .next { s with
       m := { m with win := { m.win with
         violations := satInc m.win.violations, lastViol := BitVec.ofNat 16 (offset.toNat / 4096) } } }) ∧
   (∀ (s : State) (dt tag : Nat) (offset : Word32) (len : Word16) (data : List Byte) (m t : Module),
     m = s.m.elapse dt → m.coresUp = true →
     t = { m with
       win := { m.win with badCrc := satInc m.win.badCrc }
       out := m.out ++ [.hNotice (satInc m.win.badCrc)] } →
     exec (.wr dt offset data false) s = .next { s with m := t } ∧
     exec (.rd dt tag offset len false) s = .next { s with m := t } ∧
     exec (.hostHello dt false) s = .next { s with m := t })) ∧
  ((∀ (s : State) (dt tag : Nat) (offset : Word32) (len : Word16) (m : Module), m = (s.m.elapse dt).nextUnit →
     m.coresUp = true → 0 < len.toNat → offset.toNat % 4096 + len.toNat ≤ 4096 → offset.toNat + len.toNat ≤ 0x4000000 →
     8192 ≤ offset.toNat → m.win.code (offset.toNat / 4096) ≠ 3 →
     (∀ e ∈ m.win.eccWords, offset.toNat + len.toNat ≤ 8 * e.1 ∨ 8 * e.1 + 8 ≤ offset.toNat) →
     exec (.rd dt tag offset len true) s = .next { s with
       m := { m with out := m.out ++
         [.rdc tag 0 offset.toNat len.toNat (Memory.reads m.win.mem offset.toNat len.toNat) m.win.applied] } }) ∧
   (∀ (s : State) (dt tag : Nat) (offset : Word32) (len : Word16) (m : Module), m = (s.m.elapse dt).nextUnit →
     m.coresUp = true → 0 < len.toNat → offset.toNat % 4096 + len.toNat ≤ 4096 → offset.toNat + len.toNat ≤ 0x4000000 →
     m.win.code (offset.toNat / 4096) = 3 →
     exec (.rd dt tag offset len true) s = .next { s with
       m := { m with out := m.out ++
         [.rdc tag 1 offset.toNat len.toNat (List.replicate len.toNat 0) m.win.applied] } }) ∧
   (∀ (s : State) (dt tag : Nat) (offset : Word32) (len : Word16) (m : Module), m = (s.m.elapse dt).nextUnit →
     m.coresUp = true → (len = 0 ∨ 4096 < offset.toNat % 4096 + len.toNat ∨ 0x4000000 < offset.toNat + len.toNat) →
     exec (.rd dt tag offset len true) s = .next { s with
       m := { m with out := m.out ++
         [.rdc tag 3 offset.toNat len.toNat (List.replicate len.toNat 0) m.win.applied] } }) ∧
   (∀ (s : State) (dt : Nat) (m : Module), m = s.m.elapse dt → m.coresUp = true →
     exec (.hostHello dt true) s = .next { s with
       m := { m with win := { m.win with enumerated := true }, out := m.out ++ [.hHello] } }) ∧
   (∀ (s : State) (dt first : Nat) (data : List Byte) (m : Module), m = s.m.elapse dt → m.coresUp = true →
     Tbl.wf false m.win.pendingBits = true →
     ∃ l : Tbl Bool,
       exec (.pendingClear dt first data) s = .next { s with m := { m with win := { m.win with pendingBits := l } } } ∧
       ∀ i, Tbl.get false l i =
         (Tbl.get false m.win.pendingBits i &&
           !(decide (8 * first ≤ i) && (data.getD (i / 8 - first) 0).getLsbD (i % 8)))))

/-- REPORT_ENTRY_PLACE writes the oldest waiting entry into the posted buffer that fits it and hands its descriptor
back; PAGE_ECC reports a failing word once until it is written again; a packet that is not well formed is answered
CRC_BAD and one whose opcode no table lists BAD_OPCODE, and nothing is done (R107, R121, R125, R133, R156). Where it
goes beyond the rules, it states the model's own readings: log 5, 6, 7, 68. -/
def Obligations.WindowReports : Prop :=
  (∀ (s : State) (dt : Nat) (till : Word16) (m : Module) (w : Waiting) (d : Desc) (a : Nat), m = s.m.elapse dt →
    m.tillTest = false → m.coresUp = true → m.win.attached = true → m.reports till = true →
    m.win.waiting.find? (fun w => w.till == till) = some w →
    (m.till till).cons ≠ (m.till till).prod → d = m.desc (m.till till) (m.till till).cons → d.own = true →
    w.entry.bytes.length ≤ d.len → m.bufferOk d.addr d.len = true → a = (m.till till).descAt (m.till till).cons →
    w.epoch = m.vault.hostEpoch → till.toNat < 0x1000 → m.win.losses = [] →
    Tbl.get false m.win.stopped till.toNat = false → m.resetDue = none → m.pow.standbyDue = false → m.diag.bist = none →
    exec (.reportEntryPlace dt till) s = .next { s with
      m := { m with win := { ((((m.poke d.addr w.entry.bytes).poke (a + 4) (u32 w.entry.bytes.length)).poke (a + 8)
          (u16 w.epoch.toNat)).poke (a + 12) (u32 0)).win with
        tills := Tbl.modify Till.closed m.win.tills till.toNat (fun t => { t with cons := t.cons + 1, count := t.count + 1 })
        waiting := m.win.waiting.erase w
        noticeSeq := m.win.noticeSeq + 1 } } }) ∧
  (∀ (s : State) (dt : Nat) (source : Byte) (word : Word32) (m : Module), m = s.m.elapse dt →
    Tbl.get false m.win.eccWords (word.toNat / 8) = false →
    exec (.pageEcc dt source word) s = .next { s with
      m := ({ m with win := { m.win with eccWords := Tbl.set false m.win.eccWords (word.toNat / 8) true } }).event 0x8001
        (u16 (word.toNat / 4096) ++ u8 (m.win.code (word.toNat / 4096)).toNat ++ u8 source.toNat ++ m.ca ++ rsv 1 ++
          u32 word.toNat) }) ∧
  (∀ (s : State) (dt : Nat) (source : Byte) (word : Word32) (m : Module), m = s.m.elapse dt →
    Tbl.get false m.win.eccWords (word.toNat / 8) = true →
    exec (.pageEcc dt source word) s = .next { s with m := m }) ∧
  (∀ (s : State) (dt : Nat) (opcode : Word16) (p : Packet) (m : Module) (port : Port), m = s.turn dt p →
    ((s.m.elapse dt).tillTest = false ∧ (s.m.elapse dt).takes p.path = true ∧
      (s.m.elapse dt).atTurn opcode p false = true) → p.path = portPath port →
    exec (.notWellFormedPacket dt opcode p) s = .next { s with
      m := (({ m with tel := m.tel.setMem p.path (⟨p.path, m.tel.cur.epoch, opcode, p,
          some (m.mkReply opcode 16 p.tag 0x2003 0 [])⟩ :: m.tel.mem p.path) }).logEntry
          (m.mkReply opcode 16 p.tag 0x2003 0 [])).setPort port (fun u =>
        { u with txq := u.txq ++ [m.mkReply opcode 16 p.tag 0x2003 0 []] }) }) ∧
  (∀ (s : State) (dt : Nat) (opcode : Word16) (p : Packet) (m m' : Module) (t : Word16), m = s.turn dt p →
    ((s.m.elapse dt).tillTest = false ∧ (s.m.elapse dt).takes p.path = true ∧
      (s.m.elapse dt).atTurn opcode p false = true) → p.path = .laneH t →
    m' = { m with tel := m.tel.setMem p.path (⟨p.path, m.tel.cur.epoch, opcode, p,
      some (m.mkReply opcode 16 p.tag 0x2003 0 [])⟩ :: m.tel.mem p.path) } →
    exec (.notWellFormedPacket dt opcode p) s = .next { s with
      m := m'.release t (m'.tel.tickets ++ [⟨t, opcode, { p with till := 0 }, m'.tel.cur.link,
        some (m.mkReply opcode 16 p.tag 0x2003 0 [], m'.vault.hostEpoch)⟩]) }) ∧
  (∀ (s : State) (dt : Nat) (opcode : Word16) (p : Packet) (m : Module), m = s.turn dt p → Taken opcode p s dt →
    definedOpcodes.contains opcode = false → m.retried opcode p = none →
    exec (.undefinedOpcode dt opcode p) s = .next { s with m := m.answer opcode p 0 0x2000 0 [] })

/-! ### Start-up, resets and fatal errors -/

/-- POWER_ON latches the supply and awaits every slice's HELLO; BOOT_CHECK boots a bank that passes its checks or
stays in the boot ROM with every slice off; VAULT_STAGE counts the hub epoch and begins the load; FIRST_LAMP_CONTROL
makes the start patterns due at the next crossing of each bus; RING_READY settles the configuration, and where none
fits the place the module enters the shelf state (R46, R47, R50, R52, R53, R59, R62, R68, R384, R471). Where it goes
beyond the rules, it states the model's own readings: log 2, 15, 31, 43, 50, 74, 86. -/
def Obligations.StartStages : Prop :=
  (∀ (s : State) (dt : Nat), s.m.stage = .unpowered →
    exec (.powerOn dt .mains) s = .next { s with
      m := { s.m with
          stage := .rails
          pow := { s.m.pow with
            mains := true, mainsSince := s.m.clk.tick.toNat, backup := false, onBackup := false, ledger := 0
            countFrom := s.m.clk.tick.toNat } }.each (List.range s.m.variant.slices) (fun n c =>
        c.setSlice n (fun h => { h with awaitHello := some (s.m.clk.tick.toNat + 12000000) })) } ∧
    exec (.powerOn dt .backup) s = .next { s with
      m := { s.m with
          stage := .rails
          pow := { s.m.pow with
            mains := false, mainsSince := s.m.clk.tick.toNat, backup := true, onBackup := true
            ledger := if s.m.items.capacity = 0 ∨ s.m.pow.account.toNat < s.m.items.leanBelow.toNat then
              (if s.m.items.standbyAfter = 0 then 1 else 2) else 0
            countFrom := s.m.clk.tick.toNat } }.each (List.range s.m.variant.slices) (fun n c =>
        c.setSlice n (fun h => { h with awaitHello := some (s.m.clk.tick.toNat + 12000000) })) }) ∧
  (∀ (s : State) (dt : Nat) (digestsOk : Bool) (m t : Module), m = s.m.elapse dt → (m.stage = .rails ∨ m.stage = .boot) →
    m.upd.select ≠ 1 →
    t = { m with upd := { m.upd with
      fwVersion := m.upd.active.versions.1, secVersion := m.upd.active.versions.2.1
      schema := m.upd.active.versions.2.2 } } →
    (t.bootable digestsOk = true → exec (.bootCheck dt digestsOk) s = .next { s with m := { t with stage := .vault } }) ∧
    (t.bootable digestsOk = false →
      exec (.bootCheck dt digestsOk) s = .next { s with
        m := { t with stage := .bootRom, maint := Uart.maintReset }.slicesOff }) ∧
    t.bootable false = false) ∧
  (∀ (s : State) (dt : Nat) (digestsOk : Bool) (m : Module), m = s.m.elapse dt → (m.stage = .rails ∨ m.stage = .boot) →
    m.upd.select = 1 → m.upd.bootCount ≠ 0 →
    ∃ t, exec (.bootCheck dt digestsOk) s = .next { s with m := t } ∧ t.upd.swapped = !m.upd.swapped ∧
      t.upd.select = 0 ∧ t.upd.bootCount = 0 ∧ t.latestCause = 7 ∧ t.upd.session.phase = .unwound ∧
      t.upd.session.cause = 0x0C) ∧
  (∀ (s : State) (dt : Nat) (m : Module), m = s.m.elapse dt → m.stage = .vault → m.diag.bist = none →
    m.halted = false →
    ∃ t, exec (.vaultStage dt) s = .next { s with m := t } ∧ t.stage = .reload ∧
      t.vault.hubEpoch = nextEpoch m.vault.hubEpoch ∧ t.vault.hubEpoch ≠ 0 ∧
      t.vault.checkpoint = (if (m.slice 0).epoch = 0 then some (m.vault.checkpoint.getD 0 + 65536)
        else m.vault.checkpoint) ∧
      t.maint.oversample = 16 ∧ t.maint.divider = 26 ∧ t.ent.state = (if m.ent.state = 3 then 3 else 0)) ∧
  (∀ (s : State) (dt : Nat) (m : Module), m = s.m.elapse dt → m.stage = .lock → steadyTracker m.clk.tracker = true →
    m.variant.hasRing = true → m.halted = false →
    exec (.firstLampControl dt) s = .next { s with
      m := ({ m with stage := .lamps, clk := { m.clk with headerGap := 0 } }).startsDue }) ∧
  (∀ (s : State) (dt : Nat) (m : Module), m = s.m.elapse dt →
    (m.stage ≠ .lock ∨ steadyTracker m.clk.tracker = false ∨ m.halted = true) →
    exec (.firstLampControl dt) s = .next { s with m := m }) ∧
  (∀ (s : State) (dt : Nat) (east west : Option Escrow) (m : Module), m = s.m.elapse dt → m.ringUp = true →
    m.stage = .lamps → m.ring.position ≠ none → m.ring.form ≠ .none → m.ring.isRef = true → m.configValid = true →
    m.inUse = true → m.halted = false → east.filter m.copyOk = none → west.filter m.copyOk = none →
    ∃ t : Module, exec (.ringReady dt east west) s = .next { s with m := t.joinRing } ∧
      t = ({ m with stage := .ready, shelf := false, ring := { m.ring with
        pushE := true, pushW := true, escrowE := false, escrowW := false } }).storeSize ∧ t.stage = .ready ∧
      t.shelf = false) ∧
  (∀ (s : State) (dt : Nat) (east west : Option Escrow) (m : Module), m = s.m.elapse dt → m.ringUp = true →
    m.stage = .lamps → m.ring.position ≠ none → m.ring.form ≠ .none → m.ring.isRef = true → m.configValid = false →
    m.shelf = false → m.halted = false → east.filter m.copyOk = none → west.filter m.copyOk = none →
    exec (.ringReady dt east west) s = .next { s with m := m.dropOldPlace.enterShelf })

/-- A reset that is due follows its reply and the fallback, and completes a dump in progress; a watchdog and a
returned heartbeat reset the hub at once, as R64 has it; a stalled Keeper opens VITAL-OK without a reset (R20-R22,
R63-R65, R225, R315, R444). A fatal error and a lockstep mismatch show the module fallback and open VITAL-OK in the
same tick and make the warm reset due; all but a Keeper mismatch first write the summary, and the dump up to its
header where none is held; the die's temperature is a fatal error from 125.00 °C on (R20, R21, R315, R443-R445, R448,
R449). Where it goes beyond the rules, it states the model's own readings: log 8, 14, 56, 88. -/
def Obligations.ResetsAndFatalErrors : Prop :=
  ((∀ (s : State) (dt : Nat) (cause : ResetCause) (m : Module), m = s.m.elapse dt → Safe m → m.resetDue = some cause →
     m.resetReady cause = true → m.fullDdr = false → m.diag.writing = none →
     ∃ t, exec (.hubWarmReset dt cause) s = .next { s with m := t } ∧ HubReset m t cause ∧ t.resetDue = none) ∧
   (∀ (s : State) (dt : Nat) (cause : ResetCause) (m : Module) (r : DumpRec), m = s.m.elapse dt → Safe m →
     m.resetDue = some cause → m.resetReady cause = true → m.fullDdr = false → m.diag.writing = some r →
     ∃ t, exec (.hubWarmReset dt cause) s = .next { s with m := t } ∧ t.stage = .boot ∧ t.resetDue = none ∧
       t.diag.dump = (if cause = .hostCold then none else some r.seq) ∧
       ∀ a, Memory.read t.win.mem a = if cause = .hostCold then 0
         else if 4096 * 16128 ≤ a ∧ a < 4096 * 16128 + (dumpHeader r).length then (dumpHeader r).getD (a - 4096 * 16128) 0
         else Memory.read m.win.mem a) ∧
   (∀ (s : State) (dt : Nat) (cause : ResetCause) (m : Module), m = s.m.elapse dt →
     (m.resetDue ≠ some cause ∨ m.resetReady cause = false) →
     exec (.hubWarmReset dt cause) s = .next { s with m := m }) ∧
   (∀ (s : State) (dt : Nat) (m : Module), m = s.m.elapse dt → Safe m → m.keeperUp = true →
     ∃ t, exec (.hubWatchdog dt) s = .next { s with m := t } ∧ HubReset m t .watchdog) ∧
   (∀ (s : State) (dt : Nat) (m : Module), m = s.m.elapse dt → Safe m → m.keeperUp = true → m.prov.stall = true →
     ∃ t, exec (.keeperHeartbeatReturn dt) s = .next { s with m := t } ∧ HubReset m t .watchdog) ∧
   (∀ (s : State) (dt : Nat) (m : Module), m = s.m.elapse dt → m.keeperUp = true → m.prov.stall = false →
     exec (.keeperHeartbeatReturn dt) s = .next { s with m := m }) ∧
   (∀ (s : State) (dt : Nat) (m : Module), m = s.m.elapse dt → m.keeperUp = true → m.halted = false →
     ∃ t, exec (.lockstepKeeper dt) s = .next { s with m := t } ∧ t.resetDue = some .lockstepKeeper ∧
       t.prov.lockstep = true ∧ t.prov.toggling = false ∧ t.moduleFallback = true ∧ t.stage = m.stage ∧
       t.diag = { m.diag with unit := none }) ∧
   (∀ (s : State) (dt : Nat) (m : Module), m = s.m.elapse dt → m.keeperUp = true →
     ∃ t, exec (.keeperStall dt) s = .next { s with m := t } ∧ t.prov.stall = true ∧ t.prov.toggling = false ∧
       t.moduleFallback = true ∧ t.stage = m.stage)) ∧
  ((∀ (s : State) (dt : Nat) (c : Instr) (code : Nat) (detail : Word32) (cause : ResetCause) (m : Module),
     m = s.m.elapse dt → Safe m → m.keeperUp = true → m.halted = false →
     ((c = .lockstepTeller dt ∧ code = 2 ∧ detail = 0 ∧ cause = .lockstepTeller) ∨
      (c = .fatalError dt .firmware ∧ code = 4 ∧ detail = 0 ∧ cause = .fatal) ∨
      (c = .fatalError dt (.ecc detail) ∧ code = 1 ∧ cause = .fatal) ∨
      (∃ temp, c = .hubOvertemp dt temp ∧ 12500 ≤ temp ∧ code = 3 ∧ detail = BitVec.ofInt 32 temp ∧ cause = .fatal)) →
     ∃ (t : Module) (r : DumpRec), exec c s = .next { s with m := t } ∧ t.stage = m.stage ∧ t.resetDue = some cause ∧
       t.prov.toggling = false ∧ t.moduleFallback = true ∧ t.diag.last = some r ∧ t.diag.seq = m.diag.seq + 1 ∧
       r.seq = m.diag.seq + 1 ∧ r.cause = BitVec.ofNat 8 code ∧ r.detail = detail ∧ r.cycle = m.clk.cycle ∧
       r.angle = m.clk.angle ∧ r.tick = m.clk.tick ∧ r.hubEpoch = m.vault.hubEpoch ∧ r.fw = m.upd.fwVersion ∧
       r.variant = m.variant.code ∧
       (m.diag.dump = none → t.diag.writing = some r ∧ t.diag.first = some r ∧
         ∀ k, 16128 ≤ k → k < 16384 → t.win.code k = 2) ∧
       (∀ d, m.diag.dump = some d → t.diag.dump = some d ∧
         t.diag.first = (match m.diag.first with | some f => some f | none => some r) ∧
         ∀ a, Memory.read t.win.mem a = Memory.read m.win.mem a)) ∧
   (∀ (s : State) (dt : Nat) (m : Module), m = s.m.elapse dt → m.keeperUp = true → m.halted = true →
     exec (.lockstepTeller dt) s = .next { s with m := { m with diag := { m.diag with writing := none } } } ∧
     exec (.lockstepKeeper dt) s = .next { s with m := { m with diag := { m.diag with writing := none } } } ∧
     exec (.fatalError dt .firmware) s = .next { s with m := { m with diag := { m.diag with writing := none } } }) ∧
   (∀ (s : State) (dt : Nat) (temp : Int) (m : Module), m = s.m.elapse dt → m.keeperUp = true → temp < 12500 →
     exec (.hubOvertemp dt temp) s = .next { s with m := { m with pow := { m.pow with hubTemp := temp } } }))

/-! ### Slices -/

/-- A load goes block by block in R56's order: what the slice has converted gives its table, which fails the load
where a path is out of R244's limits and else goes out with the blocks after it, and when they are acknowledged the
slice is loaded; a failed attempt is counted, and the fourth holds the slice failed; an awaited HELLO lets the load
begin, one that does not come costs an attempt, one from a loaded slice resets it; a slice's own restart opens its
switches and loses its epoch (R56, R58, R64, R230, R231, R236, R244, R471). Where it goes beyond the rules, it states
the model's own readings: log 13, 43, 73, 85, 102. -/
def Obligations.SliceLoads : Prop :=
  ((∀ (s : State) (dt n : Nat) (sums : List Int) (m : Module), m = s.m.elapse dt → n < m.variant.slices →
     m.coresUp = true → (m.slice n).loaded = false → (m.slice n).failed = false → (m.slice n).awaitHello = none →
     (m.slice n).loadStep = 1 → (m.slice n).unacked = [] →
     if ∀ p ∈ loadTable sums, p.offset.natAbs ≤ 100 ∧ 9500 ≤ p.gain ∧ p.gain ≤ 10500 then
       Tbl.wf HubSlice.reset m.hub = true →
       ∃ t, exec (.sliceReload dt n (.measured sums)) s = .next { s with m := t } ∧ (t.slice n).cal = loadTable sums ∧
         (t.slice n).loadStep = 2 ∧
         (t.slice n).unacked.map (fun u => u.msg) =
           .load false (.calibration (loadTable sums) (m.slice n).delay) ::
             (sliceChans n).map (fun ch => .load false (.swatch (ch % 16) (Tbl.get Swatch.none m.live.swatch ch))) ++
           [.load false (.fallback ((sliceChans n).map (fun ch => Tbl.get .off m.live.fallback ch))),
            .load false (.startPattern ((sliceChans n).map m.startShown))] ∧
         t = { m with hub := t.hub, live := t.live, out := t.out }
     else exec (.sliceReload dt n (.measured sums)) s = .next { s with m := (m.loadFailed n).reloadEnds }) ∧
   (∀ (s : State) (dt n : Nat) (m : Module), m = s.m.elapse dt → n < m.variant.slices → m.coresUp = true →
     (m.slice n).loaded = false → (m.slice n).failed = false → (m.slice n).awaitHello = none →
     (m.slice n).loadStep = 2 → (m.slice n).unacked = [] → Tbl.wf HubSlice.reset m.hub = true →
     Tbl.wf (OwnSlice.reset 1) m.own = true →
     ∃ t, exec (.sliceReload dt n .done) s = .next { s with m := t } ∧ (t.slice n).loaded = true ∧
       (t.slice n).attempts = 0 ∧ (t.slice n).cal = (m.slice n).cal ∧ (t.ownOf n).epoch = (m.slice n).epoch ∧
       (t.ownOf n).cal = (m.slice n).cal ∧ (t.ownOf n).running = true ∧ (t.ownOf n).alone = false ∧
       (t.ownOf n).stored = (sliceChans n).map (fun ch => Tbl.get .off m.live.fallback ch) ∧
       (t.ownOf n).fa = m.effective.fa ∧ (t.ownOf n).fb = m.effective.fb ∧
       (∀ k, k ≠ n → t.slice k = m.slice k ∧ t.ownOf k = m.ownOf k) ∧
       t = { m with stage := t.stage, hub := t.hub, own := t.own }) ∧
   (∀ (s : State) (dt n : Nat) (m : Module), m = s.m.elapse dt → n < m.variant.slices → m.coresUp = true →
     (m.slice n).loaded = false → (m.slice n).failed = false → (m.slice n).awaitHello = none →
     exec (.sliceReload dt n .failed) s = .next { s with
       m := (if 3 ≤ (m.slice n).attempts then m.holdFailed n
         else (m.setSlice n (fun h => { h with
           attempts := (m.slice n).attempts + 1, epoch := nextEpoch h.epoch })).beginLoad n).reloadEnds })) ∧
  ((∀ (s : State) (dt n d : Nat) (m : Module), m = s.m.elapse dt → n < m.variant.slices →
     (m.slice n).awaitHello = some d → d < m.clk.tick.toNat →
     exec (.helloWaitExpiry dt n) s = .next { s with
       m := if 3 ≤ (m.slice n).attempts then (m.holdFailed n).reloadEnds
         else { (m.setSlice n (fun h => { h with
           attempts := (m.slice n).attempts + 1, awaitHello := some (m.clk.tick.toNat + 2000000) })) with
           out := m.out ++ [.linkReset n] } }) ∧
   (∀ (s : State) (dt n d : Nat) (m : Module), m = s.m.elapse dt → n < m.variant.slices →
     (m.slice n).awaitHello = some d → m.clk.tick.toNat ≤ d →
     exec (.helloWaitExpiry dt n) s = .next { s with m := m }) ∧
   (∀ (s : State) (dt n d : Nat) (cause : Byte) (m : Module), m = s.m.elapse dt → n < m.variant.slices →
     m.coresUp = true → (m.slice n).failed = false → (m.slice n).awaitHello = some d → m.clk.tick.toNat ≤ d →
     exec (.sliceHello dt n true cause) s = .next { s with
       m := (m.setSlice n (fun h => { h with awaitHello := none, lastFrame := m.clk.turn, stored := false })).beginLoad
         n }) ∧
   (∀ (s : State) (dt n : Nat) (cause : Byte) (m : Module), m = s.m.elapse dt → n < m.variant.slices →
     (m.slice n).failed = false → (m.slice n).awaitHello = none → (m.slice n).loaded = true →
     exec (.sliceHello dt n true cause) s = .next { s with m := m.sliceReset n false }) ∧
   (∀ (s : State) (dt n : Nat) (cause : Byte) (m : Module), m = s.m.elapse dt → n < m.variant.slices →
     exec (.sliceHello dt n false cause) s = .next { s with m := m }) ∧
   (∀ (s : State) (dt n : Nat) (c : Instr) (cause : Byte) (m : Module), m = s.m.elapse dt → n < m.variant.slices →
     ((c = .sliceSupplyLoss dt n ∧ cause = 1) ∨ (c = .sliceWatchdog dt n ∧ cause = 2) ∨
      (c = .linkResetSequence dt n ∧ cause = 3)) →
     Tbl.wf (OwnSlice.reset 1) m.own = true → Tbl.wf Chan.reset m.lamps.chans = true →
     ∃ t, exec c s = .next { s with m := t } ∧ t.ownOf n = OwnSlice.reset cause ∧ (t.ownOf n).epoch = 0 ∧
       (∀ ch, ch / 16 = n → (t.chan ch).closed = false) ∧ (∀ ch, ch / 16 ≠ n → t.chan ch = m.chan ch) ∧
       (∀ k, k ≠ n → t.ownOf k = m.ownOf k) ∧ t = { m with own := t.own, hub := t.hub, lamps := t.lamps })) ∧
  ((∀ (s : State) (dt n : Nat) (hdr : HubHdr) (block : LoadBlock) (m : Module), m = s.m.elapse dt →
     n < m.variant.slices → hdr.good = true →
     exec (.load dt n hdr true block) s = .next { s with
       m := (m.setOwn n (fun o => { o with
         epoch := hdr.epoch, lastSeq := hdr.seq, blocks := 0, running := false, heard := m.clk.turn })).takeBlock
           n block }) ∧
   (∀ (s : State) (dt n : Nat) (hdr : HubHdr) (block : LoadBlock) (m : Module), m = s.m.elapse dt →
     n < m.variant.slices → hdr.good = true → hdr.epoch = (m.ownOf n).epoch → hdr.epoch ≠ 0 →
     (m.ownOf n).running = false →
     exec (.load dt n hdr false block) s = .next { s with
       m := if hdr.seq = (m.ownOf n).lastSeq + 1 then
         (m.setOwn n (fun o => { o with lastSeq := hdr.seq, heard := m.clk.turn })).takeBlock n block
       else m.setOwn n (fun o => { o with heard := m.clk.turn }) }) ∧
   (∀ (s : State) (dt n : Nat) (hdr : HubHdr) (start : Bool) (block : LoadBlock) (m : Module), m = s.m.elapse dt →
     n < m.variant.slices → hdr.good = false →
     exec (.load dt n hdr start block) s = .next { s with m := m }))

/-- A good frame of the current epoch acknowledges and is acted on, a damaged one is discarded; the third of a stale
epoch resets the link; an expired deadline sends again or, after the third send, resets the link; a silent running
slice is reset; a reloaded slice is re-issued its state at a crossing; every 16 cycles a calibration is sent on or
fails; every running slice is sent the time (R229-R238, R241, R245). A slice acts on a good frame of its epoch in
sequence, hears the time, answers a request; unheard for four half-cycles it shows its stored fallback pattern, whose
flashing it counts itself; without an epoch it sends HELLO (R24, R230-R232, R245, R473, R475). Where it goes beyond
the rules, it states the model's own readings: log 12, 13, 43, 92, 94, 100. -/
def Obligations.SliceLinkEnds : Prop :=
  ((∀ (s : State) (dt n : Nat) (hdr : SliceHdr) (bin : Nat) (steps : List (List Word16)) (ofSeq : Word16)
       (ans : SliceAns) (m f : Module), m = s.m.elapse dt → n < m.variant.slices → m.stage ≠ .unpowered →
     m.stage ≠ .rails → (m.slice n).failed = false → hdr.good = true → hdr.epoch = (m.slice n).epoch → hdr.epoch ≠ 0 →
     Tbl.wf HubSlice.reset m.hub = true →
     f = (m.setSlice n (fun h => { h with
       stale := 0, lastFrame := m.clk.turn, rxSeq := hdr.seq
       gaps := if hdr.seq = (m.slice n).rxSeq + 1 then h.gaps else h.gaps + 1 })).setFrames n
         (ackFrames m.clk.tick.toNat hdr.ack (m.slice n).unacked) →
     exec (.samples dt n hdr bin steps) s = .next { s with m := f.sample n bin steps } ∧
     exec (.sliceReply dt n hdr ofSeq ans) s = .next { s with m := f.sliceReplied n ofSeq ans }) ∧
   (∀ (s : State) (dt n : Nat) (hdr : SliceHdr) (bin : Nat) (steps : List (List Word16)) (ofSeq : Word16)
       (ans : SliceAns) (m : Module), m = s.m.elapse dt → n < m.variant.slices → hdr.good = false →
     exec (.samples dt n hdr bin steps) s = .next { s with m := m } ∧
     exec (.sliceReply dt n hdr ofSeq ans) s = .next { s with m := m }) ∧
   (∀ (s : State) (dt n : Nat) (hdr : SliceHdr) (bin : Nat) (steps : List (List Word16)) (m : Module),
     m = s.m.elapse dt → n < m.variant.slices → m.stage ≠ .unpowered → m.stage ≠ .rails → (m.slice n).failed = false →
     hdr.good = true → hdr.epoch ≠ (m.slice n).epoch →
     exec (.samples dt n hdr bin steps) s = .next { s with
       m := if (m.slice n).stale < 2 then m.setSlice n (fun h => { h with stale := h.stale + 1 })
         else m.sliceReset n true }) ∧
   (∀ (s : State) (dt n : Nat) (seq : Word16) (u : Unacked) (m : Module), m = s.m.elapse dt → n < m.variant.slices →
     (m.slice n).unacked.find? (fun u => u.seq == seq && u.sends != 0) = some u →
     (m.clk.tick.toNat ≤ u.deadline → exec (.sliceLinkDeadline dt n seq) s = .next { s with m := m }) ∧
     (u.deadline < m.clk.tick.toNat → 3 ≤ u.sends →
       exec (.sliceLinkDeadline dt n seq) s = .next { s with m := m.sliceReset n true }) ∧
     (u.deadline < m.clk.tick.toNat → u.sends < 3 → Tbl.wf HubSlice.reset m.hub = true →
       ∃ t, exec (.sliceLinkDeadline dt n seq) s = .next { s with m := t } ∧
         (t.slice n).unacked = resendFrom m.clk.tick.toNat seq false (m.slice n).unacked ∧
         t = { m with hub := t.hub, out := t.out })) ∧
   (∀ (s : State) (dt n : Nat) (m : Module), m = s.m.elapse dt → n < m.variant.slices → (m.slice n).loaded = true →
     (m.slice n).failed = false →
     exec (.sliceLinkSilence dt n) s = .next { s with
       m := if m.clk.pastTurn ((m.slice n).lastFrame + 8192) then m.sliceReset n true else m }) ∧
   (∀ (s : State) (dt n : Nat) (m h : Module), m = s.m.elapse dt → n < m.variant.slices → (m.slice n).reissue = true →
     (m.slice n).loaded = true → m.crossPoint n = true →
     h = m.setSlice n (fun h => { h with reissue := false, stored := false }) →
     ∃ t : Module, exec (.sliceReissue dt n) s = .next { s with m := t } ∧ t = m.reissue n ∧ t.clk = m.clk ∧
       t.vault = m.vault ∧ t.ring.position = m.ring.position ∧
       t.lamps.plans.map (fun (e : Plan) => (e.id, e.held)) = h.lamps.plans.map (fun (e : Plan) =>
         (e.id, if e.acts.any (fun a => a.1 / 16 == n) && !decide (m.clk.cycle.toNat * 65536 + m.clk.angle.toNat + 1536 ≤
           e.due) then n :: e.held else e.held))) ∧
   (∀ (s : State) (dt n : Nat) (m : Module), m = s.m.elapse dt → n < m.variant.slices →
     ((m.slice n).reissue = false ∨ (m.slice n).loaded = false ∨ m.crossPoint n = false) →
     exec (.sliceReissue dt n) s = .next { s with m := m }) ∧
   (∀ (s : State) (dt n : Nat) (table : List CalPath) (m : Module), m = s.m.elapse dt → n < m.variant.slices →
     m.coresUp = true → (m.slice n).loaded = true → (m.slice n).failed = false →
     (m.slice n).auxFrom + 16 * 65536 ≤ m.clk.turn → table = calTable (Tbl.get (0, 0) (m.slice n).aux) →
     if ∀ p ∈ table, p.offset.natAbs ≤ 100 ∧ 9500 ≤ p.gain ∧ p.gain ≤ 10500 then
       exec (.calibrationUpdate dt n) s = .next { s with
         m := (m.setSlice n (fun h => { h with calNext := some table, aux := [], auxFrom := m.clk.turn })).sendSlice n
           (.plan (.calibration table)) none }
     else exec (.calibrationUpdate dt n) s = .next { s with m := m.sliceReset n true }) ∧
   (∀ (s : State) (dt : Nat) (m : Module), m = s.m.elapse dt → m.coresUp = true → m.clk.turn / 4096 ≠ m.clk.timeDone →
     exec (.timeFrameSend dt) s = .next { s with
       m := { m with
         clk := { m.clk with timeDone := m.clk.turn / 4096 }
         out := m.out ++ ((List.range m.variant.slices).filter m.sliceRuns).map (fun n =>
           .time n (m.slice n).epoch (m.slice n).seq ⟨m.clk.cycle, m.clk.angle, m.clk.tick.toNat, m.clk.half,
             m.clk.period.toNat, (m.slice n).bus.phase⟩) } })) ∧
  ((∀ (s : State) (dt n : Nat) (hdr : HubHdr) (body : PlanBody) (req : SliceReq) (m h : Module),
     m = s.m.elapse dt → n < m.variant.slices → hdr.good = true → (m.ownOf n).running = true →
     (m.ownOf n).alone = false → hdr.epoch = (m.ownOf n).epoch → hdr.epoch ≠ 0 → hdr.seq = (m.ownOf n).lastSeq + 1 →
     h = m.setOwn n (fun o => { o with lastSeq := hdr.seq, heard := m.clk.turn }) →
     exec (.plan dt n hdr body) s = .next { s with m := h.takePlan n body } ∧
     exec (.sliceRequest dt n hdr req) s = .next { s with m := h.takeRequest n hdr.seq req }) ∧
   (∀ (s : State) (dt n : Nat) (hdr : HubHdr) (body : PlanBody) (req : SliceReq) (m : Module),
     m = s.m.elapse dt → n < m.variant.slices →
     (hdr.good = false ∨ (m.ownOf n).alone = true ∨ hdr.epoch ≠ (m.ownOf n).epoch ∨ hdr.epoch = 0) →
     exec (.plan dt n hdr body) s = .next { s with m := m } ∧
     (req ≠ .echo → exec (.sliceRequest dt n hdr req) s = .next { s with m := m })) ∧
   (∀ (s : State) (dt n : Nat) (hdr : HubHdr) (body : TimeBody) (m : Module), m = s.m.elapse dt →
     n < m.variant.slices → hdr.good = true → (m.ownOf n).running = true → (m.ownOf n).alone = false →
     hdr.epoch = (m.ownOf n).epoch → hdr.epoch ≠ 0 →
     exec (.timeFrame dt n hdr body) s = .next { s with
       m := m.setOwn n (fun o => { o with
         time := { body with tick := body.tick + o.delay }
         half := if (m.slice n).stored then o.half else body.half, heard := m.clk.turn
         plans := o.plans.filter (fun a => decide (m.clk.cycle.toNat * 65536 + m.clk.angle.toNat < a.due)) }) }) ∧
   (∀ (s : State) (dt n : Nat) (m : Module), m = s.m.elapse dt → n < m.variant.slices → (m.ownOf n).running = true →
     (m.ownOf n).alone = false → m.clk.pastTurn ((m.ownOf n).heard + 131072) = true →
     Tbl.wf (OwnSlice.reset 1) m.own = true → Tbl.wf HubSlice.reset m.hub = true →
     ∃ t, exec (.sliceHubSilence dt n) s = .next { s with m := t } ∧ (t.ownOf n).alone = true ∧
       (t.slice n).stored = true ∧ t.clk = m.clk ∧ t.vault = m.vault ∧
       ∀ ch, ch / 16 = n → (t.shown ch).2 = 4 ∧ (t.shown ch).1.pattern = (m.ownOf n).stored.getD (ch % 16) .off) ∧
   (∀ (s : State) (dt n : Nat) (m : Module), m = s.m.elapse dt → n < m.variant.slices →
     ((m.ownOf n).running = false ∨ (m.ownOf n).alone = true ∨ m.clk.pastTurn ((m.ownOf n).heard + 131072) = false) →
     exec (.sliceHubSilence dt n) s = .next { s with m := m }) ∧
   (∀ (s : State) (dt n : Nat) (m : Module), m = s.m.elapse dt → n < m.variant.slices → (m.ownOf n).epoch = 0 →
     m.alive = true → (m.slice n).failed = false →
     exec (.sliceHelloTimer dt n) s = .next { s with m := m.fromOwn n (.hello (m.ownOf n).cause) }) ∧
   (∀ (s : State) (dt n : Nat) (m : Module), m = s.m.elapse dt → n < m.variant.slices → (m.ownOf n).epoch ≠ 0 →
     exec (.sliceHelloTimer dt n) s = .next { s with m := m }) ∧
   (∀ (s : State) (dt n : Nat) (m : Module), m = s.m.elapse dt → n < m.variant.slices →
     ((m.ownOf n).alone = true ∨ (m.slice n).stored = true) → (m.slice n).bus.phase.kind ≠ .none →
     (m.slice n).bus.reversed = false → Tbl.wf (OwnSlice.reset 1) m.own = true →
     ∃ t, exec (.storedFallbackHalfCycle dt n) s = .next { s with m := t } ∧
       (t.ownOf n).half = (m.ownOf n).half + 1 ∧ (∀ k, k ≠ n → t.ownOf k = m.ownOf k) ∧ t.clk = m.clk ∧
       t.vault = m.vault ∧ t.win = m.win) ∧
   (∀ (s : State) (dt n : Nat) (m : Module), m = s.m.elapse dt → n < m.variant.slices →
     ((m.slice n).bus.phase.kind = .none ∨ (m.slice n).bus.reversed = true) →
     exec (.storedFallbackHalfCycle dt n) s = .next { s with m := m }))

/-! ### Lamps and proving -/

/-- A verdict complete by its deadline, 256 au after its bin's end, is counted, a later one is not, and a deadline
missed before it acts first; an expired deadline faults all 16 channels; a slice that runs with its hub judges each
bin from what its converter gives, reports the crossings it found, and sends VERDICT and SAMPLES; after a clean cycle
a tracked swatch moves, once (R97, R98, R205-R210, R216, R217, R219, R220, R230, R232, R242, R246). Where it goes
beyond the rules, it states the model's own readings: log 13, 36, 37, 39, 97, 98. -/
def Obligations.Verdicts : Prop :=
  (∀ (s : State) (dt n bin : Nat) (hdr : SliceHdr) (cyc : Word16) (codes : Word32) (m f g : Module),
    m = s.m.elapse dt → n < m.variant.slices → m.stage ≠ .unpowered → m.stage ≠ .rails → (m.slice n).failed = false →
    hdr.good = true → hdr.epoch = (m.slice n).epoch → hdr.epoch ≠ 0 → Tbl.wf HubSlice.reset m.hub = true →
    f = (m.setSlice n (fun h => { h with
      stale := 0, lastFrame := m.clk.turn, rxSeq := hdr.seq
      gaps := if hdr.seq = (m.slice n).rxSeq + 1 then h.gaps else h.gaps + 1 })).setFrames n
        (ackFrames m.clk.tick.toNat hdr.ack (m.slice n).unacked) →
    g = (if f.verdictMissed n then f.silent n else f) →
    (g.clk.byInstant (g.binEnd n bin cyc + 256) = true →
      exec (.verdict dt n hdr bin cyc codes) s = .next { s with m := g.countVerdict n bin (g.binEnd n bin cyc) codes }) ∧
    (g.clk.byInstant (g.binEnd n bin cyc + 256) = false →
      exec (.verdict dt n hdr bin cyc codes) s = .next { s with m := g })) ∧
  (∀ (s : State) (dt n : Nat) (m : Module), m = s.m.elapse dt → n < m.variant.slices → m.verdictMissed n = true →
    Tbl.wf HubSlice.reset m.hub = true → Tbl.wf FaultRec.none m.prov.records = true →
    ∃ t, exec (.sliceSilent dt n) s = .next { s with m := t } ∧ (t.slice n).verdicts = 0 ∧ (t.slice n).r51 = 0 ∧
      (t.slice n).judged = m.nextDue n ∧
      (∀ ch, ch / 16 = n → (t.record ch 3).active = true) ∧
      (∀ ch, ch / 16 = n → (m.record ch 3).active = false →
        (t.record ch 3).latched = true ∧ (t.record ch 3).response = m.response ch) ∧
      (∀ ch kind, (ch / 16 ≠ n ∨ kind ≠ 3) → 1 ≤ kind → kind ≤ 4 → t.record ch kind = m.record ch kind)) ∧
  (∀ (s : State) (dt n : Nat) (m : Module), m = s.m.elapse dt → n < m.variant.slices → m.verdictMissed n = false →
    exec (.sliceSilent dt n) s = .next { s with m := m }) ∧
  (∀ (s : State) (dt n bin : Nat) (codes : List (List Int)) (m h : Module) (o : OwnSlice) (x : List (Bool × Nat)),
    m = s.m.elapse dt → n < m.variant.slices → (m.ownOf n).running = true → (m.ownOf n).alone = false →
    Tbl.wf (OwnSlice.reset 1) m.own = true → o = m.ownOf n →
    h = m.setOwn n (fun o => { o with tdie := binTdie bin codes o.tdie }) →
    x = (h.swingOver o.swing (codes.map (fun c => voltageOf o.cal (c.getD 0 0)))).2 →
    ∃ t, exec (.sliceBinEnd dt n bin codes) s = .next { s with m := t } ∧
      t = { m with own := t.own, lamps := t.lamps, out := m.out ++
        x.zipIdx.map (fun e => .fromSlice n o.epoch (o.seq + 1 + BitVec.ofNat 16 e.2) o.lastSeq (.xing e.1.1 e.1.2)) ++
        [.fromSlice n o.epoch (o.seq + 1 + BitVec.ofNat 16 x.length) o.lastSeq
           (.verdict bin (BitVec.ofNat 16 (m.binEndBy n (m.clk.cycle.toNat * 65536 + m.clk.angle.toNat) / 65536))
             ((sliceChans n).map (fun ch => h.codeOf ch bin (h.binSamples o.cal ch codes)))),
         .fromSlice n o.epoch (o.seq + 2 + BitVec.ofNat 16 x.length) o.lastSeq
           (.samples bin (binWords (m.alignLeft n) bin codes))] }) ∧
  (∀ (s : State) (dt n bin : Nat) (codes : List (List Int)) (m : Module), m = s.m.elapse dt → n < m.variant.slices →
    ((m.ownOf n).running = false ∨ (m.ownOf n).alone = true) →
    exec (.sliceBinEnd dt n bin codes) s = .next { s with
      m := m.setOwn n (fun o => { o with tdie := binTdie bin codes o.tdie }) }) ∧
  (∀ (s : State) (dt n pos : Nat) (m : Module), m = s.m.elapse dt → n < m.variant.slices →
    (m.ownOf n).running = true → (m.ownOf n).alone = false → Tbl.get 0 (m.ownOf n).swState pos = 2 →
    Tbl.get false (m.ownOf n).dirty pos = false → m.learning (16 * n + pos) = false → m.cycleOver n = true →
    exec (.swatchTrack dt n pos) s = .next { s with
      m := m.setOwn n (fun o => { o with
        dirty := Tbl.set false o.dirty pos true
        swatches := Tbl.modify (Swatch.mk .none []) o.swatches pos (fun w =>
          { w with bins := (w.bins.zipIdx).map (fun (e : SwBin × Nat) =>
            if m.validAt (16 * n + pos) e.2 then
              { e.1 with
                mean := trackMean e.1.mean
                  ((Tbl.get (Swatch.mk .none []) (m.ownOf n).base pos).bins.getD e.2 e.1).mean
                  (Tbl.get 0 o.vals (128 * pos + e.2)) e.1.tol }
            else e.1) }) }) }) ∧
  (∀ (mean learned sum : Int) (tol : Nat),
    learned - (tol / 2 : Nat) ≤ trackMean mean learned sum tol ∧
      trackMean mean learned sum tol ≤ learned + (tol / 2 : Nat))

/-- Learning of a channel begins with a cycle once it is STEADY and settled, gathers the samples of CYCLES cycles, and
ends with its result, which on LEARNED is stored; an open-wire test ends OPEN where the two means differ by more than
1,311 codes, CONNECTED otherwise, or NOT_TESTED (R32, R169, R213-R215, R219, R251, R252). Where it goes beyond the
rules, it states the model's own readings: log 13, 58, 95, 101. -/
def Obligations.LearningAndWires : Prop :=
  (∀ (s : State) (dt ch : Nat) (m : Module), m = s.m.elapse dt → ch < m.variant.channels → m.reported ch = .steady →
    (m.chan ch).settle + m.busAngle (ch / 16) ≤ m.clk.turn → (m.slice (ch / 16)).loaded = true →
    (m.slice (ch / 16)).failed = false → m.busAngle (ch / 16) < 512 →
    exec (.swatchLearnBegin dt ch) s = .next { s with
      m := { m with prov := { m.prov with learns := m.prov.learns.map (fun (j : LearnJob) =>
        { j with chans := j.chans.map (fun c =>
            if c.1 = ch && c.2.2.isNone then (c.1, true, c.2.2) else c) }) } } }) ∧
  (∀ (s : State) (dt ch cycles : Nat) (m : Module) (sums : List BinSum) (bins : List SwBin), m = s.m.elapse dt →
    ch < m.variant.channels → m.learnCycles ch = some cycles → (∀ b, b < 128 → (m.gathered ch b).count = 2 * cycles) →
    sums = (List.range 128).map (m.gathered ch) →
    bins = sums.map (learnBin m.free (Tbl.get (20, 10, 0, 0) m.live.tolerance ch).1
      (Tbl.get (20, 10, 0, 0) m.live.tolerance ch).2.1) →
    exec (.swatchLearnDone dt ch) s = .next { s with
      m := ((((if m.learnResult ch sums bins = 0 then
          ({ m with free := m.free + 1 }).changeItems (fun i => { i with
            swatch := Tbl.set (Swatch.mk .none []) i.swatch ch ⟨(m.busOf ch).phase.kind, bins⟩ })
        else { m with free := m.free + 1 }).setLearning ch
          (fun c => (c.1, c.2.1, some (m.learnResult ch sums bins)))).dropSamples (fun x => x == ch)).settleLearns) }) ∧
  (∀ (s : State) (dt ch : Nat) (m : Module), m = s.m.elapse dt → ch < m.variant.channels →
    (m.learnCycles ch = none ∨ ∃ cycles b, m.learnCycles ch = some cycles ∧ b < 128 ∧
      (m.gathered ch b).count ≠ 2 * cycles) →
    exec (.swatchLearnDone dt ch) s = .next { s with m := m }) ∧
  (∀ (s : State) (dt ch : Nat) (up down : Nat × Nat) (m : Module), m = s.m.elapse dt → ch < m.variant.channels →
    (m.slice (ch / 16)).wire = some (ch % 16, up, down) → up.1 ≠ 0 → down.1 ≠ 0 →
    (down.2 * up.1 + 1311 * (up.1 * down.1) < up.2 * down.1 → exec (.openWireChannelTest dt ch) s = .next { s with
      m := ((((m.setSlice (ch / 16) (fun h => { h with wire := none })).setWire ch 1).detect ch 4 m.clk.cycle m.clk.angle
        0xFF 0)).settleWires.startWire (ch / 16) }) ∧
    (up.2 * down.1 ≤ down.2 * up.1 + 1311 * (up.1 * down.1) → exec (.openWireChannelTest dt ch) s = .next { s with
      m := ((((m.setSlice (ch / 16) (fun h => { h with wire := none })).setWire ch 0).endFault ch 4
        0)).settleWires.startWire (ch / 16) })) ∧
  (∀ (s : State) (dt ch : Nat) (m : Module), m = s.m.elapse dt → ch < m.variant.channels →
    (∀ p up down, (m.slice (ch / 16)).wire = some (p, up, down) → p ≠ ch % 16 ∨ up.1 = 0 ∨ down.1 = 0) →
    exec (.openWireChannelTest dt ch) s = .next { s with m := m })

/-- A plan entry goes to its running slices once, and acts at its instant, behind those that come before it: its till
is freed, then each channel shows its state or waits for a crossing, which it does for at most 36,864 au (R93, R95,
R115, R138, R188, R190, R199). Where it goes beyond the rules, it states the model's own readings: log 34. -/
def Obligations.PlanEntries : Prop :=
  (∀ (s : State) (dt id : Nat) (m : Module) (e : Plan), m = s.m.elapse dt →
    m.lamps.plans.find? (fun e => e.id == id) = some e → e.sent = false →
    ∃ t, exec (.planDispatch dt id) s = .next { s with m := t } ∧
      t.lamps = { m.lamps with plans := m.lamps.plans.map (fun (x : Plan) =>
        if x.id = e.id then { x with sent := true } else x) } ∧
      t = { m with lamps := t.lamps, hub := t.hub, out := t.out }) ∧
  (∀ (s : State) (dt id : Nat) (m : Module), m = s.m.elapse dt →
    (m.lamps.plans.find? (fun e => e.id == id) = none ∨
      ∃ e, m.lamps.plans.find? (fun e => e.id == id) = some e ∧ e.sent = true) →
    exec (.planDispatch dt id) s = .next { s with m := m }) ∧
  (∀ (s : State) (dt id : Nat) (m : Module) (e : Plan), m = s.m.elapse dt →
    m.lamps.plans.find? (fun e => e.id == id) = some e → e.flash = none →
    e.due ≤ m.clk.cycle.toNat * 65536 + m.clk.angle.toNat →
    (∀ x ∈ m.lamps.plans, e.due < x.due ∨ (e.due = x.due ∧ e.id ≤ x.id)) →
    exec (.planEntryAction dt id) s = .next { s with
      m := e.acts.foldl (fun c a => c.act
          (m.clk.turnAgo (m.clk.cycle.toNat * 65536 + m.clk.angle.toNat - e.due)) e.held a) (match e.till with
        | some t => ({ m with lamps := { m.lamps with
            plans := m.lamps.plans.filter (fun x => x.id != e.id) } }).setTill t (fun _ => Till.closed)
        | none => { m with lamps := { m.lamps with plans := m.lamps.plans.filter (fun x => x.id != e.id) } }) }) ∧
  (∀ (s : State) (dt id : Nat) (m : Module) (e : Plan), m = s.m.elapse dt →
    m.lamps.plans.find? (fun e => e.id == id) = some e →
    (m.clk.cycle.toNat * 65536 + m.clk.angle.toNat < e.due ∨
      ∃ x ∈ m.lamps.plans, x.due < e.due ∨ (x.due = e.due ∧ x.id < e.id)) →
    exec (.planEntryAction dt id) s = .next { s with m := m }) ∧
  (∀ (m h : Module) (at_ : Nat) (held : List Nat) (ch : Nat) (x : Shown),
    h = m.setChan ch (fun c => { c with zc := c.zc.filter (fun z => z.2 != at_) }) →
    (h.waitsCrossing ch x.mode (held.contains (ch / 16)) = true →
      m.act at_ held (ch, x) = h.setChan ch (fun c => { c with zc := c.zc ++ [(x, at_)] })) ∧
    (h.waitsCrossing ch x.mode (held.contains (ch / 16)) = false → h.fallbackFor ch = 0 → (h.chan ch).fb = 0 →
      m.act at_ held (ch, x) = h.takeEffect ch (fun c => { c with cmd := some x })) ∧
    (h.waitsCrossing ch x.mode (held.contains (ch / 16)) = false → (h.fallbackFor ch ≠ 0 ∨ (h.chan ch).fb ≠ 0) →
      m.act at_ held (ch, x) = h)) ∧
  (∀ (s : State) (dt ch : Nat) (x : Shown) (at_ : Nat) (m : Module), m = s.m.elapse dt → ch < m.variant.channels →
    (m.chan ch).zc = [(x, at_)] → (m.chan ch).edge = [] → Tbl.wf Chan.reset m.lamps.chans = true →
    at_ + 36864 ≤ m.clk.turn →
    ∃ t, exec (.zeroCrossTimeout dt ch) s = .next { s with m := t } ∧ (t.chan ch).zc = [] ∧ t.clk = m.clk ∧
      t.vault = m.vault ∧
      (m.fallbackFor ch = 0 → (m.chan ch).fb = 0 → (t.chan ch).cmd = some x) ∧
      ((m.fallbackFor ch ≠ 0 ∨ (m.chan ch).fb ≠ 0) → (t.chan ch).cmd = (m.chan ch).cmd)) ∧
  (∀ (s : State) (dt ch : Nat) (m : Module), m = s.m.elapse dt → ch < m.variant.channels →
    (∀ z ∈ (m.chan ch).zc, m.clk.turn < z.2 + 36864) → (∀ e ∈ (m.chan ch).edge, m.clk.turn < e.1 + 36864) →
    Tbl.wf Chan.reset m.lamps.chans = true →
    ∃ t, exec (.zeroCrossTimeout dt ch) s = .next { s with m := t } ∧ (∀ k, t.chan k = m.chan k) ∧
      t = { m with lamps := { m.lamps with chans := t.lamps.chans } })

/-- A flash boundary follows the half-cycle index; a dimmed channel is closed inside its angle and open outside it; a
fallback is applied to each channel of a slice at a crossing of its bus; an overcurrent, past 32 A in the inrush
window and 8 A outside it, opens the switch, and the third in a row keeps it off; the inrush window ends after
1,000,000 ticks; 150 °C opens every switch of a slice (R86, R186, R189, R191, R194-R197, R203, R223, R230, R247).
Where it goes beyond the rules, it states the model's own readings: log 33, 35, 42, 58, 92. -/
def Obligations.LampEdges : Prop :=
  ((∀ (s : State) (dt : Nat) (m : Module), m = s.m.elapse dt → m.clk.half ≠ m.lamps.half →
     ∃ t, exec (.flashBoundary dt) s = .next { s with m := t } ∧ t.lamps.half = m.clk.half ∧
       t = { m with lamps := t.lamps, hub := t.hub }) ∧
   (∀ (s : State) (dt : Nat) (m : Module), m = s.m.elapse dt → m.clk.half = m.lamps.half →
     exec (.flashBoundary dt) s = .next { s with m := m }) ∧
   (∀ (s : State) (dt ch : Nat) (m : Module), m = s.m.elapse dt → ch < m.variant.channels →
     (m.shown ch).1.pattern = .dim → m.dimsAsSteady ch = false → m.dimNow ch = true → m.mayClose ch = true →
     (m.chan ch).closed = false → Tbl.wf Chan.reset m.lamps.chans = true →
     ∃ t, exec (.dimFiring dt ch) s = .next { s with m := t } ∧ (t.chan ch).closed = true ∧
       ∀ k, k ≠ ch → t.chan k = m.chan k) ∧
   (∀ (s : State) (dt ch : Nat) (m : Module), m = s.m.elapse dt → ch < m.variant.channels →
     (m.shown ch).1.pattern = .dim → m.dimsAsSteady ch = false → m.dimNow ch = false →
     Tbl.wf Chan.reset m.lamps.chans = true →
     ∃ t, exec (.dimFiring dt ch) s = .next { s with m := t } ∧ (t.chan ch).closed = false ∧
       ∀ k, k ≠ ch → t.chan k = m.chan k) ∧
   (∀ (s : State) (dt ch : Nat) (m : Module), m = s.m.elapse dt → ch < m.variant.channels →
     (m.shown ch).1.pattern ≠ .dim →
     exec (.dimFiring dt ch) s = .next { s with m := m }) ∧
   (∀ (s : State) (dt n : Nat) (m : Module), m = s.m.elapse dt → n < m.variant.slices → m.stage ≠ .unpowered →
     m.crossPoint n = true → (m.slice n).startDue = false →
     exec (.fallbackApply dt n) s = .next { s with
       m := (sliceChans n).foldl (fun m ch => m.applyFallback ch) m }) ∧
   (∀ (s : State) (dt n : Nat) (m : Module), m = s.m.elapse dt → n < m.variant.slices →
     (m.stage = .unpowered ∨ m.crossPoint n = false) →
     exec (.fallbackApply dt n) s = .next { s with m := m })) ∧
  ((∀ (s : State) (dt ch peak : Nat) (m : Module), m = s.m.elapse dt → ch < m.variant.channels →
     (m.chan ch).closed = true →
     ((∃ t, (m.chan ch).inrush = some t ∧ m.clk.tick.toNat < t + 1000000 ∧ 32000 < peak) ∨
       ((∀ t, (m.chan ch).inrush = some t → t + 1000000 ≤ m.clk.tick.toNat) ∧ 8000 < peak)) →
     ((m.chan ch).tripRun < 2 →
       exec (.overcurrentTrip dt ch peak) s = .next { s with
         m := m.setChan ch (fun c => { c.openAt m.clk.tick.toNat false with
           tripOpen := true, tripRun := (m.chan ch).tripRun + 1, tripped := c.tripped || false }) }) ∧
     (2 ≤ (m.chan ch).tripRun →
       exec (.overcurrentTrip dt ch peak) s = .next { s with
         m := (m.setChan ch (fun c => { c.openAt m.clk.tick.toNat false with
           tripOpen := true, tripRun := (m.chan ch).tripRun + 1, tripped := c.tripped || true })).fromOwn (ch / 16)
             (.trip (some (ch % 16))) })) ∧
   (∀ (c : Chan) (now : Nat) (dc : Bool), (c.openAt now dc).closed = false ∧ (c.openAt now dc).inrush = none ∧
     (c.closed = true → (c.openAt now dc).ramp = some (now, dc)) ∧
     (c.closed = false → (c.openAt now dc).ramp = c.ramp)) ∧
   (∀ (s : State) (dt ch peak : Nat) (m : Module), m = s.m.elapse dt → ch < m.variant.channels →
     ((m.chan ch).closed = false ∨ peak ≤ 8000 ∨
       ∃ t, (m.chan ch).inrush = some t ∧ m.clk.tick.toNat < t + 1000000 ∧ peak ≤ 32000) →
     exec (.overcurrentTrip dt ch peak) s = .next { s with m := m }) ∧
   (∀ (s : State) (dt ch t0 : Nat) (m : Module), m = s.m.elapse dt → ch < m.variant.channels →
     (m.chan ch).inrush = some t0 →
     exec (.inrushWindowEnd dt ch) s = .next { s with
       m := if t0 + 1000000 ≤ m.clk.tick.toNat then m.setChan ch (fun c => { c with inrush := none }) else m }) ∧
   (∀ (s : State) (dt ch : Nat) (m : Module), m = s.m.elapse dt → ch < m.variant.channels →
     (m.chan ch).inrush = none → exec (.inrushWindowEnd dt ch) s = .next { s with m := m }) ∧
   (∀ (s : State) (dt n : Nat) (m : Module), m = s.m.elapse dt → n < m.variant.slices →
     Tbl.wf Chan.reset m.lamps.chans = true → Tbl.wf (OwnSlice.reset 1) m.own = true →
     ∃ t, exec (.thermalCut dt n) s = .next { s with m := t } ∧
       (∀ ch, ch / 16 = n → (t.chan ch).closed = false ∧ (t.chan ch).cut = true) ∧
       (∀ ch, ch / 16 ≠ n → t.chan ch = m.chan ch) ∧
       t.out = m.out ++ (if (m.ownOf n).alone && (m.ownOf n).running then []
         else [.fromSlice n (m.ownOf n).epoch ((m.ownOf n).seq + 1) (m.ownOf n).lastSeq (.trip none)])) ∧
   (∀ (s : State) (dt n : Nat) (hdr : SliceHdr) (pos : Option Nat) (m : Module), m = s.m.elapse dt →
     n < m.variant.slices → m.stage ≠ .unpowered → m.stage ≠ .rails → (m.slice n).failed = false → hdr.good = true →
     hdr.epoch = (m.slice n).epoch → hdr.epoch ≠ 0 → Tbl.wf HubSlice.reset m.hub = true →
     exec (.trip dt n hdr pos) s = .next { s with
       m := (m.setSlice n (fun h => { h with
         stale := 0, lastFrame := m.clk.turn, rxSeq := hdr.seq
         gaps := if hdr.seq = (m.slice n).rxSeq + 1 then h.gaps else h.gaps + 1 })).setFrames n
           (ackFrames m.clk.tick.toNat hdr.ack (m.slice n).unacked) }) ∧
   (∀ (s : State) (dt n : Nat) (hdr : SliceHdr) (pos : Option Nat) (m : Module), m = s.m.elapse dt →
     n < m.variant.slices → hdr.good = false → exec (.trip dt n hdr pos) s = .next { s with m := m }))

/-- VITAL-OK resumes only at a zero crossing of the reference bus where no condition of R225 holds, R51 is met since
the hub reset, and 5 ms have passed since the last edge; in every other case it does not begin to toggle, and a
condition stops it (R51, R86, R225, R226). Where it goes beyond the rules, it states the model's own readings: log 40,
41. -/
def Obligations.VitalOk : Prop :=
  (∀ (s : State) (dt : Nat) (m : Module), m = s.m.elapse dt → m.prov.toggling = false → m.vitalCause = 0 →
    (m.prov.hold = false ∨ m.startMet = true) → m.prov.lastToggle + 500000 ≤ m.clk.tick.toNat → m.coresUp = true →
    m.crossPoint m.clk.ref = true →
    ∃ t, exec (.vitalOkResume dt) s = .next { s with m := t } ∧
      t.prov = { m.prov with toggling := true, hold := false, lastToggle := m.clk.tick.toNat } ∧ t.lamps = m.lamps ∧
      t.vault = m.vault) ∧
  (∀ (s : State) (dt : Nat) (m : Module), m = s.m.elapse dt → m.prov.toggling = false →
    (m.vitalCause ≠ 0 ∨ (m.prov.hold = true ∧ m.startMet = false) ∨ m.clk.tick.toNat < m.prov.lastToggle + 500000 ∨
      m.coresUp = false ∨ m.crossPoint m.clk.ref = false) →
    exec (.vitalOkResume dt) s = .next { s with m := m }) ∧
  (∀ (s : State) (dt : Nat) (m : Module), m = s.m.elapse dt → m.prov.toggling = true → m.vitalFree = false →
    ∃ t, exec (.vitalOkResume dt) s = .next { s with m := t } ∧
      t.prov = { m.prov with toggling := false, lastToggle := m.clk.tick.toNat }) ∧
  (∀ (m : Module) (ch kind bin : Nat) (c : Cycle) (a : Angle) (v : Int), (m.record ch kind).active = false → kind ≠ 4 →
    m.response ch = 3 → 1 ≤ kind → kind ≤ 3 → Tbl.wf FaultRec.none m.prov.records = true →
    (m.detect ch kind c a bin v).prov.toggling = false ∧ (m.detect ch kind c a bin v).moduleFallback = true)

/-! ### The angle tracker -/

/-- A crossing is chained to the one before it of the same polarity by 45 to 65 Hz, and to its window on the reference
bus; the first valid one takes FREE and SYNTHETIC out with a step; in LOCKING and LOCKED a crossing slews by a quarter
of its error, at most 1,024 au, and eight within ±64 au lock (R75, R77, R78, R80, R83, R85, R88). Where it goes beyond
the rules, it states the model's own readings: log 38, 39, 75, 76, 96. -/
def Obligations.Crossings : Prop :=
  (∀ (s : State) (dt n stamp : Nat) (hdr : SliceHdr) (rising : Bool) (m : Module), m = s.m.elapse dt →
    n < m.variant.slices →
    exec (.xing dt n hdr rising stamp) s = .next { s with
      m := m.fromSlice n hdr (fun x => x.cross n rising (x.clk.tick.toNat - stamp)) }) ∧
  (∀ (b : Bus) (stamp last : Nat), b.lastPos = some last →
    b.chained true stamp = decide (100000000 ≤ 65 * (stamp - last) ∧ 45 * (stamp - last) ≤ 100000000)) ∧
  (∀ (b : Bus) (stamp last : Nat), b.lastNeg = some last →
    b.chained false stamp = decide (100000000 ≤ 65 * (stamp - last) ∧ 45 * (stamp - last) ≤ 100000000)) ∧
  (∀ (b : Bus) (stamp : Nat), (b.lastPos = none → b.chained true stamp = false) ∧
    (b.lastNeg = none → b.chained false stamp = false)) ∧
  (∀ (m : Module) (n delta : Nat) (rising : Bool), n ≠ m.clk.ref →
    (m.slice n).bus.chained rising (m.clk.tick.toNat - delta) = false →
    m.cross n rising delta = m.setSlice n (fun h => { h with
      bus := if rising then h.bus.rise (m.clk.tick.toNat - delta)
        else { h.bus with lastNeg := some (m.clk.tick.toNat - delta) } })) ∧
  (∀ (m : Module) (n delta d : Nat), (m.clk.tracker = .free ∨ m.clk.tracker = .synthetic) → m.busKind n ≠ 1 →
    freqOk d = true → m.clk.partsAt delta ≥ 65536 → m.clk.wrapped delta = false →
    (∀ e ∈ m.lamps.plans, 65536 * (m.clk.cycle.toNat + 1) ≤ e.due) →
    (m.refCrossing n delta d).clk.tracker = .locking ∧ (m.refCrossing n delta d).clk.cycle = m.clk.cycle + 1 ∧
      (m.refCrossing n delta d).clk.angle = BitVec.ofNat 16 (65536 * delta / d) ∧
      (m.refCrossing n delta d).clk.cycleLen = BitVec.ofNat 32 d ∧ (m.refCrossing n delta d).clk.stepped = true) ∧
  (∀ (m : Module) (n delta d : Nat), (m.clk.tracker = .locking ∨ m.clk.tracker = .locked) →
    ∃ c, m.refCrossing n delta d = { m with clk := c } ∧ c.measured = BitVec.ofNat 32 d ∧
      c.angle = m.clk.angle ∧ c.cycle = m.clk.cycle ∧ c.lastRef = some (m.clk.tick.toNat - delta) ∧
      (64 < (m.refErr delta).natAbs → c.tracker = .locking ∧ c.lockRun = 0) ∧
      ((m.refErr delta).natAbs ≤ 64 → 7 ≤ m.clk.lockRun → c.tracker = .locked) ∧
      ((m.refErr delta).natAbs ≤ 64 → m.clk.lockRun < 7 → c.tracker = m.clk.tracker ∧ c.lockRun = m.clk.lockRun + 1)) ∧
  (∀ (m : Module) (delta : Nat),
    (m.clk.altRef = false → m.refErr delta = signedAngle (m.clk.angleAt delta)) ∧
    (m.clk.altRef = true → m.refErr delta = signedAngle (m.clk.angleAt delta - m.clk.altOffset))) ∧
  (∀ err : Int, -1024 ≤ slewAu err ∧ slewAu err ≤ 1024 ∧ (err.natAbs ≤ 4096 → slewAu err = err.tdiv 4))

/-- FLYWHEEL_ENTRY, ALTERNATE_TAKEOVER after 64 cycles with its offset and no step, PRIMARY_RETURN after 64 settled
cycles, DOMAIN_HOLD_ENTRY after 64 weft times, each with the cases in which nothing moves (R77, R79, R80, R83). That a
step leaves no offset to subtract, and that PRIMARY_RETURN looks at the interval before its crossing, is the model's
choice (log 61). Where it goes beyond the rules, it states the model's own readings: log 12, 38. -/
def Obligations.TrackerMoves : Prop :=
  (∀ (s : State) (dt : Nat) (m : Module), m = s.m.elapse dt →
    (m.clk.tracker = .locking ∨ m.clk.tracker = .locked) → 4096 < m.clk.sincePrediction.toNat →
    (∀ t, m.clk.lastRef = some t → t + m.clk.windowTicks < m.clk.tick.toNat) →
    m.clk.measured ≠ 0 →
    exec (.flywheelEntry dt) s = .next { s with m := { m with clk := { m.clk with
      tracker := .flywheel, fly := [], flyFrom := m.clk.turn, lockRun := 0, cycleLen := m.clk.measured
      frac := m.clk.frac * m.clk.measured.toNat / m.clk.cycleLen.toNat } } }) ∧
  (∀ (s : State) (dt : Nat) (m : Module), m = s.m.elapse dt →
    ((m.clk.tracker ≠ .locking ∧ m.clk.tracker ≠ .locked) ∨ m.clk.sincePrediction.toNat ≤ 4096) →
    exec (.flywheelEntry dt) s = .next { s with m := m }) ∧
  (∀ c : Clock, (c.altRef = false → c.sincePrediction = c.angle) ∧
    (c.altRef = true → c.sincePrediction = c.angle - c.altOffset)) ∧
  (∀ (s : State) (dt : Nat) (m : Module), m = s.m.elapse dt → m.clk.tracker = .flywheel →
    m.clk.flyFrom + 64 * 65536 ≤ m.clk.turn →
    m.items.refAlternate < m.variant.slices → (m.slice m.items.refAlternate).bus.phase.settled = true →
    exec (.alternateTakeover dt) s = .next { s with m := { m with clk := { m.clk with
      tracker := .locking, altRef := true, ref := m.items.refAlternate
      altOffset := (m.slice m.items.refAlternate).bus.phase.pos, lockRun := 0, fly := []
      lastRef := (m.slice m.items.refAlternate).bus.lastPos } } }) ∧
  (∀ (s : State) (dt : Nat) (m : Module), m = s.m.elapse dt →
    (m.clk.tracker ≠ .flywheel ∨ m.clk.turn < m.clk.flyFrom + 64 * 65536 ∨ m.variant.slices ≤ m.items.refAlternate ∨
      (m.slice m.items.refAlternate).bus.phase.settled = false) →
    exec (.alternateTakeover dt) s = .next { s with m := m }) ∧
  (∀ (s : State) (dt stamp : Nat) (m : Module), m = s.m.elapse dt → m.clk.altRef = true →
    (m.slice m.items.refPrimary).bus.phase.settled = true →
    (m.slice m.items.refPrimary).bus.settledAt + 64 * 65536 ≤ m.clk.turn →
    (m.clk.tracker = .locking ∨ m.clk.tracker = .locked ∨ m.clk.tracker = .flywheel) →
    freqOk ((m.slice m.items.refPrimary).bus.gapAt stamp) = true →
    exec (.primaryReturn dt stamp) s = .next { s with
      m := ({ m with clk := { m.clk with
        ref := m.items.refPrimary, altRef := false, takePrimary := false } }).takeSource
          (m.clk.tick.toNat - stamp) ((m.slice m.items.refPrimary).bus.gapAt stamp) false }) ∧
  (∀ (s : State) (dt stamp : Nat) (m : Module), m = s.m.elapse dt →
    (m.clk.altRef = false ∨ (m.slice m.items.refPrimary).bus.phase.settled = false ∨
      m.clk.turn < (m.slice m.items.refPrimary).bus.settledAt + 64 * 65536 ∨ freqOk ((m.slice m.items.refPrimary).bus.gapAt stamp) = false) →
    exec (.primaryReturn dt stamp) s = .next { s with m := m }) ∧
  (∀ (m : Module) (delta d : Nat) (always : Bool) (c : Clock), c = { m.clk with
      tracker := .locking, measured := BitVec.ofNat 32 d, lockRun := 0, fly := []
      lastRef := some (m.clk.tick.toNat - delta) } →
    ((always = false ∧ (m.refErr delta).natAbs ≤ 4096) →
      m.takeSource delta d always = { m with clk := c.setLen (c.slewed (m.refErr delta)) }) ∧
    ((always = true ∨ 4096 < (m.refErr delta).natAbs) →
      m.takeSource delta d always = ({ m with clk := { c with altOffset := 0 } }).stepUnlessWrap delta)) ∧
  (∀ (s : State) (dt : Nat) (m : Module), m = s.m.elapse dt → m.clk.tracker = .domain → 64 ≤ m.clk.headerGap →
    m.clk.measured ≠ 0 →
    exec (.domainHoldEntry dt) s = .next { s with m := { m with clk := { m.clk with
      tracker := .domainHold, cycleLen := m.clk.measured
      frac := m.clk.frac * m.clk.measured.toNat / m.clk.cycleLen.toNat } } }) ∧
  (∀ (s : State) (dt : Nat) (m : Module), m = s.m.elapse dt →
    (m.clk.tracker ≠ .domain ∨ m.clk.headerGap < 64) →
    exec (.domainHoldEntry dt) s = .next { s with m := m })

/-- At the wrap the cycle number goes up by one, PERIOD is the cycle's length and the rest counts in the new cycle;
CYCLE_CHECKPOINT writes the cycle number in force; a half-cycle boundary, once at each of the angles 0 and 32,768,
judges every bus and moves the tracker of a DC reference to SYNTHETIC (R52, R71, R72, R74, R77, R84, R85, R270, R473).
Where it goes beyond the rules, it states the model's own readings: log 1, 13, 31, 38. -/
def Obligations.CyclesAndBoundaries : Prop :=
  (∀ c : Clock, c.cycleLen ≠ 0 →
    c.wrap.cycle = c.cycle + 1 ∧ c.wrap.tick = c.tick ∧ c.wrap.tracker = c.tracker ∧ c.wrap.cycleLen = c.cycleLen ∧
      c.wrap.frac < c.cycleLen.toNat ∧
      c.wrap.angle = BitVec.ofNat 16 ((c.frac - c.cycleLen.toNat) / c.cycleLen.toNat) ∧
      c.wrap.period = BitVec.ofNat 32 (c.cycleTicks - (c.frac - c.cycleLen.toNat) / 65536)) ∧
  (∀ (s : State) (dt : Nat) (m : Module), m = s.m.elapse dt → m.clk.angle = 65535 → m.clk.cycleLen.toNat ≤ m.clk.frac →
    m.upd.session.unwindDue = false →
    exec (.cycleStart dt) s = .next { s with m := ({ m with clk := m.clk.wrap }).cycleBegins }) ∧
  (∀ (s : State) (dt : Nat) (m : Module), m = s.m.elapse dt → m.clk.angle = 65535 → m.clk.cycleLen.toNat ≤ m.clk.frac →
    m.coresUp = false →
    exec (.cycleStart dt) s = .next { s with
      m := { m with clk := m.clk.wrap, meter := { m.meter with sincePass := m.meter.sincePass + 1 } } }) ∧
  (∀ (s : State) (dt : Nat) (m : Module), m = s.m.elapse dt →
    (m.clk.angle ≠ 65535 ∨ m.clk.frac < m.clk.cycleLen.toNat) →
    exec (.cycleStart dt) s = .next { s with m := m }) ∧
  (∀ (s : State) (dt : Nat) (m : Module), m = s.m.elapse dt →
    exec (.cycleCheckpoint dt) s = .next { s with
      m := if m.coresUp then { m with vault := { m.vault with checkpoint := some m.clk.cycle } } else m }) ∧
  (∀ (s : State) (dt : Nat) (means : List Int) (m : Module), m = s.m.elapse dt → m.stage ≠ .unpowered →
    m.stage ≠ .holdup → m.clk.turn / 32768 ≠ m.clk.halfDone → m.diag.bist = none →
    ∃ a b, exec (.halfCycleBoundary dt means) s = .next { s with m := b } ∧
      a = ((List.range m.variant.slices).foldl (fun (x : Module) n => x.busHalf n (means.getD n 0))
        { m with clk := { m.clk with halfDone := m.clk.turn / 32768 } }).synthetic ∧
      b.clk = { a.clk with headerGap := a.clk.headerGap + 1 } ∧ b.upd.wefts = a.upd.wefts + 1 ∧
      b.ring.east.helloGap = a.ring.east.helloGap + 1 ∧ b.ring.west.helloGap = a.ring.west.helloGap + 1 ∧
      b.hub = a.hub ∧ b.lamps = a.lamps ∧ b.win = a.win ∧ b.prov = a.prov ∧ b.vault = a.vault) ∧
  (∀ (s : State) (dt : Nat) (means : List Int) (m : Module), m = s.m.elapse dt → m.diag.bist = none →
    (m.stage = .unpowered ∨ m.stage = .holdup ∨ m.clk.turn / 32768 = m.clk.halfDone) →
    exec (.halfCycleBoundary dt means) s = .next { s with m := m }) ∧
  (∀ (b : Bus) (kind ticks turn : Nat) (v : Int),
    (kind = 1 → 770 ≤ v → v ≤ 1400 → (∀ t, b.seen = some t → t + 32768 < turn) →
      (b.halfEnd kind ticks v turn).phase.kind = .dc) ∧
    (b.reversed = true → -1400 ≤ v → v ≤ -770 → (b.halfEnd kind ticks v turn).phase.kind = .none ∧
      (b.halfEnd kind ticks v turn).reversed = true) ∧
    ((v < -1400 ∨ -770 < v) → (b.halfEnd kind ticks v turn).reversed = false) ∧
    ((∀ t, b.seen = some t → t + 131072 ≤ turn) →
      (b.halfEnd kind ticks v turn).phase.settled = false ∧ (b.halfEnd kind ticks v turn).phase.kind ≠ .ac)) ∧
  (∀ m : Module, (m.clk.tracker = .free ∨ m.clk.tracker = .locking ∨ m.clk.tracker = .locked ∨ m.clk.tracker = .flywheel) →
    m.clk.takePrimary = false → (m.slice m.clk.ref).bus.phase.kind = .dc →
    m.synthetic.clk.tracker = .synthetic ∧ m.synthetic.clk.cycleLen = 2000000 ∧ m.synthetic.clk.angle = m.clk.angle ∧
      m.synthetic.clk.cycle = m.clk.cycle)

/-! ### Supplies, the ledger and standby -/

/-- Mains and backup becoming valid and invalid: the bits and measurements, SUPPLY_CHANGE, the change of supply,
HOLDUP with neither; mains wakes a module in standby; TO_MAINS needs 2 s of valid mains (R300, R301, R305, R322, R325,
R326). Where it goes beyond the rules, it states the model's own readings: log 25. -/
def Obligations.SupplyChanges : Prop :=
  (∀ (s : State) (dt : Nat) (dv : Word16) (m : Module), m = s.m.elapse dt → m.stage ≠ .unpowered → m.stage ≠ .holdup →
    m.pow.mains = false →
    exec (.mainsValid dt dv) s = .next { s with
      m := (fun (x : Module) => if m.stage = .standby then x.wake 8 else x)
        (({ m with pow := { m.pow with mains := true, mainsSince := m.clk.tick.toNat, mainsDv := dv } }).supplyChange 2) }) ∧
  (∀ (s : State) (dt : Nat) (dv : Word16) (m : Module), m = s.m.elapse dt →
    (m.stage = .unpowered ∨ m.stage = .holdup ∨ m.pow.mains = true) →
    exec (.mainsValid dt dv) s = .next { s with m := m }) ∧
  (∀ (s : State) (dt : Nat) (dv : Word16) (m x : Module), m = s.m.elapse dt → m.stage ≠ .unpowered → m.stage ≠ .holdup →
    m.pow.mains = true → x = ({ m with pow := { m.pow with mains := false, mainsDv := dv } }).supplyChange 1 →
    exec (.mainsInvalid dt dv) s = .next { s with m := if m.pow.backup then x.toBackup.waitedStandby else x.holdup }) ∧
  (∀ (s : State) (dt : Nat) (dv : Word16) (m : Module), m = s.m.elapse dt →
    (m.stage = .unpowered ∨ m.stage = .holdup ∨ m.pow.mains = false) →
    exec (.mainsInvalid dt dv) s = .next { s with m := m }) ∧
  (∀ (s : State) (dt : Nat) (cv : Word16) (m x : Module), m = s.m.elapse dt → m.stage ≠ .unpowered → m.stage ≠ .holdup →
    m.pow.backup = false → x = ({ m with pow := { m.pow with backup := true, backupCv := cv } }).supplyChange 4 →
    exec (.backupValid dt cv) s = .next { s with
      m := if m.pow.mains = true ∧ m.pow.mainsSince + 200000000 ≤ m.clk.tick.toNat then x else x.toBackup }) ∧
  (∀ (s : State) (dt : Nat) (cv : Word16) (m x : Module), m = s.m.elapse dt → m.stage ≠ .unpowered → m.stage ≠ .holdup →
    m.pow.backup = true → x = ({ m with pow := { m.pow with backup := false, backupCv := cv } }).supplyChange 3 →
    exec (.backupInvalid dt cv) s = .next { s with m := if m.pow.mains then x.toMains else x.holdup }) ∧
  (∀ (s : State) (dt : Nat) (cv : Word16) (m : Module), m = s.m.elapse dt →
    (m.stage = .unpowered ∨ m.stage = .holdup) →
    exec (.backupValid dt cv) s = .next { s with m := m } ∧ exec (.backupInvalid dt cv) s = .next { s with m := m }) ∧
  (∀ (s : State) (dt : Nat) (m : Module), m = s.m.elapse dt → m.stage ≠ .unpowered → m.stage ≠ .holdup →
    m.pow.mains = true → m.pow.mainsSince + 200000000 ≤ m.clk.tick.toNat → m.pow.onBackup = true →
    exec (.toMains dt) s = .next { s with
      m := (({ m with pow := { m.pow with onBackup := false } }).supplyChange 5).judgeLedger 3 }) ∧
  (∀ (s : State) (dt : Nat) (m : Module), m = s.m.elapse dt →
    (m.pow.mains = false ∨ m.clk.tick.toNat < m.pow.mainsSince + 200000000 ∨ m.pow.onBackup = false) →
    exec (.toMains dt) s = .next { s with m := m }) ∧
  (∀ (m : Module) (cause : Nat), ∃ t, m.supplyChange cause = t ∧ t.pow = m.pow ∧ t.clk = m.clk ∧ t.prov = m.prov ∧
    t.lamps = m.lamps ∧ t.hub = m.hub ∧ t.vault = m.vault ∧ t.stage = m.stage)

/-- HOLDUP stops VITAL-OK, drops the plan, checkpoints the cycle and BACKUP and goes through to the power-on reset,
which keeps the vault, the banks and the fuses; standby entry and the wake, and what a wake keeps (R54, R64, R305,
R306, R308, R324, R325). Where it goes beyond the rules, it states the model's own readings: log 25, 28, 32. -/
def Obligations.HoldupAndStandby : Prop :=
  (∀ m : Module, ∃ t, m.holdup = t ∧ t.stage = .unpowered ∧ t.variant = m.variant ∧ t.win = Module.reset.win ∧
    t.tel = Teller.reset ∧ t.prov.toggling = false ∧ t.prov.hold = true ∧ t.hub = [] ∧ t.own = [] ∧ t.ring = Ring.reset ∧
    t.upd.bank0 = m.upd.bank0 ∧ t.upd.bank1 = m.upd.bank1 ∧ t.upd.swapped = m.upd.swapped ∧
    t.vault.config = m.vault.config ∧ t.vault.hubEpoch = m.vault.hubEpoch ∧ t.vault.backupPoint = some m.pow.account ∧
    t.vault.checkpoint = some m.clk.cycle ∧ t.clk = Clock.powerOn (m.clk.cycle + 65536) ∧ t.pow.account = m.pow.account ∧ t.lamps.plans = []) ∧
  (∀ (m : Module) (cause : Nat), ∃ t, m.enterStandby cause = t ∧ t.stage = .standby ∧ t.prov.coreFb = true ∧
    t.prov.dark = true ∧ t.prov.toggling = false ∧ t.lamps.plans = [] ∧ t.win.attached = false ∧
    t.win.enumerated = false ∧ t.ring.forwards = [] ∧ t.ring.txq = [] ∧ t.ring.enum = none ∧ t.pow.countDone = false ∧
    t.pow.standbyDue = false ∧ t.clk = m.clk ∧ t.vault.hubEpoch = m.vault.hubEpoch) ∧
  (∀ (s : State) (dt : Nat) (m : Module), m = s.m.elapse dt → m.coresUp = true → m.pow.ledger = 2 →
    m.pow.countFrom + 100000000 * m.items.standbyAfter.toNat ≤ m.clk.tick.toNat →
    exec (.standbyCountdown dt) s = .next { s with
      m := if m.pow.onBackup = true ∧ m.pow.mains = false then m.enterStandby 5
        else { m with pow := { m.pow with countDone := true } } }) ∧
  (∀ (s : State) (dt : Nat) (m : Module), m = s.m.elapse dt →
    (m.coresUp = false ∨ m.pow.ledger ≠ 2 ∨ m.clk.tick.toNat < m.pow.countFrom + 100000000 * m.items.standbyAfter.toNat) →
    exec (.standbyCountdown dt) s = .next { s with m := m }) ∧
  (∀ (s : State) (dt : Nat) (m : Module), m = s.m.elapse dt →
    exec (.standbyCheckpoint dt) s = .next { s with
      m := if m.stage = .standby then { m with vault := { m.vault with checkpoint := some m.clk.cycle } } else m }) ∧
  (∀ (m : Module) (cause : Nat), ∃ t, m.wake cause = t ∧ t.stage = .reload ∧ t.prov.coreFb = false ∧
    t.prov.dark = false ∧ t.prov.toggling = m.prov.toggling ∧ t.prov.records = m.prov.records ∧ t.shelf = m.shelf ∧
    t.clk = m.clk ∧ t.vault.config = m.vault.config ∧ t.drop.resumeAt = some (m.clk.tick.toNat + 1000000))

/-- BACKUP falls by the energy measured and not below 0, is checkpointed every 60 s on backup and refilled after 4 h
of mains; the reserve is ARMED from 8,000 groats and reads at most 24,000; ledger state follows R322 (R304, R310,
R322, R327). The thermal model, once a cycle: the loss from the squares of the samples and the turn-ons, T_est from
the two filters, the die and the heatsink sensor where it is fitted and not open or shorted, the stretch factor by the
headroom to 125 °C with its hysteresis; before a slice is loaded nothing happens (R248, R311, R312, R327). Where it
goes beyond the rules, it states the model's own readings: log 8, 13, 26, 31, 42, 73. -/
def Obligations.AccountsAndHeat : Prop :=
  ((∀ (s : State) (dt : Nat) (groats : Word32) (m x : Module), m = s.m.elapse dt → m.stage ≠ .unpowered →
     m.stage ≠ .holdup → m.pow.onBackup = true →
     x = { m with pow := { m.pow with account := m.pow.account - (if groats.toNat < m.pow.account.toNat then groats
       else m.pow.account) } } →
     x.pow.account.toNat = m.pow.account.toNat - groats.toNat ∧
     exec (.backupIntegrate dt groats) s = .next { s with m := if m.coresUp then x.judgeLedger 2 else x }) ∧
   (∀ (s : State) (dt : Nat) (groats : Word32) (m : Module), m = s.m.elapse dt →
     (m.stage = .unpowered ∨ m.stage = .holdup ∨ m.pow.onBackup = false) →
     exec (.backupIntegrate dt groats) s = .next { s with m := m } ∧
     exec (.backupCheckpoint dt) s = .next { s with m := m }) ∧
   (∀ (s : State) (dt : Nat) (m : Module), m = s.m.elapse dt → m.stage ≠ .unpowered → m.stage ≠ .holdup →
     m.pow.onBackup = true →
     exec (.backupCheckpoint dt) s = .next { s with
       m := { m with vault := { m.vault with backupPoint := some m.pow.account } } }) ∧
   (∀ (s : State) (dt : Nat) (m : Module), m = s.m.elapse dt → m.stage ≠ .unpowered → m.stage ≠ .holdup →
     m.pow.mains = true → m.pow.onBackup = false → m.pow.mainsSince + 1440000000000 ≤ m.clk.tick.toNat →
     exec (.backupRefill dt) s = .next { s with m := { m with pow := { m.pow with account := m.items.capacity } } }) ∧
   (∀ (s : State) (dt : Nat) (m : Module), m = s.m.elapse dt →
     (m.pow.mains = false ∨ m.pow.onBackup = true ∨ m.clk.tick.toNat < m.pow.mainsSince + 1440000000000) →
     exec (.backupRefill dt) s = .next { s with m := m }) ∧
   (∀ (s : State) (dt : Nat) (groats : Word32) (m : Module), m = s.m.elapse dt → m.stage ≠ .unpowered →
     m.stage ≠ .holdup →
     ∃ t, exec (.reserveArmed dt groats) s = .next { s with m := t } ∧ t = { m with pow := t.pow } ∧
       t.pow = { m.pow with holdup := t.pow.holdup, armed := t.pow.armed } ∧
       t.pow.holdup.toNat = min 24000 groats.toNat ∧ (t.pow.armed = true ↔ 8000 ≤ groats.toNat)) ∧
   (∀ m : Module, (m.ledgerFor = 0 ↔ m.pow.onBackup = false ∨
       (m.items.capacity ≠ 0 ∧ m.items.leanBelow.toNat ≤ m.pow.account.toNat)) ∧
     (m.ledgerFor ≠ 0 → (m.ledgerFor = 1 ↔ m.items.standbyAfter = 0)) ∧ m.ledgerFor ≤ 2) ∧
   (∀ (m : Module) (cause : Nat), m.ledgerFor = m.pow.ledger → m.judgeLedger cause = m) ∧
   (∀ (m : Module) (cause : Nat), m.ledgerFor ≠ m.pow.ledger →
     m.judgeLedger cause = ({ m with pow := { m.pow with
       ledger := m.ledgerFor, countFrom := m.clk.tick.toNat, countDone := false } }).event 0x8502
         (u8 m.ledgerFor ++ u8 cause ++ u8 0xFF ++ u8 0 ++ m.ca ++ rsv 1 ++ u16 0 ++ rsv 2))) ∧
  ((∀ (s : State) (dt n : Nat) (hub : Int) (m : Module), m = s.m.elapse dt → n < m.variant.slices → m.coresUp = true →
     (m.slice n).loaded = true → (m.slice n).modelAt ≠ m.clk.wraps → Tbl.wf HubSlice.reset m.hub = true →
     ∃ t, exec (.thermalModel dt n hub) s = .next { s with m := t } ∧ t.pow = { m.pow with hubTemp := hub } ∧
       (t.slice n).warm = true ∧ (t.slice n).modelAt = m.clk.wraps ∧ (t.slice n).heat = [] ∧ (t.slice n).ons = (0, 0) ∧
       (t.slice n).stretch = stretchOf (m.slice n).stretch (12500 - (t.slice n).tEst) ∧
       ((m.slice n).warm = false → (t.slice n).p1 = (t.slice n).p20) ∧
       ((m.slice n).warm = true →
         (t.slice n).p1 = Config.filter (m.slice n).p1 (sliceLoss (meanSquares (m.slice n).heat) (m.slice n).ons
           (m.slice n).tEst m.clk.period.toNat) m.clk.period.toNat 1 ∧
         (t.slice n).p20 = Config.filter (m.slice n).p20 (sliceLoss (meanSquares (m.slice n).heat) (m.slice n).ons
           (m.slice n).tEst m.clk.period.toNat) m.clk.period.toNat 20) ∧
       ((Tbl.get (0, 1) m.live.sliceOpts n).2 = 1 → (m.slice n).ths ≠ 0 → (m.slice n).ths ≠ 16383 →
         (t.slice n).tEst = max (dieTemp (m.slice n).tdie)
           (Config.ntcTemp (m.slice n).ths + 150 * ((t.slice n).p20 : Int) / 1000000000)) ∧
       (((Tbl.get (0, 1) m.live.sliceOpts n).2 ≠ 1 ∨ (m.slice n).ths = 0 ∨ (m.slice n).ths = 16383) →
         (t.slice n).tEst = dieTemp (m.slice n).tdie +
           150 * (max 0 (((t.slice n).p1 : Int) - (t.slice n).p20)) / 1000000000) ∧
       t.prov = m.prov ∧ t.clk = m.clk ∧ t.lamps = m.lamps ∧ ∀ k, k ≠ n → t.slice k = m.slice k) ∧
   (∀ (s : State) (dt n : Nat) (hub : Int) (m : Module), m = s.m.elapse dt → n < m.variant.slices →
     (m.coresUp = false ∨ (m.slice n).loaded = false ∨ (m.slice n).modelAt = m.clk.wraps) →
     exec (.thermalModel dt n hub) s = .next { s with m := m }) ∧
   (∀ (f : Nat) (head : Int), (head < 500 → stretchOf f head = 4) ∧
     (500 ≤ head → head < 1000 → stretchOf f head = if f = 4 then 4 else 2) ∧
     (1000 ≤ head → head < 1500 → stretchOf f head = if f = 1 then 1 else 2) ∧ (1500 ≤ head → stretchOf f head = 1)))

/-! ### Metering -/

/-- A half-cycle is committed 256 au after its end and becomes the last committed boundary; energy goes to its
counters with the remainder carried, and a net that is negative counts as zero (R329-R331, R337). Where it goes beyond
the rules, it states the model's own readings: log 13, 26, 93. -/
def Obligations.HalfCycleCommits : Prop :=
  (∀ (s : State) (dt b ticks tariff : Nat) (m : Module), m = s.m.elapse dt → m.coresUp = true →
    m.meter.ended = some (b, ticks, tariff) → b + 256 ≤ m.clk.cycle.toNat * 65536 + m.clk.angle.toNat →
    ∃ t, exec (.halfCycleCommit dt) s = .next { s with m := t } ∧ t = m.commitHalf b ticks tariff ∧
      t.meter.committed = b ∧ t.meter.lastTariff = tariff ∧ t.meter.ended = none ∧ t.clk = m.clk ∧ t.win.mem = m.win.mem ∧
      t.prov = m.prov ∧ t.lamps = m.lamps ∧
      (Tbl.wf HubSlice.reset m.hub = true → ∀ n, t.slice n = { m.slice n with carry := (t.slice n).carry })) ∧
  (∀ (s : State) (dt : Nat) (m : Module), m = s.m.elapse dt →
    (m.coresUp = false ∨ m.meter.ended = none ∨
      ∃ b ticks tariff, m.meter.ended = some (b, ticks, tariff) ∧ m.clk.cycle.toNat * 65536 + m.clk.angle.toNat < b + 256) →
    exec (.halfCycleCommit dt) s = .next { s with m := m }) ∧
  (∀ (t : Meter) (k e unit : Nat), 0 < unit → Tbl.wf 0 t.counters = true → Tbl.wf 0 t.rem = true →
    t.counter k + (Tbl.get 0 t.rem k + e) / unit < 2 ^ 64 →
    unit * (t.add k e unit).counter k + Tbl.get 0 (t.add k e unit).rem k = unit * t.counter k + Tbl.get 0 t.rem k + e ∧
      Tbl.get 0 (t.add k e unit).rem k < unit ∧
      ∀ j, j ≠ k → (t.add k e unit).counter j = t.counter j ∧ Tbl.get 0 (t.add k e unit).rem j = Tbl.get 0 t.rem j) ∧
  (∀ (sum : Int) (ticks : Nat), sum ≤ 0 → halfEnergy sum ticks = 0)

/-- A persistence pass at its interval of 256 cycles, or 2,048 in LEAN, STANDBY_ARMED and at a hub above its limit,
writes every changed counter into its four tally cells and leaves no journal record live (R315, R323, R339-R341).
Where it goes beyond the rules, it states the model's own readings: log 31. -/
def Obligations.PersistencePasses : Prop :=
  (∀ (s : State) (dt : Nat) (m : Module), m = s.m.elapse dt → m.coresUp = true →
    (if m.pow.ledger ≠ 0 ∨ m.hubHeat < 0 then 2048 else 256) ≤ m.meter.sincePass →
    exec (.persistencePass dt) s = .next { s with m := m.pass }) ∧
  (∀ (s : State) (dt : Nat) (m : Module), m = s.m.elapse dt →
    (m.coresUp = false ∨ m.meter.sincePass < 256) →
    exec (.persistencePass dt) s = .next { s with m := m }) ∧
  (∀ m : Module, m.variant.metering = true → Tbl.wf (0 : Word16) m.vault.cells = true →
    (∀ k, k ∈ m.meter.changed.map (fun e => e.1) → k ≠ 3279 →
      m.pass.vault.counter k = Tbl.get 0 m.meter.counters k) ∧
    (∀ k, k ∉ m.meter.changed.map (fun e => e.1) → k ≠ 3279 → m.pass.vault.counter k = m.vault.counter k) ∧
    m.pass.vault.counter 3279 = BitVec.ofNat 64 m.meter.committed ∧
    m.pass.vault.journal.valid = 0 ∧ m.pass.meter.changed = [] ∧ m.pass.meter.sincePass = 0 ∧
    Tbl.wf (0 : Word16) m.pass.vault.cells = true) ∧
  (∀ m : Module, m.variant.metering = false → m.pass = m)

/-- DEMAND_CLOSE closes the interval that is due, once, and TARIFF_CHANGE applies every change whose cycle has come,
the last in cycle order deciding; where nothing is due nothing happens (R334, R336-R338, R345). Where it goes beyond
the rules, it states the model's own readings: log 12, 27, 28. -/
def Obligations.DemandAndTariffs : Prop :=
  (∀ (s : State) (dt : Nat) (m : Module) (t : Meter) (c : Nat) (fl : Byte), m = s.m.elapse dt → m.coresUp = true →
    m.variant.metering = true → m.meter.closeInterval (m.meter.committed / 65536) = some (t, c, some fl) →
    exec (.demandClose dt) s = .next { s with
      m := { m with meter := t.recordAt t.committed (fun b => b.demand t t.lastTariff fl) } }) ∧
  (∀ (s : State) (dt : Nat) (m : Module) (t : Meter) (c : Nat), m = s.m.elapse dt → m.coresUp = true →
    m.variant.metering = true → m.meter.closeInterval (m.meter.committed / 65536) = some (t, c, none) →
    exec (.demandClose dt) s = .next { s with m := { m with meter := t } }) ∧
  (∀ (s : State) (dt : Nat) (m : Module), m = s.m.elapse dt →
    (m.coresUp = false ∨ m.variant.metering = false ∨ m.meter.closeInterval (m.meter.committed / 65536) = none) →
    exec (.demandClose dt) s = .next { s with m := m }) ∧
  (∀ (t : Meter) (now : Nat), t.closeInterval now = none ↔ t.gridLen = 0 ∨ now < t.closeAfter t.lastClose) ∧
  (∀ (s : State) (dt : Nat) (m : Module), m = s.m.elapse dt →
    (m.coresUp = false ∨ m.variant.metering = false ∨ ∀ e ∈ m.meter.pendingTariffs, m.clk.cycle.toNat < e.2.1) →
    exec (.tariffChange dt) s = .next { s with m := m }) ∧
  (∀ (s : State) (dt : Nat) (m : Module), m = s.m.elapse dt → m.coresUp = true → m.variant.metering = true →
    (∃ e ∈ m.meter.pendingTariffs, e.2.1 ≤ m.clk.cycle.toNat) →
    ∃ t c x, m.meter.applyTariffs m.clk.cycle.toNat = some (t, c, x) ∧ c ≤ m.clk.cycle.toNat ∧
      (∃ k, (k, c, x) ∈ m.meter.pendingTariffs) ∧
      (∀ e ∈ m.meter.pendingTariffs, e.2.1 ≤ m.clk.cycle.toNat → e.2.1 ≤ c) ∧
      ∃ u, exec (.tariffChange dt) s = .next { s with m := { m with meter := u } } ∧ u.counters = t.counters ∧
        u.committed = m.meter.committed)

/-! ### Lanes and neighbours -/

/-- A lane locks with the FEC of the configuration; lock loss is counted and breaks its span or detaches the host; a
broken span is restored at a weft gap once usable; ECHO is answered, and the eighth ECHO_REPLY gives the delay or
takes the link down (R128, R253, R255, R267, R282, R284). SLOT_NOTICE is counted, and a second within 15 wefts mutes
the module for 16 wefts and makes it adopt the domain angle again; ESCROW_ACK of the present revision marks the
neighbour's copy current; ESCROW is kept for the neighbour (R172, R280, R295, R407). Where it goes beyond the rules,
it states the model's own readings: log 8, 12, 44, 77. -/
def Obligations.LinkFrames : Prop :=
  ((∀ (s : State) (dt : Nat) (l : Lane) (fec : Bool) (m : Module), m = s.m.elapse dt → m.variant.fits l = true →
     m.coresUp = true → (fec = if l = .h then m.items.hFec else m.items.ringFec) →
     (m.lane l).state ≠ 2 → (m.lane l).state ≠ 3 → (m.lane l).state ≠ 4 →
     Tbl.wf LaneSt.down m.ring.lanes = true → l = .h →
     ∃ t, exec (.linkUp dt l fec) s = .next { s with m := t } ∧ (t.lane l).state = 2 ∧ (t.lane l).fec = fec ∧
       (t.lane l).delay = none ∧ t = { m with ring := { m.ring with lanes := t.ring.lanes } }) ∧
   (∀ (s : State) (dt : Nat) (l : Lane) (fec : Bool) (side : Side) (m : Module), m = s.m.elapse dt →
     m.variant.fits l = true → m.coresUp = true → fec = m.items.ringFec → laneSide l = some side →
     (m.lane l).state ≠ 2 → (m.lane l).state ≠ 3 → (m.lane l).state ≠ 4 →
     ((m.ring.e1w1Idle = false ∨ l = .e0 ∨ l = .w0) → exec (.linkUp dt l fec) s = .next { s with
       m := ({ (m.setLane l (fun x => { x with state := 2, fec := fec, delay := none, echoes := [], train := none })) with
         out := m.out ++ [Out.link l 0x42 (u64 m.clk.tick.toNat)] }).beginAuth side }) ∧
     (m.ring.e1w1Idle = true → (l = .e1 ∨ l = .w1) → exec (.linkUp dt l fec) s = .next { s with
       m := m.setLane l (fun x => { x with state := 3, fec := fec, delay := none, echoes := [], train := none }) })) ∧
   (∀ (s : State) (dt : Nat) (l : Lane) (fec : Bool) (m : Module), m = s.m.elapse dt → m.variant.fits l = true →
     (m.coresUp = false ∨ (fec ≠ if l = .h then m.items.hFec else m.items.ringFec) ∨ (m.lane l).state = 2) →
     exec (.linkUp dt l fec) s = .next { s with m := m }) ∧
   (∀ (s : State) (dt : Nat) (l : Lane) (m : Module), m = s.m.elapse dt → m.variant.fits l = true →
     m.stage ≠ .unpowered → m.stage ≠ .holdup → (m.lane l).state ≠ 0 → (m.lane l).state ≠ 4 →
     exec (.laneLockLoss dt l) s = .next { s with
       m := ((m.setLane l (fun x => { x with
         state := 0, losses := satInc x.losses, delay := none, echoes := [] })).trainLane l).linkGone l }) ∧
   (∀ (s : State) (dt : Nat) (l : Lane) (m : Module), m = s.m.elapse dt → m.variant.fits l = true →
     ((m.lane l).state = 0 ∨ (m.lane l).state = 4) →
     exec (.laneLockLoss dt l) s = .next { s with m := m }) ∧
   (∀ m : Module, (m.linkGone .h).win.attached = false ∧ (m.linkGone .h).win.enumerated = false ∧
     ((m.linkGone .e0).span .east).broken = true ∧ ((m.linkGone .w0).span .west).broken = true) ∧
   (∀ (s : State) (dt : Nat) (side other : Side) (m : Module), m = s.m.elapse dt → other ≠ side →
     m.variant.hasRing = true → m.stage = .ready →
     (m.span side).broken = true → m.spanUsable side = true → (m.peerFlags side).getLsbD 1 = true →
     m.clk.angle.toNat % 32768 < 2048 →
     ∃ t, exec (.unwrap dt side) s = .next { s with m := t } ∧ (t.span side).broken = false ∧
       t.ring.form = (if (m.span other).broken = false ∧
           Tbl.set false m.ring.breaks (breakKey m.positionByte.toNat (m.peerPosition side).toNat) false = []
         then wholeForm m.ring.form else m.ring.form)) ∧
   (∀ (s : State) (dt : Nat) (side : Side) (m : Module), m = s.m.elapse dt →
     ((m.span side).broken = false ∨ m.spanUsable side = false ∨ 2048 ≤ m.clk.angle.toNat % 32768) →
     exec (.unwrap dt side) s = .next { s with m := m }) ∧
   (∀ (s : State) (dt : Nat) (l : Lane) (tick : Nat) (m : Module), m = s.m.elapse dt → m.variant.fits l = true →
     m.ringUp = true → (m.lane l).state = 2 → l ≠ .h →
     exec (.echo dt l tick) s = .next { s with m := { m with
       free := m.free + 1
       out := m.out ++ [Out.link l 0x43 (u64 tick ++ u32 (Config.freeInt m.free).toNat)] } }) ∧
   (∀ (s : State) (dt : Nat) (l : Lane) (side : Side) (tick turn : Nat) (m : Module), m = s.m.elapse dt →
     m.variant.fits l = true → m.ringUp = true → (m.lane l).state = 2 → laneSide l = some side → (m.lane l).delay = none →
     ((m.lane l).echoes.length < 7 →
       exec (.echoReply dt l tick turn) s = .next { s with
         m := { (m.setLane l (fun x => { x with
           echoes := 5 * (m.clk.tick.toNat - tick - turn) :: (m.lane l).echoes })) with
             out := m.out ++ [Out.link l 0x42 (u64 m.clk.tick.toNat)] } }) ∧
     (7 ≤ (m.lane l).echoes.length →
       median8 (5 * (m.clk.tick.toNat - tick - turn) :: (m.lane l).echoes) ≤ 1000 →
       exec (.echoReply dt l tick turn) s = .next { s with
         m := m.setLane l (fun x => { x with
           echoes := 5 * (m.clk.tick.toNat - tick - turn) :: (m.lane l).echoes
           delay := some (median8 (5 * (m.clk.tick.toNat - tick - turn) :: (m.lane l).echoes)) }) }) ∧
     (7 ≤ (m.lane l).echoes.length →
       1000 < median8 (5 * (m.clk.tick.toNat - tick - turn) :: (m.lane l).echoes) →
       exec (.echoReply dt l tick turn) s = .next { s with
         m := (m.setLane l (fun x => { x with echoes := [], delay := none, state := 0 })).linkGone l }))) ∧
  ((∀ (s : State) (dt : Nat) (hdr : LinkHdr) (weft : Word32) (slot loop : Byte) (side : Side) (m f : Module),
     m = s.m.elapse dt → m.ringUp = true → laneSide (farLane hdr.lane) = some side →
     (m.lane (farLane hdr.lane)).state = 2 → f = m.seeEpoch (m.peerPosition side).toNat hdr.srcEpoch →
     ((∀ w, f.ring.lastNotice = some w → 15 < (weft - w).toNat ∧ 15 < (w - weft).toNat) →
       exec (.slotNotice dt hdr weft slot loop) s = .next { s with
         m := { f with ring := { f.ring with
           slotViolations := satInc f.ring.slotViolations, lastNotice := some weft } } }) ∧
     (∀ w, f.ring.lastNotice = some w → (weft - w).toNat ≤ 15 →
       ∃ t, exec (.slotNotice dt hdr weft slot loop) s = .next { s with m := t } ∧ t.ring.muted = true ∧
         t.ring.muteUntil = some (f.clk.turn / 32768 + 16) ∧ t.ring.readopt = true ∧ t.clk = f.clk ∧
         t.ring.slotViolations = satInc f.ring.slotViolations ∧ t.ring.lastNotice = some weft)) ∧
   (∀ (s : State) (dt : Nat) (hdr : LinkHdr) (revision : Word32) (side : Side) (m f : Module),
     m = s.m.elapse dt → m.ringUp = true → laneSide (farLane hdr.lane) = some side →
     (m.lane (farLane hdr.lane)).state = 2 → f = m.seeEpoch (m.peerPosition side).toNat hdr.srcEpoch →
     (revision ≠ f.revision → exec (.escrowAck dt hdr revision) s = .next { s with m := f }) ∧
     (revision = f.revision →
       ∃ t, exec (.escrowAck dt hdr revision) s = .next { s with m := t } ∧
         (side = .east → t.ring.escrowE = true ∧ t.ring.escrowW = f.ring.escrowW) ∧
         (side = .west → t.ring.escrowW = true ∧ t.ring.escrowE = f.ring.escrowE) ∧
         (t.span side).acked = ((f.span side).auth == .done) ∧ t.vault.config = f.vault.config ∧
         t.vault.current = f.vault.current)))

/-- A link-control frame is acted on when it arrives on a lane in lock, its SRC_EPOCH recorded first; HELLO is kept
and begins or renews the handshake, with a key on exactly one side it makes the span KEYLESS, HELLO_SEND sends one
each way, 64 wefts without one break the span; a breaking span turns the form, is counted and told (R259, R262, R265,
R266, R269, R282, R283, R289). Where it goes beyond the rules, it states the model's own readings: log 15, 44, 45, 46.
-/
def Obligations.Neighbours : Prop :=
  (∀ (s : State) (dt : Nat) (hdr : LinkHdr) (position claim variant flags name : Byte) (seen : Word16) (side : Side)
    (m : Module), m = s.m.elapse dt → m.ringUp = true → laneSide (farLane hdr.lane) = some side →
    (m.lane (farLane hdr.lane)).state = 2 →
    exec (.hello dt hdr position claim variant flags name seen) s = .next { s with
      m := (m.seeEpoch (m.peerPosition side).toNat hdr.srcEpoch).takeHello side hdr.srcEpoch position claim variant flags
        name seen }) ∧
  (∀ (s : State) (dt : Nat) (hdr : LinkHdr) (position claim variant flags name : Byte) (seen : Word16) (m : Module),
    m = s.m.elapse dt → (m.ringUp = false ∨ hdr.lane = .h ∨ (m.lane (farLane hdr.lane)).state ≠ 2) →
    exec (.hello dt hdr position claim variant flags name seen) s = .next { s with m := m }) ∧
  (∀ (m x : Module) (side : Side) (epoch : Word16) (position claim variant flags name : Byte) (seen : Word16),
    (m.span side).epoch = epoch → unplaced position flags = false →
    x = ((m.seeEpoch position.toNat epoch).seeVariant position variant).setSpan side (fun y => { y with
      hello := some (position, claim, variant, flags, name, seen), epoch := epoch, helloGap := 0 }) →
    ((x.span side).auth ≠ .keyless → x.vault.current.isSome = flags.getLsbD 0 →
      m.takeHello side epoch position claim variant flags name seen = x.beginAuth side) ∧
    (x.vault.current.isSome ≠ flags.getLsbD 0 → x.spanUp side = true →
      m.takeHello side epoch position claim variant flags name seen =
        x.setSpan side (fun y => { y with auth := .keyless, deadline := none }))) ∧
  (∀ (s : State) (dt : Nat) (m : Module), m = s.m.elapse dt → m.ringUp = true → (m.lane .e0).state = 2 →
    (m.lane .w0).state = 2 →
    ∃ t, exec (.helloSend dt) s = .next { s with m := t } ∧
      t.out = m.out ++ [Out.link .e0 0x41 (m.helloPayload .east), .link .w0 0x41 (m.helloPayload .west)] ∧
      t.ring.east = { m.ring.east with refused := m.ring.east.refused - 1 } ∧
      t.ring.west = { m.ring.west with refused := m.ring.west.refused - 1 }) ∧
  (∀ (m : Module) (side : Side), (m.helloPayload side).length = 8 ∧
    fieldAt (m.helloPayload side) 0 1 = m.positionByte.toNat) ∧
  (∀ (s : State) (dt : Nat) (side : Side) (m : Module), m = s.m.elapse dt →
    exec (.helloTimeout dt side) s = .next { s with
      m := if m.ringUp = true ∧ 64 ≤ (m.span side).helloGap then m.breakSpan side else m }) ∧
  (∀ (m : Module) (side : Side), (m.span side).broken = true → m.breakSpan side = m) ∧
  (∀ (m : Module) (side : Side), (m.span side).broken = false →
    ∃ t, m.breakSpan side = t ∧ (t.span side).broken = true ∧ t.ring.form = turnedForm m.ring.form ∧
      t.ring.wraps = satInc m.ring.wraps ∧ t.ring.quiet = true ∧ t.clk = m.clk ∧ t.lamps = m.lamps ∧ t.prov = m.prov ∧
      t.win.mem = m.win.mem)

/-- The handshake: the E side answers AUTH_A with its nonce and MB, the W side verifies MB under CURRENT and then
PREVIOUS and answers MA, the E side verifies MA; a value that does not verify fails it and counts a mismatch; 200 ms
end it and 1 s later it runs again (R98, R268, R401, R406, R408). Where it goes beyond the rules, it states the
model's own readings: log 8, 12, 46. -/
def Obligations.Handshake : Prop :=
  (∀ (s : State) (dt : Nat) (hdr : LinkHdr) (na : List Byte) (m f : Module), m = s.m.elapse dt → m.ringUp = true →
    laneSide (farLane hdr.lane) = some .west → (m.lane (farLane hdr.lane)).state = 2 →
    f = m.seeEpoch (m.peerPosition .west).toNat hdr.srcEpoch → f.vault.current.isSome = true → f.spanUp .west = true →
    exec (.authA dt hdr na) s = .next { s with
      m := ((if (f.span .west).auth = .done then f.breakSpan .west else f).setSpan .west (fun x => { x with
        auth := .none, na := na, epoch := hdr.srcEpoch, attempt := x.attempt + 1, deadline := none })).nonce .west }) ∧
  (∀ (m : Module) (nb k : List Byte), m.attemptKey m.ring.west.attempt = some k → (m.lane .w0).state = 2 →
    m.sendB nb = { m with
      ring := { m.ring with west := { m.ring.west with
        auth := .sentB, nb := nb, current := some k == m.vault.current
        deadline := some (m.clk.tick.toNat + 20000000) } }
      out := m.out ++ [.link .w0 0x45 (nb ++ hmac k (mbText m.ring.west.na nb m.ring.west.epoch m.vault.hubEpoch))] }) ∧
  (∀ (s : State) (dt : Nat) (hdr : LinkHdr) (nb mb k : List Byte) (d : Nat) (m f : Module), m = s.m.elapse dt →
    m.ringUp = true → laneSide (farLane hdr.lane) = some .east → (m.lane (farLane hdr.lane)).state = 2 →
    f = m.seeEpoch (m.peerPosition .east).toNat hdr.srcEpoch → (f.span .east).auth = .sentA →
    (f.span .east).deadline = some d → f.clk.tick.toNat ≤ d → f.vault.current = some k →
    (hmac k (mbText f.ring.east.na nb f.vault.hubEpoch hdr.srcEpoch) = mb →
      exec (.authB dt hdr nb mb) s = .next { s with
        m := ((f.setSpan .east (fun x => { x with nb := nb, epoch := hdr.srcEpoch })).link .east 0x46
          (hmac k (maText f.ring.east.na nb f.vault.hubEpoch hdr.srcEpoch))).authDone .east true }) ∧
    (∀ q, hmac k (mbText f.ring.east.na nb f.vault.hubEpoch hdr.srcEpoch) ≠ mb → f.previous = some q →
      hmac q (mbText f.ring.east.na nb f.vault.hubEpoch hdr.srcEpoch) = mb →
      exec (.authB dt hdr nb mb) s = .next { s with
        m := ((f.setSpan .east (fun x => { x with nb := nb, epoch := hdr.srcEpoch })).link .east 0x46
          (hmac q (maText f.ring.east.na nb f.vault.hubEpoch hdr.srcEpoch))).authDone .east false }) ∧
    (hmac k (mbText f.ring.east.na nb f.vault.hubEpoch hdr.srcEpoch) ≠ mb →
      (∀ q, f.previous = some q → hmac q (mbText f.ring.east.na nb f.vault.hubEpoch hdr.srcEpoch) ≠ mb) →
      exec (.authB dt hdr nb mb) s = .next { s with
        m := (f.setSpan .east (fun x => { x with nb := nb, epoch := hdr.srcEpoch })).authFails .east true })) ∧
  (∀ (s : State) (dt : Nat) (hdr : LinkHdr) (ma k : List Byte) (d : Nat) (m f : Module), m = s.m.elapse dt →
    m.ringUp = true → laneSide (farLane hdr.lane) = some .west → (m.lane (farLane hdr.lane)).state = 2 →
    f = m.seeEpoch (m.peerPosition .west).toNat hdr.srcEpoch → (f.span .west).auth = .sentB →
    (f.span .west).deadline = some d → f.clk.tick.toNat ≤ d → f.attemptKey (f.span .west).attempt = some k →
    exec (.authC dt hdr ma) s = .next { s with
      m := if hmac k (maText f.ring.west.na f.ring.west.nb hdr.srcEpoch f.vault.hubEpoch) = ma
        then f.authDone .west f.ring.west.current else f.authFails .west true }) ∧
  (∀ (s : State) (dt : Nat) (hdr : LinkHdr) (nb mb ma : List Byte) (m f : Module) (side : Side) (d : Nat),
    m = s.m.elapse dt → m.ringUp = true → laneSide (farLane hdr.lane) = some side →
    (m.lane (farLane hdr.lane)).state = 2 → f = m.seeEpoch (m.peerPosition side).toNat hdr.srcEpoch →
    (f.span side).deadline = some d → d < f.clk.tick.toNat →
    exec (.authB dt hdr nb mb) s = .next { s with m := f } ∧ exec (.authC dt hdr ma) s = .next { s with m := f }) ∧
  (∀ (s : State) (dt d : Nat) (side : Side) (m : Module), m = s.m.elapse dt → m.ringUp = true →
    (m.span side).deadline = some d → d < m.clk.tick.toNat →
    exec (.authRetry dt side) s = .next { s with
      m := if (m.span side).auth = .none then (m.setSpan side (fun x => { x with deadline := none })).beginAuth side
        else m.authFails side false }) ∧
  (∀ (s : State) (dt d : Nat) (side : Side) (m : Module), m = s.m.elapse dt →
    (m.span side).deadline = some d → m.clk.tick.toNat ≤ d →
    exec (.authRetry dt side) s = .next { s with m := m }) ∧
  (∀ (m : Module) (side : Side), ((m.authLater side).span side).auth = .none ∧
    ((m.authLater side).span side).deadline = some (m.clk.tick.toNat + 100000000))

/-- Enumeration: the anchor starts at stage 7 after 64 wefts with no header, ENUM numbers each module and is passed
on, count 64 is refused, ENUM_DONE settles positions and form and goes on, 500 ms with no return turn to a W-ward ENUM
and then to RING_SIZE and the highest E-ward count, which number the module of a W-ward ENUM; refusals break the span
(R260, R261, R263, R264, R286). Where it goes beyond the rules, it states the model's own readings: log 12, 47, 48, 79, 80, 81, 82, 105. -/
def Obligations.Enumeration : Prop :=
  (∀ (s : State) (dt : Nat) (m : Module), m = s.m.elapse dt → m.variant.hasRing = true → m.stage = .lamps →
    64 ≤ m.clk.headerGap → m.ring.enum = none → m.ring.form = .none → m.gateway = true → m.claim = some 0 →
    exec (.domainJoin dt) s = .next { s with m := m.startEnum } ∧ m.startEnum.ring.position = some 0 ∧
      m.startEnum.ring.anchor = true ∧ m.startEnum.ring.enum = some (false, m.clk.tick.toNat + 50000000)) ∧
  (∀ (s : State) (dt : Nat) (m : Module), m = s.m.elapse dt →
    (m.stage ≠ .lamps ∨ m.clk.headerGap < 64 ∨ m.gateway = false ∨ m.claim ≠ some 0) →
    exec (.domainJoin dt) s = .next { s with m := m }) ∧
  (∀ (s : State) (dt : Nat) (hdr : LinkHdr) (count : Byte) (w all : Bool) (size highest : Nat) (side : Side) (m f : Module),
    m = s.m.elapse dt → m.ringUp = true → laneSide (farLane hdr.lane) = some side →
    (m.lane (farLane hdr.lane)).state = 2 → f = m.seeEpoch (m.peerPosition side).toNat hdr.srcEpoch →
    exec (.enumerate dt hdr count w all size highest) s = .next { s with m := f.takeEnum side count.toNat w all size highest } ∧
    (f.ring.enum = none → side = .west → w = false → count.toNat < 64 →
      (f.takeEnum side count.toNat w all size highest).ring.position = some count.toNat ∧
      (f.takeEnum side count.toNat w all size highest).ring.counted = some count.toNat ∧
      (f.takeEnum side count.toNat w all size highest).out = f.out ++ (if (f.lane .e0).state = 2 then
        [Out.link .e0 0x47 (u8 (count.toNat + 1) ++ u8 0 ++ u8 (bit (all && f.variant == Variant.um384)) ++ rsv 1)] else [])) ∧
    (f.ring.enum = none → side = .west → w = false → 64 ≤ count.toNat →
      (f.takeEnum side count.toNat w all size highest).ring.position = none ∧
      (f.takeEnum side count.toNat w all size highest).ring.refusing = true) ∧
    (∀ d, f.ring.enum = some (false, d) → side = .west → w = false →
      f.takeEnum side count.toNat w all size highest = f.finishEnum count.toNat (if all then .dual else .single)) ∧
    (f.ring.enum = none → side = .east → w = true → f.ring.counted = none → f.ring.refusing = false →
      ((size ≠ 0 ∧ highest + count.toNat < size →
        (f.takeEnum side count.toNat w all size highest).ring.position = some (size - count.toNat)) ∧
      ((size = 0 ∨ size ≤ highest + count.toNat) →
        (f.takeEnum side count.toNat w all size highest).ring.position = none ∧
        (f.takeEnum side count.toNat w all size highest).ring.unpositioned = true)))) ∧
  (∀ (s : State) (dt : Nat) (hdr : LinkHdr) (positions : Byte) (form : Form) (refs : List Byte) (side : Side)
    (m f : Module), m = s.m.elapse dt → m.ringUp = true → laneSide (farLane hdr.lane) = some side →
    (m.lane (farLane hdr.lane)).state = 2 → f = m.seeEpoch (m.peerPosition side).toNat hdr.srcEpoch →
    (f.ring.anchor = true ∨ f.ring.refusing = true →
      exec (.enumDone dt hdr positions form refs) s = .next { s with m := f }) ∧
    (f.ring.anchor = false → f.ring.refusing = false →
      ∃ t, exec (.enumDone dt hdr positions form refs) s = .next { s with m := t } ∧
        t.ring.positions = positions.toNat ∧ t.ring.form = form ∧ t.ring.refList = refs ∧ t.ring.counted = none ∧
        t.ring.position = f.ring.position)) ∧
  (∀ (s : State) (dt highest d : Nat) (m : Module), m = s.m.elapse dt → m.ringUp = true → d < m.clk.tick.toNat →
    (m.ring.enum = some (true, d) →
      exec (.enumTimeout dt highest) s = .next { s with
        m := m.brokenForm.1.finishEnum (min 64 (max (highest + 1) m.items.ringSize)) m.brokenForm.2 }) ∧
    (m.ring.enum = some (false, d) →
      exec (.enumTimeout dt highest) s = .next { s with
        m := ({ m with ring := { m.ring with enum := some (true, m.clk.tick.toNat + 50000000) } }).link .west 0x47
          (u8 1 ++ u8 1 ++ u8 (bit (m.variant == Variant.um384)) ++ rsv 1) })) ∧
  (∀ (s : State) (dt highest : Nat) (m : Module), m = s.m.elapse dt →
    (m.ring.enum = none ∨ ∃ p, m.ring.enum = some p ∧ m.clk.tick.toNat ≤ p.2) →
    exec (.enumTimeout dt highest) s = .next { s with m := m }) ∧
  (∀ (s : State) (dt : Nat) (hdr : LinkHdr) (cause : Byte) (side : Side) (m : Module), m = s.m.elapse dt →
    m.ringUp = true → laneSide (farLane hdr.lane) = some side → (m.lane (farLane hdr.lane)).state = 2 →
    exec (.enumRefuse dt hdr cause) s = .next { s with
      m := (m.seeEpoch (m.peerPosition side).toNat hdr.srcEpoch).takeRefuse side cause }) ∧
  (∀ (m : Module) (side : Side) (cause : Byte), ((m.takeRefuse side cause).span side).broken = true ∧
    ((m.takeRefuse side cause).span side).refused = 2) ∧
  (∀ (s : State) (dt : Nat) (m : Module), m = s.m.elapse dt →
    exec (.enumRefuseSend dt) s = .next { s with
      m := if m.ringUp = true ∧ m.ring.refusing = true then
          (m.link .east 0x49 (u8 1 ++ rsv 3)).link .west 0x49 (u8 1 ++ rsv 3) else m })

/-! ### The ring: headers, slots and frames -/

/-- A weft header moves the domain angle and the mute, where its loop comes to this module's own place on it, and goes
on one hop further with this module's delay added; the earlier listed of two references stays; the reference sends its
headers at weft starts and frees the seam; the module listed at index k takes over after 64 + 8k wefts with no header;
the mute follows the offset (R89-R92, R271, R273, R274, R279, R280, R286-R288). Where it goes beyond the rules, it
states the model's own readings: log 44, 47, 75, 78, 103, 104. -/
def Obligations.WeftHeaders : Prop :=
  (∀ (s : State) (dt : Nat) (lane : Lane) (h : WeftHdr) (m x y : Module), m = s.m.elapse dt →
    m.variant.fits lane = true → m.ringUp = true → m.ring.refusing = false → (m.lane lane).state = 2 →
    m.ring.isRef = false → x = (m.readHeader lane h (m.pathOf lane h)).joinBetween h.positions.toNat →
    y = (if x.comesRound lane = true ∧ (x.clk.tracker = .domain ∨ x.clk.tracker = .domainHold)
      then (x.adopt h (m.pathOf lane h)).1.judgeMute (x.adopt h (m.pathOf lane h)).2 else x) →
    exec (.weftHeader dt lane h) s = .next { s with m := y.passHeader lane h (m.pathOf lane h) }) ∧
  (∀ (m : Module) (lane : Lane) (h : WeftHdr) (d : Nat), (m.lane (m.nextLane lane)).state = 2 →
    m.passHeader lane h d = { m with
      out := m.out ++ [.weft (m.nextLane lane) { h with
        pathDelay := BitVec.ofNat 32 (d + m.latency), hops := h.hops + 1 }] }) ∧
  (∀ (s : State) (dt : Nat) (lane : Lane) (h : WeftHdr) (m : Module), m = s.m.elapse dt →
    m.variant.fits lane = true → (m.ringUp = false ∨ m.ring.refusing = true ∨ (m.lane lane).state ≠ 2) →
    exec (.weftHeader dt lane h) s = .next { s with m := m }) ∧
  (∀ (s : State) (dt : Nat) (lane : Lane) (h : WeftHdr) (m f : Module), m = s.m.elapse dt →
    m.variant.fits lane = true → m.ringUp = true → m.ring.refusing = false → (m.lane lane).state = 2 →
    m.ring.isRef = true → f = m.seeEpoch h.reference.toNat h.refEpoch →
    (m.ownPosition h.reference = true →
      exec (.weftHeader dt lane h) s = .next { s with
        m := if f.comesRound lane then f else f.passHeader lane h (m.pathOf lane h) }) ∧
    (m.ownPosition h.reference = false → m.yieldsTo h.reference = false →
      exec (.weftHeader dt lane h) s = .next { s with m := f }) ∧
    (m.ownPosition h.reference = false → m.yieldsTo h.reference = true →
      ∃ t, exec (.weftHeader dt lane h) s = .next { s with m := t } ∧ t.ring.isRef = false ∧
        t.ring.reference = h.reference)) ∧
  (∀ (m : Module) (h : WeftHdr) (d : Nat), h.half = true →
    ((m.adopt h d).1.clk.tracker = .domain ∧ (m.adopt h d).1.clk.measured = h.period ∧
      (m.adopt h d).1.clk.cycle = m.clk.cycle ∧ (m.adopt h d).1.clk.angle = m.clk.angle ∧
      (m.adopt h d).1 = { m with clk := (m.adopt h d).1.clk })) ∧
  (∀ (m : Module) (h : WeftHdr) (d : Nat), h.half = false → m.clk.rebaseDue = true →
    (m.adopt h d).1.clk.cycle = h.cycle ∧ (m.adopt h d).1.clk.tracker = .domain ∧ (m.adopt h d).1.clk.rebaseDue = false ∧
      (m.adopt h d).1.vault.checkpoint = some h.cycle ∧ (m.adopt h d).2 = 0) ∧
  (∀ (m : Module) (err : Int), (m.judgeMute err).ring.offset = -(err.tdiv 65536) ∧
    (65536000 < err.natAbs → (m.judgeMute err).ring.muted = true) ∧
    (err.natAbs ≤ 65536000 → m.ring.muted = false → (m.judgeMute err).ring.muted = false) ∧
    (m.ring.muted = true → 32768000 < err.natAbs → (m.judgeMute err).ring.muted = true) ∧
    (m.ring.muted = true → m.ring.muteUntil = none → err.natAbs ≤ 32768000 → 7 ≤ m.ring.calmRun →
      (m.judgeMute err).ring.muted = false)) ∧
  (∀ (s : State) (dt : Nat) (m : Module), m = s.m.elapse dt → m.ringUp = true → m.ring.isRef = true →
    m.clk.angle.toNat % 32768 < 2048 →
    ∃ t, exec (.weftHeaderSend dt) s = .next { s with m := t } ∧ t.clk.headerGap = 0 ∧ t.ring.seam = [] ∧
      t.ring.quiet = false ∧ t.ring.delay0 = 0 ∧ t.ring.delay1 = 0 ∧
      t.out = m.out ++
        ((loopsOf m.ring.form).filter (fun l => (m.lane (m.sendLane l)).state == 2)).map (fun l =>
          Out.weft (m.sendLane l) (m.header l)) ++
        (m.ring.seam.filter (fun f => (m.lane (m.sendLane f.hdr.loop)).state == 2)).map (fun f =>
          Out.ring (m.sendLane f.hdr.loop) f.ty { f.hdr with held := true } f.payload)) ∧
  (∀ (s : State) (dt : Nat) (m : Module), m = s.m.elapse dt →
    (m.ringUp = false ∨ m.ring.isRef = false ∨ 2048 ≤ m.clk.angle.toNat % 32768) →
    exec (.weftHeaderSend dt) s = .next { s with m := m }) ∧
  (∀ (s : State) (dt k : Nat) (m : Module), m = s.m.elapse dt → m.ringUp = true → m.ringReady = true →
    m.ring.position.isSome = true → m.ring.isRef = false → refIndex m.ring.refList m.positionByte = some k →
    (64 + 8 * k ≤ m.clk.headerGap →
      ∃ t, exec (.referenceTakeover dt) s = .next { s with m := t } ∧ t.ring.isRef = true ∧
        t.ring.reference = m.positionByte ∧ t.clk.angle = m.clk.angle ∧ t.clk.cycle = m.clk.cycle) ∧
    (m.clk.headerGap < 64 + 8 * k → exec (.referenceTakeover dt) s = .next { s with m := m }))

/-- A queued frame leaves in the window of this position, marked busy until its end, and a REQUEST's till is due 100
ms later; without a position or a frame that may leave nothing goes; a frame passing through is removed at its
destination and at its source, held at the seam, told of by SLOT_NOTICE, dropped beyond 131,072 bytes or forwarded
(R62, R271-R273, R275-R278, R281, R283). Where it goes beyond the rules, it states the model's own readings: log 20, 44, 78. -/
def Obligations.SlotTraffic : Prop :=
  (∀ (s : State) (dt dur p loop : Nat) (lane : Lane) (m : Module) (f : RingOut) (rest : List RingOut),
    m = s.m.elapse dt → m.ringUp = true → m.ring.position = some p →
    (m.ringReady = false ∨ m.ring.held = [] ∧ m.ring.heldLoss = none) → m.ring.pushE = false → m.ring.pushW = false →
    m.nextFrame p dur m.ring.txq = some (f, rest) → loop = m.frameLoop f → lane = m.sendLane loop →
    ∃ x : Module, exec (.insertion dt dur) s = .next { s with m := x.resetStep.standbyStep.prbsStep } ∧
      x.ring.txq = rest ∧ x.ring.busyTill = Tbl.set 0 m.ring.busyTill lane.code (m.clk.tick.toNat + dur) ∧
      x.out = m.out ++ (if (m.lane lane).state = 2 then
        [.ring lane f.ty { f.hdr with
          loop := loop, seq := Tbl.get 0 m.ring.txSeq loop + 1, srcEpoch := m.vault.hubEpoch
          weft := BitVec.ofNat 32 m.clk.half } f.payload] else []) ∧
      (f.ty = 2 → Tbl.wf Till.closed m.win.tills = true →
        (x.till f.hdr.rtill).due = m.clk.tick.toNat + dur + 10000000)) ∧
  (∀ (s : State) (dt dur : Nat) (m : Module), m = s.m.elapse dt →
    (m.ringUp = false ∨ m.ring.position = none) → exec (.insertion dt dur) s = .next { s with m := m }) ∧
  (∀ (m : Module) (f : RingOut), m.mayInsert f = true ↔ m.stage = .ready ∧ (m.shelf = false ∨ f.ty = 3) ∧
    m.ring.muted = false ∧ m.ring.quiet = false ∧ m.ring.refusing = false) ∧
  (∀ (m : Module) (f : RingOut) (fs : List RingOut) (p dur : Nat),
    (m.mayInsert f = true → m.busyUntil (m.sendLane (m.frameLoop f)) ≤ m.clk.tick.toNat →
      m.inBody p (m.frameLoop f) dur = true →
      m.nextFrame p dur (f :: fs) = some (f, fs)) ∧ m.nextFrame p dur [] = none) ∧
  (∀ (s : State) (dt : Nat) (lane : Lane) (ty : Byte) (hdr : RingHdr) (payload : List Byte) (good inserted : Bool)
    (reach : Nat) (m f : Module), m = s.m.elapse dt → m.variant.fits lane = true →
    f = m.seeEpoch hdr.src.toNat hdr.srcEpoch →
    ((m.ringUp = false ∨ m.ring.refusing = true ∨ good = false ∨ (m.lane lane).state ≠ 2) →
      exec (.ringFrameForward dt lane ty hdr payload good inserted reach) s = .next { s with m := m }) ∧
    (m.ringUp = true → m.ring.refusing = false → good = true → (m.lane lane).state = 2 →
      (inserted = true → 2 ≤ reach →
        exec (.ringFrameForward dt lane ty hdr payload good inserted reach) s = .next { s with
          m := f.link ((laneSide lane).getD .west) 0x4A (u32 hdr.weft.toNat ++
            u8 ((f.clk.angle.toNat % 32768 - 2048) / 240) ++ u8 hdr.loop ++ rsv 2) }) ∧
      ((inserted = false ∨ reach < 2) →
        (f.ownPosition hdr.dst = true → 2 ≤ ty.toNat → ty.toNat ≤ 6 →
          exec (.ringFrameForward dt lane ty hdr payload good inserted reach) s = .next { s with m := f }) ∧
        (f.ownPosition hdr.src = true → f.comesRound lane = true →
          exec (.ringFrameForward dt lane ty hdr payload good inserted reach) s = .next { s with m := f }) ∧
        ((f.ownPosition hdr.dst = false ∨ ty.toNat < 2 ∨ 6 < ty.toNat) →
          (f.ownPosition hdr.src = false → f.comesRound lane = true → f.ring.isRef = true →
            exec (.ringFrameForward dt lane ty hdr payload good inserted reach) s = .next { s with
              m := if hdr.held then f
                else { f with ring := { f.ring with seam := f.ring.seam ++ [⟨ty, hdr, payload⟩] } } }) ∧
          ((f.comesRound lane = false ∨ (f.ownPosition hdr.src = false ∧ f.ring.isRef = false)) →
            exec (.ringFrameForward dt lane ty hdr payload good inserted reach) s = .next { s with
              m := f.forwardFrame (f.nextLane lane) ⟨ty, hdr, payload⟩ }))))) ∧
  (∀ (m : Module) (out : Lane) (f : RingOut),
    (131072 < m.backlog out + (28 + f.payload.length) →
      m.forwardFrame out f = { m with ring := { m.ring with fwdLost := m.ring.fwdLost + 1 } }) ∧
    (m.backlog out + (28 + f.payload.length) ≤ 131072 → (m.lane out).state = 2 →
      m.forwardFrame out f = { m with
        ring := { m.ring with
          busyTill := Tbl.set 0 m.ring.busyTill out.code
            (max m.clk.tick.toNat (m.busyUntil out) + 2 * (28 + f.payload.length) / 25) }
        out := m.out ++ [.ring out f.ty f.hdr f.payload] }))

/-- A REQUEST of a passed epoch is answered with PRESENCE and not carried out, any other arrives here; a REPLY is
relayed with RELAYED under its till's epoch and deadline, else discarded; a till with no reply by its deadline fails
with TIMEOUT; broadcasts act once per source and loop (R98, R145, R269, R276, R289-R293, R295, R299). Where it goes
beyond the rules, it states the model's own readings: log 12, 20, 45, 57, 79. -/
def Obligations.RingFrames : Prop :=
  (∀ (m : Module) (hdr : RingHdr) (g : Module → Module),
    ((m.ringUp = false ∨ m.ring.refusing = true) → m.addressed hdr g = m) ∧
    (m.ringUp = true → m.ring.refusing = false →
      m.addressed hdr g = (fun (f : Module) =>
        if f.ownPosition hdr.dst = true ∧ f.ownPosition hdr.src = false then g f else f)
          (m.seeEpoch hdr.src.toNat hdr.srcEpoch))) ∧
  (∀ (m : Module) (hdr : RingHdr) (g : Module → Module),
    ((m.ringUp = false ∨ m.ring.refusing = true) → m.takeOnce hdr g = m) ∧
    (∀ f key, f = m.seeEpoch hdr.src.toNat hdr.srcEpoch → key = 256 * hdr.loop + hdr.src.toNat →
      m.ringUp = true → m.ring.refusing = false →
      (f.ownPosition hdr.src = true → m.takeOnce hdr g = f) ∧
      (∀ q, Tbl.get none f.ring.lastSeq key = some q → newerSeq hdr.seq q = false → m.takeOnce hdr g = f) ∧
      (f.ownPosition hdr.src = false → (∀ q, Tbl.get none f.ring.lastSeq key = some q → newerSeq hdr.seq q = true) →
        m.takeOnce hdr g =
          g { f with ring := { f.ring with lastSeq := Tbl.set none f.ring.lastSeq key (some hdr.seq) } }))) ∧
  (∀ (s : State) (dt : Nat) (hdr : RingHdr) (op : Word16) (p : Packet) (m : Module), m = s.m.elapse dt →
    exec (.request dt hdr op p) s = .next { s with m := m.addressed hdr (fun m => m.takeRing hdr op p) }) ∧
  (∀ (m : Module) (hdr : RingHdr) (op : Word16) (p : Packet),
    (m.ignores hdr.src = true → m.takeRing hdr op p = m) ∧
    (m.ignores hdr.src = false → hdr.dstEpoch ≠ 0 → hdr.dstEpoch ≠ m.vault.hubEpoch →
      m.takeRing hdr op p = m.sendPresence hdr.src) ∧
    (m.ignores hdr.src = false → (hdr.dstEpoch = 0 ∨ hdr.dstEpoch = m.vault.hubEpoch) →
      m.takeRing hdr op p = m.arrive (op, { p with path := .ring hdr.src hdr.rtill }) m.clk.tick.toNat true)) ∧
  (∀ (s : State) (dt : Nat) (hdr : RingHdr) (r : Reply) (m : Module), m = s.m.elapse dt →
    exec (.ringReply dt hdr r) s = .next { s with
      m := m.addressed hdr (fun m => if r.rflags.getLsbD 2 then m.relayFinal hdr.src.toNat r else m.relay hdr r) }) ∧
  (∀ (m : Module) (hdr : RingHdr) (r : Reply),
    ((∀ f ∈ m.ring.forwards, f.1 ≠ hdr.rtill) → m.relay hdr r = m) ∧
    ((m.till hdr.rtill).due ≠ 0 → (m.till hdr.rtill).due < m.clk.tick.toNat → m.relay hdr r = m) ∧
    ((m.till hdr.rtill).link.toNat ≠ hdr.src.toNat → m.relay hdr r = m) ∧
    ((m.till hdr.rtill).epoch ≠ 0 → (m.till hdr.rtill).epoch ≠ hdr.srcEpoch → m.relay hdr r = m) ∧
    (∀ f, m.ring.forwards.find? (fun f => f.1 == hdr.rtill) = some f → (m.till hdr.rtill).link.toNat = hdr.src.toNat →
      ((m.till hdr.rtill).due = 0 ∨ m.clk.tick.toNat ≤ (m.till hdr.rtill).due) →
      ((m.till hdr.rtill).epoch = 0 ∨ (m.till hdr.rtill).epoch = hdr.srcEpoch) → r.status ≠ stAccepted →
      m.relay hdr r = ((({ m with ring := { m.ring with
          forwards := m.ring.forwards.filter (fun f => f.1 != hdr.rtill) } }).setTill hdr.rtill
            (fun _ => Till.closed)).completeWith f.2.1 f.2.2 { r with rflags := r.rflags ||| 32 }).resetStep)) ∧
  (∀ (s : State) (dt : Nat) (till : Word16) (m : Module), m = s.m.elapse dt →
    exec (.ringReplyTimeout dt till) s = .next { s with
      m := if (m.till till).kind = 5 ∧ (m.till till).due ≠ 0 ∧ (m.till till).due < m.clk.tick.toNat then m.failTill till stTimeout else m }) ∧
  (∀ (s : State) (dt : Nat) (side : Side) (hdr : RingHdr) (position : Byte) (epoch : Word16)
    (revision total offset : Word32) (data mac : List Byte) (m : Module), m = s.m.elapse dt →
    exec (.escrow dt side hdr position epoch revision total offset data mac) s = .next { s with
      m := m.addressed hdr (fun m => if (m.span side).auth = .done
        then m.takeEscrow side position epoch revision total offset data mac else m) }) ∧
  (∀ (m : Module) (side : Side) (position : Byte) (epoch : Word16) (revision : Word32) (bytes mac : List Byte),
    (m.verifies bytes mac = false → m.placeEscrow side position epoch revision bytes mac = m) ∧
    (m.verifies bytes mac = true →
      (m.placeEscrow side position epoch revision bytes mac).escrowOf side =
        some ⟨position, revision, epoch, bytes, mac⟩)) ∧
  (∀ (s : State) (dt : Nat) (hdr : RingHdr) (position variant : Byte) (epoch : Word16) (m : Module), m = s.m.elapse dt →
    exec (.presence dt hdr position variant epoch) s = .next { s with
      m := m.takeOnce hdr (fun m => (m.seeEpoch position.toNat epoch).seeVariant position variant) }) ∧
  (∀ (s : State) (dt : Nat) (hdr : RingHdr) (cause subject : Byte) (epoch : Word16) (m : Module), m = s.m.elapse dt →
    exec (.change dt hdr cause subject epoch) s = .next { s with
      m := m.takeOnce hdr (fun m => if m.ignores hdr.src then m else m.takeChange hdr.src cause subject epoch) }) ∧
  (∀ (m : Module) (src cause subject : Byte) (epoch : Word16), (cause = 8 → m.ring.enum = none) →
    (m.takeChange src cause subject epoch).ring.quiet = true ∧
    (m.takeChange src cause subject epoch).ring.form = (if cause = 1 then turnedForm m.ring.form
      else if cause = 2 ∧ m.ring.east.broken = false ∧ m.ring.west.broken = false ∧
        Tbl.set false m.ring.breaks (breakKey src.toNat subject.toNat) false = [] then wholeForm m.ring.form
      else m.ring.form)) ∧
  (∀ (s : State) (dt : Nat) (hdr : RingHdr) (r : Reply) (m : Module), m = s.m.elapse dt →
    exec (.event dt hdr r) s = .next { s with
      m := m.takeOnce hdr (fun m => if m.gateway = true ∧ m.ignores hdr.src = false
        then m.deliver 1 { r with rflags := r.rflags ||| 32 } m.vault.hostEpoch else m) })

/-! ### Update across the domain -/

/-- An UPDATE_CTL frame acts once, or where it is addressed; OPEN is taken, refused with its cause or answered busy; a
block is kept only while RECEIVING, admitted, good and new; NEED sends the blocks held; 64 wefts without one ask the
other neighbour; a vote is yes only with no cause against it, and PREPARED is entered first; votes count by the close,
every yes prepares, the close or a RELEASE lets go (R319, R352, R357, R361, R367-R369, R376-R378). Where it goes
beyond the rules, it states the model's own readings: log 12, 51. -/
def Obligations.UpdateVotes : Prop :=
  (∀ (m : Module) (hdr : RingHdr) (g : Module → Module),
    (hdr.dst = 0xFE → m.onCtl hdr g = m.takeOnce hdr (fun f => if f.ignores hdr.src then f else g f)) ∧
    (hdr.dst ≠ 0xFE → m.onCtl hdr g = m.addressed hdr (fun f => if f.ignores hdr.src then f else g f))) ∧
  (∀ (s : State) (dt : Nat) (hdr : RingHdr) (u : UpdHdr) (clean : Bool) (man : List Byte) (m : Module),
    m = s.m.elapse dt →
    exec (.updOpen dt hdr u clean man) s = .next { s with m := m.onCtl hdr (fun f => f.takeOpen u clean man) }) ∧
  (∀ (m : Module) (u : UpdHdr) (clean : Bool) (man : List Byte),
    (m.upd.session.id = u.session → m.takeOpen u clean man = m) ∧
    (m.upd.session.id ≠ u.session → m.upd.session.phase.isOpen = true →
      m.takeOpen u clean man = m.setSession (fun x => { x with busyFor := some u.session })) ∧
    (m.upd.session.id ≠ u.session → m.upd.session.phase.isOpen = false → manifestLayout man = false →
      m.takeOpen u clean man = m.setSession (fun _ => { Session.idle with
        id := u.session, phase := .aborted, clean := clean, gateway := u.gateway, cause := 0 })) ∧
    (m.upd.session.id ≠ u.session → m.upd.session.phase.isOpen = false → manifestLayout man = true →
      m.takeOpen u clean man = match m.manifestCause man clean with
        | some (_, cause) => m.setSession (fun _ => { Session.idle with
            id := u.session, phase := .aborted, clean := clean, gateway := u.gateway, cause := cause })
        | none => m.openSession u.session clean man u.gateway false [])) ∧
  (∀ (s : State) (dt : Nat) (side : Side) (hdr : RingHdr) (b : Block) (m : Module), m = s.m.elapse dt →
    exec (.block dt side hdr b) s = .next { s with
      m := m.addressed hdr (fun m => if m.ignores hdr.src then m else m.takeBlockFrame side b) }) ∧
  (∀ (m : Module) (side : Side) (b : Block),
    (m.upd.session.phase ≠ .receiving → m.takeBlockFrame side b = m) ∧
    (∀ x, m.upd.session.phase = .receiving → x = m.setSession (fun y => { y with lastFrom := some side }) →
      ((x.admits (blockCost b) [] = false ∨ x.checkBlock b = none ∨ x.holdsBlock (blockIndex b) = true) →
        m.takeBlockFrame side b = x) ∧
      (∀ e out, x.admits (blockCost b) [] = true → x.checkBlock b = some (e, out) →
        x.holdsBlock (blockIndex b) = false → m.takeBlockFrame side b = x.newBlock b e out (some side)))) ∧
  (∀ (s : State) (dt : Nat) (side : Side) (hdr : RingHdr) (u : UpdHdr) (first count : Word32) (m : Module),
    m = s.m.elapse dt →
    exec (.need dt side hdr u first count) s = .next { s with
      m := m.onCtl hdr (fun m => if m.upd.session.id = u.session ∧ m.upd.escrow.session = u.session then
          (m.upd.escrow.held.filter (fun h => decide (first.toNat ≤ h.1) && decide (h.1 < first.toNat + count.toNat))).foldl
            (fun m h => match h.2 with
              | some b => m.ringSend 4 (m.peerPosition side) (m.span side).epoch 0 b
              | none => m) m
        else m) }) ∧
  (∀ (s : State) (dt : Nat) (m : Module), m = s.m.elapse dt →
    exec (.blockStall dt) s = .next { s with
      m := if m.ringUp = true ∧ m.upd.session.phase = .receiving ∧ 64 ≤ m.upd.session.stall then m.stalled else m }) ∧
  (∀ m : Module, m.stalled.upd.session.stall = 0 ∧
    m.stalled.upd.session.lastFrom = some (otherSide (m.upd.session.lastFrom.getD .west))) ∧
  (∀ (s : State) (dt : Nat) (hdr : RingHdr) (u : UpdHdr) (a : Angle) (c : Cycle) (m : Module), m = s.m.elapse dt →
    exec (.voteCall dt hdr u a c) s = .next { s with
      m := m.onCtl hdr (fun f =>
        if f.upd.session.opener = true ∧ f.upd.session.id = u.session then f else f.castVote u) }) ∧
  (∀ (m : Module) (u : UpdHdr), m.upd.session.id = u.session →
    (m.voteCause = 0 → (m.castVote u).upd.session = { m.upd.session with phase := .prepared } ∧
      m.castVote u = (m.writeSettings.setSession (fun x => { x with phase := .prepared })).replyCtl u 4 0
        (u8 1 ++ rsv 3)) ∧
    (m.voteCause ≠ 0 → m.castVote u = m.replyCtl u 4 m.voteCause (u8 0 ++ rsv 3))) ∧
  (∀ m : Module, m.voteCause = 0 ↔ m.upd.session.phase = .assembled ∧ m.ringReady = true ∧ m.running = true ∧
    m.prov.learns = [] ∧ m.staging = none ∧ m.admits 150000 [] = true) ∧
  (∀ (s : State) (dt : Nat) (hdr : RingHdr) (u : UpdHdr) (yes : Bool) (m : Module), m = s.m.elapse dt →
    exec (.vote dt hdr u yes) s = .next { s with
      m := m.onCtl hdr (fun f =>
        if f.upd.session.id = u.session then f.countVote hdr.src.toNat yes u.cause else f) }) ∧
  (∀ (m : Module) (src c : Nat) (yes : Bool) (cause : Byte), m.upd.session.voteClose = some c →
    ((m.upd.session.opener = false ∨ m.upd.session.roster.contains src = false ∨
      m.upd.session.votes.any (fun v => v.1 == src) = true ∨ m.clk.onTime c = false) → m.countVote src yes cause = m) ∧
    (m.upd.session.opener = true → m.upd.session.roster.contains src = true →
      m.upd.session.votes.any (fun v => v.1 == src) = false → m.clk.onTime c = true →
      ({ m.upd.session with votes := m.upd.session.votes ++ [(src, yes, cause)] } : Session).allYes = false →
      m.countVote src yes cause = m.setSession (fun x => { x with votes := x.votes ++ [(src, yes, cause)] })) ∧
    (m.upd.session.opener = true → m.upd.session.roster.contains src = true →
      m.upd.session.votes.any (fun v => v.1 == src) = false → m.clk.onTime c = true →
      ({ m.upd.session with votes := m.upd.session.votes ++ [(src, yes, cause)] } : Session).allYes = true →
      m.countVote src yes cause = (m.setSession (fun x => { x with
        votes := x.votes ++ [(src, yes, cause)], phase := .prepared, voteClose := none })).endFinals 0x0704 stOk 0)) ∧
  (∀ (s : State) (dt c q : Nat) (cause : Byte) (m : Module), m = s.m.elapse dt → m.coresUp = true →
    m.upd.session.opener = true → m.upd.session.voteClose = some c → m.upd.session.lowestNo = some (q, cause) →
    exec (.voteClose dt) s = .next { s with m := if m.clk.onTime c then m else m.releaseVote q cause }) ∧
  (∀ (s : State) (dt : Nat) (m : Module), m = s.m.elapse dt → m.upd.session.voteClose = none →
    exec (.voteClose dt) s = .next { s with m := m }) ∧
  (∀ (s : State) (dt : Nat) (hdr : RingHdr) (u : UpdHdr) (m : Module), m = s.m.elapse dt →
    exec (.voteRelease dt hdr u) s = .next { s with
      m := m.onCtl hdr (fun f => if f.upd.session.id = u.session ∧ f.upd.session.opener = false ∧
          f.upd.session.phase = .prepared
        then f.setSession (fun x => { x with phase := .assembled }) else f) })

/-- COMMIT is taken by a PREPARED member and refused by any other; at its instant the banks exchange roles with
TRIAL_PENDING and a TRIAL reset is due, while a CURRENT module only reports; a trial passes with its slices and
entropy, its reports are judged at the gateway by the deadline, and what is unanswered goes again every 64 wefts
(R365, R381-R385). Where it goes beyond the rules, it states the model's own readings: log 12, 51. -/
def Obligations.CommitAndTrial : Prop :=
  (∀ (s : State) (dt : Nat) (hdr : RingHdr) (u : UpdHdr) (cycle : Cycle) (m : Module), m = s.m.elapse dt →
    exec (.updateCtlCommit dt hdr u cycle) s = .next { s with
      m := m.onCtl hdr (fun f =>
        if f.upd.session.opener = true ∧ f.upd.session.id = u.session then f else f.takeCommit u cycle) }) ∧
  (∀ (m : Module) (u : UpdHdr) (cycle : Cycle),
    (m.upd.session.id = u.session → m.upd.session.phase = .prepared →
      m.takeCommit u cycle = m.setSession (fun x => { x with
        phase := .committed, commitCycle := some cycle, late := !m.clk.onTime (cycle.toNat * 65536)
        commitAt := some (if m.clk.onTime (cycle.toNat * 65536) then cycle.toNat * 65536
          else (m.clk.cycle.toNat + 1) * 65536) })) ∧
    (m.upd.session.id = u.session → (m.upd.session.phase = .committed ∨ m.upd.session.phase = .trial ∨
        m.upd.session.phase = .confirmed ∨ m.upd.session.phase = .unwound) → m.takeCommit u cycle = m) ∧
    ((m.upd.session.id ≠ u.session ∨ m.upd.session.phase = .idle ∨ m.upd.session.phase = .receiving ∨
        m.upd.session.phase = .assembled ∨ m.upd.session.phase = .aborted) →
      m.takeCommit u cycle = m.replyCtl u 7 0x0E (u40 0 ++ rsv 3))) ∧
  (∀ (s : State) (dt c : Nat) (m : Module), m = s.m.elapse dt → m.coresUp = true → m.upd.session.phase = .committed →
    m.upd.session.commitAt = some c →
    (c ≤ m.clk.cycle.toNat * 65536 + m.clk.angle.toNat → m.upd.session.isCurrent = false →
      ∃ t, exec (.commitInstant dt) s = .next { s with m := t } ∧ t.upd.swapped = (!m.upd.swapped) ∧ t.upd.select = 1 ∧
        t.upd.bootCount = 0 ∧ t.resetDue = some .trial ∧ t.prov = { m.prov with coreFb := true } ∧
        t.upd.bank0 = m.upd.bank0 ∧ t.upd.bank1 = m.upd.bank1 ∧ t.upd.session.commitAt = none) ∧
    (c ≤ m.clk.cycle.toNat * 65536 + m.clk.angle.toNat → m.upd.session.isCurrent = true →
      exec (.commitInstant dt) s = .next { s with
        m := (m.setSession (fun (x : Session) => { x with
          commitAt := none
          before := (List.range m.variant.slices).filter (fun n => (m.slice n).loaded)
          phase := .trial
          commitCycle := (if m.upd.session.opener then x.commitCycle
            else some (BitVec.ofNat 40 (c / 65536))) })).reportTrial 0 }) ∧
    (m.clk.cycle.toNat * 65536 + m.clk.angle.toNat < c →
      exec (.commitInstant dt) s = .next { s with m := m })) ∧
  (∀ (s : State) (dt : Nat) (m : Module), m = s.m.elapse dt → m.upd.session.commitAt = none →
    exec (.commitInstant dt) s = .next { s with m := m }) ∧
  (∀ (s : State) (dt : Nat) (m : Module), m = s.m.elapse dt → m.upd.session.phase = .committed → m.upd.select = 1 →
    m.ringReady = true →
    exec (.trialPass dt) s = .next { s with m := m.judgeTrial } ∧
    (m.upd.session.before.any (fun n => (m.slice n).failed) = false →
      m.upd.session.before.all (fun n => (m.slice n).loaded) = true → m.ent.healthy = true →
      m.judgeTrial = ({ m with
        upd := { m.upd with
          select := 2
          session := { m.upd.session with phase := .trial } } }).reportTrial 0) ∧
    (m.upd.session.before.any (fun n => (m.slice n).failed) = true → m.upd.session.cause ≠ 0x0C →
      m.judgeTrial = (m.setSession (fun x => { x with cause := 0x0C })).reportTrial 0x0C)) ∧
  (∀ (s : State) (dt : Nat) (m : Module), m = s.m.elapse dt →
    (m.upd.session.phase ≠ .committed ∨ m.upd.select ≠ 1 ∨ m.ringReady = false) →
    exec (.trialPass dt) s = .next { s with m := m }) ∧
  (∀ (s : State) (dt : Nat) (m : Module), m = s.m.elapse dt →
    exec (.trialResend dt) s = .next { s with
      m := if m.ringUp = true ∧ m.ringReady = true ∧ 64 ≤ m.upd.wefts then
          ({ m with upd := { m.upd with wefts := 0 } }).resendStep else m }) ∧
  (∀ (s : State) (dt : Nat) (hdr : RingHdr) (u : UpdHdr) (cycle : Cycle) (m : Module), m = s.m.elapse dt →
    exec (.trial dt hdr u cycle) s = .next { s with
      m := m.onCtl hdr (fun f => if f.upd.session.opener = true ∧ f.upd.session.id = u.session ∧
          f.upd.session.roster.contains hdr.src.toNat = true then f.noteTrial hdr.src.toNat u.cause else f) }) ∧
  (∀ (s : State) (dt : Nat) (m : Module), m = s.m.elapse dt →
    exec (.trialDeadline dt) s = .next { s with
      m := match m.upd.session.commitCycle with
        | some c => if m.coresUp = true ∧ m.clk.onTime ((c.toNat + 1500) * 65536) = false then m.judgeTrials true else m
        | none => m }) ∧
  (∀ m : Module, m.upd.session.opener = true → m.upd.session.confirmSent = false → m.upd.session.unwindDue = false →
    (m.upd.session.phase = .committed ∨ m.upd.session.phase = .trial) → ∀ d : Bool,
    (∀ f, m.upd.session.lowestFailed d = some f →
      m.judgeTrials d = (m.setSession (fun x => { x with failure := some f })).beginUnwind) ∧
    (m.upd.session.lowestFailed d = none → m.upd.session.allPassed = true →
      m.judgeTrials d = m.endFinals 0x0705 stOk 0))

/-- CONFIRM at a module that has passed its trial burns the fuses, takes the settings, clears the bank-select record
and is answered; CONFIRMED reports end it, or its deadline does with the lowest position that did not answer; UNWIND,
UNWOUND and ABORT (R353, R362, R370, R386, R387, R389). Where it goes beyond the rules, it states the model's own
readings: log 12, 13, 51. -/
def Obligations.ConfirmAndUnwind : Prop :=
  (∀ (s : State) (dt read : Nat) (hdr : RingHdr) (u : UpdHdr) (m : Module) (g : Module → Module), m = s.m.elapse dt →
    g = (fun f => if f.upd.session.phase = .trial then f.confirmHere read
      else if f.upd.session.phase = .confirmed then f.reportConfirmed else f) →
    (m.upd.session.id ≠ u.session → exec (.updateCtlConfirm dt hdr u read) s = .next { s with m := m }) ∧
    (m.upd.session.id = u.session → m.upd.session.opener = true →
      exec (.updateCtlConfirm dt hdr u read) s = .next { s with
        m := if m.coresUp = true ∧ m.upd.session.confirmSent = true then g m else m }) ∧
    (m.upd.session.id = u.session → m.upd.session.opener = false →
      exec (.updateCtlConfirm dt hdr u read) s = .next { s with m := m.onCtl hdr g })) ∧
  (∀ (m : Module) (read : Nat), m.upd.session.opener = false →
    (m.confirmHere read).upd.fuses = max m.upd.fuses (min read m.fuseTarget) ∧ (m.confirmHere read).upd.select = 0 ∧
      (m.confirmHere read).upd.bootCount = 0 ∧ (m.confirmHere read).upd.session.phase = .confirmed ∧
      (m.confirmHere read).upd.swapped = m.upd.swapped) ∧
  (∀ (s : State) (dt : Nat) (hdr : RingHdr) (u : UpdHdr) (m : Module), m = s.m.elapse dt →
    exec (.confirmed dt hdr u) s = .next { s with
      m := m.onCtl hdr (fun f => if f.upd.session.opener = true ∧ f.upd.session.id = u.session ∧
          f.upd.session.roster.contains hdr.src.toNat = true then f.noteConfirmed hdr.src.toNat u.cause else f) } ∧
    exec (.unwound dt hdr u) s = .next { s with
      m := m.onCtl hdr (fun f => if f.upd.session.opener = true ∧ f.upd.session.id = u.session ∧
          f.upd.session.roster.contains hdr.src.toNat = true then f.noteUnwound hdr.src.toNat else f) }) ∧
  (∀ (s : State) (dt : Nat) (m : Module), m = s.m.elapse dt →
    exec (.confirmDeadline dt) s = .next { s with
      m := match m.upd.session.confirmBy with
        | some d => if m.coresUp = true ∧ m.upd.session.opener = true ∧ m.clk.onTime d = false then
            (m.setSession (fun x => { x with confirmBy := none })).endFinals 0x0706 stDomainAbort
              (BitVec.ofNat 16 (m.upd.session.unconfirmed.headD 0))
          else m
        | none => m }) ∧
  (∀ (s : State) (dt : Nat) (hdr : RingHdr) (u : UpdHdr) (m : Module), m = s.m.elapse dt →
    exec (.updateCtlUnwind dt hdr u) s = .next { s with
      m := m.onCtl hdr (fun f =>
        if f.upd.session.id = u.session ∧ f.upd.session.opener = false then
          match f.upd.session.phase with
          | .idle | .confirmed => f
          | .unwound => if f.upd.session.unwindDue then f else f.ctlGateway 0x0B 0 []
          | _ => f.unwindHere
        else f) }) ∧
  (∀ m : Module, (m.upd.session.phase = .committed ∨ m.upd.session.phase = .trial) → m.upd.session.isCurrent = false →
    m.unwindHere.resetDue = some .unwind ∧ m.unwindHere.prov = { m.prov with coreFb := true } ∧
      m.unwindHere.upd.session.phase = .unwound ∧ m.unwindHere.upd.select = 0 ∧
      m.unwindHere.upd.swapped = (if m.upd.select = 0 then m.upd.swapped else !m.upd.swapped)) ∧
  (∀ (s : State) (dt : Nat) (hdr : RingHdr) (u : UpdHdr) (m : Module), m = s.m.elapse dt →
    exec (.updAbort dt hdr u) s = .next { s with
      m := m.onCtl hdr (fun f => if f.upd.session.id = u.session ∧ f.upd.session.opener = false ∧
          (f.upd.session.phase = .receiving ∨ f.upd.session.phase = .assembled ∨ f.upd.session.phase = .prepared)
        then f.setSession (fun x => { x with phase := .aborted, voteClose := none }) else f) })

/-! ### Entropy, serial ports and self-test -/

/-- A failed health test in HEALTHY stops the unit and fails every waiting request, else only counts; the restart is 1
s later; a start-up test in which one failed has failed; a start-up test that passes instantiates the generator, the
third failure latches; a due reseed takes one pool output and serves who is on time; a request past its deadline fails
(R392, R393, R395-R398, R400-R402). Where it goes beyond the rules, it states the model's own readings: log 8, 12, 53.
-/
def Obligations.EntropyUnit : Prop :=
  (∀ (s : State) (dt : Nat) (test : HealthTest) (m : Module), m = s.m.elapse dt → m.coresUp = true → test ≠ .kat →
    (m.ent.state ≠ 1 → exec (.healthTestFail dt test) s = .next { s with m := { m with ent := { m.ent.countFail test with
      failing := if m.ent.testing then m.ent.failing.or (some test) else m.ent.failing } } }) ∧
    (m.ent.state = 1 → ∃ t, exec (.healthTestFail dt test) s = .next { s with m := t } ∧ t.ent.state = 2 ∧
      t.ent.drbg = false ∧ t.ent.pool = 0 ∧ t.ent.waiting = [] ∧ t.ent.restartAt = some (m.clk.tick.toNat + 100000000) ∧
      t.ent.rct = (if test = .rct then satInc m.ent.rct else m.ent.rct) ∧
      t.ent.apt = (if test = .apt then satInc m.ent.apt else m.ent.apt) ∧ t.ent.restarts = m.ent.restarts)) ∧
  (∀ (s : State) (dt : Nat) (m : Module), m = s.m.elapse dt → (m.coresUp = false →
    ∀ test, exec (.healthTestFail dt test) s = .next { s with m := m }) ∧
    exec (.healthTestFail dt .kat) s = .next { s with m := m }) ∧
  (∀ (s : State) (dt t : Nat) (m : Module), m = s.m.elapse dt → m.ent.restartAt = some t →
    exec (.entropyRestart dt) s = .next { s with
      m := if m.coresUp = true ∧ m.ent.state = 2 ∧ t ≤ m.clk.tick.toNat then
          { m with ent := { m.ent with
            restartAt := none, testing := true, failing := none, poolAt := m.clk.tick.toNat } }
        else m }) ∧
  (∀ (s : State) (dt : Nat) (m : Module), m = s.m.elapse dt → m.ent.restartAt = none →
    exec (.entropyRestart dt) s = .next { s with m := m }) ∧
  (∀ (s : State) (dt : Nat) (fail : Option HealthTest) (m : Module), m = s.m.elapse dt →
    (m.coresUp = false ∨ m.ent.testing = false → exec (.startupTestDone dt fail) s = .next { s with m := m }) ∧
    (∀ e : Entropy, m.coresUp = true → m.ent.testing = true →
      e = (match m.ent.failing, fail with | none, some x => m.ent.countFail x | _, _ => m.ent) →
      ∃ t, exec (.startupTestDone dt fail) s = .next { s with m := t } ∧
      (m.ent.failing = none → fail = none → t.ent = { m.ent with
        state := 1
        restarts := 0
        drbg := true
        generated := 0
        reseedAt := m.clk.tick.toNat
        pool := 0
        poolAt := m.clk.tick.toNat
        testing := false
        restartAt := none }) ∧
      ((m.ent.failing ≠ none ∨ fail ≠ none) → 2 ≤ m.ent.restarts → t.ent = { e with
        state := 3
        restarts := 3
        drbg := false
        pool := 0
        testing := false
        failing := none
        restartAt := none }) ∧
      ((m.ent.failing ≠ none ∨ fail ≠ none) → m.ent.restarts < 2 → t.ent = { e with
        state := 2
        restarts := m.ent.restarts + 1
        drbg := false
        pool := 0
        testing := false
        failing := none
        restartAt := some (m.clk.tick.toNat + 100000000) }))) ∧
  (∀ (s : State) (dt : Nat) (m : Module) (e : Entropy), m = s.m.elapse dt → e = m.ent.fill m.clk.tick.toNat →
    exec (.reseed dt) s = .next { s with
      m := if m.coresUp = true ∧ e.state = 1 ∧ e.reseedDue m.clk.tick.toNat = true ∧ 1 ≤ e.pool then
          (reqOrder (e.waiting.filter (fun r => decide (m.clk.tick.toNat ≤ r.deadline)))).foldl
            (fun m r => m.serveOrKeep r)
            { m with ent := { e with
                pool := e.pool - 1
                generated := 0
                reseedAt := m.clk.tick.toNat
                waiting := e.waiting.filter (fun r => !decide (m.clk.tick.toNat ≤ r.deadline)) } }
        else m }) ∧
  (∀ (s : State) (dt : Nat) (m : Module), m = s.m.elapse dt →
    exec (.entropyRequestDeadline dt) s = .next { s with
      m := if m.coresUp = true then
          (reqOrder (m.ent.waiting.filter (fun r => decide (r.deadline < m.clk.tick.toNat)))).foldl
            (fun m r => m.failRequest 2 r)
            { m with ent := { m.ent with
                waiting := m.ent.waiting.filter (fun r => !decide (r.deadline < m.clk.tick.toNat)) } }
        else m })

/-- A character is counted and placed by what it shows: a start bit decided 1 is noise, a clear stop bit frames, a
break-like one is dropped, ECHO sends it back, LOOPBACK takes none, an address character selects or deselects, any
other goes on to the holding register; END closes a frame, which is empty, discarded or a packet; a full buffer holds,
a full holding register overruns; a missed deadline discards the frame (R147, R148, R417-R421, R428, R429). Where it
goes beyond the rules, it states the model's own readings: log 12, 55. -/
def Obligations.SerialCharacters : Prop :=
  (∀ (s : State) (dt : Nat) (port : Port) (c : BitVec 9) (startOne stopOne noisy : Bool) (m : Module), m = s.m.elapse dt →
    (m.hears port = true → exec (.character dt port c startOne stopOne noisy) s = .next { s with
      m := m.receive port c startOne stopOne noisy }) ∧
    (m.hears port = false → (port = .maint ∨ m.coresUp = false ∨ m.dropAsleep = false) →
      exec (.character dt port c startOne stopOne noisy) s = .next { s with m := m })) ∧
  (∀ (m : Module) (port : Port) (c : BitVec 9) (startOne stopOne noisy : Bool) (u : Uart) (f : Module),
    u = (m.port port).expire m.clk.tick.toNat → f = m.setPort port (fun u => u.expire m.clk.tick.toNat) →
    (startOne = true → m.receive port c startOne stopOne noisy =
      f.setPort port (fun u => { u with noise := satInc u.noise })) ∧
    (startOne = false → port = .drop → c.getLsbD 8 = false → u.selected = false → u.loopback = false → u.echo = false →
      m.receive port c startOne stopOne noisy = f) ∧
    (startOne = false → stopOne = false → charBits port c = 0 → (port = .drop → u.selected = true) →
      m.receive port c startOne stopOne noisy = f.setPort port (fun u => u.judge false noisy true)) ∧
    (startOne = false → (port = .drop → u.selected = true) → ¬ (stopOne = false ∧ charBits port c = 0) →
      u.echo = false → u.loopback = false → (port = .drop → c.getLsbD 8 = false) →
      m.receive port c startOne stopOne noisy =
        (f.setPort port (fun u => u.judge stopOne noisy false)).hold port (charBits port c))) ∧
  (∀ (m : Module) (c : BitVec 9) (startOne stopOne noisy : Bool) (u : Uart) (f : Module),
    u = (m.port .drop).expire m.clk.tick.toNat → f = m.setPort .drop (fun u => u.expire m.clk.tick.toNat) →
    startOne = false → c.getLsbD 8 = true → u.echo = false → u.loopback = false → u.holding = none →
    m.receive .drop c startOne stopOne noisy =
      (f.setPort .drop (fun u => u.judge stopOne noisy false)).setPort .drop
        (fun u => u.address9 c (stopOne && !noisy) m.clk.tick.toNat)) ∧
  (∀ (u : Uart) (c : BitVec 9) (clean : Bool) (t : Nat), u.frame = none →
    u.address9 c clean t = if clean = true ∧ u.matches c = true
      then { u with selected := true, frame := some [], deadline := some (t + u.timeout) } else { u with selected := false }) ∧
  (∀ (m : Module) (port : Port) (c : BitVec 9),
    ((m.port port).holding.isSome = true → m.hold port c = m.setPort port (fun u => { u with ovr := satInc u.ovr })) ∧
    ((m.port port).holding = none → 2 ≤ (m.port port).full →
      m.hold port c = m.setPort port (fun u => { u with holding := some (c, m.clk.tick.toNat) })) ∧
    ((m.port port).holding = none → (m.port port).full < 2 → m.hold port c = m.passChar port c m.clk.tick.toNat)) ∧
  (∀ (m : Module) (port : Port) (stamp : Nat) (bs : List Byte), (m.port port).escaped = false →
    (m.port port).badEscape = false → (m.port port).frame = some bs →
    ((1 ≤ bs.length → bs.length < 32 ∨ 65536 < bs.length → m.closeFrame port stamp = m.setPort port (fun u =>
      { u.between with discarded := satInc u.discarded })) ∧
    (32 ≤ bs.length → bs.length ≤ 65536 → m.closeFrame port stamp = (m.setPort port (fun u =>
      { u.between with
        full := u.full + 1
        crcBad := if wellFormedBytes bs then u.crcBad else satInc u.crcBad })).arrive
          (readPacket (portPath port) bs) stamp (wellFormedBytes bs)))) ∧
  (∀ (s : State) (dt : Nat) (port : Port) (m : Module), m = s.m.elapse dt →
    exec (.receiveTimeout dt port) s = .next { s with
      m := if m.portRuns port = true then m.setPort port (fun u => u.expire m.clk.tick.toNat) else m }) ∧
  (∀ (u : Uart) (d now : Nat), u.deadline = some d →
    (now ≤ d → u.expire now = u) ∧
    (d < now → u.frame.isSome = true → u.expire now = { u.between with discarded := satInc u.discarded }) ∧
    (d < now → u.frame = none → u.expire now = u)) ∧
  (∀ u : Uart, u.timeout = max 2000000 ((400 * u.oversample * u.divider + 2) / 3))

/-- A received break counts, is measured and, from 10 ms of LPO time, returns MAINT to its default settings; a
matching clean address wakes the hub from standby; DROP resumes; a reply that has gone starts what waited for it; a
transmitted break ends; a self-test ends with its result and reset slices; a scrub changes nothing (R181, R317, R318,
R423, R425-R427, R431, R432, R435, R437, R440-R442). Where it goes beyond the rules, it states the model's own
readings: log 16, 54, 55, 56, 89, 90. -/
def Obligations.PortsAndTests : Prop :=
  (∀ (s : State) (dt : Nat) (port : Port) (bits lpo : Nat) (m : Module) (u : Uart), m = s.m.elapse dt →
    u = ((m.port port).expire m.clk.tick.toNat).interrupt →
    (m.hears port = false → exec (.serialBreak dt port bits lpo) s = .next { s with m := m }) ∧
    (m.hears port = true → ∃ t, exec (.serialBreak dt port bits lpo) s = .next { s with m := t } ∧
      (t.port port).breaks = satInc (m.port port).breaks ∧ (t.port port).lastBits = BitVec.ofNat 16 (min bits 65535) ∧
      (t.port port).lastLpo = BitVec.ofNat 32 (min lpo 4294967295) ∧ (t.port port).selected = false ∧
      (port = .maint → 7680 ≤ lpo → (t.port port).oversample = 16 ∧ (t.port port).divider = 26 ∧
        (t.port port).loopback = false ∧ (t.port port).echo = false) ∧
      (port = .drop ∨ lpo < 7680 → t = m.setPort port (fun _ => { u with
        selected := false
        breaks := satInc (m.port port).breaks
        lastBits := BitVec.ofNat 16 (min bits 65535)
        lastLpo := BitVec.ofNat 32 (min lpo 4294967295) })))) ∧
  (∀ (s : State) (dt : Nat) (c : BitVec 9) (stopOne noisy : Bool) (m : Module), m = s.m.elapse dt →
    ((m.stage ≠ .standby ∨ m.drop.sleep = 0 ∨ (stopOne = false ∧ c = 0)) →
      exec (.dropWake dt c stopOne noisy) s = .next { s with m := m }) ∧
    (m.stage = .standby → m.drop.sleep ≠ 0 → stopOne = true → noisy = false → m.drop.matches c = true →
      exec (.dropWake dt c stopOne noisy) s = .next { s with m := m.wake 7 }) ∧
    (m.stage = .standby → m.drop.sleep ≠ 0 → (stopOne = true ∨ c ≠ 0) →
      (stopOne = false ∨ noisy = true ∨ m.drop.matches c = false) →
      exec (.dropWake dt c stopOne noisy) s = .next { s with
        m := m.setPort .drop (fun u => u.judge stopOne noisy false) })) ∧
  (∀ (s : State) (dt : Nat) (m : Module), m = s.m.elapse dt →
    exec (.dropResume dt) s = .next { s with
      m := if m.coresUp = true then m.setPort .drop (fun u => { u with resumeAt := none }) else m }) ∧
  (∀ (s : State) (dt : Nat) (port : Port) (m : Module), m = s.m.elapse dt →
    (m.portRuns port = false ∨ (m.port port).brk.isSome = true ∨ (m.port port).txq = [] →
      exec (.replySentInFull dt port) s = .next { s with m := m }) ∧
    (∀ r rest, m.portRuns port = true → (m.port port).brk = none → (m.port port).txq = r :: rest →
      (m.port port).loopback = false →
      exec (.replySentInFull dt port) s = .next { s with
        m := (((m.put (.serial port (frameChars r.bytes))).setPort port (fun u => { u with
          txq := rest
          jobs := u.jobs.map (fun (j : Nat × PortJob) => (j.1 - 1, j.2)) })).portJobs
            port).resetStep.standbyStep.prbsStep })) ∧
  (∀ (s : State) (dt : Nat) (port : Port) (m : Module), m = s.m.elapse dt →
    exec (.uartBreakEnd dt port) s = .next { s with
      m := if (m.port port).brk.isSome = true then (m.setPort port (fun u => { u with brk := none })).portJobs port
        else m }) ∧
  (∀ (s : State) (dt : Nat) (found : BistFound) (m : Module), m = s.m.elapse dt →
    (m.diag.bist = none → exec (.bistDone dt found) s = .next { s with m := m }) ∧
    (∀ f target select x, m.diag.bist = some (f, target, select) → target ≠ 4 → m.coresUp = true →
      m.testRan target select = true →
      x = (({ m with diag := { m.diag with bist := none }, free := m.free + 38 * m.variant.slices }).afterTest
        target select).final f stOk 0 (m.bistPayload target select found) →
      exec (.bistDone dt found) s = .next { s with
        m := if target = 2 then
            x.each ((m.memFaults target select found).map (fun f => f.slice)).eraseDups (fun n m => m.sliceReset n true)
          else x }) ∧
    (∀ f target select, m.diag.bist = some (f, target, select) → target ≠ 4 →
      (m.coresUp = false ∨ m.testRan target select = false) →
      exec (.bistDone dt found) s = .next { s with m := m }) ∧
    (∀ f select, m.diag.bist = some (f, 4, select) →
      exec (.bistDone dt found) s = .next { s with
        m := if m.stage = .vault then m.fullDdrDone found else m })) ∧
  (∀ (m : Module) (select : Word16), m.afterTest 0 select =
    { m with win := { m.win with tills := m.win.tills.filter (fun e => decide (e.1 ≤ 1)) } }) ∧
  (∀ (s : State) (dt : Nat) (m : Module), m = s.m.elapse dt →
    exec (.vaultScrub dt) s = .next { s with m := m })

/-! ### The whole block -/

/-- A step carries out the command at the front of the queue with the queue's rest; on an empty queue the block idles,
which is the model's choice (log 1). -/
def Obligations.StepRunsFront : Prop :=
  (∀ (c : Instr) (rest : List Instr) (m : Module), step ⟨c :: rest, m⟩ = exec c ⟨rest, m⟩) ∧
  (∀ m : Module, step ⟨[], m⟩ = .next ⟨[], m⟩)

/-- Every row answers a next state or, where it names a slice, channel or lane that the variant lacks, a fault;
nothing is refused, no row touches the queue, and at a UM-384 every well-formed row answers a next state (log 11). -/
def Obligations.RowsAnswer : Prop :=
  (∀ (c : Instr) (s : State) (r : Refusal), exec c s ≠ .refused r) ∧
  (∀ (c : Instr) (s : State) (f : Fault), exec c s = .fault f →
    (∃ n, f = .noSuchSlice n ∧ s.m.variant.slices ≤ n) ∨ (∃ ch, f = .noSuchChannel ch ∧ s.m.variant.channels ≤ ch) ∨
      (∃ l, f = .noSuchLane l ∧ s.m.variant.fits l = false)) ∧
  (∀ (c : Instr) (s t : State), exec c s = .next t → t.pending = s.pending) ∧
  (∀ (c : Instr) (s : State), s.m.variant = .um384 → wellFormed c = true → ∃ t, exec c s = .next t)

/-- At reset every switch is open, VITAL-OK open, every till closed, the passbook's codes and the window's bytes 0,
nothing queued, no key, no configuration, no fault record; the tables are canonical and VITAL-OK safe (R20, R48, R62,
R64, R102, R114). That the module starts unpowered and as delivered, and that bytes read 0, is the model's choice (log
2, log 4). Where it goes beyond the rules, it states the model's own readings: log 3. -/
def Obligations.ResetState : Prop :=
  State.reset.pending = [] ∧ State.reset.m.stage = .unpowered ∧ Safe State.reset.m ∧ VitalSafe State.reset.m ∧
  State.reset.m.prov.toggling = false ∧ State.reset.m.prov.hold = true ∧ State.reset.m.prov.records = [] ∧
  (∀ ch, (State.reset.m.chan ch).closed = false ∧ (State.reset.m.chan ch).cmd = none) ∧
  (∀ t, State.reset.m.till t = Till.closed) ∧ (∀ k, State.reset.m.win.code k = 0) ∧
  (∀ a, Memory.read State.reset.m.win.mem a = 0) ∧ State.reset.m.win.attached = false ∧
  State.reset.m.vault.config = none ∧ State.reset.m.vault.current = none ∧ State.reset.m.clk.tracker = .free ∧
  (∀ n, (State.reset.m.slice n).loaded = false ∧ (State.reset.m.ownOf n).epoch = 0) ∧
  (∀ l, (State.reset.m.lane l).state = 0) ∧ State.reset.m.upd.session.phase = .idle ∧ State.reset.m.ent.state = 0 ∧
  State.reset.m.pow.ledger = 0 ∧ State.reset.m.tel = Teller.reset

/-- A packet's bytes are laid out as R132 gives its header, its CRC covers the whole packet with the CRC bytes zero,
the packet so built is well formed, and reading the bytes gives the packet back (R132, R133). -/
def Obligations.PacketLayout : Prop :=
  ∀ (code : Word16) (p : Packet), p.params.length ≤ 65504 →
    fieldAt (p.bytes code) 0 2 = code.toNat ∧ fieldAt (p.bytes code) 2 2 = p.flags.toNat ∧
    fieldAt (p.bytes code) 4 4 = p.tag.toNat ∧ fieldAt (p.bytes code) 8 1 = p.target.toNat ∧
    fieldAt (p.bytes code) 9 1 = 0 ∧ fieldAt (p.bytes code) 0xA 2 = p.till.toNat ∧
    fieldAt (p.bytes code) 0xC 4 = p.params.length ∧ fieldAt (p.bytes code) 0x10 2 = p.execAngle.toNat ∧
    fieldAt (p.bytes code) 0x12 4 = p.execCycle.toNat ∧ fieldAt (p.bytes code) 0x16 2 = 0 ∧
    fieldAt (p.bytes code) 0x18 4 =
      (crc32c ((p.bytes code).take 0x18 ++ [0, 0, 0, 0] ++ (p.bytes code).drop 0x1C)).toNat ∧
    fieldAt (p.bytes code) 0x1C 4 = 0 ∧ (p.bytes code).drop 32 = p.params ∧
    (p.bytes code).length = 32 + p.params.length ∧ wellFormedBytes (p.bytes code) = true ∧
    readPacket p.path (p.bytes code) = (code, p)

/-- A reply's 32-byte header, as R140 gives it, with the payload behind it. -/
def Obligations.ReplyLayout : Prop :=
  ∀ r : Reply, r.payload.length ≤ 4064 →
    fieldAt r.bytes 0 2 = r.opcode.toNat ∧ fieldAt r.bytes 2 2 = r.rflags.toNat ∧ fieldAt r.bytes 4 4 = r.tag.toNat ∧
    fieldAt r.bytes 8 1 = r.position.toNat ∧ fieldAt r.bytes 9 1 = 0 ∧ fieldAt r.bytes 0xA 2 = r.status.toNat ∧
    fieldAt r.bytes 0xC 4 = r.payload.length ∧ fieldAt r.bytes 0x10 2 = r.hubEpoch.toNat ∧
    fieldAt r.bytes 0x12 2 = r.detail.toNat ∧ fieldAt r.bytes 0x14 5 = r.cycle.toNat ∧
    fieldAt r.bytes 0x19 2 = r.angle.toNat ∧ fieldAt r.bytes 0x1B 1 = 0 ∧
    fieldAt r.bytes 0x1C 4 = (crc32c (r.bytes.take 0x1C ++ [0, 0, 0, 0] ++ r.bytes.drop 0x20)).toNat ∧
    r.bytes.drop 32 = r.payload ∧ r.bytes.length = 32 + r.payload.length

/-- The execute-at cycle is the one value in R136's range whose low 32 bits are EXEC_CYCLE, judged on the clock at the
packet's turn (R136); in time, late or refused, and an untimed command 1,024 au after it is taken (R137). -/
def Obligations.ExecuteAt : Prop :=
  (∀ (now : Nat) (x : Word32) (c : Int), c = rebuild now x ↔
    c % 4294967296 = x.toNat ∧ (now : Int) - 2147483648 ≤ c ∧ c ≤ (now : Int) + 2147483647) ∧
  (∀ (k : Clock) (p : Packet) (due : Int), p.timed = true →
    due = rebuild k.cycle.toNat p.execCycle * 65536 + p.execAngle.toNat →
    (k.onTime (due - 1024) = true → k.execAt p = some (due.toNat, false)) ∧
    (k.onTime (due - 1024) = false → p.lateOk = false → k.execAt p = none) ∧
    (k.onTime (due - 1024) = false → p.lateOk = true → k.onTime (due + 65536) = true →
      k.execAt p = some (k.cycle.toNat * 65536 + k.angle.toNat + 1024, true)) ∧
    (k.onTime (due - 1024) = false → p.lateOk = true → k.onTime (due + 65536) = false → k.execAt p = none)) ∧
  (∀ (k : Clock) (p : Packet), p.timed = false →
    k.execAt p = some (k.cycle.toNat * 65536 + k.angle.toNat + 1024, false)) ∧
  (∀ (m : Module) (op : Op) (p : Packet), m.clk.execAt p = none → m.headerCheck op p ≠ none)

/-- P3 work is admitted exactly when the ledger state is NORMAL, the energy suffices while ON_BACKUP, and the hub and
every slice that the unit uses keep 10.00 K of headroom; while ON_MAINS the energy condition holds (R318). -/
def Obligations.P3Admission : Prop :=
  (∀ (m : Module) (cost : Nat) (slices : List Nat), m.admits cost slices = true ↔
    m.pow.ledger = 0 ∧ (m.pow.onBackup = true → cost + m.items.p3Reserve.toNat ≤ m.pow.account.toNat) ∧
      1000 ≤ 10500 - m.pow.hubTemp ∧ ∀ n ∈ slices, 1000 ≤ 12500 - (m.slice n).tEst)

/-- A break on MAINT whose LAST_BREAK_LPO is 7,680 or more returns MAINT to its default settings at the break's end, a
shorter one and any break on DROP leave the settings (R427). That the row stands at the break's end is the model's:
log 1. -/
def Obligations.LongBreak : Prop :=
  ∀ (s : State) (dt bits lpo : Nat) (m : Module), m = s.m.elapse dt →
    (m.hears .maint = true → ∃ t, exec (.serialBreak dt .maint bits lpo) s = .next { s with m := t } ∧
      t.maint.lastLpo = BitVec.ofNat 32 (min lpo 4294967295) ∧
      (7680 ≤ t.maint.lastLpo.toNat → t.maint.oversample = 16 ∧ t.maint.divider = 26 ∧ t.maint.addr9 = false ∧
        t.maint.loopback = false ∧ t.maint.echo = false ∧ t.maint.address = 0 ∧ t.maint.mask = 0 ∧ t.maint.sleep = 0) ∧
      (t.maint.lastLpo.toNat < 7680 → t.maint.oversample = m.maint.oversample ∧ t.maint.divider = m.maint.divider ∧
        t.maint.addr9 = m.maint.addr9 ∧ t.maint.loopback = m.maint.loopback ∧ t.maint.echo = m.maint.echo ∧
        t.maint.address = m.maint.address ∧ t.maint.mask = m.maint.mask ∧ t.maint.sleep = m.maint.sleep) ∧
      t.drop = m.drop) ∧
    (m.hears .drop = true → ∃ t, exec (.serialBreak dt .drop bits lpo) s = .next { s with m := t } ∧
      t.drop.oversample = m.drop.oversample ∧ t.drop.divider = m.drop.divider ∧ t.drop.addr9 = m.drop.addr9 ∧
      t.drop.loopback = m.drop.loopback ∧ t.drop.echo = m.drop.echo ∧ t.drop.address = m.drop.address ∧
      t.drop.mask = m.drop.mask ∧ t.drop.sleep = m.drop.sleep ∧ t.maint = m.maint)

/-- Whatever command comes, the window's memory, passbook and till table keep their canonical form. Where it goes
beyond the rules, it states the model's own readings: log 4. -/
def Obligations.TablesStayCanonical : Prop :=
  ∀ s t : State, Safe s.m → step s = .next t → Safe t.m

/-- Whatever command comes, VITAL-OK is driven closed only while no condition of R225 holds and R51 has been met since
the last hub reset. Where it goes beyond the rules, it states the model's own readings: log 40, 41. -/
def Obligations.VitalStaysSafe : Prop :=
  ∀ s t : State, VitalSafe s.m → step s = .next t → VitalSafe t.m

/-- Where the command of a row comes under the conditions that its rule names, it completes with the effect of that
rule: the rows of the host window, of a slice's crossings and trips, of plan entries, switches and VITAL-OK, of the
tracker and the cycle, of the supplies and the ledger, of metering, and of the link-control frames below. Where it
goes beyond the rules, it states the model's own readings: log 13, 18, 25, 33, 34, 38, 40, 42, 44, 58. -/
def Obligations.CommandsTakeEffect : Prop :=
  ∀ (s : State) (dt : Nat) (m : Module), m = s.m.elapse dt →
  -- the host window
  ((∀ (x : Module) (first count : Word16) (expect new : BitVec 2) (seq : Word16), x = m.nextUnit → x.coresUp = true →
     Tbl.wf 0 x.win.passbook = true → 2 ≤ first.toNat → 0 < count.toNat → first.toNat + count.toNat ≤ 16128 →
     ((expect = 0 ∧ new = 1) ∨ (expect = 1 ∧ new = 0) ∨ (expect = 1 ∧ new = 2)) →
     (∀ k, first.toNat ≤ k → k < first.toNat + count.toNat →
       x.win.code k = expect ∧ ∀ b ∈ x.pagesInUse, touches b.1 b.2 k = false) →
     ∃ w, exec (.pxRequest dt first count expect new seq) s = .next { s with m := { x with win := w } } ∧
       w.pxSeqEcho = seq ∧ w.pxCode = 0 ∧
       ∀ k, first.toNat ≤ k → k < first.toNat + count.toNat → w.code k = new) ∧
   (∀ (first : Nat) (data : List Byte), m.coresUp = true → Tbl.wf false m.win.pendingBits = true →
     ∃ l, exec (.pendingClear dt first data) s = .next { s with m := { m with win := { m.win with pendingBits := l } } } ∧
       ∀ i, 8 * first ≤ i → (data.getD (i / 8 - first) 0).getLsbD (i % 8) = true → Tbl.get false l i = false) ∧
   (∀ (x : Module) (offset : Word32) (data : List Byte), x = m.nextUnit → x.coresUp = true →
     Memory.wf x.win.mem = true → 0 < data.length → offset.toNat % 4096 + data.length ≤ 4096 →
     offset.toNat + data.length ≤ 0x4000000 → 4096 ≤ offset.toNat → x.win.code (offset.toNat / 4096) = 1 →
     ∃ w, exec (.wr dt offset data true) s = .next { s with m := { x with win := w } } ∧ w.applied = x.win.applied + 1 ∧
       ∀ i, i < data.length → Memory.read w.mem (offset.toNat + i) = data.getD i 0) ∧
   (∀ (x : Module) (tag : Nat) (offset : Word32) (len : Word16), x = m.nextUnit → x.coresUp = true → 0 < len.toNat →
     offset.toNat % 4096 + len.toNat ≤ 4096 → offset.toNat + len.toNat ≤ 0x4000000 → 8192 ≤ offset.toNat →
     x.win.code (offset.toNat / 4096) ≠ 3 →
     (∀ e ∈ x.win.eccWords, offset.toNat + len.toNat ≤ 8 * e.1 ∨ 8 * e.1 + 8 ≤ offset.toNat) →
     exec (.rd dt tag offset len true) s = .next { s with
       m := { x with out := x.out ++
         [.rdc tag 0 offset.toNat len.toNat (Memory.reads x.win.mem offset.toNat len.toNat) x.win.applied] } }) ∧
   (m.coresUp = true → exec (.hostHello dt true) s = .next { s with
     m := { m with win := { m.win with enumerated := true }, out := m.out ++ [.hHello] } })) ∧
  -- frames of a slice
  (∀ (n stamp : Nat) (hdr : SliceHdr) (rising : Bool) (pos : Option Nat) (x : Module), n < m.variant.slices →
     m.stage ≠ .unpowered → m.stage ≠ .rails → (m.slice n).failed = false → hdr.good = true →
     hdr.epoch = (m.slice n).epoch → hdr.epoch ≠ 0 → Tbl.wf HubSlice.reset m.hub = true →
     x = (m.setSlice n (fun h => { h with
       stale := 0, lastFrame := m.clk.turn, rxSeq := hdr.seq
       gaps := if hdr.seq = (m.slice n).rxSeq + 1 then h.gaps else h.gaps + 1 })).setFrames n
         (ackFrames m.clk.tick.toNat hdr.ack (m.slice n).unacked) →
     exec (.trip dt n hdr pos) s = .next { s with m := x } ∧
     exec (.xing dt n hdr rising stamp) s = .next { s with m := x.cross n rising (m.clk.tick.toNat - stamp) } ∧
     (n ≠ m.clk.ref → (x.slice n).bus.chained rising (m.clk.tick.toNat - (m.clk.tick.toNat - stamp)) = false →
       exec (.xing dt n hdr rising stamp) s = .next { s with m := x.setSlice n (fun h => { h with
         bus := if rising then h.bus.rise (m.clk.tick.toNat - (m.clk.tick.toNat - stamp))
           else { h.bus with lastNeg := some (m.clk.tick.toNat - (m.clk.tick.toNat - stamp)) } }) })) ∧
  -- plan entries and switches
  ((∀ (id : Nat) (e : Plan), m.lamps.plans.find? (fun e => e.id == id) = some e →
     (e.sent = false → ∃ t, exec (.planDispatch dt id) s = .next { s with m := t } ∧
       t.lamps = { m.lamps with plans := m.lamps.plans.map (fun (x : Plan) =>
         if x.id = e.id then { x with sent := true } else x) }) ∧
     (e.flash = none → e.till = none → e.due ≤ m.clk.cycle.toNat * 65536 + m.clk.angle.toNat →
       (∀ x ∈ m.lamps.plans, e.due < x.due ∨ (e.due = x.due ∧ e.id ≤ x.id)) →
       exec (.planEntryAction dt id) s = .next { s with
         m := e.acts.foldl (fun c a => c.act
             (m.clk.turnAgo (m.clk.cycle.toNat * 65536 + m.clk.angle.toNat - e.due)) e.held a)
           { m with lamps := { m.lamps with plans := m.lamps.plans.filter (fun x => x.id != e.id) } } })) ∧
   (∀ (ch : Nat) (x : Shown) (from_ : Nat), ch < m.variant.channels → (m.chan ch).zc = [(x, from_)] →
     (m.chan ch).edge = [] → Tbl.wf Chan.reset m.lamps.chans = true → from_ + 36864 ≤ m.clk.turn →
     m.fallbackFor ch = 0 → (m.chan ch).fb = 0 →
     ∃ t, exec (.zeroCrossTimeout dt ch) s = .next { s with m := t } ∧ (t.chan ch).zc = [] ∧ (t.chan ch).cmd = some x) ∧
   (m.clk.half ≠ m.lamps.half →
     ∃ t, exec (.flashBoundary dt) s = .next { s with m := t } ∧ t.lamps.half = m.clk.half) ∧
   (∀ ch, ch < m.variant.channels → (m.shown ch).1.pattern = .dim → m.dimsAsSteady ch = false → m.dimNow ch = true →
     m.mayClose ch = true → Tbl.wf Chan.reset m.lamps.chans = true →
     ∃ t, exec (.dimFiring dt ch) s = .next { s with m := t } ∧ (t.chan ch).closed = true) ∧
   (∀ n, n < m.variant.slices → m.stage ≠ .unpowered → m.crossPoint n = true → (m.slice n).startDue = false →
     exec (.fallbackApply dt n) s = .next { s with m := (sliceChans n).foldl (fun x ch => x.applyFallback ch) m }) ∧
   (m.prov.toggling = false → m.vitalCause = 0 → (m.prov.hold = false ∨ m.startMet = true) →
     m.prov.lastToggle + 500000 ≤ m.clk.tick.toNat → m.coresUp = true → m.crossPoint m.clk.ref = true →
     ∃ t, exec (.vitalOkResume dt) s = .next { s with m := t } ∧ t.prov.toggling = true ∧ t.prov.hold = false) ∧
   (∀ ch peak, ch < m.variant.channels → (m.chan ch).closed = true → (m.chan ch).inrush = none → 8000 < peak →
     (m.chan ch).tripRun < 2 → Tbl.wf Chan.reset m.lamps.chans = true →
     ∃ t, exec (.overcurrentTrip dt ch peak) s = .next { s with m := t } ∧ (t.chan ch).closed = false ∧
       (t.chan ch).tripOpen = true ∧ (t.chan ch).tripRun = (m.chan ch).tripRun + 1) ∧
   (∀ n ch, n < m.variant.slices → ch / 16 = n → Tbl.wf Chan.reset m.lamps.chans = true →
     Tbl.wf (OwnSlice.reset 1) m.own = true →
     ∃ t, exec (.thermalCut dt n) s = .next { s with m := t } ∧ (t.chan ch).closed = false ∧ (t.chan ch).cut = true) ∧
   (∀ ch t0, ch < m.variant.channels → (m.chan ch).inrush = some t0 → t0 + 1000000 ≤ m.clk.tick.toNat →
     exec (.inrushWindowEnd dt ch) s = .next { s with m := m.setChan ch (fun c => { c with inrush := none }) })) ∧
  -- learning and open-wire tests
  ((∀ ch, ch < m.variant.channels → m.reported ch = .steady → (m.chan ch).settle + m.busAngle (ch / 16) ≤ m.clk.turn →
     (m.slice (ch / 16)).loaded = true → (m.slice (ch / 16)).failed = false → m.busAngle (ch / 16) < 512 →
     exec (.swatchLearnBegin dt ch) s = .next { s with
       m := { m with prov := { m.prov with learns := m.prov.learns.map (fun (j : LearnJob) =>
         { j with chans := j.chans.map (fun c =>
             if c.1 = ch && c.2.2.isNone then (c.1, true, c.2.2) else c) }) } } }) ∧
   (∀ (ch cycles : Nat) (sums : List BinSum) (bins : List SwBin), ch < m.variant.channels →
     m.learnCycles ch = some cycles → (∀ b, b < 128 → (m.gathered ch b).count = 2 * cycles) →
     sums = (List.range 128).map (m.gathered ch) →
     bins = sums.map (learnBin m.free (Tbl.get (20, 10, 0, 0) m.live.tolerance ch).1
       (Tbl.get (20, 10, 0, 0) m.live.tolerance ch).2.1) → m.learnResult ch sums bins = 0 →
     exec (.swatchLearnDone dt ch) s = .next { s with
       m := (((({ m with free := m.free + 1 }).changeItems (fun i => { i with
           swatch := Tbl.set (Swatch.mk .none []) i.swatch ch ⟨(m.busOf ch).phase.kind, bins⟩ })).setLearning ch
             (fun c => (c.1, c.2.1, some 0))).dropSamples (fun x => x == ch)).settleLearns }) ∧
   (∀ (ch : Nat) (up down : Nat × Nat), ch < m.variant.channels → (m.slice (ch / 16)).wire = some (ch % 16, up, down) →
     up.1 ≠ 0 → down.1 ≠ 0 → up.2 * down.1 ≤ down.2 * up.1 + 1311 * (up.1 * down.1) →
     exec (.openWireChannelTest dt ch) s = .next { s with
       m := ((((m.setSlice (ch / 16) (fun h => { h with wire := none })).setWire ch 0).endFault ch 4
         0)).settleWires.startWire (ch / 16) })) ∧
  -- the tracker and the cycle
  (((m.clk.tracker = .locking ∨ m.clk.tracker = .locked) → 4096 < m.clk.sincePrediction.toNat → m.clk.lastRef = none →
     ∃ t, exec (.flywheelEntry dt) s = .next { s with m := t } ∧ t.clk.tracker = .flywheel ∧
       t.clk.flyFrom = m.clk.turn) ∧
   (m.clk.tracker = .flywheel → m.clk.flyFrom + 64 * 65536 ≤ m.clk.turn → m.items.refAlternate < m.variant.slices →
     (m.slice m.items.refAlternate).bus.phase.settled = true →
     exec (.alternateTakeover dt) s = .next { s with m := { m with clk := { m.clk with
       tracker := .locking, altRef := true, ref := m.items.refAlternate
       altOffset := (m.slice m.items.refAlternate).bus.phase.pos, lockRun := 0, fly := []
       lastRef := (m.slice m.items.refAlternate).bus.lastPos } } }) ∧
   (∀ stamp, m.clk.altRef = true → (m.slice m.items.refPrimary).bus.phase.settled = true →
     (m.slice m.items.refPrimary).bus.settledAt + 64 * 65536 ≤ m.clk.turn →
     (m.clk.tracker = .locking ∨ m.clk.tracker = .locked ∨ m.clk.tracker = .flywheel) →
     freqOk ((m.slice m.items.refPrimary).bus.gapAt stamp) = true →
     exec (.primaryReturn dt stamp) s = .next { s with
       m := ({ m with clk := { m.clk with
         ref := m.items.refPrimary, altRef := false, takePrimary := false } }).takeSource
           (m.clk.tick.toNat - stamp) ((m.slice m.items.refPrimary).bus.gapAt stamp) false }) ∧
   (m.clk.tracker = .domain → 64 ≤ m.clk.headerGap →
     ∃ t, exec (.domainHoldEntry dt) s = .next { s with m := t } ∧ t.clk.tracker = .domainHold ∧
       t.clk.cycle = m.clk.cycle ∧ t.clk.angle = m.clk.angle) ∧
   (m.clk.angle = 65535 → m.clk.cycleLen.toNat ≤ m.clk.frac → m.upd.session.unwindDue = false →
     exec (.cycleStart dt) s = .next { s with m := ({ m with clk := m.clk.wrap }).cycleBegins }) ∧
   (m.coresUp = true → exec (.cycleCheckpoint dt) s = .next { s with
     m := { m with vault := { m.vault with checkpoint := some m.clk.cycle } } }) ∧
   (∀ means : List Int, m.stage ≠ .unpowered → m.stage ≠ .holdup → m.clk.turn / 32768 ≠ m.clk.halfDone →
     m.diag.bist = none →
     ∃ t, exec (.halfCycleBoundary dt means) s = .next { s with m := t } ∧ t.clk.halfDone = m.clk.turn / 32768 ∧
       t.clk.headerGap = m.clk.headerGap + 1 ∧ t.upd.wefts = m.upd.wefts + 1)) ∧
  -- supplies, the ledger and heat
  ((m.stage ≠ .unpowered → m.stage ≠ .holdup →
     (∀ dv : Word16, m.stage ≠ .standby → m.pow.mains = false → exec (.mainsValid dt dv) s = .next { s with
       m := ({ m with pow := { m.pow with
         mains := true, mainsSince := m.clk.tick.toNat, mainsDv := dv } }).supplyChange 2 }) ∧
     (∀ dv : Word16, m.pow.mains = true → m.pow.backup = true → exec (.mainsInvalid dt dv) s = .next { s with
       m := (({ m with pow := { m.pow with mains := false, mainsDv := dv } }).supplyChange
         1).toBackup.waitedStandby }) ∧
     (∀ cv : Word16, m.pow.backup = false → m.pow.mains = true → m.pow.mainsSince + 200000000 ≤ m.clk.tick.toNat →
       exec (.backupValid dt cv) s = .next { s with
         m := ({ m with pow := { m.pow with backup := true, backupCv := cv } }).supplyChange 4 }) ∧
     (∀ cv : Word16, m.pow.backup = true → m.pow.mains = true → exec (.backupInvalid dt cv) s = .next { s with
       m := (({ m with pow := { m.pow with backup := false, backupCv := cv } }).supplyChange 3).toMains }) ∧
     (m.pow.mains = true → m.pow.mainsSince + 200000000 ≤ m.clk.tick.toNat → m.pow.onBackup = true →
       exec (.toMains dt) s = .next { s with
         m := (({ m with pow := { m.pow with onBackup := false } }).supplyChange 5).judgeLedger 3 }) ∧
     (∀ groats : Word32, m.pow.onBackup = true → groats.toNat < m.pow.account.toNat → m.coresUp = true →
       exec (.backupIntegrate dt groats) s = .next { s with
         m := ({ m with pow := { m.pow with account := m.pow.account - groats } }).judgeLedger 2 }) ∧
     (m.pow.onBackup = true → exec (.backupCheckpoint dt) s = .next { s with
       m := { m with vault := { m.vault with backupPoint := some m.pow.account } } }) ∧
     (m.pow.mains = true → m.pow.onBackup = false → m.pow.mainsSince + 1440000000000 ≤ m.clk.tick.toNat →
       exec (.backupRefill dt) s = .next { s with m := { m with pow := { m.pow with account := m.items.capacity } } }) ∧
     (∀ groats : Word32, ∃ t, exec (.reserveArmed dt groats) s = .next { s with m := t } ∧
       t.pow.holdup.toNat = min 24000 groats.toNat ∧ (t.pow.armed = true ↔ 8000 ≤ groats.toNat))) ∧
   (∀ (n : Nat) (hub : Int), n < m.variant.slices → m.coresUp = true → (m.slice n).loaded = true →
     (m.slice n).modelAt ≠ m.clk.wraps → Tbl.wf HubSlice.reset m.hub = true →
     ∃ t, exec (.thermalModel dt n hub) s = .next { s with m := t } ∧ t.pow.hubTemp = hub ∧
       (t.slice n).modelAt = m.clk.wraps ∧
       (t.slice n).stretch = stretchOf (m.slice n).stretch (12500 - (t.slice n).tEst)) ∧
   (m.coresUp = true → m.pow.ledger = 2 →
     m.pow.countFrom + 100000000 * m.items.standbyAfter.toNat ≤ m.clk.tick.toNat →
     (m.pow.onBackup = true → m.pow.mains = false →
       exec (.standbyCountdown dt) s = .next { s with m := m.enterStandby 5 }) ∧
     ((m.pow.onBackup = false ∨ m.pow.mains = true) → exec (.standbyCountdown dt) s = .next { s with
       m := { m with pow := { m.pow with countDone := true } } })) ∧
   (m.stage = .standby → exec (.standbyCheckpoint dt) s = .next { s with
     m := { m with vault := { m.vault with checkpoint := some m.clk.cycle } } })) ∧
  -- metering
  (m.coresUp = true →
     (∀ b ticks tariff, m.meter.ended = some (b, ticks, tariff) →
       b + 256 ≤ m.clk.cycle.toNat * 65536 + m.clk.angle.toNat →
       ∃ t, exec (.halfCycleCommit dt) s = .next { s with m := t } ∧ t.meter.committed = b ∧
         t.meter.lastTariff = tariff ∧ t.meter.ended = none) ∧
     ((if m.pow.ledger ≠ 0 ∨ m.hubHeat < 0 then 2048 else 256) ≤ m.meter.sincePass →
       exec (.persistencePass dt) s = .next { s with m := m.pass }) ∧
     (∀ (t : Meter) (c : Nat) (fl : Byte), m.variant.metering = true →
       m.meter.closeInterval (m.meter.committed / 65536) = some (t, c, some fl) →
       exec (.demandClose dt) s = .next { s with
         m := { m with meter := t.recordAt t.committed (fun b => b.demand t t.lastTariff fl) } }) ∧
     (∀ (t : Meter) (c x : Nat), m.variant.metering = true →
       m.meter.applyTariffs m.clk.cycle.toNat = some (t, c, x) →
       ∃ u, exec (.tariffChange dt) s = .next { s with m := { m with meter := u } } ∧ u.counters = t.counters)) ∧
  -- lanes and link control
  ((∀ (l : Lane) (fec : Bool) (side : Side), m.variant.fits l = true → m.coresUp = true → fec = m.items.ringFec →
     laneSide l = some side → (m.lane l).state ≠ 2 → (m.lane l).state ≠ 3 → (m.lane l).state ≠ 4 →
     m.ring.e1w1Idle = false →
     exec (.linkUp dt l fec) s = .next { s with
       m := ((m.setLane l (fun x => { x with
         state := 2, fec := fec, delay := none, echoes := [], train := none })).measure l).beginAuth side }) ∧
   (∀ l : Lane, m.variant.fits l = true → m.stage ≠ .unpowered → m.stage ≠ .holdup → (m.lane l).state ≠ 0 →
     (m.lane l).state ≠ 4 →
     exec (.laneLockLoss dt l) s = .next { s with
       m := ((m.setLane l (fun x => { x with
         state := 0, losses := satInc x.losses, delay := none, echoes := [] })).trainLane l).linkGone l }) ∧
   (∀ side : Side, m.variant.hasRing = true → m.stage = .ready → (m.span side).broken = true →
     m.spanUsable side = true → (m.peerFlags side).getLsbD 1 = true → m.clk.angle.toNat % 32768 < 2048 →
     ∃ t, exec (.unwrap dt side) s = .next { s with m := t } ∧ (t.span side).broken = false) ∧
   (∀ (l : Lane) (tick : Nat), m.variant.fits l = true → m.ringUp = true → (m.lane l).state = 2 → l ≠ .h →
     exec (.echo dt l tick) s = .next { s with m := { m with
       free := m.free + 1
       out := m.out ++ [Out.link l 0x43 (u64 tick ++ u32 (Config.freeInt m.free).toNat)] } }) ∧
   (∀ (l : Lane) (side : Side) (tick turn : Nat), m.variant.fits l = true → m.ringUp = true → (m.lane l).state = 2 →
     laneSide l = some side → (m.lane l).delay = none → 7 ≤ (m.lane l).echoes.length →
     median8 (5 * (m.clk.tick.toNat - tick - turn) :: (m.lane l).echoes) ≤ 1000 →
     exec (.echoReply dt l tick turn) s = .next { s with
       m := m.setLane l (fun x => { x with
         echoes := 5 * (m.clk.tick.toNat - tick - turn) :: (m.lane l).echoes
         delay := some (median8 (5 * (m.clk.tick.toNat - tick - turn) :: (m.lane l).echoes)) }) }) ∧
   (∀ (hdr : LinkHdr) (side : Side) (f : Module), m.ringUp = true → laneSide (farLane hdr.lane) = some side →
     (m.lane (farLane hdr.lane)).state = 2 → f = m.seeEpoch (m.peerPosition side).toNat hdr.srcEpoch →
     (∀ (weft : Word32) (slot loop : Byte), f.ring.lastNotice = none →
       exec (.slotNotice dt hdr weft slot loop) s = .next { s with
         m := { f with ring := { f.ring with
           slotViolations := satInc f.ring.slotViolations, lastNotice := some weft } } }) ∧
     (∃ t, exec (.escrowAck dt hdr f.revision) s = .next { s with m := t } ∧
       (side = .east → t.ring.escrowE = true) ∧ (side = .west → t.ring.escrowW = true))))
end

