-- ==== Sys2Proof/Laws/Codec.lean ====
section
/-! SUPPORT. Little-endian fields: what is written is read back, field by field of a layout. -/

namespace Sys2Proof.Machine
open Sys2Proof

theorem length_leBytes (n x : Nat) : (leBytes n x).length = n := by
  induction n generalizing x with
  | zero => rfl
  | succ n ih => simp only [leBytes, List.length_cons, ih]

/-- Bytes written little-endian spell the number they were written from, cut to their width (R14). -/
theorem leNat_leBytes (n x : Nat) : leNat (leBytes n x) = x % 256 ^ n := by
  induction n generalizing x with
  | zero => simp only [leBytes, leNat, Nat.pow_zero, Nat.mod_one]
  | succ n ih =>
    have hb : (BitVec.ofNat 8 x).toNat = x % 256 := BitVec.toNat_ofNat x 8
    rw [leBytes, leNat, ih, hb, Nat.pow_succ', Nat.mod_mul]

/-- A field behind a part of known length is a field of the rest. -/
theorem fieldAt_skip {a b : List Byte} {k o n : Nat} (h : a.length = k) : fieldAt (a ++ b) (k + o) n = fieldAt b o n := by
  subst h; unfold fieldAt; rw [List.drop_length_add_append]

/-- The field at the front. -/
theorem fieldAt_here {b : List Byte} {n x : Nat} : fieldAt (leBytes n x ++ b) 0 n = x % 256 ^ n := by
  unfold fieldAt
  rw [List.drop_zero, List.take_append_of_le_length (by rw [length_leBytes]), List.take_of_length_le (by rw [length_leBytes]),
    leNat_leBytes]

/-- A register's value is written and read back whole. -/
theorem fieldAt_bitVec {b : List Byte} {w : Nat} (n : Nat) (x : BitVec w) (h : w = 8 * n) :
    fieldAt (leBytes n x.toNat ++ b) 0 n = x.toNat := by
  rw [fieldAt_here]
  refine Nat.mod_eq_of_lt (Nat.lt_of_lt_of_eq x.isLt ?_)
  rw [h, Nat.pow_mul]

end Sys2Proof.Machine
end

