-- ==== Sys2Proof/Laws/Table.lean ====
section
/-! SUPPORT. Sparse tables: what an entry reads as after a change, and that every operation keeps the canonical form; the
same for the window's memory. -/

namespace Sys2Proof.Tbl
open Sys2Proof

variable {α : Type}

theorem get_insert (d : α) (t : Tbl α) (k k' : Nat) (v : α) :
    get d (insert t k v) k' = if k' = k then v else get d t k' := by
  induction t with
  | nil => simp only [insert, get, eq_comm]
  | cons e rest ih =>
    obtain ⟨j, w⟩ := e
    simp only [insert]
    by_cases h1 : j = k
    · rw [if_pos h1]; subst h1; simp only [get]
      by_cases h : k' = j
      · rw [if_pos h, if_pos h.symm]
      · rw [if_neg h, if_neg (Ne.symm h), if_neg (Ne.symm h)]
    · rw [if_neg h1]
      by_cases h2 : k < j
      · rw [if_pos h2]; simp only [get]
        by_cases h : k' = k
        · rw [if_pos h, if_pos h.symm]
        · rw [if_neg h, if_neg (Ne.symm h)]
      · rw [if_neg h2]; simp only [get, ih]
        by_cases h : k' = k
        · subst h; rw [if_neg h1, if_pos rfl, if_pos rfl]
        · rw [if_neg h, if_neg h]

variable [DecidableEq α]

theorem wfFrom_mono {d : α} {t : Tbl α} {a b : Nat} (h : wfFrom d b t = true) (hab : a ≤ b) : wfFrom d a t = true := by
  cases t with
  | nil => rfl
  | cons e rest => simp only [wfFrom, Bool.and_eq_true, decide_eq_true_eq] at h ⊢; exact ⟨⟨by omega, h.1.2⟩, h.2⟩

theorem get_below {d : α} {t : Tbl α} {b k : Nat} (h : wfFrom d b t = true) (hk : k < b) : get d t k = d := by
  induction t generalizing b with
  | nil => rfl
  | cons e rest ih =>
    simp only [wfFrom, Bool.and_eq_true, decide_eq_true_eq] at h
    simp only [get]
    rw [if_neg (by omega)]
    exact ih h.2 (by omega)

theorem get_erase_from {d : α} {t : Tbl α} {b : Nat} (h : wfFrom d b t = true) (k k' : Nat) :
    get d (erase t k) k' = if k' = k then d else get d t k' := by
  induction t generalizing b with
  | nil => simp [erase, get]
  | cons e rest ih =>
    obtain ⟨j, w⟩ := e
    simp only [wfFrom, Bool.and_eq_true, decide_eq_true_eq] at h
    simp only [erase]
    split
    · rename_i hj
      subst hj
      by_cases hk : k' = j
      · subst hk; simp only [if_true]; exact get_below h.2 (by omega)
      · simp only [get, if_neg hk, if_neg (Ne.symm hk)]
    · rename_i hj
      simp only [get, ih h.2]
      by_cases hk : k' = k
      · subst hk; rw [if_neg hj, if_pos rfl, if_pos rfl]
      · rw [if_neg hk, if_neg hk]

theorem get_erase {d : α} {t : Tbl α} (h : wf d t = true) (k k' : Nat) :
    get d (erase t k) k' = if k' = k then d else get d t k' := get_erase_from h k k'

/-- Read after write. -/
theorem get_set {d : α} {t : Tbl α} (h : wf d t = true) (k k' : Nat) (v : α) :
    get d (set d t k v) k' = if k' = k then v else get d t k' := by
  unfold set
  split
  · subst_vars; exact get_erase h k k'
  · exact get_insert d t k k' v

theorem get_modify {d : α} {t : Tbl α} (h : wf d t = true) (k k' : Nat) (f : α → α) :
    get d (modify d t k f) k' = if k' = k then f (get d t k) else get d t k' := get_set h k k' _

theorem wfFrom_erase {d : α} {t : Tbl α} {b : Nat} (h : wfFrom d b t = true) (k : Nat) : wfFrom d b (erase t k) = true := by
  induction t generalizing b with
  | nil => rfl
  | cons e rest ih =>
    obtain ⟨j, w⟩ := e
    simp only [wfFrom, Bool.and_eq_true, decide_eq_true_eq] at h
    simp only [erase]
    split
    · exact wfFrom_mono h.2 (by omega)
    · simp only [wfFrom, Bool.and_eq_true, decide_eq_true_eq]; exact ⟨h.1, ih h.2⟩

theorem wfFrom_insert {d : α} {t : Tbl α} {b k : Nat} {v : α} (h : wfFrom d b t = true) (hb : b ≤ k) (hv : v ≠ d) :
    wfFrom d b (insert t k v) = true := by
  induction t generalizing b with
  | nil => simp [insert, wfFrom, hb, hv]
  | cons e rest ih =>
    obtain ⟨j, w⟩ := e
    simp only [wfFrom, Bool.and_eq_true, decide_eq_true_eq] at h
    simp only [insert]
    split
    · subst_vars; simp only [wfFrom, Bool.and_eq_true, decide_eq_true_eq]; exact ⟨⟨hb, hv⟩, h.2⟩
    · split
      · simp only [wfFrom, Bool.and_eq_true, decide_eq_true_eq]
        exact ⟨⟨hb, hv⟩, ⟨by omega, h.1.2⟩, h.2⟩
      · simp only [wfFrom, Bool.and_eq_true, decide_eq_true_eq]; exact ⟨h.1, ih h.2 (by omega)⟩

theorem wf_erase {d : α} {t : Tbl α} (h : wf d t = true) (k : Nat) : wf d (erase t k) = true := wfFrom_erase h k

theorem wf_set {d : α} {t : Tbl α} (h : wf d t = true) (k : Nat) (v : α) : wf d (set d t k v) = true := by
  unfold set
  split
  · exact wf_erase h k
  · exact wfFrom_insert h (Nat.zero_le k) (by assumption)

theorem wf_modify {d : α} {t : Tbl α} (h : wf d t = true) (k : Nat) (f : α → α) : wf d (modify d t k f) = true :=
  wf_set h k _

theorem wf_setRange {d : α} {t : Tbl α} (h : wf d t = true) (k : Nat) (l : List α) : wf d (setRange d t k l) = true := by
  induction l generalizing t k with
  | nil => exact h
  | cons v vs ih => exact ih (wf_set h k v) (k + 1)

theorem get_setRange {d : α} {t : Tbl α} (h : wf d t = true) (k k' : Nat) (l : List α) :
    get d (setRange d t k l) k' = if k ≤ k' ∧ k' < k + l.length then l.getD (k' - k) d else get d t k' := by
  induction l generalizing t k with
  | nil => simp only [setRange, List.length_nil]; rw [if_neg (by omega)]
  | cons v vs ih =>
    simp only [setRange, ih (wf_set h k v), get_set h, List.length_cons]
    by_cases h1 : k' = k
    · subst h1; rw [if_neg (by omega), if_pos rfl, if_pos (by omega)]; simp
    · by_cases h2 : k + 1 ≤ k' ∧ k' < k + 1 + vs.length
      · rw [if_pos h2, if_pos (by omega)]
        obtain ⟨i, hi⟩ : ∃ i, k' - k = i + 1 := ⟨k' - k - 1, by omega⟩
        rw [hi, List.getD_cons_succ]; congr 1; omega
      · rw [if_neg h2, if_neg h1, if_neg (by omega)]

theorem wfFrom_filter {d : α} {t : Tbl α} {b : Nat} (h : wfFrom d b t = true) (p : Nat × α → Bool) :
    wfFrom d b (t.filter p) = true := by
  induction t generalizing b with
  | nil => rfl
  | cons e rest ih =>
    simp only [wfFrom, Bool.and_eq_true, decide_eq_true_eq] at h
    rw [List.filter_cons]
    split
    · simp only [wfFrom, Bool.and_eq_true, decide_eq_true_eq]; exact ⟨h.1, ih h.2⟩
    · exact wfFrom_mono (ih h.2) (by omega)

theorem wf_filter {d : α} {t : Tbl α} (h : wf d t = true) (p : Nat × α → Bool) : wf d (t.filter p) = true :=
  wfFrom_filter h p

theorem wfFrom_map {d : α} {t : Tbl α} {b : Nat} (h : wfFrom d b t = true) (f : Nat × α → Nat × α)
    (hf : ∀ e, e.2 ≠ d → (f e).1 = e.1 ∧ (f e).2 ≠ d) : wfFrom d b (t.map f) = true := by
  induction t generalizing b with
  | nil => rfl
  | cons e rest ih =>
    simp only [wfFrom, Bool.and_eq_true, decide_eq_true_eq] at h
    simp only [List.map, wfFrom, Bool.and_eq_true, decide_eq_true_eq, (hf e h.1.2).1]
    exact ⟨⟨h.1.1, (hf e h.1.2).2⟩, ih h.2⟩

/-- A map over the entries that keeps indices and never makes the default keeps the canonical form. -/
theorem wf_map {d : α} {t : Tbl α} (h : wf d t = true) (f : Nat × α → Nat × α)
    (hf : ∀ e, e.2 ≠ d → (f e).1 = e.1 ∧ (f e).2 ≠ d) : wf d (t.map f) = true := wfFrom_map h f hf

end Sys2Proof.Tbl

namespace Sys2Proof.Machine
open Sys2Proof

/-- The window's memory reads back what was written, and nothing else changes. -/
theorem Memory.read_write {mem : List Host.Cell} (h : Memory.wf mem = true) (a a' : Nat) (b : Byte) :
    Memory.read (Memory.write mem a b) a' = if a' = a then b else Memory.read mem a' := Tbl.get_set h a a' b

theorem Memory.read_writes {mem : List Host.Cell} (h : Memory.wf mem = true) (a a' : Nat) (bs : List Byte) :
    Memory.read (Memory.writes mem a bs) a' =
      if a ≤ a' ∧ a' < a + bs.length then bs.getD (a' - a) 0 else Memory.read mem a' := Tbl.get_setRange h a a' bs

theorem Memory.wf_write {mem : List Host.Cell} (h : Memory.wf mem = true) (a : Nat) (b : Byte) :
    Memory.wf (Memory.write mem a b) = true := Tbl.wf_set h a b

theorem Memory.wf_writes {mem : List Host.Cell} (h : Memory.wf mem = true) (a : Nat) (bs : List Byte) :
    Memory.wf (Memory.writes mem a bs) = true := Tbl.wf_setRange h a bs

end Sys2Proof.Machine
end

