-- ==== Sys2Proof/Laws/Talk.lean ====
section
/-! SUPPORT. What producing a reply or an event can change, said once: the Teller pair's queues, the entries that wait for
report buffers with their losses and tills, the ring's transmit queue and the ports' queues, and nothing else. -/

namespace Sys2Proof.Machine
open Sys2Proof

/-- `t` is `m` but for what a reply or an event touches, and the till table keeps its canonical form. -/
structure Talk (m t : Module) : Prop where
  same : t = { m with
    tel := t.tel
    win := { m.win with waiting := t.win.waiting, losses := t.win.losses, tills := t.win.tills }
    ring := { m.ring with
      txq := t.ring.txq, held := t.ring.held, heldLoss := t.ring.heldLoss }
    maint := { m.maint with txq := t.maint.txq }
    drop := { m.drop with txq := t.drop.txq } }
  wf : Tbl.wf Till.closed m.win.tills = true → Tbl.wf Till.closed t.win.tills = true

namespace Talk
variable {m t u : Module}

theorem refl (m : Module) : Talk m m := ⟨rfl, id⟩
theorem trans (h : Talk m t) (h' : Talk t u) : Talk m u := by
  refine ⟨?_, fun w => h'.wf (h.wf w)⟩
  rw [h'.same, h.same]
theorem ite {c : Prop} [Decidable c] (h : Talk m t) (h' : Talk m u) : Talk m (if c then t else u) := by
  split
  · exact h
  · exact h'

theorem mem (h : Talk m t) : t.win.mem = m.win.mem := by rw [h.same]
theorem passbook (h : Talk m t) : t.win.passbook = m.win.passbook := by rw [h.same]
theorem clk (h : Talk m t) : t.clk = m.clk := by rw [h.same]
theorem prov (h : Talk m t) : t.prov = m.prov := by rw [h.same]
theorem vault (h : Talk m t) : t.vault = m.vault := by rw [h.same]
theorem stage (h : Talk m t) : t.stage = m.stage := by rw [h.same]
theorem shelf (h : Talk m t) : t.shelf = m.shelf := by rw [h.same]
theorem variant (h : Talk m t) : t.variant = m.variant := by rw [h.same]
theorem lamps (h : Talk m t) : t.lamps = m.lamps := by rw [h.same]
theorem hub (h : Talk m t) : t.hub = m.hub := by rw [h.same]
theorem own (h : Talk m t) : t.own = m.own := by rw [h.same]
theorem pow (h : Talk m t) : t.pow = m.pow := by rw [h.same]
theorem meter (h : Talk m t) : t.meter = m.meter := by rw [h.same]
theorem upd (h : Talk m t) : t.upd = m.upd := by rw [h.same]
theorem ent (h : Talk m t) : t.ent = m.ent := by rw [h.same]
theorem diag (h : Talk m t) : t.diag = m.diag := by rw [h.same]
theorem live (h : Talk m t) : t.live = m.live := by rw [h.same]
theorem out (h : Talk m t) : t.out = m.out := by rw [h.same]
theorem free (h : Talk m t) : t.free = m.free := by rw [h.same]

end Talk

theorem talk_logEntry (m : Module) (r : Reply) : Talk m (m.logEntry r) := ⟨rfl, id⟩

theorem talk_setTill (m : Module) (t : Word16) (f : Till → Till) : Talk m (m.setTill t f) :=
  ⟨rfl, fun h => Tbl.wf_modify h _ _⟩

theorem talk_losses (m : Module) (l : Tbl Loss) : Talk m { m with win := { m.win with losses := l } } := ⟨rfl, id⟩

theorem talk_deliver (m : Module) (till : Word16) (r : Reply) (e : Word16) : Talk m (m.deliver till r e) := by
  simp only [Module.deliver]
  split
  · exact ⟨rfl, id⟩
  · exact (talk_losses m _).trans (talk_setTill _ till (fun t => if t.state = 0 then t else { t with lost := satInc t.lost }))

theorem talk_ringSend (m : Module) (ty dst : Byte) (e r : Word16) (p : List Byte) : Talk m (m.ringSend ty dst e r p) :=
  ⟨rfl, id⟩

theorem talk_queuePort (m : Module) (p : Port) (r : Reply) :
    Talk m (m.setPort p (fun u => { u with txq := u.txq ++ [r] })) := by
  cases p <;> exact ⟨rfl, id⟩

/-- A reply or event on its path. -/
theorem talk_send (m : Module) (path : Path) (named : Word16) (r : Reply) : Talk m (m.send path named r) := by
  simp only [Module.send]
  refine (talk_logEntry m r).trans ?_
  split
  · exact talk_deliver _ _ _ _
  · exact talk_queuePort _ _ _
  · exact talk_queuePort _ _ _
  · exact talk_ringSend _ _ _ _ _ _

theorem talk_final (m : Module) (f : FinalRef) (a b : Word16) (p : List Byte) : Talk m (m.final f a b p) :=
  talk_send _ _ _ _

/-- An unsolicited event. -/
theorem talk_event (m : Module) (c : Word16) (p : List Byte) : Talk m (m.event c p) := by
  simp only [Module.event]
  split
  · refine (talk_logEntry m (m.mkReply c rfEvent 0 0 0 p)).trans ?_
    split
    · exact talk_deliver _ _ _ _
    · split
      · exact talk_ringSend _ _ _ _ _ _
      · split
        · exact ⟨rfl, id⟩
        · exact ⟨rfl, id⟩
  · exact Talk.refl m

theorem talk_settleClosing (m : Module) (t : Word16) : Talk m (m.settleClosing t) := by
  simp only [Module.settleClosing]
  split
  · exact talk_setTill _ _ _
  · exact Talk.refl m

theorem talk_tel (m : Module) (t : Teller) : Talk m { m with tel := t } := ⟨rfl, id⟩

theorem talk_foldl {α : Type} (f : Module → α → Module) (h : ∀ m a, Talk m (f m a)) :
    ∀ (l : List α) (m : Module), Talk m (l.foldl f m)
  | [], m => Talk.refl m
  | a :: l, m => (h m a).trans (talk_foldl f h l _)

/-- Replies leave their command till in order. -/
theorem talk_release (m : Module) (t : Word16) (l : List Ticket) : Talk m (m.release t l) := by
  simp only [Module.release]
  refine Talk.trans ?_ (talk_settleClosing _ _)
  refine Talk.trans (talk_tel m _) (talk_foldl _ ?_ _ _)
  intro m k
  split
  · exact (talk_logEntry _ _).trans (talk_deliver _ _ _ _)
  · exact Talk.refl m

/-- A reply goes out. -/
theorem talk_emit (m : Module) (op : Word16) (p : Packet) (r : Reply) : Talk m (m.emit op p r) := by
  unfold Module.emit
  split
  · exact talk_release _ _ _
  · exact talk_send _ _ _ _

/-- A reply of the pipeline. -/
theorem talk_answerWith (m : Module) (op : Word16) (p : Packet) (r : Reply) : Talk m (m.answerWith op p r) :=
  (talk_tel m _).trans (talk_emit _ op p r)

/-- A reply to a packet taken before. -/
theorem talk_completeWith (m : Module) (op : Word16) (p : Packet) (r : Reply) : Talk m (m.completeWith op p r) := by
  unfold Module.completeWith
  dsimp only
  have h : ∀ x : Module, Talk x (match p.path with
      | .laneH t => (match fillTicket op p (r, x.vault.hostEpoch) x.tel.tickets with
        | some l => x.release t l
        | none => x)
      | path => x.send path p.till r) := by
    intro x
    split
    · split
      · exact talk_release _ _ _
      · exact Talk.refl _
    · exact talk_send _ _ _ _
  cases (m.tel.mem p.path).find? (fun (e : Stored) => e.opcode == op && e.packet == p && e.reply == none) with
  | none => exact h m
  | some e => exact (talk_tel m _).trans (h _)

theorem talk_complete (m : Module) (op : Word16) (p : Packet) (a b c : Word16) (l : List Byte) :
    Talk m (m.complete op p a b c l) := talk_completeWith _ _ _ _

theorem talk_answer (m : Module) (op : Word16) (p : Packet) (a b c : Word16) (l : List Byte) :
    Talk m (m.answer op p a b c l) := talk_answerWith _ _ _ _

theorem talk_noteTaken (m : Module) (op : Word16) (p : Packet) : Talk m (m.noteTaken op p) := by
  unfold Module.noteTaken
  dsimp only
  split
  · exact talk_tel m _
  · exact talk_tel m _

theorem talk_overflow (m : Module) (t : Word16) : Talk m (m.overflow t) := by
  unfold Module.overflow
  dsimp only
  split
  · exact (talk_losses m _).trans ((talk_logEntry _ _).trans (talk_deliver _ _ _ _))
  · exact Talk.refl m
theorem talk_overflows (m : Module) : Talk m m.overflows := talk_foldl _ (fun m _ => talk_overflow m _) _ _

/-- Toggling stops with an event, or nothing happens (R225, R226). -/
theorem talk_vitalStop (m : Module) :
    Talk (if m.prov.toggling && !m.vitalFree then
      { m with prov := { m.prov with toggling := false, lastToggle := m.now } } else m) m.vitalStop := by
  unfold Module.vitalStop
  split
  · exact talk_event _ _ _
  · exact Talk.refl m

end Sys2Proof.Machine
end

