-- ==== Sys2Proof/Laws/Drive.lean ====
section
/-! SUPPORT. What the shared operations of the lamp drive and of the slice links can change, said once: the lamps, the slices,
the jobs and fault records, the pump's toggling, a self-test's end, outputs and what an event touches; VITAL-OK stays safe. -/

namespace Sys2Proof.Machine
open Sys2Proof

/-- VITAL-OK stays safe where the pump does not begin to toggle and no condition of R225 begins. -/
theorem vitalSafe_of {m t : Module} (ht : t.prov.toggling = true → m.prov.toggling = true)
    (hf : m.vitalFree = true → t.vitalFree = true) (h : VitalSafe m) : VitalSafe t := fun hh => hf (h (ht hh))

/-- VITAL-OK's conditions are read from the proving state alone. -/
theorem vitalFree_congr {m t : Module} (h : t.prov = m.prov) : t.vitalFree = m.vitalFree := by
  have e : ∀ m : Module, m.vitalFree = ({ Module.reset with prov := m.prov } : Module).vitalFree := fun _ => rfl
  rw [e t, e m, h]

/-- The conditions of R225, and R51's. -/
theorem vitalFree_iff (m : Module) : m.vitalFree = true ↔
    m.prov.fatal = false ∧ m.prov.lockstep = false ∧ m.prov.stall = false ∧ m.prov.dark = false ∧ m.dropVital = false ∧
      m.prov.hold = false := by
  unfold Module.vitalFree Module.vitalCause
  split_ifs <;> simp [*]

/-- Stopping the pump makes VITAL-OK safe from any state (R225). -/
theorem vitalSafe_stop (m : Module) : VitalSafe m.vitalStop := by
  have h := talk_vitalStop m
  split at h
  · rename_i hc
    intro ht
    rw [h.prov] at ht
    exact absurd ht (by simp)
  · rename_i hc
    intro ht
    have hp : m.vitalStop.prov = m.prov := h.prov
    rw [hp] at ht
    have hv : m.vitalFree = true := by simpa [ht] using hc
    rw [vitalFree_congr hp]; exact hv

/-- `t` is `m` but for what the lamp drive and the slice links change, and VITAL-OK stays safe. -/
structure Drives (m t : Module) : Prop where
  same : t = { m with
    tel := t.tel
    win := { m.win with waiting := t.win.waiting, losses := t.win.losses, tills := t.win.tills }
    ring := { m.ring with
      txq := t.ring.txq, held := t.ring.held, heldLoss := t.ring.heldLoss }
    maint := { m.maint with txq := t.maint.txq }
    drop := { m.drop with txq := t.drop.txq }
    lamps := t.lamps
    hub := t.hub
    own := t.own
    out := t.out
    diag := { m.diag with bist := t.diag.bist }
    prov := { m.prov with
      records := t.prov.records, learns := t.prov.learns, wires := t.prov.wires, toggling := t.prov.toggling
      lastToggle := t.prov.lastToggle } }
  wf : Tbl.wf Till.closed m.win.tills = true → Tbl.wf Till.closed t.win.tills = true
  vital : VitalSafe m → VitalSafe t

namespace Drives
variable {m t u : Module}
theorem refl (m : Module) : Drives m m := ⟨rfl, id, id⟩
theorem trans (h : Drives m t) (h' : Drives t u) : Drives m u := by
  refine ⟨?_, fun w => h'.wf (h.wf w), fun v => h'.vital (h.vital v)⟩
  rw [h'.same, h.same]
theorem ofTalk (h : Talk m t) : Drives m t := by
  refine ⟨?_, h.wf, ?_⟩
  · rw [h.same]
  · rw [h.same]; exact id
theorem stage (h : Drives m t) : t.stage = m.stage := by rw [h.same]
theorem shelf (h : Drives m t) : t.shelf = m.shelf := by rw [h.same]
theorem variant (h : Drives m t) : t.variant = m.variant := by rw [h.same]
theorem clk (h : Drives m t) : t.clk = m.clk := by rw [h.same]
theorem vault (h : Drives m t) : t.vault = m.vault := by rw [h.same]
theorem live (h : Drives m t) : t.live = m.live := by rw [h.same]
theorem mem (h : Drives m t) : t.win.mem = m.win.mem := by rw [h.same]
theorem passbook (h : Drives m t) : t.win.passbook = m.win.passbook := by rw [h.same]
theorem upd (h : Drives m t) : t.upd = m.upd := by rw [h.same]
theorem pow (h : Drives m t) : t.pow = m.pow := by rw [h.same]
theorem meter (h : Drives m t) : t.meter = m.meter := by rw [h.same]
theorem ent (h : Drives m t) : t.ent = m.ent := by rw [h.same]
theorem inUse (h : Drives m t) : t.inUse = m.inUse := by rw [h.same]
theorem safe (h : Drives m t) (hs : Safe m) : Safe t :=
  ⟨by rw [h.mem]; exact hs.1, by rw [h.passbook]; exact hs.2.1, h.wf hs.2.2⟩
end Drives

theorem drives_foldl {α : Type} (f : Module → α → Module) (h : ∀ m a, Drives m (f m a)) :
    ∀ (l : List α) (m : Module), Drives m (l.foldl f m)
  | [], m => Drives.refl m
  | a :: l, m => (h m a).trans (drives_foldl f h l _)

theorem drives_each (m : Module) (l : List Nat) (f : Nat → Module → Module) (h : ∀ k m, Drives m (f k m)) :
    Drives m (m.each l f) := drives_foldl (fun m k => f k m) (fun m k => h k m) l m

theorem drives_setChan (m : Module) (c : Nat) (f : Chan → Chan) : Drives m (m.setChan c f) := ⟨rfl, id, id⟩
theorem drives_setSlice (m : Module) (n : Nat) (f : HubSlice → HubSlice) : Drives m (m.setSlice n f) := ⟨rfl, id, id⟩
theorem drives_setOwn (m : Module) (n : Nat) (f : OwnSlice → OwnSlice) : Drives m (m.setOwn n f) := ⟨rfl, id, id⟩
theorem drives_put (m : Module) (o : Out) : Drives m (m.put o) := ⟨rfl, id, id⟩
theorem drives_lamps (m : Module) (l : Lamps) : Drives m { m with lamps := l } := ⟨rfl, id, id⟩
theorem drives_learns (m : Module) (l : List LearnJob) : Drives m { m with prov := { m.prov with learns := l } } :=
  ⟨rfl, id, id⟩
theorem drives_wires (m : Module) (l : List WireJob) : Drives m { m with prov := { m.prov with wires := l } } :=
  ⟨rfl, id, id⟩
theorem drives_bist (m : Module) (b : Option (FinalRef × Nat × Word16)) :
    Drives m { m with diag := { m.diag with bist := b } } := ⟨rfl, id, id⟩
theorem drives_event (m : Module) (c : Word16) (p : List Byte) : Drives m (m.event c p) := .ofTalk (talk_event m c p)
theorem drives_final (m : Module) (f : FinalRef) (a b : Word16) (p : List Byte) : Drives m (m.final f a b p) :=
  .ofTalk (talk_final m f a b p)
theorem drives_answer (m : Module) (op : Word16) (p : Packet) (a b c : Word16) (l : List Byte) :
    Drives m (m.answer op p a b c l) := .ofTalk (talk_answer m op p a b c l)

theorem drives_vitalStop (m : Module) : Drives m m.vitalStop := by
  refine ⟨?_, ?_, fun _ => vitalSafe_stop m⟩
  · have h := talk_vitalStop m
    split at h
    · rw [h.same]
    · rw [h.same]
  · have h := (talk_vitalStop m).wf
    split at h
    · exact h
    · exact h

/-- An entry of a changed table is an old one or the new one. -/
theorem any_modify {α : Type} [DecidableEq α] {d : α} {t : Tbl α} {k : Nat} {f : α → α} {p : Nat × α → Bool}
    (h : (Tbl.modify d t k f).any p = true) : t.any p = true ∨ p (k, f (Tbl.get d t k)) = true := by
  have ins : ∀ (t : Tbl α) (v : α), (Tbl.insert t k v).any p = true → t.any p = true ∨ p (k, v) = true := by
    intro t v
    induction t with
    | nil => simp [Tbl.insert]
    | cons e t ih =>
      simp only [Tbl.insert]
      split
      · simp only [List.any_cons, Bool.or_eq_true]; tauto
      · split
        · simp only [List.any_cons, Bool.or_eq_true]; tauto
        · simp only [List.any_cons, Bool.or_eq_true]; tauto
  have era : ∀ (t : Tbl α), (Tbl.erase t k).any p = true → t.any p = true := by
    intro t
    induction t with
    | nil => simp [Tbl.erase]
    | cons e t ih =>
      simp only [Tbl.erase]
      split
      · simp only [List.any_cons, Bool.or_eq_true]; tauto
      · simp only [List.any_cons, Bool.or_eq_true]; tauto
  simp only [Tbl.modify, Tbl.set] at h
  split at h
  · exact Or.inl (era _ h)
  · exact ins _ _ h

/-- A value other than the default stands in the table. -/
theorem any_get {α : Type} {d : α} {t : Tbl α} {k : Nat} {p : α → Bool} (hd : p d = false)
    (h : p (Tbl.get d t k) = true) : t.any (fun e => p e.2) = true := by
  induction t with
  | nil => simp [Tbl.get, hd] at h
  | cons e t ih =>
    obtain ⟨a, b⟩ := e
    simp only [Tbl.get] at h
    simp only [List.any_cons, Bool.or_eq_true]
    split at h
    · exact Or.inl h
    · exact Or.inr (ih h)

/-- Changing records without latching a response leaves R225's conditions as they were. -/
theorem vitalSafe_setRecord {m : Module} {ch kind : Nat} {f : FaultRec → FaultRec}
    (hf : ∀ r, (f r).latched = true → (f r).response = 3 → r.latched = true ∧ r.response = 3) (h : VitalSafe m) :
    VitalSafe (m.setRecord ch kind f) := by
  refine vitalSafe_of (m := m) id ?_ h
  have key : (m.setRecord ch kind f).dropVital = true → m.dropVital = true := by
    intro hd
    rcases any_modify hd with h1 | h1
    · exact h1
    · simp only [Bool.and_eq_true, beq_iff_eq] at h1
      obtain ⟨a, b⟩ := hf _ h1.1 h1.2
      refine any_get (d := FaultRec.none) (k := recKey ch kind) (p := fun r => r.latched && r.response == 3) rfl ?_
      simp [a, b]
  rw [vitalFree_iff, vitalFree_iff]
  rintro ⟨h1, h2, h3, h4, h5, h6⟩
  refine ⟨h1, h2, h3, h4, ?_, h6⟩
  cases hd : (m.setRecord ch kind f).dropVital
  · rfl
  · exact absurd (key hd) (by simp [h5])

/-- A record changes without latching a response. -/
theorem drives_setRecord (m : Module) (ch kind : Nat) (f : FaultRec → FaultRec)
    (hf : ∀ r, (f r).latched = true → (f r).response = 3 → r.latched = true ∧ r.response = 3) :
    Drives m (m.setRecord ch kind f) := ⟨rfl, id, vitalSafe_setRecord hf⟩

/-- ACTIVE clears (R219, R221). -/
theorem drives_endFault (m : Module) (ch kind how : Nat) : Drives m (m.endFault ch kind how) := by
  unfold Module.endFault
  dsimp only
  split
  · exact (drives_setRecord m ch kind (fun r => { r with active := false }) (fun _ h1 h2 => ⟨h1, h2⟩)).trans (drives_event _ _ _)
  · exact Drives.refl m

/-- A fault is detected (R217, R220-R225). -/
theorem drives_detect (m : Module) (ch kind : Nat) (c : Cycle) (a : Angle) (b : Nat) (v : Int) :
    Drives m (m.detect ch kind c a b v) := by
  unfold Module.detect
  dsimp only
  split
  · exact Drives.refl m
  · refine ⟨?_, ?_, fun _ => vitalSafe_stop _⟩
    · have h1 := drives_vitalStop (((m.setRecord ch kind (fun r =>
        { active := true, latched := true, response := if kind = 4 then 0 else m.response ch
          cycle := if r.latched then r.cycle else m.clk.cycle, tick := if r.latched then r.tick else m.now }))).event 0x8301
        (u16 ch ++ u8 kind ++ u8 (if kind = 4 then 0 else m.response ch) ++ u40 c.toNat ++ u16 a.toNat ++ u8 b ++
        leInt 2 v ++ rsv 2))
      have h2 := drives_event (m.setRecord ch kind (fun r =>
        { active := true, latched := true, response := if kind = 4 then 0 else m.response ch
          cycle := if r.latched then r.cycle else m.clk.cycle, tick := if r.latched then r.tick else m.now })) 0x8301
        (u16 ch ++ u8 kind ++ u8 (if kind = 4 then 0 else m.response ch) ++ u40 c.toNat ++ u16 a.toNat ++ u8 b ++
        leInt 2 v ++ rsv 2)
      have h3 := (h2.trans h1).same
      rw [h3]; rfl
    · intro w
      exact (drives_vitalStop _).wf ((talk_event _ _ _).wf w)

end Sys2Proof.Machine
end

