-- ==== Sys2Proof/Laws/Records.lean ====
section
/-! SUPPORT. What the metering's records can change, said once: the metering, its cells in the vault, and what an event
touches. -/

namespace Sys2Proof.Machine
open Sys2Proof

/-- `t` is `m` but for the metering, the voltage windows the hub keeps of a slice, the free number, the vault's cells, journal, records and checkpoint, and what an event touches. -/
structure Books (m t : Module) : Prop where
  same : t = { m with
    tel := t.tel
    win := { m.win with waiting := t.win.waiting, losses := t.win.losses, tills := t.win.tills }
    ring := { m.ring with
      txq := t.ring.txq, held := t.ring.held, heldLoss := t.ring.heldLoss }
    maint := { m.maint with txq := t.maint.txq }
    drop := { m.drop with txq := t.drop.txq }
    hub := t.hub
    free := t.free
    meter := t.meter
    vault := { m.vault with
      cells := t.vault.cells, journal := t.vault.journal, records := t.vault.records, recordSeq := t.vault.recordSeq
      checkpoint := t.vault.checkpoint } }
  wf : Tbl.wf Till.closed m.win.tills = true → Tbl.wf Till.closed t.win.tills = true

namespace Books
variable {m t u : Module}
theorem refl (m : Module) : Books m m := ⟨rfl, id⟩
theorem trans (h : Books m t) (h' : Books t u) : Books m u := by
  refine ⟨?_, fun w => h'.wf (h.wf w)⟩
  rw [h'.same, h.same]
theorem clk (h : Books m t) : t.clk = m.clk := by rw [h.same]
theorem stage (h : Books m t) : t.stage = m.stage := by rw [h.same]
theorem mem (h : Books m t) : t.win.mem = m.win.mem := by rw [h.same]
theorem passbook (h : Books m t) : t.win.passbook = m.win.passbook := by rw [h.same]
theorem prov (h : Books m t) : t.prov = m.prov := by rw [h.same]
theorem diag (h : Books m t) : t.diag = m.diag := by rw [h.same]
theorem upd (h : Books m t) : t.upd = m.upd := by rw [h.same]
theorem lamps (h : Books m t) : t.lamps = m.lamps := by rw [h.same]
theorem config (h : Books m t) : t.vault.config = m.vault.config := by rw [h.same]
theorem hubEpoch (h : Books m t) : t.vault.hubEpoch = m.vault.hubEpoch := by rw [h.same]
theorem variant (h : Books m t) : t.variant = m.variant := by rw [h.same]
theorem firstCause (h : Books m t) : t.firstCause = m.firstCause := by rw [h.same]
theorem unread (h : Books m t) : t.unread = m.unread := by rw [h.same]
end Books

theorem Talk.books {m t : Module} (h : Talk m t) : Books m t := by
  refine ⟨?_, h.wf⟩
  rw [h.same]

theorem Books.withMeter {m t : Module} (h : Books m t) (x : Meter) : Books m { t with meter := x } :=
  h.trans ⟨rfl, id⟩
theorem Books.withRecords {m t : Module} (h : Books m t) (x : Meter) (r : List Boundary) (q : Word32) (c : Option Cycle) :
    Books m { t with vault := { t.vault with records := r, recordSeq := q, checkpoint := c }, meter := x } :=
  h.trans ⟨rfl, id⟩

theorem books_foldl {α : Type} (f : Module → α → Module) (h : ∀ m a, Books m (f m a)) :
    ∀ (l : List α) (m : Module), Books m (l.foldl f m)
  | [], m => Books.refl m
  | a :: l, m => (h m a).trans (books_foldl f h l _)

theorem setCounter_same (l : List (Nat × BitVec 64 × BitVec 64)) :
    ∀ v : Vault, ∃ c, l.foldl (fun v e => v.setCounter e.1 e.2.2) v = { v with cells := c } := by
  induction l with
  | nil => intro v; exact ⟨v.cells, rfl⟩
  | cons e l ih => intro v; obtain ⟨c, hc⟩ := ih (v.setCounter e.1 e.2.2); exact ⟨c, hc⟩

/-- A persistence pass. -/
theorem books_pass (m : Module) : Books m m.pass := by
  unfold Module.pass
  split
  · obtain ⟨c, hc⟩ := setCounter_same m.passEntries m.vault
    simp only [hc]
    exact ⟨rfl, id⟩
  · exact Books.refl m

/-- A boundary record. -/
theorem books_writeRecord (m : Module) (b : Boundary) : Books m (m.writeRecord b) := by
  unfold Module.writeRecord
  have h := books_pass m
  generalize m.pass = t at h
  dsimp only
  split
  · exact (h.withRecords _ _ _ _).trans (talk_event _ _ _).books
  · exact h.withRecords _ _ _ _

theorem books_demandClose (m : Module) : Books m m.demandClose := by
  unfold Module.demandClose
  split
  · split
    · exact Books.refl m
    · exact ⟨rfl, id⟩
    · exact ⟨rfl, id⟩
  · exact Books.refl m

/-- Metering stops (R344, R348, R349). -/
theorem books_closeRecords (m : Module) (f : Module → Module) (hf : ∀ m, Books m (f m)) : Books m (m.closeRecords f) := by
  unfold Module.closeRecords
  have h := books_demandClose m
  generalize m.demandClose = t at h
  dsimp only
  split
  · exact (((h.withMeter _).trans (hf _)).withMeter _).trans (books_foldl _ books_writeRecord _ _)
  · exact ((h.withMeter _).trans (hf _)).withMeter _

end Sys2Proof.Machine
end

