-- ==== Sys2Proof/Laws/Meter.lean ====
section
/-! SUPPORT. The metering's operations change the metering, its vault records and what an event touches, and nothing else:
each is a `Books`. -/

namespace Sys2Proof.Machine
open Sys2Proof

theorem books_meter (m : Module) (x : Meter) : Books m { m with meter := x } := (Books.refl m).withMeter x
theorem books_event (m : Module) (c : Word16) (p : List Byte) : Books m (m.event c p) := (talk_event m c p).books

theorem books_gapSince (m : Module) (b : Nat) : Books m (m.gapSince b) := by
  unfold Module.gapSince
  split
  · exact Books.refl m
  · exact books_meter m _

theorem books_clearHalf (m : Module) (h : Nat) : Books m (m.clearHalf h) := books_meter m _

theorem books_meterBoundary (m : Module) : Books m m.meterBoundary := by
  unfold Module.meterBoundary
  dsimp only
  split
  · exact ((books_gapSince m _).trans (books_clearHalf _ _)).withMeter _
  · split
    · exact (books_clearHalf m _).withMeter _
    · exact Books.refl m

theorem books_substitute (m : Module) (s b : Nat) : Books m (m.substitute s b) := by
  unfold Module.substitute
  dsimp only
  refine books_foldl _ ?_ _ _
  intro m ch
  dsimp only
  split
  · split
    · exact books_meter _ _
    · exact Books.refl _
  · exact Books.refl _

theorem books_fillGaps (m : Module) (h s : Nat) : Books m (m.fillGaps h s) :=
  (books_foldl _ (fun m b => books_substitute m s b) _ _).withMeter _

theorem books_gatherSecond (m : Module) (n : Nat) (r : Int) : Books m (m.gatherSecond n r) := by
  unfold Module.gatherSecond
  split
  · dsimp only
    exact (⟨rfl, id⟩ : Books m (m.setSlice n _)).trans (books_foldl _ (fun m _ => books_meter m _) _ _)
  · exact Books.refl m

theorem books_gatherLate (m : Module) (h n : Nat) : Books m (m.gatherLate h n) := by
  unfold Module.gatherLate
  split
  · split
    · exact (⟨rfl, id⟩ : Books m { m with free := m.free + 1 }).trans (books_gatherSecond _ _ _)
    · exact Books.refl m
  · exact Books.refl m

theorem books_countHalf (m : Module) (h t x : Nat) : Books m (m.countHalf h t x) := by
  unfold Module.countHalf
  split
  · exact (books_foldl _ (fun m b => (books_gatherLate m h b).trans (books_fillGaps _ h b)) _ _).withMeter _
  · exact Books.refl m

theorem books_writeBelow (m : Module) (au : Nat) : Books m (m.writeBelow au) := by
  unfold Module.writeBelow
  dsimp only
  split
  · exact (books_meter m _).trans (books_foldl _ books_writeRecord _ _)
  · exact books_meter m _

theorem Meter.mergeStart_keeps (t : Meter) : t.mergeStart.committed = t.committed ∧
    t.mergeStart.lastTariff = t.lastTariff ∧ t.mergeStart.ended = t.ended := by
  unfold Meter.mergeStart
  split <;> exact ⟨rfl, rfl, rfl⟩

/-- A committed half-cycle is the last one committed, and none waits. -/
theorem books_commitHalf (m : Module) (b ticks tariff : Nat) : Books m (m.commitHalf b ticks tariff) ∧
    (m.commitHalf b ticks tariff).meter.committed = b ∧ (m.commitHalf b ticks tariff).meter.lastTariff = tariff ∧
    (m.commitHalf b ticks tariff).meter.ended = none := by
  unfold Module.commitHalf
  dsimp only
  have h : Books m ((m.demandClose.writeBelow b).countHalf ((b / 32768 + 1) % 2) ticks tariff) :=
    (books_demandClose m).trans ((books_writeBelow _ _).trans (books_countHalf _ _ _ _))
  generalize (m.demandClose.writeBelow b).countHalf ((b / 32768 + 1) % 2) ticks tariff = x at h
  obtain ⟨h1, h2, h3⟩ := Meter.mergeStart_keeps ({ x.meter with
    committed := b, lastTariff := tariff, ended := none
    opened := x.meter.opened.map (fun (r : Boundary) => if r.au = b then
      { ({ x.meter with committed := b, lastTariff := tariff, ended := none } : Meter).fill r with demandTariff := tariff }
      else r) })
  exact ⟨(h.withMeter _).withMeter _, h1, h2, h3⟩

theorem books_commitEnded (m : Module) : Books m m.commitEnded := by
  unfold Module.commitEnded
  split
  · exact (books_commitHalf _ _ _ _).1
  · exact Books.refl m

theorem books_countCut (m : Module) : Books m m.countCut := by
  unfold Module.countCut
  split
  · exact (books_countHalf _ _ _ _).withMeter _
  · exact Books.refl m

theorem books_checkpoint (m : Module) (c : Option Cycle) : Books m { m with vault := { m.vault with checkpoint := c } } :=
  ⟨rfl, id⟩

theorem books_meterRebase (m : Module) (n : Nat) : Books m (m.meterRebase n) := by
  refine (books_checkpoint m (some (BitVec.ofNat 40 n))).trans ?_
  unfold Module.meterRebase
  dsimp only
  split
  · refine Books.trans ?_ (books_meter _ _)
    exact (books_commitEnded _).trans ((books_demandClose _).trans ((books_writeBelow _ _).trans (books_countCut _)))
  · exact books_meter _ _

theorem books_tariffChange (m : Module) : Books m m.tariffChange := by
  unfold Module.tariffChange
  split
  · dsimp only
    split
    · exact Books.refl m
    · exact books_meter m _
  · exact Books.refl m

theorem books_settleStart (m : Module) : Books m m.settleStart := books_meter m _

theorem books_supplyChange (m : Module) (cause : Nat) : Books m (m.supplyChange cause) :=
  (books_event m _ _).withMeter _

end Sys2Proof.Machine
end

