-- ==== Sys2Proof/Laws/Keeps.lean ====
section
/-! SUPPORT. What every operation keeps, said once for each: the canonical form of the window's tables, and that VITAL-OK is
driven closed only while no condition of R225 holds. `keeps_f` is about the operation `Module.f`. -/

namespace Sys2Proof.Machine
open Sys2Proof

/-- From `m` to `t` the window's tables stay in their canonical form and VITAL-OK stays safe. -/
structure Keeps (m t : Module) : Prop where
  safe : Safe m → Safe t
  vital : VitalSafe m → VitalSafe t

theorem Keeps.refl (m : Module) : Keeps m m := ⟨id, id⟩
theorem Keeps.trans {m t u : Module} (h : Keeps m t) (h' : Keeps t u) : Keeps m u :=
  ⟨h'.safe ∘ h.safe, h'.vital ∘ h.vital⟩

/-- An update that leaves the window's tables and what R225 reads. -/
theorem Keeps.update {m t : Module} {xwin : Window} {xprov : Proving} {y0 y1 y2 y3 y4 y5 y6 y7 y8 y10 y11 y13 y14 y15 y16 y17 y18 y19 y20 y21 y22 y23 y24 y25 y26 y27} (h : Keeps m t)
    (e : (xwin.mem, xwin.passbook, xwin.tills, xprov.records, xprov.lockstep, xprov.fatal, xprov.stall, xprov.dark,
        xprov.hold, xprov.toggling) =
      (t.win.mem, t.win.passbook, t.win.tills, t.prov.records, t.prov.lockstep, t.prov.fatal, t.prov.stall, t.prov.dark,
        t.prov.hold, t.prov.toggling)) :
    Keeps m (Sys2Proof.Machine.Module.mk y0 y1 y2 y3 y4 y5 y6 y7 y8 xwin y10 y11 xprov y13 y14 y15 y16 y17 y18 y19 y20
        y21 y22 y23 y24 y25 y26 y27) := by
  simp only [Prod.mk.injEq] at e
  obtain ⟨a, b, c, d1, d2, d3, d4, d5, d6, d7⟩ := e
  refine h.trans ⟨?_, ?_⟩
  · unfold Safe; rw [← a, ← b, ← c]; exact id
  · unfold VitalSafe; intro hh ht
    have := hh (d7 ▸ ht)
    rw [vitalFree_iff] at this ⊢
    unfold Module.dropVital at this ⊢
    dsimp only at this ⊢
    rw [d1, d2, d3, d4, d5, d6]; exact this

/-- An update that leaves the window's tables and stops the pump. -/
theorem Keeps.off {m t : Module} {xwin : Window} {xprov : Proving} {y0 y1 y2 y3 y4 y5 y6 y7 y8 y10 y11 y13 y14 y15 y16 y17 y18 y19 y20 y21 y22 y23 y24 y25 y26 y27} (h : Keeps m t)
    (e : (xwin.mem, xwin.passbook, xwin.tills) = (t.win.mem, t.win.passbook, t.win.tills)) (d : xprov.toggling = false) :
    Keeps m (Sys2Proof.Machine.Module.mk y0 y1 y2 y3 y4 y5 y6 y7 y8 xwin y10 y11 xprov y13 y14 y15 y16 y17 y18 y19 y20
        y21 y22 y23 y24 y25 y26 y27) := by
  simp only [Prod.mk.injEq] at e
  obtain ⟨a, b, c⟩ := e
  refine ⟨fun hh => ?_, fun _ ht => ?_⟩
  · have := h.safe hh; unfold Safe at this ⊢; rw [← a, ← b, ← c] at this; exact this
  · rw [show _ = false from d] at ht; cases ht

/-- An update that leaves the window's tables, and under which VITAL-OK waits for R51 where the pump does not toggle. -/
theorem Keeps.held {m t : Module} {xwin : Window} {xprov : Proving} {y0 y1 y2 y3 y4 y5 y6 y7 y8 y10 y11 y13 y14 y15 y16 y17 y18 y19 y20 y21 y22 y23 y24 y25 y26 y27} (h : Keeps m t)
    (e : (xwin.mem, xwin.passbook, xwin.tills, xprov.records, xprov.lockstep, xprov.fatal, xprov.stall, xprov.dark,
        xprov.toggling) =
      (t.win.mem, t.win.passbook, t.win.tills, t.prov.records, t.prov.lockstep, t.prov.fatal, t.prov.stall, t.prov.dark,
        t.prov.toggling))
    (d : xprov.hold = (t.prov.hold || !t.prov.toggling)) :
    Keeps m (Sys2Proof.Machine.Module.mk y0 y1 y2 y3 y4 y5 y6 y7 y8 xwin y10 y11 xprov y13 y14 y15 y16 y17 y18 y19 y20
        y21 y22 y23 y24 y25 y26 y27) := by
  simp only [Prod.mk.injEq] at e
  obtain ⟨a, b, c, d1, d2, d3, d4, d5, d7⟩ := e
  refine h.trans ⟨?_, ?_⟩
  · unfold Safe; rw [← a, ← b, ← c]; exact id
  · unfold VitalSafe; intro hh ht
    have hg : t.prov.toggling = true := d7 ▸ ht
    have := hh hg
    rw [vitalFree_iff] at this ⊢
    unfold Module.dropVital at this ⊢
    dsimp only at this ⊢
    rw [d1, d2, d3, d4, d5, d, hg]; simpa using this

/-- An update that leaves the window's tables, and under which both supplies are no longer lost. -/
theorem Keeps.cleared {m t : Module} {xwin : Window} {xprov : Proving} {y0 y1 y2 y3 y4 y5 y6 y7 y8 y10 y11 y13 y14 y15 y16 y17 y18 y19 y20 y21 y22 y23 y24 y25 y26 y27} (h : Keeps m t)
    (e : (xwin.mem, xwin.passbook, xwin.tills, xprov.records, xprov.lockstep, xprov.fatal, xprov.stall, xprov.hold,
        xprov.toggling) =
      (t.win.mem, t.win.passbook, t.win.tills, t.prov.records, t.prov.lockstep, t.prov.fatal, t.prov.stall, t.prov.hold,
        t.prov.toggling))
    (d : xprov.dark = false) :
    Keeps m (Sys2Proof.Machine.Module.mk y0 y1 y2 y3 y4 y5 y6 y7 y8 xwin y10 y11 xprov y13 y14 y15 y16 y17 y18 y19 y20
        y21 y22 y23 y24 y25 y26 y27) := by
  simp only [Prod.mk.injEq] at e
  obtain ⟨a, b, c, d1, d2, d3, d4, d5, d7⟩ := e
  refine h.trans ⟨?_, ?_⟩
  · unfold Safe; rw [← a, ← b, ← c]; exact id
  · unfold VitalSafe; intro hh ht
    have := hh (d7 ▸ ht)
    rw [vitalFree_iff] at this ⊢
    unfold Module.dropVital at this ⊢
    dsimp only at this ⊢
    rw [d1, d2, d3, d4, d5, d]
    exact ⟨this.1, this.2.1, this.2.2.1, rfl, this.2.2.2.2⟩

/-- An update that leaves the window's tables, after which the pump stops where a condition has begun. -/
theorem Keeps.stopped {m t : Module} {xwin : Window} {xprov : Proving} {y0 y1 y2 y3 y4 y5 y6 y7 y8 y10 y11 y13 y14 y15 y16 y17 y18 y19 y20 y21 y22 y23 y24 y25 y26 y27} (h : Keeps m t)
    (e : (xwin.mem, xwin.passbook, xwin.tills) = (t.win.mem, t.win.passbook, t.win.tills)) :
    Keeps m (Sys2Proof.Machine.Module.mk y0 y1 y2 y3 y4 y5 y6 y7 y8 xwin y10 y11 xprov y13 y14 y15 y16 y17 y18 y19 y20
        y21 y22 y23 y24 y25 y26 y27).vitalStop := by
  simp only [Prod.mk.injEq] at e
  obtain ⟨a, b, c⟩ := e
  refine ⟨fun hs => (drives_vitalStop _).safe ?_, fun _ => vitalSafe_stop _⟩
  have := h.safe hs; unfold Safe at this ⊢; rw [← a, ← b, ← c] at this; exact this

theorem Keeps.ofDrives {m t u : Module} (h : Keeps m t) (h' : Drives t u) : Keeps m u := h.trans ⟨h'.safe, h'.vital⟩
theorem Keeps.ofTalk {m t u : Module} (h : Keeps m t) (h' : Talk t u) : Keeps m u := h.ofDrives (Drives.ofTalk h')
/-- An update that leaves the proving state. -/
theorem Keeps.winOf {m t u : Module} (h : Keeps m t) (hw : Safe t → Safe u) (hp : u.prov = t.prov) : Keeps m u :=
  h.trans ⟨hw, vitalSafe_of (by rw [hp]; exact id) (by rw [vitalFree_congr hp]; exact id)⟩
theorem Keeps.ofBooks {m t u : Module} (h : Keeps m t) (h' : Books t u) : Keeps m u :=
  h.winOf (fun hs => ⟨h'.mem ▸ hs.1, h'.passbook ▸ hs.2.1, h'.wf hs.2.2⟩) h'.prov
theorem Keeps.abs {m u : Module} (a : Safe u) (b : VitalSafe u) : Keeps m u := ⟨fun _ => a, fun _ => b⟩
theorem Keeps.winOff {m t u : Module} (h : Keeps m t) (hw : Safe t → Safe u) (hp : u.prov.toggling = false) : Keeps m u :=
  h.trans ⟨hw, fun _ ht => by rw [hp] at ht; cases ht⟩
theorem Keeps.safeStop {m u : Module} (hw : Safe m → Safe u) : Keeps m u.vitalStop :=
  ⟨fun hs => (drives_vitalStop u).safe (hw hs), fun _ => vitalSafe_stop u⟩
theorem keeps_foldl {α : Type} {m0 m : Module} (f : Module → α → Module) (l : List α) (h : Keeps m0 m) (hf : ∀ x a, Keeps m0 x → Keeps m0 (f x a)) : Keeps m0 (l.foldl f m) := by
  induction l generalizing m with
  | nil => exact h
  | cons a l ih => exact ih (hf _ _ h)
theorem keeps_foldr {α : Type} {m0 m : Module} (f : α → Module → Module) (l : List α) (h : Keeps m0 m) (hf : ∀ a x, Keeps m0 x → Keeps m0 (f a x)) : Keeps m0 (l.foldr f m) := by
  induction l with
  | nil => exact h
  | cons a l ih => exact hf _ _ ih
theorem keeps_reset {m : Module} : Keeps m Module.reset := Keeps.abs ⟨rfl, rfl, rfl⟩ (fun h => nomatch h)
theorem keeps_elapse {m0 : Module} (m : Module) (dt : Nat) (h : Keeps m0 m) : Keeps m0 (m.elapse dt) := by
  unfold Module.elapse; split
  · exact h
  · exact Keeps.update h rfl
theorem keeps_setTill {m0 : Module} (m : Module) (t : Word16) (f : Till → Till) (h : Keeps m0 m) :
    Keeps m0 (m.setTill t f) := h.ofTalk (talk_setTill m t f)
theorem keeps_each {m0 : Module} (m : Module) (l : List Nat) (f : Nat → Module → Module) (h : Keeps m0 m) (hf : ∀ n x, Keeps m0 x → Keeps m0 (f n x)) : Keeps m0 (m.each l f) := keeps_foldl _ _ h (fun x a => hf a x)
theorem keeps_tillsFilter {m0 m : Module} (p : Nat × Till → Bool) (h : Keeps m0 m) :
    Keeps m0 { m with win := { m.win with tills := m.win.tills.filter p } } :=
  h.winOf (fun hs => ⟨hs.1, hs.2.1, Tbl.wf_filter hs.2.2 _⟩) rfl
theorem keeps_setSlice {m0 : Module} (m : Module) (n : Nat) (f : HubSlice → HubSlice) (hk : Keeps m0 m) :
    Keeps m0 (m.setSlice n f) := hk.ofDrives (drives_setSlice ..)
theorem keeps_setOwn {m0 : Module} (m : Module) (n : Nat) (f : OwnSlice → OwnSlice) (hk : Keeps m0 m) :
    Keeps m0 (m.setOwn n f) := hk.ofDrives (drives_setOwn ..)
theorem keeps_setChan {m0 : Module} (m : Module) (c : Nat) (f : Chan → Chan) (hk : Keeps m0 m) :
    Keeps m0 (m.setChan c f) := hk.ofDrives (drives_setChan ..)
theorem keeps_put {m0 : Module} (m : Module) (o : Out) (hk : Keeps m0 m) :
    Keeps m0 (m.put o) := hk.ofDrives (drives_put ..)
theorem keeps_logEntry {m0 : Module} (m : Module) (r : Reply) (hk : Keeps m0 m) :
    Keeps m0 (m.logEntry r) := hk.ofTalk (talk_logEntry ..)
theorem keeps_deliver {m0 : Module} (m : Module) (till : Word16) (r : Reply) (epoch : Word16) (hk : Keeps m0 m) :
    Keeps m0 (m.deliver till r epoch) := hk.ofTalk (talk_deliver ..)
theorem keeps_ringSend {m0 : Module} (m : Module) (ty dst : Byte) (dstEpoch rtill : Word16) (payload : List Byte) (hk : Keeps m0 m) : Keeps m0 (m.ringSend ty dst dstEpoch rtill payload) := hk.ofTalk (talk_ringSend ..)
theorem keeps_overflow {m0 : Module} (m : Module) (till : Word16) (hk : Keeps m0 m) :
    Keeps m0 (m.overflow till) := hk.ofTalk (talk_overflow ..)
theorem keeps_overflows {m0 : Module} (m : Module) (hk : Keeps m0 m) :
    Keeps m0 m.overflows := hk.ofTalk (talk_overflows ..)
theorem keeps_setPort {m0 : Module} (m : Module) (p : Port) (f : Uart → Uart) (hk : Keeps m0 m) :
    Keeps m0 (m.setPort p f) := by
  unfold Module.setPort
  split; with_reducible (refine Keeps.update ?_ rfl; assumption; refine Keeps.update ?_ rfl; assumption)
theorem keeps_send {m0 : Module} (m : Module) (path : Path) (report : Word16) (r : Reply) (hk : Keeps m0 m) :
    Keeps m0 (m.send path report r) := hk.ofTalk (talk_send ..)
theorem keeps_noteTaken {m0 : Module} (m : Module) (opcode : Word16) (p : Packet) (hk : Keeps m0 m) :
    Keeps m0 (m.noteTaken opcode p) := hk.ofTalk (talk_noteTaken ..)
theorem keeps_settleClosing {m0 : Module} (m : Module) (t : Word16) (hk : Keeps m0 m) :
    Keeps m0 (m.settleClosing t) := hk.ofTalk (talk_settleClosing ..)
theorem keeps_release {m0 : Module} (m : Module) (t : Word16) (tickets : List Ticket) (hk : Keeps m0 m) :
    Keeps m0 (m.release t tickets) := hk.ofTalk (talk_release ..)
theorem keeps_emit {m0 : Module} (m : Module) (opcode : Word16) (p : Packet) (r : Reply) (hk : Keeps m0 m) :
    Keeps m0 (m.emit opcode p r) := hk.ofTalk (talk_emit ..)
theorem keeps_answerWith {m0 : Module} (m : Module) (opcode : Word16) (p : Packet) (r : Reply) (hk : Keeps m0 m) :
    Keeps m0 (m.answerWith opcode p r) := hk.ofTalk (talk_answerWith ..)
theorem keeps_completeWith {m0 : Module} (m : Module) (opcode : Word16) (p : Packet) (r : Reply) (hk : Keeps m0 m) :
    Keeps m0 (m.completeWith opcode p r) := hk.ofTalk (talk_completeWith ..)
theorem keeps_answer {m0 : Module} (m : Module) (opcode : Word16) (p : Packet) (rflags status detail : Word16)
    (payload : List Byte) (hk : Keeps m0 m) :
    Keeps m0 (m.answer opcode p rflags status detail payload) := hk.ofTalk (talk_answer ..)
theorem keeps_complete {m0 : Module} (m : Module) (opcode : Word16) (p : Packet) (rflags status detail : Word16)
    (payload : List Byte) (hk : Keeps m0 m) :
    Keeps m0 (m.complete opcode p rflags status detail payload) := hk.ofTalk (talk_complete ..)
theorem keeps_final {m0 : Module} (m : Module) (f : FinalRef) (status detail : Word16) (payload : List Byte)
    (hk : Keeps m0 m) :
    Keeps m0 (m.final f status detail payload) := hk.ofTalk (talk_final ..)
theorem keeps_event {m0 : Module} (m : Module) (code : Word16) (payload : List Byte) (hk : Keeps m0 m) :
    Keeps m0 (m.event code payload) := hk.ofDrives (drives_event ..)
theorem keeps_vitalStop {m0 : Module} (m : Module) (hk : Keeps m0 m) :
    Keeps m0 m.vitalStop := hk.ofDrives (drives_vitalStop ..)
theorem keeps_ledgerEvent {m0 : Module} (m : Module) (state cause slice stretch dropped : Nat) (hk : Keeps m0 m) :
    Keeps m0 (m.ledgerEvent state cause slice stretch dropped) := by
  unfold Module.ledgerEvent
  with_reducible (apply keeps_event; assumption)
theorem keeps_judgeLedger {m0 : Module} (m : Module) (cause : Nat) (hk : Keeps m0 m) :
    Keeps m0 (m.judgeLedger cause) := by
  unfold Module.judgeLedger
  dsimp only; split; with_reducible (assumption; apply keeps_ledgerEvent; refine Keeps.update ?_ rfl; assumption)
theorem keeps_judgeLedgerFree {m0 : Module} (m : Module) (hk : Keeps m0 m) :
    Keeps m0 m.judgeLedgerFree := by
  unfold Module.judgeLedgerFree
  with_reducible (apply keeps_judgeLedger; refine Keeps.update ?_ rfl; assumption)
theorem keeps_storeItems {m0 : Module} (m : Module) (i : Items) (hk : Keeps m0 m) :
    Keeps m0 (m.storeItems i) := by
  unfold Module.storeItems
  dsimp only; with_reducible (refine Keeps.update ?_ rfl; assumption)
theorem keeps_pass {m0 : Module} (m : Module) (hk : Keeps m0 m) :
    Keeps m0 m.pass := hk.ofBooks (books_pass ..)
theorem keeps_redoJournal {m0 : Module} (m : Module) (hk : Keeps m0 m) :
    Keeps m0 m.redoJournal := by
  unfold Module.redoJournal
  dsimp only; split; with_reducible assumption; split; with_reducible (refine Keeps.update ?_ rfl; assumption)
  with_reducible (refine Keeps.update ?_ rfl; assumption)
theorem keeps_supplyEvent {m0 : Module} (m : Module) (cause : Byte) (hk : Keeps m0 m) :
    Keeps m0 (m.supplyEvent cause) := by
  unfold Module.supplyEvent
  with_reducible (refine Keeps.update ?_ rfl; assumption)
theorem keeps_writeRecord {m0 : Module} (m : Module) (b : Boundary) (hk : Keeps m0 m) :
    Keeps m0 (m.writeRecord b) := hk.ofBooks (books_writeRecord ..)
theorem keeps_demandClose {m0 : Module} (m : Module) (hk : Keeps m0 m) :
    Keeps m0 m.demandClose := hk.ofBooks (books_demandClose ..)
theorem keeps_tariffChange {m0 : Module} (m : Module) (hk : Keeps m0 m) :
    Keeps m0 m.tariffChange := hk.ofBooks (books_tariffChange ..)
theorem keeps_gapSince {m0 : Module} (m : Module) (b : Nat) (hk : Keeps m0 m) :
    Keeps m0 (m.gapSince b) := hk.ofBooks (books_gapSince ..)
theorem keeps_clearHalf {m0 : Module} (m : Module) (half : Nat) (hk : Keeps m0 m) :
    Keeps m0 (m.clearHalf half) := by
  unfold Module.clearHalf
  with_reducible (refine Keeps.update ?_ rfl; assumption)
theorem keeps_meterBoundary {m0 : Module} (m : Module) (hk : Keeps m0 m) :
    Keeps m0 m.meterBoundary := by
  unfold Module.meterBoundary
  dsimp only; split; with_reducible (refine Keeps.update ?_ rfl; apply keeps_clearHalf; apply keeps_gapSince)
  with_reducible assumption; split; with_reducible (refine Keeps.update ?_ rfl; apply keeps_clearHalf; assumption)
  with_reducible assumption
theorem keeps_gatherSecond {m0 : Module} (m : Module) (n : Nat) (right : Int) (hk : Keeps m0 m) :
    Keeps m0 (m.gatherSecond n right) := hk.ofBooks (books_gatherSecond ..)
theorem keeps_gatherLate {m0 : Module} (m : Module) (half n : Nat) (hk : Keeps m0 m) :
    Keeps m0 (m.gatherLate half n) := hk.ofBooks (books_gatherLate ..)
theorem keeps_substitute {m0 : Module} (m : Module) (slice bin : Nat) (hk : Keeps m0 m) :
    Keeps m0 (m.substitute slice bin) := by
  unfold Module.substitute
  dsimp only; with_reducible (apply keeps_each; assumption); intro _; intro _; intro _; split; split
  with_reducible (refine Keeps.update ?_ rfl; assumption; assumption; assumption)
theorem keeps_fillGaps {m0 : Module} (m : Module) (half slice : Nat) (hk : Keeps m0 m) :
    Keeps m0 (m.fillGaps half slice) := by
  unfold Module.fillGaps
  dsimp only; with_reducible (refine Keeps.update ?_ rfl; apply keeps_foldl; assumption); intro _; intro _; intro _
  with_reducible (apply keeps_substitute; assumption)
theorem keeps_addEnergy {m0 : Module} (m : Module) (half ticks tariff : Nat) (hk : Keeps m0 m) :
    Keeps m0 (m.addEnergy half ticks tariff) := by
  unfold Module.addEnergy
  dsimp only; with_reducible (refine Keeps.update ?_ rfl; assumption)
theorem keeps_countHalf {m0 : Module} (m : Module) (half ticks tariff : Nat) (hk : Keeps m0 m) :
    Keeps m0 (m.countHalf half ticks tariff) := hk.ofBooks (books_countHalf ..)
theorem keeps_writeBelow {m0 : Module} (m : Module) (au : Nat) (hk : Keeps m0 m) :
    Keeps m0 (m.writeBelow au) := hk.ofBooks (books_writeBelow ..)
theorem keeps_commitHalf {m0 : Module} (m : Module) (b ticks tariff : Nat) (hk : Keeps m0 m) :
    Keeps m0 (m.commitHalf b ticks tariff) := hk.ofBooks (books_commitHalf ..).1
theorem keeps_commitEnded {m0 : Module} (m : Module) (hk : Keeps m0 m) :
    Keeps m0 m.commitEnded := hk.ofBooks (books_commitEnded ..)
theorem keeps_countCut {m0 : Module} (m : Module) (hk : Keeps m0 m) :
    Keeps m0 m.countCut := hk.ofBooks (books_countCut ..)
theorem keeps_meterRebase {m0 : Module} (m : Module) (new : Nat) (hk : Keeps m0 m) :
    Keeps m0 (m.meterRebase new) := hk.ofBooks (books_meterRebase ..)
theorem keeps_closeRecords {m0 : Module} (m : Module) (f : Module → Module) (hk : Keeps m0 m)
    (hf : ∀ x, Keeps m0 x → Keeps m0 (f x)) :
    Keeps m0 (m.closeRecords f) := by
  unfold Module.closeRecords
  dsimp only; split; with_reducible (apply keeps_foldl; refine Keeps.update ?_ rfl; apply_assumption)
  with_reducible (refine Keeps.update ?_ rfl; apply keeps_demandClose; assumption); intro _; intro _; intro _
  with_reducible (apply keeps_writeRecord; assumption; refine Keeps.update ?_ rfl; apply_assumption)
  with_reducible (refine Keeps.update ?_ rfl; apply keeps_demandClose; assumption)
theorem keeps_settleStart {m0 : Module} (m : Module) (hk : Keeps m0 m) :
    Keeps m0 m.settleStart := hk.ofBooks (books_settleStart ..)
theorem keeps_meterStart {m0 : Module} (m : Module) (powerOn : Bool) (hk : Keeps m0 m) :
    Keeps m0 (m.meterStart powerOn) := by
  unfold Module.meterStart
  dsimp only; split; with_reducible (apply keeps_settleStart; refine Keeps.update ?_ rfl; apply keeps_redoJournal)
  with_reducible (assumption; refine Keeps.update ?_ rfl; apply keeps_redoJournal; assumption)
theorem keeps_hubReset {m0 : Module} (m : Module) (cause : ResetCause) (hk : Keeps m0 m) :
    Keeps m0 (m.hubReset cause) := by
  unfold Module.hubReset
  have h1 : Keeps m0 (m.closeRecords id) := keeps_closeRecords _ _ hk (fun _ hx => hx)
  refine h1.winOff (fun hs => ?_) rfl
  refine ⟨?_, ?_, rfl⟩
  · show Memory.wf (if _ then _ else _) = true
    split
    · rfl
    · exact hs.1
  · show Tbl.wf _ (if _ then _ else _) = true
    split
    · rfl
    · unfold Window.afterWarm; exact Tbl.wf_filter hs.2.1 _
theorem keeps_powerOnReset {m0 : Module} (m : Module) (hk : Keeps m0 m) :
    Keeps m0 m.powerOnReset := by
  unfold Module.powerOnReset
  dsimp only; with_reducible (refine Keeps.update ?_ rfl; apply keeps_reset)
theorem keeps_arrive {m0 : Module} (m : Module) (a : Word16 × Packet) (stamp : Nat) (good : Bool) (hk : Keeps m0 m) :
    Keeps m0 (m.arrive a stamp good) := by
  unfold Module.arrive
  with_reducible (refine Keeps.update ?_ rfl; assumption)
theorem keeps_closeFrame {m0 : Module} (m : Module) (port : Port) (stamp : Nat) (hk : Keeps m0 m) :
    Keeps m0 (m.closeFrame port stamp) := by
  unfold Module.closeFrame
  dsimp only; split; with_reducible (apply keeps_setPort; assumption); split; with_reducible apply keeps_setPort
  with_reducible (assumption; apply keeps_arrive; apply keeps_setPort; assumption)
theorem keeps_passChar {m0 : Module} (m : Module) (port : Port) (c : BitVec 9) (stamp : Nat) (hk : Keeps m0 m) :
    Keeps m0 (m.passChar port c stamp) := by
  unfold Module.passChar
  dsimp only; split; with_reducible (apply keeps_closeFrame; assumption; apply keeps_setPort; assumption)
theorem keeps_hold {m0 : Module} (m : Module) (port : Port) (c : BitVec 9) (hk : Keeps m0 m) :
    Keeps m0 (m.hold port c) := by
  unfold Module.hold
  dsimp only; split; with_reducible (apply keeps_setPort; assumption); split; with_reducible apply keeps_setPort
  with_reducible (assumption; apply keeps_passChar; assumption)
theorem keeps_freeBuffer {m0 : Module} (m : Module) (port : Port) (hk : Keeps m0 m) :
    Keeps m0 (m.freeBuffer port) := by
  unfold Module.freeBuffer
  dsimp only; split; split; with_reducible (apply keeps_passChar; apply keeps_setPort; apply keeps_setPort)
  with_reducible (assumption; apply keeps_setPort; assumption; apply keeps_setPort; assumption)
theorem keeps_receive {m0 : Module} (m : Module) (port : Port) (c : BitVec 9) (startOne stopOne noisy : Bool)
    (hk : Keeps m0 m) :
    Keeps m0 (m.receive port c startOne stopOne noisy) := by
  unfold Module.receive
  dsimp only; split; with_reducible (apply keeps_setPort; apply keeps_setPort; assumption); split
  with_reducible (apply keeps_setPort; assumption); split; with_reducible (apply keeps_setPort; apply keeps_setPort)
  with_reducible assumption; split; with_reducible (apply keeps_put; apply keeps_setPort; apply keeps_setPort)
  with_reducible assumption; split; with_reducible (apply keeps_setPort; apply keeps_setPort; assumption); split
  with_reducible (apply keeps_setPort; apply keeps_setPort; apply keeps_setPort; assumption; apply keeps_hold)
  with_reducible (apply keeps_setPort; apply keeps_setPort; assumption)
theorem keeps_dequeue {m0 : Module} (m : Module) (p : Packet) (hk : Keeps m0 m) :
    Keeps m0 (m.dequeue p) := by
  unfold Module.dequeue
  split; with_reducible (refine Keeps.update ?_ rfl; assumption); dsimp only; split
  with_reducible (apply keeps_freeBuffer; refine Keeps.update ?_ rfl; assumption; apply keeps_freeBuffer)
  with_reducible (refine Keeps.update ?_ rfl; assumption; refine Keeps.update ?_ rfl; assumption)
theorem keeps_wait {m0 : Module} (m : Module) (opcode : Word16) (p : Packet) (good : Bool) (hk : Keeps m0 m) :
    Keeps m0 (m.wait opcode p good) := by
  unfold Module.wait
  split; with_reducible assumption; dsimp only; split; with_reducible (apply keeps_setPort; apply keeps_arrive)
  with_reducible (assumption; apply keeps_setPort; apply keeps_arrive; assumption; apply keeps_arrive; assumption)
theorem keeps_turn {m0 : Module} (m : Module) (opcode : Word16) (p : Packet) (good : Bool) (f : Module → Module)
    (hk : Keeps m0 m) (hf : ∀ x, Keeps m0 x → Keeps m0 (f x)) :
    Keeps m0 (m.turn opcode p good f) := by
  unfold Module.turn
  split; with_reducible assumption; split; with_reducible (apply_assumption; apply keeps_dequeue; assumption)
  with_reducible (apply keeps_wait; assumption)
theorem keeps_resend {m0 : Module} (m : Module) (opcode : Word16) (p : Packet) (r : Reply) (hk : Keeps m0 m) :
    Keeps m0 (m.resend opcode p r) := by
  unfold Module.resend
  with_reducible (apply keeps_emit; assumption)
theorem keeps_retried {m0 : Module} (m : Module) (opcode : Word16) (p : Packet) (hk : Keeps m0 m) (t : Module)
    (ht : m.retried opcode p = some t) : Keeps m0 t := by
  unfold Module.retried at ht
  dsimp only at ht
  repeat' split at ht
  all_goals first | cases ht | skip
  all_goals first
    | exact keeps_emit _ _ _ _ hk
    | (refine keeps_foldr _ _ hk ?_; intro e x hx; try dsimp only
       split
       · exact keeps_resend _ _ _ _ hx
       · exact hx)
theorem keeps_schedule {m0 : Module} (m : Module) (p : Packet) (t : Word16) (due : Nat) (hk : Keeps m0 m) :
    Keeps m0 (m.schedule p t due) := by
  unfold Module.schedule
  with_reducible (apply keeps_setTill; assumption)
theorem keeps_serveHere {m0 : Module} (m : Module) (op : Op) (p : Packet) (hk : Keeps m0 m)
    (ha : ∀ x w, Keeps m0 x → Keeps m0 (op.act x p w).1) (hf : ∀ x, Keeps m0 x → Keeps m0 (op.after x p)) :
    Keeps m0 (m.serveHere op p) := by
  have k : ∀ (x : Module) (w : When) (g : Ans → Ans), Keeps m0 x → Keeps m0 (match op.act x p w with
    | (m, none) => m.noteTaken op.code p
    | (m, some a) => op.after (m.answer op.code p (g a).rflags a.status (g a).detail a.payload) p) := by
    intro x w g hx
    have hh := ha x w hx
    cases he : op.act x p w with
    | mk a b =>
      rw [he] at hh
      cases b with
      | none => exact keeps_noteTaken _ _ _ hh
      | some a => exact hf _ (keeps_answer _ _ _ _ _ _ _ hh)
  unfold Module.serveHere
  split
  · dsimp only
    refine keeps_answer _ _ _ _ _ _ _ ?_
    split
    · with_reducible refine Keeps.update ?_ rfl; exact hk
    · exact hk
  · dsimp only
    refine k _ _ (fun a => { a with
      rflags := if (((m.clk.execAt p).getD (m.clk.soon, false)).2 = true) then a.rflags ||| rfLate else a.rflags
      detail := (if p.timed = true then m.freeSched else none).getD a.detail }) ?_
    split
    · exact keeps_schedule _ _ _ _ hk
    · exact hk
theorem keeps_forward {m0 : Module} (m : Module) (op : Op) (p : Packet) (q : Nat) (hk : Keeps m0 m) :
    Keeps m0 (m.forward op p q) := by
  unfold Module.forward
  dsimp only; split; split; with_reducible (apply keeps_answer; assumption; apply keeps_noteTaken)
  with_reducible (refine Keeps.update ?_ rfl; apply keeps_ringSend; apply keeps_setTill; assumption)
  with_reducible (apply keeps_answer; assumption)
theorem keeps_judge {m0 : Module} (m : Module) (op : Op) (p : Packet) (hk : Keeps m0 m)
    (ha : ∀ x w, Keeps m0 x → Keeps m0 (op.act x p w).1) (hf : ∀ x, Keeps m0 x → Keeps m0 (op.after x p)) :
    Keeps m0 (m.judge op p) := by
  unfold Module.judge
  split
  · exact keeps_retried _ _ _ hk _ (by assumption)
  · split
    · exact keeps_answer _ _ _ _ _ _ _ hk
    · exact keeps_serveHere _ _ _ hk ha hf
    · split
      · exact keeps_forward _ _ _ _ hk
      · exact keeps_answer _ _ _ _ _ _ _ hk
    · exact keeps_serveHere _ _ _ (keeps_foldl _ _ hk (fun x a hx => keeps_forward _ _ _ _ hx)) ha hf
theorem keeps_serve {m0 : Module} (m : Module) (op : Op) (p : Packet) (hk : Keeps m0 m)
    (ha : ∀ x w, Keeps m0 x → Keeps m0 (op.act x p w).1) (hf : ∀ x, Keeps m0 x → Keeps m0 (op.after x p)) :
    Keeps m0 (m.serve op p) :=
  keeps_turn m op.code p true _ hk (fun x hx => keeps_judge x op p hx ha hf)
theorem keeps_draw {m0 : Module} (m : Module) (n : Nat) (hk : Keeps m0 m) :
    Keeps m0 (m.draw n).1 := by
  unfold Module.draw
  dsimp only; with_reducible (refine Keeps.update ?_ rfl; assumption)
theorem keeps_awaitEntropy {m0 : Module} (m : Module) (consumer n : Nat) (serves : Option (Word16 × Packet))
    (hk : Keeps m0 m) :
    Keeps m0 (m.awaitEntropy consumer n serves) := by
  unfold Module.awaitEntropy
  with_reducible (refine Keeps.update ?_ rfl; assumption)
theorem keeps_openAll {m0 : Module} (m : Module) (n : Nat) (f : Chan → Chan) (hk : Keeps m0 m) :
    Keeps m0 (m.openAll n f) := by
  unfold Module.openAll
  with_reducible (apply keeps_each; assumption); intro _; intro _; intro _; with_reducible apply keeps_setChan
  with_reducible assumption
theorem keeps_countOn {m0 : Module} (m : Module) (ch : Nat) (dim : Bool) (hk : Keeps m0 m) :
    Keeps m0 (m.countOn ch dim) := by
  unfold Module.countOn
  dsimp only; with_reducible (apply keeps_setSlice; assumption)
theorem keeps_moveSwitch {m0 : Module} (m : Module) (ch : Nat) (want : Bool) (hk : Keeps m0 m) :
    Keeps m0 (m.moveSwitch ch want) := by
  unfold Module.moveSwitch
  dsimp only; with_reducible apply keeps_setChan; split; with_reducible (apply keeps_countOn; apply keeps_setChan)
  with_reducible (assumption; apply keeps_setChan; assumption)
theorem keeps_refresh {m0 : Module} (m : Module) (ch : Nat) (hk : Keeps m0 m) :
    Keeps m0 (m.refresh ch) := by
  unfold Module.refresh
  with_reducible (apply keeps_moveSwitch; assumption)
theorem keeps_settleLearns {m0 : Module} (m : Module) (hk : Keeps m0 m) :
    Keeps m0 m.settleLearns := by
  unfold Module.settleLearns
  dsimp only; with_reducible (apply keeps_foldl; refine Keeps.update ?_ rfl; assumption); intro _; intro _; intro _
  with_reducible (apply keeps_final; assumption)
theorem keeps_settleWires {m0 : Module} (m : Module) (hk : Keeps m0 m) :
    Keeps m0 m.settleWires := by
  unfold Module.settleWires
  dsimp only; with_reducible (apply keeps_foldl; refine Keeps.update ?_ rfl; assumption); intro _; intro _; intro _
  with_reducible (apply keeps_final; assumption)
theorem keeps_dropSamples {m0 : Module} (m : Module) (p : Nat → Bool) (hk : Keeps m0 m) :
    Keeps m0 (m.dropSamples p) := by
  unfold Module.dropSamples
  with_reducible (refine Keeps.update ?_ rfl; assumption)
theorem keeps_stopLearning {m0 : Module} (m : Module) (p : Nat → Bool) (result : Nat) (restarted : Bool)
    (hk : Keeps m0 m) :
    Keeps m0 (m.stopLearning p result restarted) := by
  unfold Module.stopLearning
  dsimp only; with_reducible (apply keeps_settleLearns; apply keeps_dropSamples; refine Keeps.update ?_ rfl)
  with_reducible assumption
theorem keeps_learnGuard {m0 : Module} (m : Module) (p : Nat → Bool) (hk : Keeps m0 m) :
    Keeps m0 (m.learnGuard p) := by
  unfold Module.learnGuard
  with_reducible (apply keeps_stopLearning; assumption)
theorem keeps_stopWires {m0 : Module} (m : Module) (p : Nat → Bool) (restarted : Bool) (hk : Keeps m0 m) :
    Keeps m0 (m.stopWires p restarted) := by
  unfold Module.stopWires
  dsimp only; with_reducible (apply keeps_settleWires; refine Keeps.update ?_ rfl; assumption)
theorem keeps_endFault {m0 : Module} (m : Module) (ch kind how : Nat) (hk : Keeps m0 m) :
    Keeps m0 (m.endFault ch kind how) := hk.ofDrives (drives_endFault ..)
theorem keeps_detect {m0 : Module} (m : Module) (ch kind : Nat) (cycle : Cycle) (angle : Angle) (bin : Nat)
    (value : Int) (hk : Keeps m0 m) :
    Keeps m0 (m.detect ch kind cycle angle bin value) := hk.ofDrives (drives_detect ..)
theorem keeps_patternChanged {m0 : Module} (m : Module) (ch : Nat) (old : Pattern) (hk : Keeps m0 m) :
    Keeps m0 (m.patternChanged ch old) := by
  unfold Module.patternChanged
  dsimp only; split; with_reducible assumption; split; with_reducible apply keeps_endFault; split
  with_reducible (apply keeps_stopWires; apply keeps_setSlice; apply keeps_setOwn; apply keeps_learnGuard)
  with_reducible (apply keeps_setChan; assumption; apply keeps_learnGuard; apply keeps_setChan; assumption)
  with_reducible apply keeps_endFault; split; with_reducible (apply keeps_stopWires; apply keeps_setSlice)
  with_reducible (apply keeps_setOwn; apply keeps_learnGuard; apply keeps_setChan; assumption; apply keeps_learnGuard)
  with_reducible (apply keeps_setChan; assumption)
theorem keeps_takeEffect {m0 : Module} (m : Module) (ch : Nat) (f : Chan → Chan) (hk : Keeps m0 m) :
    Keeps m0 (m.takeEffect ch f) := by
  unfold Module.takeEffect
  dsimp only; split; with_reducible (apply keeps_moveSwitch; apply keeps_setChan; apply keeps_patternChanged)
  with_reducible (apply keeps_setChan; assumption; apply keeps_refresh; apply keeps_setChan)
  with_reducible (apply keeps_patternChanged; apply keeps_setChan; assumption)
theorem keeps_applyStart {m0 : Module} (m : Module) (ch : Nat) (hk : Keeps m0 m) :
    Keeps m0 (m.applyStart ch) := by
  unfold Module.applyStart
  dsimp only; with_reducible (apply keeps_takeEffect; assumption)
theorem keeps_applyFallback {m0 : Module} (m : Module) (ch : Nat) (hk : Keeps m0 m) :
    Keeps m0 (m.applyFallback ch) := by
  unfold Module.applyFallback
  dsimp only; split; split; with_reducible (assumption; apply keeps_applyStart; assumption); split
  with_reducible (apply keeps_refresh; assumption; apply keeps_takeEffect; assumption)
theorem keeps_putFrame {m0 : Module} (m : Module) (n : Nat) (u : Unacked) (hk : Keeps m0 m) :
    Keeps m0 (m.putFrame n u) := by
  unfold Module.putFrame
  with_reducible (apply keeps_put; assumption)
theorem keeps_setFrames {m0 : Module} (m : Module) (n : Nat) (l : List Unacked) (hk : Keeps m0 m) :
    Keeps m0 (m.setFrames n l) := by
  unfold Module.setFrames
  dsimp only; with_reducible (apply keeps_foldl; apply keeps_setSlice; assumption); intro _; intro _; intro _; split
  with_reducible (apply keeps_putFrame; assumption; assumption)
theorem keeps_sendSlice {m0 : Module} (m : Module) (n : Nat) (msg : HubMsg) (serves : Option (Word16 × Packet))
    (hk : Keeps m0 m) :
    Keeps m0 (m.sendSlice n msg serves) := by
  unfold Module.sendSlice
  dsimp only; with_reducible (apply keeps_setFrames; apply keeps_setSlice; assumption)
theorem keeps_planAll {m0 : Module} (m : Module) (body : Nat → PlanBody) (hk : Keeps m0 m) :
    Keeps m0 (m.planAll body) := by
  unfold Module.planAll
  with_reducible (apply keeps_each; assumption); intro _; intro _; intro _; split
  with_reducible (apply keeps_sendSlice; assumption; assumption)
theorem keeps_beginLoad {m0 : Module} (m : Module) (n : Nat) (hk : Keeps m0 m) :
    Keeps m0 (m.beginLoad n) := by
  unfold Module.beginLoad
  dsimp only; with_reducible (apply keeps_sendSlice; apply keeps_sendSlice; apply keeps_setSlice; assumption)
theorem keeps_holdFailed {m0 : Module} (m : Module) (n : Nat) (hk : Keeps m0 m) :
    Keeps m0 (m.holdFailed n) := by
  unfold Module.holdFailed
  dsimp only; with_reducible (apply keeps_each; apply keeps_setOwn; apply keeps_openAll; apply keeps_setSlice)
  with_reducible assumption; intro _; intro _; intro _; with_reducible (apply keeps_detect; assumption)
theorem keeps_failBist {m0 : Module} (m : Module) (n : Nat) (hk : Keeps m0 m) :
    Keeps m0 (m.failBist n) := by
  unfold Module.failBist
  split; split; with_reducible (apply keeps_final; refine Keeps.update ?_ rfl; assumption; assumption; assumption)
theorem keeps_sliceReset {m0 : Module} (m : Module) (n : Nat) (link : Bool) (hk : Keeps m0 m) :
    Keeps m0 (m.sliceReset n link) := by
  unfold Module.sliceReset
  dsimp only; with_reducible apply keeps_failBist; split; with_reducible apply keeps_holdFailed
  with_reducible (apply keeps_stopWires; apply keeps_stopLearning; apply keeps_foldl; apply keeps_each); split
  with_reducible (apply keeps_put; apply keeps_setSlice; assumption; apply keeps_setSlice; assumption); intro _
  intro _; intro _; with_reducible (apply keeps_setChan; assumption); intro _; intro _; intro _; split
  with_reducible (apply keeps_complete; assumption; assumption); split; with_reducible apply keeps_stopWires
  with_reducible (apply keeps_stopLearning; apply keeps_foldl; apply keeps_each; apply keeps_put)
  with_reducible (apply keeps_setSlice; assumption); intro _; intro _; intro _; with_reducible apply keeps_setChan
  with_reducible assumption; intro _; intro _; intro _; split; with_reducible (apply keeps_complete; assumption)
  with_reducible (assumption; apply keeps_beginLoad; apply keeps_stopWires; apply keeps_stopLearning)
  with_reducible (apply keeps_foldl; apply keeps_each; apply keeps_setSlice; assumption); intro _; intro _; intro _
  with_reducible (apply keeps_setChan; assumption); intro _; intro _; intro _; split
  with_reducible (apply keeps_complete; assumption; assumption)
theorem keeps_loadFailed {m0 : Module} (m : Module) (n : Nat) (hk : Keeps m0 m) :
    Keeps m0 (m.loadFailed n) := by
  unfold Module.loadFailed
  dsimp only; split; with_reducible (apply keeps_holdFailed; assumption; apply keeps_beginLoad; apply keeps_setSlice)
  with_reducible assumption
theorem keeps_fromSlice {m0 : Module} (m : Module) (n : Nat) (hdr : SliceHdr) (f : Module → Module)
    (hk : Keeps m0 m) (hf : ∀ x, Keeps m0 x → Keeps m0 (f x)) :
    Keeps m0 (m.fromSlice n hdr f) := by
  unfold Module.fromSlice
  dsimp only; split; with_reducible assumption; split; split; with_reducible (apply keeps_setSlice; assumption)
  with_reducible (apply keeps_sliceReset; assumption; apply_assumption; apply keeps_setFrames; apply keeps_setSlice)
  with_reducible assumption
theorem keeps_primaryNamed {m0 : Module} (m : Module) (hk : Keeps m0 m) :
    Keeps m0 m.primaryNamed := by
  unfold Module.primaryNamed
  dsimp only; split; with_reducible (refine Keeps.update ?_ rfl; assumption; refine Keeps.update ?_ rfl; assumption)
  with_reducible (refine Keeps.update ?_ rfl; assumption; refine Keeps.update ?_ rfl; assumption)
  with_reducible (refine Keeps.update ?_ rfl; assumption; assumption)
theorem keeps_configChanged {m0 : Module} (m : Module) (old : Items) (hk : Keeps m0 m) :
    Keeps m0 (m.configChanged old) := by
  unfold Module.configChanged
  dsimp only; split; with_reducible apply keeps_planAll; split; with_reducible apply keeps_planAll
  with_reducible refine Keeps.update ?_ rfl; split; with_reducible (assumption; apply keeps_primaryNamed; assumption)
  with_reducible refine Keeps.update ?_ rfl; split; with_reducible (assumption; apply keeps_primaryNamed; assumption)
  split; with_reducible (apply keeps_planAll; refine Keeps.update ?_ rfl); split; with_reducible assumption
  with_reducible (apply keeps_primaryNamed; assumption; refine Keeps.update ?_ rfl); split
  with_reducible (assumption; apply keeps_primaryNamed; assumption)

end Sys2Proof.Machine
end

