-- ==== Sys2Proof/Laws/KeepsUnits.lean ====
section
/-! SUPPORT. The same for the host window, the module's own opcodes, the session and the supplies (Laws/Keeps.lean). -/

namespace Sys2Proof.Machine
open Sys2Proof

theorem acts_opEnergyRead {m0 : Module} (p : Packet) (m : Module) (w : When) (hk : Keeps m0 m) :
    Keeps m0 (opEnergyRead.act m p w).1 := by
  unfold opEnergyRead
  with_reducible assumption
theorem after_opEnergyRead {m0 : Module} (p : Packet) (m : Module) (hk : Keeps m0 m) :
    Keeps m0 (opEnergyRead.after m p) := by
  unfold opEnergyRead
  with_reducible assumption
theorem acts_opTariffAt {m0 : Module} (p : Packet) (m : Module) (w : When) (hk : Keeps m0 m) :
    Keeps m0 (opTariffAt.act m p w).1 := by
  unfold opTariffAt
  dsimp only; with_reducible apply keeps_pass; split; with_reducible (refine Keeps.update ?_ rfl; assumption)
  with_reducible assumption
theorem after_opTariffAt {m0 : Module} (p : Packet) (m : Module) (hk : Keeps m0 m) :
    Keeps m0 (opTariffAt.after m p) := by
  unfold opTariffAt
  with_reducible assumption
theorem acts_opDemandSet {m0 : Module} (p : Packet) (m : Module) (w : When) (hk : Keeps m0 m) :
    Keeps m0 (opDemandSet.act m p w).1 := by
  unfold opDemandSet
  dsimp only; with_reducible (apply keeps_pass; refine Keeps.update ?_ rfl; assumption)
theorem after_opDemandSet {m0 : Module} (p : Packet) (m : Module) (hk : Keeps m0 m) :
    Keeps m0 (opDemandSet.after m p) := by
  unfold opDemandSet
  with_reducible assumption
theorem acts_opDemandRead {m0 : Module} (p : Packet) (m : Module) (w : When) (hk : Keeps m0 m) :
    Keeps m0 (opDemandRead.act m p w).1 := by
  unfold opDemandRead
  dsimp only; split; with_reducible (apply keeps_pass; refine Keeps.update ?_ rfl; assumption; assumption)
theorem after_opDemandRead {m0 : Module} (p : Packet) (m : Module) (hk : Keeps m0 m) :
    Keeps m0 (opDemandRead.after m p) := by
  unfold opDemandRead
  with_reducible assumption
theorem acts_opBoundaryRead {m0 : Module} (p : Packet) (m : Module) (w : When) (hk : Keeps m0 m) :
    Keeps m0 (opBoundaryRead.act m p w).1 := by
  unfold opBoundaryRead
  with_reducible assumption
theorem after_opBoundaryRead {m0 : Module} (p : Packet) (m : Module) (hk : Keeps m0 m) :
    Keeps m0 (opBoundaryRead.after m p) := by
  unfold opBoundaryRead
  with_reducible assumption
theorem keeps_addPlan {m0 : Module} (m : Module) (w : When) (acts : List (Nat × Shown)) (flash : Option
    (Nat × Nat × Nat × Nat)) (hk : Keeps m0 m) :
    Keeps m0 (m.addPlan w acts flash) := by
  unfold Module.addPlan
  dsimp only; with_reducible (refine Keeps.update ?_ rfl; assumption)
theorem acts_opChannelSet {m0 : Module} (p : Packet) (m : Module) (w : When) (hk : Keeps m0 m) :
    Keeps m0 (opChannelSet.act m p w).1 := by
  unfold opChannelSet
  dsimp only; with_reducible (apply keeps_addPlan; assumption)
theorem after_opChannelSet {m0 : Module} (p : Packet) (m : Module) (hk : Keeps m0 m) :
    Keeps m0 (opChannelSet.after m p) := by
  unfold opChannelSet
  with_reducible assumption
theorem acts_opAspectDefine {m0 : Module} (p : Packet) (m : Module) (w : When) (hk : Keeps m0 m) :
    Keeps m0 (opAspectDefine.act m p w).1 := by
  unfold opAspectDefine
  dsimp only; with_reducible (refine Keeps.update ?_ rfl; assumption)
theorem after_opAspectDefine {m0 : Module} (p : Packet) (m : Module) (hk : Keeps m0 m) :
    Keeps m0 (opAspectDefine.after m p) := by
  unfold opAspectDefine
  with_reducible assumption
theorem acts_opAspectShow {m0 : Module} (p : Packet) (m : Module) (w : When) (hk : Keeps m0 m) :
    Keeps m0 (opAspectShow.act m p w).1 := by
  unfold opAspectShow
  dsimp only; with_reducible (apply keeps_addPlan; assumption)
theorem after_opAspectShow {m0 : Module} (p : Packet) (m : Module) (hk : Keeps m0 m) :
    Keeps m0 (opAspectShow.after m p) := by
  unfold opAspectShow
  with_reducible assumption
theorem acts_opAspectDelete {m0 : Module} (p : Packet) (m : Module) (w : When) (hk : Keeps m0 m) :
    Keeps m0 (opAspectDelete.act m p w).1 := by
  unfold opAspectDelete
  dsimp only; with_reducible (refine Keeps.update ?_ rfl; assumption)
theorem after_opAspectDelete {m0 : Module} (p : Packet) (m : Module) (hk : Keeps m0 m) :
    Keeps m0 (opAspectDelete.after m p) := by
  unfold opAspectDelete
  with_reducible assumption
theorem acts_opFlashSet {m0 : Module} (p : Packet) (m : Module) (w : When) (hk : Keeps m0 m) :
    Keeps m0 (opFlashSet.act m p w).1 := by
  unfold opFlashSet
  dsimp only; with_reducible (apply keeps_addPlan; assumption)
theorem after_opFlashSet {m0 : Module} (p : Packet) (m : Module) (hk : Keeps m0 m) :
    Keeps m0 (opFlashSet.after m p) := by
  unfold opFlashSet
  with_reducible assumption
theorem acts_opChannelRead {m0 : Module} (p : Packet) (m : Module) (w : When) (hk : Keeps m0 m) :
    Keeps m0 (opChannelRead.act m p w).1 := by
  unfold opChannelRead
  with_reducible assumption
theorem after_opChannelRead {m0 : Module} (p : Packet) (m : Module) (hk : Keeps m0 m) :
    Keeps m0 (opChannelRead.after m p) := by
  unfold opChannelRead
  with_reducible assumption
theorem keeps_poke {m0 : Module} (m : Module) (a : Nat) (bs : List Byte) (hk : Keeps m0 m) : Keeps m0 (m.poke a bs) :=
  hk.winOf (fun hs => ⟨Memory.wf_writes hs.1 _ _, hs.2.1, hs.2.2⟩) rfl
theorem keeps_notice {m0 : Module} (m : Module) (hk : Keeps m0 m) :
    Keeps m0 m.notice := by
  unfold Module.notice
  with_reducible (refine Keeps.update ?_ rfl; assumption)
theorem keeps_returnBuffer {m0 : Module} (m : Module) (till : Word16) (needed : Nat) (hk : Keeps m0 m) :
    Keeps m0 (m.returnBuffer till needed) := by
  unfold Module.returnBuffer
  dsimp only; with_reducible (apply keeps_notice; apply keeps_setTill; apply keeps_poke; apply keeps_poke; assumption)
theorem keeps_placeIn {m0 : Module} (m : Module) (w : Waiting) (w0 : Nat) (hk : Keeps m0 m) :
    Keeps m0 (m.placeIn w w0) := by
  induction w0 generalizing m with
  | zero => exact hk
  | succ n keeps_placeIn =>
    unfold Module.placeIn
    dsimp only; split; with_reducible assumption; split; with_reducible (refine Keeps.update ?_ rfl; assumption)
    split; with_reducible (apply keeps_placeIn; apply keeps_returnBuffer; assumption; apply keeps_overflows); split
    with_reducible (apply keeps_notice; refine Keeps.update ?_ rfl; apply keeps_notice; apply keeps_setTill)
    with_reducible (apply keeps_poke; apply keeps_poke; apply keeps_poke; apply keeps_poke; assumption)
    with_reducible (refine Keeps.update ?_ rfl; apply keeps_notice; apply keeps_setTill; apply keeps_poke)
    with_reducible (apply keeps_poke; apply keeps_poke; apply keeps_poke; assumption)
theorem keeps_placeEntry {m0 : Module} (m : Module) (till : Word16) (hk : Keeps m0 m) :
    Keeps m0 (m.placeEntry till) := by
  unfold Module.placeEntry
  split; split; with_reducible (apply keeps_placeIn; assumption; assumption; assumption)
theorem keeps_keepRung {m0 : Module} (m : Module) (till : Word16) (l : List (Word16 × Nat)) (hk : Keeps m0 m) :
    Keeps m0 (m.keepRung till l) := by
  unfold Module.keepRung
  with_reducible (refine Keeps.update ?_ rfl; assumption)
theorem keeps_takeDescs {m0 : Module} (m : Module) (till : Word16) (w0 : Nat) (hk : Keeps m0 m) :
    Keeps m0 (m.takeDescs till w0) := by
  induction w0 generalizing m with
  | zero => exact hk
  | succ n keeps_takeDescs =>
    unfold Module.takeDescs
    dsimp only; split; with_reducible assumption; split; with_reducible (apply keeps_takeDescs; apply keeps_notice)
    with_reducible (apply keeps_setTill; apply keeps_poke; assumption; apply keeps_takeDescs; apply keeps_arrive)
    with_reducible (apply keeps_notice; apply keeps_setTill; apply keeps_poke; assumption)
theorem keeps_refuseDoorbell {m0 : Module} (m : Module) (till : Word16) (reason : Nat) (hk : Keeps m0 m) :
    Keeps m0 (m.refuseDoorbell till reason) := by
  unfold Module.refuseDoorbell
  with_reducible (refine Keeps.update ?_ rfl; assumption)
theorem keeps_restartKeepalive {m0 : Module} (m : Module) (hk : Keeps m0 m) :
    Keeps m0 m.restartKeepalive := by
  unfold Module.restartKeepalive
  with_reducible (refine Keeps.update ?_ rfl; assumption)
theorem keeps_doorbell {m0 : Module} (m : Module) (till prod epoch : Word16) (hk : Keeps m0 m) :
    Keeps m0 (m.doorbell till prod epoch) := by
  unfold Module.doorbell
  split; dsimp only; split; split; with_reducible (apply keeps_keepRung; apply keeps_takeDescs; apply keeps_keepRung)
  with_reducible (apply keeps_setTill; apply keeps_restartKeepalive; assumption; refine Keeps.update ?_ rfl)
  with_reducible (apply keeps_setTill; apply keeps_restartKeepalive; assumption; apply keeps_refuseDoorbell)
  with_reducible (apply keeps_restartKeepalive; assumption; assumption)
theorem keeps_detachHost {m0 : Module} (m : Module) (cause : Byte) (hk : Keeps m0 m) : Keeps m0
    (m.detachHost cause) := by
  unfold Module.detachHost
  split
  · refine hk.winOf (fun hs => ⟨hs.1, hs.2.1, ?_⟩) rfl
    refine Tbl.wf_map hs.2.2 _ (fun e he => ?_)
    split
    · refine ⟨rfl, fun hh => ?_⟩
      have := congrArg Till.state hh
      cases this
    · exact ⟨rfl, he⟩
  · exact hk
theorem keeps_dumpReady {m0 : Module} (m : Module) (hk : Keeps m0 m) :
    Keeps m0 m.dumpReady := by
  unfold Module.dumpReady
  split; with_reducible assumption; dsimp only; with_reducible (apply keeps_event; assumption)
theorem keeps_attachHost {m0 : Module} (m : Module) (page : Nat) (hk : Keeps m0 m) : Keeps m0
    (m.attachHost page) := by
  unfold Module.attachHost
  have hd := keeps_detachHost m 1 hk
  split
  · dsimp only
    split
    · refine keeps_dumpReady _ (keeps_restartKeepalive _ (keeps_setTill _ _ _ (keeps_setTill _ _ _ ?_)))
      exact hd.winOf (fun hs => ⟨hs.1, hs.2.1, Tbl.wf_filter hs.2.2 _⟩) rfl
    · exact (keeps_refuseDoorbell _ 0 5 hd).winOf (fun hs => hs) rfl
  · exact hk
theorem keeps_writeKeepalive {m0 : Module} (m : Module) (ms : Word16) (hk : Keeps m0 m) :
    Keeps m0 (m.writeKeepalive ms) := by
  unfold Module.writeKeepalive
  split; with_reducible (apply keeps_restartKeepalive; refine Keeps.update ?_ rfl; assumption; assumption)
theorem keeps_keepaliveExpiry {m0 : Module} (m : Module) (hk : Keeps m0 m) :
    Keeps m0 m.keepaliveExpiry := by
  unfold Module.keepaliveExpiry
  split; split; with_reducible (apply keeps_detachHost; assumption; assumption; assumption)
/-- Setting a page's code keeps the window's tables canonical. -/
theorem wf_setCode {w : Window} (k : Nat) (c : BitVec 2)
    (h : Memory.wf w.mem = true ∧ Tbl.wf 0 w.passbook = true ∧ Tbl.wf Till.closed w.tills = true) :
    Memory.wf (w.setCode k c).mem = true ∧ Tbl.wf 0 (w.setCode k c).passbook = true ∧
      Tbl.wf Till.closed (w.setCode k c).tills = true := by
  unfold Window.setCode; split
  · exact h
  · exact ⟨h.1, Tbl.wf_set h.2.1 _ _, h.2.2⟩
theorem wf_setCodes (first : Nat) (c : BitVec 2) : ∀ (l : List Nat) (w : Window),
    (Memory.wf w.mem = true ∧ Tbl.wf 0 w.passbook = true ∧ Tbl.wf Till.closed w.tills = true) →
    Memory.wf (l.foldl (fun w i => w.setCode (first + i) c) w).mem = true ∧
      Tbl.wf 0 (l.foldl (fun w i => w.setCode (first + i) c) w).passbook = true ∧
      Tbl.wf Till.closed (l.foldl (fun w i => w.setCode (first + i) c) w).tills = true
  | [], _, h => h
  | _ :: l, _, h => wf_setCodes first c l _ (wf_setCode _ _ h)
theorem keeps_endUnit {m0 : Module} (m : Module) (hk : Keeps m0 m) : Keeps m0 m.endUnit := by
  unfold Module.endUnit
  split
  · refine hk.winOf (fun hs => ?_) rfl
    unfold Safe; dsimp only; split
    · exact wf_setCode _ _ hs
    · exact hs
  · exact hk
theorem keeps_nextUnit {m0 : Module} (m : Module) (hk : Keeps m0 m) : Keeps m0 m.nextUnit := by
  unfold Module.nextUnit
  split
  · dsimp only
    split
    · exact (keeps_endUnit m hk).winOf (fun hs => wf_setCode _ _ hs) rfl
    · with_reducible refine Keeps.update ?_ rfl; exact keeps_endUnit m hk
  · exact hk
theorem keeps_exchange {m0 : Module} (m : Module) (first count : Nat) (expect new : BitVec 2) (seq : Word16)
    (hk : Keeps m0 m) :
    Keeps m0 (m.exchange first count expect new seq) := by
  refine (keeps_nextUnit m hk).winOf (fun hs => ?_) rfl
  by_cases hc : (m.nextUnit.pxOutcome first count expect new).1 = 0
  · have := wf_setCodes first new (List.range count) m.nextUnit.win hs
    unfold Module.exchange Safe; dsimp only; rw [if_pos hc]; exact this
  · unfold Module.exchange Safe; dsimp only; rw [if_neg hc]; exact hs
theorem keeps_badFrame {m0 : Module} (m : Module) (hk : Keeps m0 m) :
    Keeps m0 m.badFrame := by
  unfold Module.badFrame
  dsimp only; with_reducible (apply keeps_put; refine Keeps.update ?_ rfl; assumption)
theorem keeps_violate {m0 : Module} (m : Module) (page : Nat) (hk : Keeps m0 m) :
    Keeps m0 (m.violate page) := by
  unfold Module.violate
  with_reducible (refine Keeps.update ?_ rfl; assumption)
theorem keeps_writeAttach {m0 : Module} (m : Module) (v : Nat) (hk : Keeps m0 m) :
    Keeps m0 (m.writeAttach v) := by
  unfold Module.writeAttach
  split; with_reducible (apply keeps_attachHost; assumption; apply keeps_detachHost; assumption)
theorem keeps_writePage0 {m0 : Module} (m : Module) (o : Nat) (data : List Byte) (hk : Keeps m0 m) :
    Keeps m0 (m.writePage0 o data) := by
  unfold Module.writePage0
  dsimp only; split; with_reducible (apply keeps_violate; assumption); split; with_reducible apply keeps_exchange
  split; with_reducible apply keeps_writeKeepalive; split; with_reducible apply keeps_writeAttach; split
  with_reducible (apply keeps_doorbell; refine Keeps.update ?_ rfl; assumption; refine Keeps.update ?_ rfl)
  with_reducible assumption; split; with_reducible (apply keeps_doorbell; refine Keeps.update ?_ rfl; assumption)
  with_reducible (refine Keeps.update ?_ rfl; assumption); split; with_reducible apply keeps_writeAttach; split
  with_reducible (apply keeps_doorbell; refine Keeps.update ?_ rfl; assumption; refine Keeps.update ?_ rfl)
  with_reducible assumption; split; with_reducible (apply keeps_doorbell; refine Keeps.update ?_ rfl; assumption)
  with_reducible (refine Keeps.update ?_ rfl; assumption); split; with_reducible apply keeps_writeKeepalive; split
  with_reducible apply keeps_writeAttach; split; with_reducible (apply keeps_doorbell; refine Keeps.update ?_ rfl)
  with_reducible (assumption; refine Keeps.update ?_ rfl; assumption); split; with_reducible apply keeps_doorbell
  with_reducible (refine Keeps.update ?_ rfl; assumption; refine Keeps.update ?_ rfl; assumption); split
  with_reducible apply keeps_writeAttach; split; with_reducible (apply keeps_doorbell; refine Keeps.update ?_ rfl)
  with_reducible (assumption; refine Keeps.update ?_ rfl; assumption); split; with_reducible apply keeps_doorbell
  with_reducible (refine Keeps.update ?_ rfl; assumption; refine Keeps.update ?_ rfl; assumption)
theorem keeps_write {m0 : Module} (m : Module) (o : Nat) (data : List Byte) (hk : Keeps m0 m) :
    Keeps m0 (m.write o data) := by
  unfold Module.write
  dsimp only; split; with_reducible (apply keeps_violate; apply keeps_nextUnit; assumption); split
  with_reducible (apply keeps_writePage0; apply keeps_nextUnit; assumption); split
  with_reducible (refine Keeps.update ?_ rfl; apply keeps_poke; apply keeps_nextUnit; assumption; apply keeps_violate)
  with_reducible (apply keeps_nextUnit; assumption)
theorem keeps_readReq {m0 : Module} (m : Module) (tag o n : Nat) (hk : Keeps m0 m) :
    Keeps m0 (m.readReq tag o n) := by
  unfold Module.readReq
  dsimp only; with_reducible (apply keeps_put; apply keeps_nextUnit; assumption)
theorem keeps_hostHello {m0 : Module} (m : Module) (hk : Keeps m0 m) :
    Keeps m0 m.hostHello := by
  unfold Module.hostHello
  with_reducible (apply keeps_put; refine Keeps.update ?_ rfl; assumption)
theorem keeps_pageEcc {m0 : Module} (m : Module) (source : Byte) (word : Nat) (hk : Keeps m0 m) :
    Keeps m0 (m.pageEcc source word) := by
  unfold Module.pageEcc
  dsimp only; split; with_reducible (assumption; apply keeps_event; refine Keeps.update ?_ rfl; assumption)
theorem keeps_resetStep {m0 : Module} (m : Module) (hk : Keeps m0 m) :
    Keeps m0 m.resetStep := by
  unfold Module.resetStep
  split; with_reducible (refine Keeps.update ?_ rfl; assumption; assumption)
theorem acts_opCapabilityRead {m0 : Module} (p : Packet) (m : Module) (w : When) (hk : Keeps m0 m) :
    Keeps m0 (opCapabilityRead.act m p w).1 := by
  unfold opCapabilityRead
  with_reducible assumption
theorem after_opCapabilityRead {m0 : Module} (p : Packet) (m : Module) (hk : Keeps m0 m) :
    Keeps m0 (opCapabilityRead.after m p) := by
  unfold opCapabilityRead
  with_reducible assumption
theorem acts_opStatusRead {m0 : Module} (p : Packet) (m : Module) (w : When) (hk : Keeps m0 m) :
    Keeps m0 (opStatusRead.act m p w).1 := by
  unfold opStatusRead
  dsimp only; split; with_reducible (refine Keeps.update ?_ rfl; assumption; assumption)
theorem after_opStatusRead {m0 : Module} (p : Packet) (m : Module) (hk : Keeps m0 m) :
    Keeps m0 (opStatusRead.after m p) := by
  unfold opStatusRead
  with_reducible assumption
theorem acts_opTimeRead {m0 : Module} (p : Packet) (m : Module) (w : When) (hk : Keeps m0 m) :
    Keeps m0 (opTimeRead.act m p w).1 := by
  unfold opTimeRead
  dsimp only; with_reducible (refine Keeps.update ?_ rfl; assumption)
theorem after_opTimeRead {m0 : Module} (p : Packet) (m : Module) (hk : Keeps m0 m) :
    Keeps m0 (opTimeRead.after m p) := by
  unfold opTimeRead
  with_reducible assumption
theorem acts_opTillOpen {m0 : Module} (p : Packet) (m : Module) (w : When) (hk : Keeps m0 m) :
    Keeps m0 (opTillOpen.act m p w).1 := by
  unfold opTillOpen
  dsimp only; with_reducible (apply keeps_setTill; assumption)
theorem after_opTillOpen {m0 : Module} (p : Packet) (m : Module) (hk : Keeps m0 m) :
    Keeps m0 (opTillOpen.after m p) := by
  unfold opTillOpen
  with_reducible assumption
theorem keeps_closeTill {m0 : Module} (m : Module) (p : Packet) (id : Word16) (hk : Keeps m0 m) :
    Keeps m0 (m.closeTill p id) := by
  unfold Module.closeTill
  dsimp only; with_reducible apply keeps_overflows; split; split; with_reducible apply keeps_setTill
  with_reducible (refine Keeps.update ?_ rfl; assumption; apply keeps_settleClosing; apply keeps_setTill)
  with_reducible (refine Keeps.update ?_ rfl; assumption); split; with_reducible refine Keeps.update ?_ rfl
  with_reducible (assumption; apply keeps_setTill; refine Keeps.update ?_ rfl; assumption)
theorem acts_opTillClose {m0 : Module} (p : Packet) (m : Module) (w : When) (hk : Keeps m0 m) :
    Keeps m0 (opTillClose.act m p w).1 := by
  unfold opTillClose
  dsimp only; with_reducible (apply keeps_closeTill; assumption)
theorem after_opTillClose {m0 : Module} (p : Packet) (m : Module) (hk : Keeps m0 m) :
    Keeps m0 (opTillClose.after m p) := by
  unfold opTillClose
  with_reducible assumption
theorem acts_opTillRead {m0 : Module} (p : Packet) (m : Module) (w : When) (hk : Keeps m0 m) :
    Keeps m0 (opTillRead.act m p w).1 := by
  unfold opTillRead
  with_reducible assumption
theorem after_opTillRead {m0 : Module} (p : Packet) (m : Module) (hk : Keeps m0 m) :
    Keeps m0 (opTillRead.after m p) := by
  unfold opTillRead
  with_reducible assumption
theorem keeps_freeSchedule {m0 : Module} (m : Module) (t : Word16) (hk : Keeps m0 m) :
    Keeps m0 (m.freeSchedule t) := by
  unfold Module.freeSchedule
  dsimp only; with_reducible (refine Keeps.update ?_ rfl; apply keeps_setTill; assumption)
theorem acts_opScheduleCancel {m0 : Module} (p : Packet) (m : Module) (w : When) (hk : Keeps m0 m) :
    Keeps m0 (opScheduleCancel.act m p w).1 := by
  unfold opScheduleCancel
  dsimp only; with_reducible (apply keeps_freeSchedule; assumption)
theorem after_opScheduleCancel {m0 : Module} (p : Packet) (m : Module) (hk : Keeps m0 m) :
    Keeps m0 (opScheduleCancel.after m p) := by
  unfold opScheduleCancel
  with_reducible assumption
theorem acts_opTagQuery {m0 : Module} (p : Packet) (m : Module) (w : When) (hk : Keeps m0 m) :
    Keeps m0 (opTagQuery.act m p w).1 := by
  unfold opTagQuery
  with_reducible assumption
theorem after_opTagQuery {m0 : Module} (p : Packet) (m : Module) (hk : Keeps m0 m) :
    Keeps m0 (opTagQuery.after m p) := by
  unfold opTagQuery
  with_reducible assumption
theorem acts_opReset {m0 : Module} (p : Packet) (m : Module) (w : When) (hk : Keeps m0 m) :
    Keeps m0 (opReset.act m p w).1 := by
  unfold opReset
  dsimp only; with_reducible (refine Keeps.update ?_ rfl; assumption)
theorem after_opReset {m0 : Module} (p : Packet) (m : Module) (hk : Keeps m0 m) :
    Keeps m0 (opReset.after m p) := by
  unfold opReset
  dsimp only; with_reducible (apply keeps_resetStep; assumption)
theorem keeps_capBackup {m0 : Module} (m : Module) (hk : Keeps m0 m) :
    Keeps m0 m.capBackup := by
  unfold Module.capBackup
  with_reducible (refine Keeps.update ?_ rfl; assumption)
theorem keeps_reloadAll {m0 : Module} (m : Module) (hk : Keeps m0 m) :
    Keeps m0 m.reloadAll := by
  unfold Module.reloadAll
  dsimp only; with_reducible (apply keeps_each; apply keeps_stopWires; apply keeps_stopLearning; apply keeps_foldl)
  with_reducible (refine Keeps.held ?_ rfl rfl; assumption); intro _; intro _; intro _
  with_reducible (apply keeps_complete; assumption); intro _; intro _; intro _; with_reducible apply keeps_failBist
  split; with_reducible (assumption; apply keeps_beginLoad; assumption)
theorem keeps_leaveShelf {m0 : Module} (m : Module) (hk : Keeps m0 m) :
    Keeps m0 m.leaveShelf := by
  unfold Module.leaveShelf
  split; with_reducible (apply keeps_reloadAll; refine Keeps.update ?_ rfl; assumption; assumption)
theorem keeps_storeImage {m0 : Module} (m : Module) (p : Packet) (bytes : List Byte) (hk : Keeps m0 m) :
    Keeps m0 (m.storeImage p bytes).1 := by
  unfold Module.storeImage
  dsimp only; split; dsimp only; with_reducible (refine Keeps.update ?_ rfl; assumption); split; dsimp only
  with_reducible (refine Keeps.update ?_ rfl; assumption); dsimp only; with_reducible apply keeps_leaveShelf
  with_reducible (apply keeps_judgeLedgerFree; apply keeps_capBackup; apply keeps_configChanged)
  with_reducible (apply keeps_storeItems; refine Keeps.update ?_ rfl; assumption)
theorem acts_opConfigWrite {m0 : Module} (p : Packet) (m : Module) (w : When) (hk : Keeps m0 m) :
    Keeps m0 (opConfigWrite.act m p w).1 := by
  unfold opConfigWrite
  dsimp only; split; with_reducible (apply keeps_storeImage; assumption); dsimp only
  with_reducible (refine Keeps.update ?_ rfl; assumption)
theorem after_opConfigWrite {m0 : Module} (p : Packet) (m : Module) (hk : Keeps m0 m) :
    Keeps m0 (opConfigWrite.after m p) := by
  unfold opConfigWrite
  with_reducible assumption
theorem acts_opConfigRead {m0 : Module} (p : Packet) (m : Module) (w : When) (hk : Keeps m0 m) :
    Keeps m0 (opConfigRead.act m p w).1 := by
  unfold opConfigRead
  with_reducible assumption
theorem after_opConfigRead {m0 : Module} (p : Packet) (m : Module) (hk : Keeps m0 m) :
    Keeps m0 (opConfigRead.after m p) := by
  unfold opConfigRead
  with_reducible assumption
theorem keeps_refuseBad {m0 : Module} (m : Module) (opcode : Word16) (p : Packet) (hk : Keeps m0 m) :
    Keeps m0 (m.refuseBad opcode p) := by
  unfold Module.refuseBad
  dsimp only; with_reducible (apply keeps_emit; refine Keeps.update ?_ rfl; assumption)
theorem keeps_undefinedOp {m0 : Module} (m : Module) (opcode : Word16) (p : Packet) (hk : Keeps m0 m) :
    Keeps m0 (m.undefinedOp opcode p) := by
  unfold Module.undefinedOp
  split
  · exact keeps_retried _ _ _ hk _ (by assumption)
  · exact keeps_answer _ _ _ _ _ _ _ hk
theorem acts_opSwatchLearn {m0 : Module} (p : Packet) (m : Module) (w : When) (hk : Keeps m0 m) :
    Keeps m0 (opSwatchLearn.act m p w).1 := by
  unfold opSwatchLearn
  dsimp only; with_reducible (refine Keeps.update ?_ rfl; assumption)
theorem after_opSwatchLearn {m0 : Module} (p : Packet) (m : Module) (hk : Keeps m0 m) :
    Keeps m0 (opSwatchLearn.after m p) := by
  unfold opSwatchLearn
  dsimp only; with_reducible (apply keeps_settleLearns; assumption)
theorem acts_opSwatchRead {m0 : Module} (p : Packet) (m : Module) (w : When) (hk : Keeps m0 m) :
    Keeps m0 (opSwatchRead.act m p w).1 := by
  unfold opSwatchRead
  dsimp only; split; dsimp only; with_reducible (apply keeps_sendSlice; assumption; assumption)
theorem after_opSwatchRead {m0 : Module} (p : Packet) (m : Module) (hk : Keeps m0 m) :
    Keeps m0 (opSwatchRead.after m p) := by
  unfold opSwatchRead
  with_reducible assumption
theorem keeps_changeItems {m0 : Module} (m : Module) (f : Items → Items) (hk : Keeps m0 m) :
    Keeps m0 (m.changeItems f) := by
  unfold Module.changeItems
  with_reducible (apply keeps_configChanged; apply keeps_storeItems; assumption)
theorem acts_opSwatchMode {m0 : Module} (p : Packet) (m : Module) (w : When) (hk : Keeps m0 m) :
    Keeps m0 (opSwatchMode.act m p w).1 := by
  unfold opSwatchMode
  dsimp only; with_reducible (apply keeps_stopLearning; apply keeps_changeItems; assumption)
theorem after_opSwatchMode {m0 : Module} (p : Packet) (m : Module) (hk : Keeps m0 m) :
    Keeps m0 (opSwatchMode.after m p) := by
  unfold opSwatchMode
  with_reducible assumption
theorem acts_opResponseSet {m0 : Module} (p : Packet) (m : Module) (w : When) (hk : Keeps m0 m) :
    Keeps m0 (opResponseSet.act m p w).1 := by
  unfold opResponseSet
  dsimp only; with_reducible (apply keeps_changeItems; assumption)
theorem after_opResponseSet {m0 : Module} (p : Packet) (m : Module) (hk : Keeps m0 m) :
    Keeps m0 (opResponseSet.after m p) := by
  unfold opResponseSet
  with_reducible assumption
theorem acts_opFaultRead {m0 : Module} (p : Packet) (m : Module) (w : When) (hk : Keeps m0 m) :
    Keeps m0 (opFaultRead.act m p w).1 := by
  unfold opFaultRead
  with_reducible assumption
theorem after_opFaultRead {m0 : Module} (p : Packet) (m : Module) (hk : Keeps m0 m) :
    Keeps m0 (opFaultRead.after m p) := by
  unfold opFaultRead
  with_reducible assumption
theorem keeps_clearFaults {m0 : Module} (m : Module) (ch : Nat) (hk : Keeps m0 m) : Keeps m0 (m.clearFaults ch) := by
  unfold Module.clearFaults
  refine keeps_each _ _ _ hk (fun k x hx => hx.ofDrives (drives_setRecord _ _ _ _ (fun r h1 h2 => ?_)))
  split at h1
  · rename_i ha; rw [if_pos ha] at h2; exact ⟨h1, h2⟩
  · cases h1
theorem acts_opFaultClear {m0 : Module} (p : Packet) (m : Module) (w : When) (hk : Keeps m0 m) :
    Keeps m0 (opFaultClear.act m p w).1 := by
  unfold opFaultClear
  dsimp only; with_reducible (apply keeps_each; assumption); intro _; intro _; intro _
  with_reducible (apply keeps_clearFaults; assumption)
theorem after_opFaultClear {m0 : Module} (p : Packet) (m : Module) (hk : Keeps m0 m) :
    Keeps m0 (opFaultClear.after m p) := by
  unfold opFaultClear
  with_reducible assumption
theorem keeps_setWire {m0 : Module} (m : Module) (ch r : Nat) (hk : Keeps m0 m) :
    Keeps m0 (m.setWire ch r) := by
  unfold Module.setWire
  with_reducible (refine Keeps.update ?_ rfl; assumption)
theorem keeps_wireStep {m0 : Module} (m : Module) (n ch : Nat) (hk : Keeps m0 m) :
    Keeps m0 (m.wireStep n ch) := by
  unfold Module.wireStep
  split; with_reducible assumption; split; with_reducible (apply keeps_setWire; assumption); dsimp only
  with_reducible (apply keeps_sendSlice; apply keeps_setSlice; assumption)
theorem keeps_startWire {m0 : Module} (m : Module) (n : Nat) (hk : Keeps m0 m) :
    Keeps m0 (m.startWire n) := by
  unfold Module.startWire
  split; with_reducible (apply keeps_settleWires; apply keeps_each; assumption); intro _; intro _; intro _
  with_reducible (apply keeps_wireStep; assumption; assumption)
theorem acts_opOpenWireTest {m0 : Module} (p : Packet) (m : Module) (w : When) (hk : Keeps m0 m) :
    Keeps m0 (opOpenWireTest.act m p w).1 := by
  unfold opOpenWireTest
  dsimp only; with_reducible (refine Keeps.update ?_ rfl; assumption)
theorem after_opOpenWireTest {m0 : Module} (p : Packet) (m : Module) (hk : Keeps m0 m) :
    Keeps m0 (opOpenWireTest.after m p) := by
  unfold opOpenWireTest
  dsimp only; with_reducible (apply keeps_each; apply keeps_settleWires; assumption); intro _; intro _; intro _
  with_reducible (apply keeps_startWire; assumption)
theorem keeps_setSession {m0 : Module} (m : Module) (f : Session → Session) (hk : Keeps m0 m) :
    Keeps m0 (m.setSession f) := by
  unfold Module.setSession
  with_reducible (refine Keeps.update ?_ rfl; assumption)
theorem keeps_sendCtl {m0 : Module} (m : Module) (dst : Byte) (sub : Nat) (cause : Byte) (late : Bool)
    (body : List Byte) (hk : Keeps m0 m) :
    Keeps m0 (m.sendCtl dst sub cause late body) := by
  unfold Module.sendCtl
  split; with_reducible (apply keeps_ringSend; assumption; assumption)
theorem keeps_ctlAll {m0 : Module} (m : Module) (sub : Nat) (body : List Byte) (hk : Keeps m0 m) :
    Keeps m0 (m.ctlAll sub body) := by
  unfold Module.ctlAll
  with_reducible (apply keeps_sendCtl; assumption)
theorem keeps_ctlGateway {m0 : Module} (m : Module) (sub : Nat) (cause : Byte) (body : List Byte) (hk : Keeps m0 m) :
    Keeps m0 (m.ctlGateway sub cause body) := by
  unfold Module.ctlGateway
  with_reducible (apply keeps_sendCtl; assumption)
theorem keeps_endFinals {m0 : Module} (m : Module) (opcode : Word16) (status detail : Word16) (hk : Keeps m0 m) :
    Keeps m0 (m.endFinals opcode status detail) := by
  unfold Module.endFinals
  dsimp only; with_reducible (apply keeps_foldl; apply keeps_setSession; assumption); intro _; intro _; intro _
  with_reducible (apply keeps_final; assumption)
theorem keeps_releaseVote {m0 : Module} (m : Module) (position : Nat) (cause : Byte) (hk : Keeps m0 m) :
    Keeps m0 (m.releaseVote position cause) := by
  unfold Module.releaseVote
  dsimp only; with_reducible (apply keeps_endFinals; apply keeps_setSession; apply keeps_ctlAll; assumption)
theorem keeps_memberRestarted {m0 : Module} (m : Module) (pos : Nat) (hk : Keeps m0 m) :
    Keeps m0 (m.memberRestarted pos) := by
  unfold Module.memberRestarted
  dsimp only; split; with_reducible (apply keeps_releaseVote; assumption; assumption)
theorem keeps_supplyChange {m0 : Module} (m : Module) (cause : Nat) (hk : Keeps m0 m) :
    Keeps m0 (m.supplyChange cause) := hk.ofBooks (books_supplyChange ..)
theorem keeps_holdup {m0 : Module} (m : Module) (hk : Keeps m0 m) :
    Keeps m0 m.holdup := by
  unfold Module.holdup
  dsimp only; with_reducible (apply keeps_powerOnReset; refine Keeps.update ?_ rfl; apply keeps_closeRecords)
  with_reducible refine Keeps.off ?_ rfl rfl; split; with_reducible (apply keeps_gapSince; assumption; assumption)
  intro _; intro _; with_reducible (refine Keeps.update ?_ rfl; apply keeps_supplyEvent; assumption)
theorem keeps_setLane {m0 : Module} (m : Module) (l : Lane) (f : LaneSt → LaneSt) (hk : Keeps m0 m) :
    Keeps m0 (m.setLane l f) := by
  unfold Module.setLane
  with_reducible (refine Keeps.update ?_ rfl; assumption)
theorem keeps_trainLane {m0 : Module} (m : Module) (l : Lane) (hk : Keeps m0 m) :
    Keeps m0 (m.trainLane l) := by
  unfold Module.trainLane
  split; with_reducible (apply keeps_setLane; assumption; assumption)
theorem keeps_trainLanes {m0 : Module} (m : Module) (hk : Keeps m0 m) :
    Keeps m0 m.trainLanes := by
  unfold Module.trainLanes
  with_reducible (apply keeps_foldl; assumption); intro _; intro _; intro _; with_reducible apply keeps_trainLane
  with_reducible assumption
theorem keeps_failForwards {m0 : Module} (m : Module) (hk : Keeps m0 m) :
    Keeps m0 m.failForwards := by
  unfold Module.failForwards
  dsimp only; with_reducible (apply keeps_foldl; refine Keeps.update ?_ rfl; assumption); intro _; intro _; intro _
  with_reducible (apply keeps_complete; apply keeps_setTill; assumption)
theorem keeps_dropSchedules {m0 : Module} (m : Module) (hk : Keeps m0 m) : Keeps m0 m.dropSchedules :=
  hk.winOf (fun hs => ⟨hs.1, hs.2.1, Tbl.wf_filter hs.2.2 _⟩) rfl
theorem keeps_enterStandby {m0 : Module} (m : Module) (cause : Nat) (hk : Keeps m0 m) :
    Keeps m0 (m.enterStandby cause) := by
  unfold Module.enterStandby
  dsimp only; with_reducible (refine Keeps.update ?_ rfl; apply keeps_detachHost; apply keeps_closeRecords)
  with_reducible (apply keeps_ledgerEvent; apply keeps_failForwards; apply keeps_dropSchedules)
  with_reducible (refine Keeps.stopped ?_ rfl; assumption); intro _; intro _
  with_reducible (refine Keeps.update ?_ rfl; assumption)
theorem keeps_standbyStep {m0 : Module} (m : Module) (hk : Keeps m0 m) :
    Keeps m0 m.standbyStep := by
  unfold Module.standbyStep
  split; dsimp only; split; with_reducible (apply keeps_enterStandby; refine Keeps.update ?_ rfl; assumption)
  with_reducible (refine Keeps.update ?_ rfl; assumption; assumption)
theorem keeps_entropyEvent {m0 : Module} (m : Module) (cause failed : Nat) (hk : Keeps m0 m) :
    Keeps m0 (m.entropyEvent cause failed) := by
  unfold Module.entropyEvent
  with_reducible (apply keeps_event; assumption)
theorem keeps_wake {m0 : Module} (m : Module) (cause : Nat) (hk : Keeps m0 m) :
    Keeps m0 (m.wake cause) := by
  unfold Module.wake
  dsimp only; split; split; with_reducible (apply keeps_settleStart; refine Keeps.update ?_ rfl)
  with_reducible (apply keeps_ledgerEvent; refine Keeps.update ?_ rfl; apply keeps_each; apply keeps_trainLanes)
  with_reducible (refine Keeps.update ?_ rfl; apply keeps_reloadAll; refine Keeps.cleared ?_ rfl rfl; assumption)
  intro _; intro _; intro _; with_reducible (apply keeps_setSlice; assumption; refine Keeps.update ?_ rfl)
  with_reducible (apply keeps_ledgerEvent; refine Keeps.update ?_ rfl; apply keeps_each; apply keeps_trainLanes)
  with_reducible (refine Keeps.update ?_ rfl; apply keeps_reloadAll; refine Keeps.cleared ?_ rfl rfl; assumption)
  intro _; intro _; intro _; with_reducible (apply keeps_setSlice; assumption); split
  with_reducible (apply keeps_settleStart; apply keeps_entropyEvent; refine Keeps.update ?_ rfl)
  with_reducible (apply keeps_ledgerEvent; refine Keeps.update ?_ rfl; apply keeps_each; apply keeps_trainLanes)
  with_reducible (refine Keeps.update ?_ rfl; apply keeps_reloadAll; refine Keeps.cleared ?_ rfl rfl; assumption)
  intro _; intro _; intro _; with_reducible (apply keeps_setSlice; assumption; apply keeps_entropyEvent)
  with_reducible (refine Keeps.update ?_ rfl; apply keeps_ledgerEvent; refine Keeps.update ?_ rfl; apply keeps_each)
  with_reducible (apply keeps_trainLanes; refine Keeps.update ?_ rfl; apply keeps_reloadAll)
  with_reducible (refine Keeps.cleared ?_ rfl rfl; assumption); intro _; intro _; intro _
  with_reducible (apply keeps_setSlice; assumption)
theorem acts_opLedgerRead {m0 : Module} (p : Packet) (m : Module) (w : When) (hk : Keeps m0 m) :
    Keeps m0 (opLedgerRead.act m p w).1 := by
  unfold opLedgerRead
  with_reducible assumption
theorem after_opLedgerRead {m0 : Module} (p : Packet) (m : Module) (hk : Keeps m0 m) :
    Keeps m0 (opLedgerRead.after m p) := by
  unfold opLedgerRead
  with_reducible assumption
theorem acts_opLedgerSet {m0 : Module} (p : Packet) (m : Module) (w : When) (hk : Keeps m0 m) :
    Keeps m0 (opLedgerSet.act m p w).1 := by
  unfold opLedgerSet
  dsimp only; with_reducible (apply keeps_judgeLedger; refine Keeps.update ?_ rfl; apply keeps_configChanged)
  with_reducible (apply keeps_storeItems; assumption)
theorem after_opLedgerSet {m0 : Module} (p : Packet) (m : Module) (hk : Keeps m0 m) :
    Keeps m0 (opLedgerSet.after m p) := by
  unfold opLedgerSet
  with_reducible assumption
theorem acts_opStandbyEnter {m0 : Module} (p : Packet) (m : Module) (w : When) (hk : Keeps m0 m) :
    Keeps m0 (opStandbyEnter.act m p w).1 := by
  unfold opStandbyEnter
  dsimp only; with_reducible (refine Keeps.update ?_ rfl; assumption)
theorem after_opStandbyEnter {m0 : Module} (p : Packet) (m : Module) (hk : Keeps m0 m) :
    Keeps m0 (opStandbyEnter.after m p) := by
  unfold opStandbyEnter
  dsimp only; with_reducible (apply keeps_standbyStep; assumption)
theorem keeps_toBackup {m0 : Module} (m : Module) (hk : Keeps m0 m) :
    Keeps m0 m.toBackup := by
  unfold Module.toBackup
  split; with_reducible (assumption; apply keeps_judgeLedger; apply keeps_supplyChange; refine Keeps.update ?_ rfl)
  with_reducible assumption
theorem keeps_toMains {m0 : Module} (m : Module) (hk : Keeps m0 m) :
    Keeps m0 m.toMains := by
  unfold Module.toMains
  split; with_reducible (apply keeps_judgeLedger; apply keeps_supplyChange; refine Keeps.update ?_ rfl; assumption)
  with_reducible assumption
theorem keeps_mainsIn {m0 : Module} (m : Module) (dv : Word16) (hk : Keeps m0 m) :
    Keeps m0 (m.mainsIn dv) := by
  unfold Module.mainsIn
  split; with_reducible assumption; dsimp only; split; with_reducible (apply keeps_wake; apply keeps_supplyChange)
  with_reducible (refine Keeps.update ?_ rfl; assumption; apply keeps_supplyChange; refine Keeps.update ?_ rfl)
  with_reducible assumption
theorem keeps_waitedStandby {m0 : Module} (m : Module) (hk : Keeps m0 m) :
    Keeps m0 m.waitedStandby := by
  unfold Module.waitedStandby
  split; with_reducible (apply keeps_enterStandby; assumption; assumption)
theorem keeps_mainsOut {m0 : Module} (m : Module) (dv : Word16) (hk : Keeps m0 m) :
    Keeps m0 (m.mainsOut dv) := by
  unfold Module.mainsOut
  split; with_reducible assumption; dsimp only; split; with_reducible apply keeps_waitedStandby
  with_reducible (apply keeps_toBackup; apply keeps_supplyChange; refine Keeps.update ?_ rfl; assumption)
  with_reducible (apply keeps_holdup; apply keeps_supplyChange; refine Keeps.update ?_ rfl; assumption)
theorem keeps_backupIn {m0 : Module} (m : Module) (cv : Word16) (hk : Keeps m0 m) :
    Keeps m0 (m.backupIn cv) := by
  unfold Module.backupIn
  split; with_reducible assumption; dsimp only; split; with_reducible apply keeps_supplyChange
  with_reducible (refine Keeps.update ?_ rfl; assumption; apply keeps_toBackup; apply keeps_supplyChange)
  with_reducible (refine Keeps.update ?_ rfl; assumption)
theorem keeps_backupOut {m0 : Module} (m : Module) (cv : Word16) (hk : Keeps m0 m) :
    Keeps m0 (m.backupOut cv) := by
  unfold Module.backupOut
  split; with_reducible assumption; dsimp only; split; with_reducible (apply keeps_toMains; apply keeps_supplyChange)
  with_reducible (refine Keeps.update ?_ rfl; assumption; apply keeps_holdup; apply keeps_supplyChange)
  with_reducible (refine Keeps.update ?_ rfl; assumption)
theorem keeps_integrate {m0 : Module} (m : Module) (groats : Word32) (hk : Keeps m0 m) :
    Keeps m0 (m.integrate groats) := by
  unfold Module.integrate
  split; dsimp only; split; split; with_reducible (apply keeps_judgeLedger; refine Keeps.update ?_ rfl; assumption)
  with_reducible (refine Keeps.update ?_ rfl; assumption); split; with_reducible apply keeps_judgeLedger
  with_reducible (refine Keeps.update ?_ rfl; assumption; refine Keeps.update ?_ rfl; assumption; assumption)
theorem keeps_countdown {m0 : Module} (m : Module) (hk : Keeps m0 m) :
    Keeps m0 m.countdown := by
  unfold Module.countdown
  split; split; with_reducible (apply keeps_enterStandby; assumption; refine Keeps.update ?_ rfl; assumption)
  with_reducible assumption
theorem keeps_thermal {m0 : Module} (m : Module) (n : Nat) (hub : Int) (hk : Keeps m0 m) :
    Keeps m0 (m.thermal n hub) := by
  unfold Module.thermal
  dsimp only; split; split; split; split; with_reducible (apply keeps_setSlice; refine Keeps.update ?_ rfl)
  with_reducible (assumption; apply keeps_ledgerEvent; apply keeps_setSlice; refine Keeps.update ?_ rfl; assumption)
  split; with_reducible (apply keeps_setSlice; refine Keeps.update ?_ rfl; assumption; apply keeps_ledgerEvent)
  with_reducible (apply keeps_setSlice; refine Keeps.update ?_ rfl; assumption); split; split
  with_reducible (apply keeps_setSlice; refine Keeps.update ?_ rfl; assumption; apply keeps_ledgerEvent)
  with_reducible (apply keeps_setSlice; refine Keeps.update ?_ rfl; assumption); split
  with_reducible (apply keeps_setSlice; refine Keeps.update ?_ rfl; assumption; apply keeps_ledgerEvent)
  with_reducible (apply keeps_setSlice; refine Keeps.update ?_ rfl; assumption; assumption)

end Sys2Proof.Machine
end

