-- ==== Sys2Proof/Laws/KeepsLamps.lean ====
section
/-! SUPPORT. The same for the lamps, the proving, the slices and the tracker (Laws/Keeps.lean). -/

namespace Sys2Proof.Machine
open Sys2Proof

theorem keeps_showCommand {m0 : Module} (m : Module) (ch : Nat) (s : Shown) (hk : Keeps m0 m) :
    Keeps m0 (m.showCommand ch s) := by
  unfold Module.showCommand
  split; with_reducible (assumption; apply keeps_takeEffect; assumption)
theorem keeps_act {m0 : Module} (m : Module) (at_ : Nat) (held : List Nat) (e : Nat × Shown) (hk : Keeps m0 m) :
    Keeps m0 (m.act at_ held e) := by
  unfold Module.act
  dsimp only; split; with_reducible (apply keeps_setChan; apply keeps_setChan; assumption; apply keeps_showCommand)
  with_reducible (apply keeps_setChan; assumption)
theorem keeps_takeStretch {m0 : Module} (m : Module) (hk : Keeps m0 m) :
    Keeps m0 m.takeStretch := by
  unfold Module.takeStretch
  with_reducible (apply keeps_foldl; assumption); intro _; intro _; intro _; split; with_reducible apply keeps_each
  with_reducible assumption; intro _; intro _; intro _; with_reducible (apply keeps_setSlice; assumption; assumption)
theorem keeps_flashStep {m0 : Module} (m : Module) (ch : Nat) (hk : Keeps m0 m) :
    Keeps m0 (m.flashStep ch) := by
  unfold Module.flashStep
  dsimp only; split; split; split; split; split; with_reducible (apply keeps_setChan; apply keeps_setChan; assumption)
  with_reducible (apply keeps_moveSwitch; apply keeps_setChan; assumption; apply keeps_setChan; assumption); split
  split; with_reducible (apply keeps_setChan; assumption; apply keeps_moveSwitch; assumption; assumption); split
  split; split; with_reducible (apply keeps_setChan; apply keeps_setChan; assumption; apply keeps_moveSwitch)
  with_reducible (apply keeps_setChan; assumption; apply keeps_setChan; assumption); split; split
  with_reducible (apply keeps_setChan; assumption; apply keeps_moveSwitch; assumption; assumption; assumption)
theorem keeps_takeFlash {m0 : Module} (m : Module) (due : Nat) (f : Nat × Nat × Nat × Nat) (hk : Keeps m0 m) :
    Keeps m0 (m.takeFlash due f) := by
  unfold Module.takeFlash
  dsimp only; split; with_reducible (apply keeps_each; apply keeps_takeStretch; refine Keeps.update ?_ rfl)
  with_reducible assumption; intro _; intro _; intro _; with_reducible (apply keeps_flashStep; assumption)
  with_reducible (refine Keeps.update ?_ rfl; assumption)
theorem keeps_runPlan {m0 : Module} (m : Module) (e : Plan) (hk : Keeps m0 m) :
    Keeps m0 (m.runPlan e) := by
  unfold Module.runPlan
  dsimp only; split; with_reducible (apply keeps_takeFlash; apply keeps_foldl); split
  with_reducible (apply keeps_setTill; refine Keeps.update ?_ rfl; assumption; refine Keeps.update ?_ rfl; assumption)
  intro _; intro _; intro _; with_reducible (apply keeps_act; assumption; apply keeps_foldl); split
  with_reducible (apply keeps_setTill; refine Keeps.update ?_ rfl; assumption; refine Keeps.update ?_ rfl; assumption)
  intro _; intro _; intro _; with_reducible (apply keeps_act; assumption)
theorem keeps_planTo {m0 : Module} (m : Module) (e : Plan) (n : Nat) (hk : Keeps m0 m) :
    Keeps m0 (m.planTo e n) := by
  unfold Module.planTo
  with_reducible (apply keeps_foldl; assumption); intro _; intro _; intro _; with_reducible apply keeps_sendSlice
  with_reducible assumption
theorem keeps_dispatch {m0 : Module} (m : Module) (e : Plan) (hk : Keeps m0 m) :
    Keeps m0 (m.dispatch e) := by
  unfold Module.dispatch
  dsimp only; with_reducible (apply keeps_each; refine Keeps.update ?_ rfl; assumption); intro _; intro _; intro _
  with_reducible (apply keeps_planTo; assumption)
theorem keeps_runWaiting {m0 : Module} (m : Module) (ch : Nat) (p : Nat → Bool) (hk : Keeps m0 m) :
    Keeps m0 (m.runWaiting ch p) := by
  unfold Module.runWaiting
  dsimp only; with_reducible (apply keeps_foldl; apply keeps_setChan; apply keeps_foldl; apply keeps_setChan)
  with_reducible assumption; intro _; intro _; intro _; with_reducible (apply keeps_showCommand; assumption); intro _
  intro _; intro _; with_reducible (apply keeps_moveSwitch; assumption)
theorem keeps_dimStep {m0 : Module} (m : Module) (ch : Nat) (hk : Keeps m0 m) :
    Keeps m0 (m.dimStep ch) := by
  unfold Module.dimStep
  split; split; with_reducible (apply keeps_refresh; assumption; apply keeps_moveSwitch; assumption; assumption)
theorem keeps_startSlice {m0 : Module} (m : Module) (n : Nat) (hk : Keeps m0 m) :
    Keeps m0 (m.startSlice n) := by
  unfold Module.startSlice
  split; dsimp only; with_reducible (apply keeps_each; apply keeps_setSlice; assumption); intro _; intro _; intro _
  split; with_reducible (apply keeps_applyFallback; assumption); split; with_reducible apply keeps_refresh
  with_reducible (assumption; apply keeps_applyStart; assumption; assumption)
theorem keeps_crossing {m0 : Module} (m : Module) (n at_ : Nat) (hk : Keeps m0 m) :
    Keeps m0 (m.crossing n at_) := by
  unfold Module.crossing
  with_reducible (apply keeps_each; apply keeps_startSlice; assumption); intro _; intro _; intro _
  with_reducible (apply keeps_dimStep; apply keeps_runWaiting; assumption)
theorem keeps_zcTimeout {m0 : Module} (m : Module) (ch : Nat) (hk : Keeps m0 m) :
    Keeps m0 (m.zcTimeout ch) := by
  unfold Module.zcTimeout
  with_reducible (apply keeps_runWaiting; assumption)
theorem keeps_takeGenerators {m0 : Module} (m : Module) (hk : Keeps m0 m) :
    Keeps m0 m.takeGenerators := by
  unfold Module.takeGenerators
  with_reducible (apply keeps_foldl; assumption); intro _; intro _; intro _; dsimp only; split
  with_reducible (refine Keeps.update ?_ rfl; assumption; assumption)
theorem keeps_joinPhase {m0 : Module} (m : Module) (hk : Keeps m0 m) :
    Keeps m0 m.joinPhase := by
  unfold Module.joinPhase
  with_reducible (apply keeps_foldl; assumption); intro _; intro _; intro _; dsimp only; split; split
  with_reducible (refine Keeps.update ?_ rfl; assumption; assumption); split
  with_reducible (refine Keeps.update ?_ rfl; assumption; assumption)
theorem keeps_atBoundary {m0 : Module} (m : Module) (h : Nat) (hk : Keeps m0 m) :
    Keeps m0 (m.atBoundary h) := by
  unfold Module.atBoundary
  dsimp only; with_reducible (apply keeps_each; apply keeps_takeStretch; apply keeps_joinPhase)
  with_reducible (apply keeps_takeGenerators; refine Keeps.update ?_ rfl; assumption); intro _; intro _; intro _
  with_reducible (apply keeps_flashStep; assumption)
theorem keeps_flashBoundary {m0 : Module} (m : Module) (hk : Keeps m0 m) :
    Keeps m0 m.flashBoundary := by
  unfold Module.flashBoundary
  dsimp only; split; with_reducible assumption; split; with_reducible (apply keeps_atBoundary; apply keeps_atBoundary)
  with_reducible (assumption; apply keeps_atBoundary; assumption)
theorem keeps_busBack {m0 : Module} (m : Module) (n : Nat) (hk : Keeps m0 m) :
    Keeps m0 (m.busBack n) := by
  unfold Module.busBack
  with_reducible (apply keeps_each; assumption); intro _; intro _; intro _; dsimp only; split; split
  with_reducible (apply keeps_setChan; assumption; assumption); split; with_reducible apply keeps_setChan
  with_reducible (assumption; assumption)
theorem keeps_fallbackPoint {m0 : Module} (m : Module) (n : Nat) (hk : Keeps m0 m) :
    Keeps m0 (m.fallbackPoint n) := by
  unfold Module.fallbackPoint
  split; split; with_reducible (apply keeps_startSlice; assumption; apply keeps_each; assumption); intro _; intro _
  intro _; with_reducible (apply keeps_applyFallback; assumption; assumption)
theorem keeps_fromOwn {m0 : Module} (m : Module) (n : Nat) (msg : SliceMsg) (hk : Keeps m0 m) :
    Keeps m0 (m.fromOwn n msg) := by
  unfold Module.fromOwn
  split; with_reducible assumption; dsimp only; with_reducible (apply keeps_put; apply keeps_setOwn; assumption)
theorem keeps_overcurrent {m0 : Module} (m : Module) (ch peak : Nat) (hk : Keeps m0 m) :
    Keeps m0 (m.overcurrent ch peak) := by
  unfold Module.overcurrent
  dsimp only; split; split; with_reducible (apply keeps_fromOwn; apply keeps_setChan; assumption; apply keeps_setChan)
  with_reducible (assumption; assumption)
theorem keeps_thermalCut {m0 : Module} (m : Module) (n : Nat) (hk : Keeps m0 m) :
    Keeps m0 (m.thermalCut n) := by
  unfold Module.thermalCut
  dsimp only; with_reducible (apply keeps_fromOwn; apply keeps_setOwn; apply keeps_openAll; assumption)
theorem keeps_vitalResume {m0 : Module} (m : Module) (hk : Keeps m0 m) : Keeps m0 m.vitalResume := by
  unfold Module.vitalResume
  split
  · exact keeps_vitalStop _ hk
  · split
    · rename_i hc
      refine Keeps.trans ?_ (keeps_event _ _ _ (Keeps.refl _))
      refine hk.trans ⟨id, fun _ _ => ?_⟩
      simp only [Bool.and_eq_true, beq_iff_eq] at hc
      unfold Module.vitalFree
      rw [Bool.and_eq_true, beq_iff_eq]
      exact ⟨hc.1.1.1.1, rfl⟩
    · exact hk
theorem keeps_binBegins {m0 : Module} (m : Module) (n : Nat) (hk : Keeps m0 m) :
    Keeps m0 (m.binBegins n) := by
  unfold Module.binBegins
  with_reducible (apply keeps_setOwn; assumption)
theorem keeps_dimEnds {m0 : Module} (m : Module) (n : Nat) (hk : Keeps m0 m) :
    Keeps m0 (m.dimEnds n) := by
  unfold Module.dimEnds
  with_reducible (apply keeps_each; assumption); intro _; intro _; intro _; split
  with_reducible (apply keeps_moveSwitch; assumption; assumption)
theorem keeps_binEnds {m0 : Module} (m : Module) (n b : Nat) (codes : List (List Int)) (hk : Keeps m0 m) :
    Keeps m0 (m.binEnds n b codes) := by
  unfold Module.binEnds
  dsimp only; split; with_reducible (apply keeps_fromOwn; apply keeps_fromOwn; apply keeps_foldl; apply keeps_dimEnds)
  with_reducible (apply keeps_binBegins; apply keeps_setOwn; apply keeps_setOwn; assumption); intro _; intro _
  intro _; with_reducible (apply keeps_fromOwn; assumption; apply keeps_setOwn; assumption)
theorem keeps_refuseFaulty {m0 : Module} (m : Module) (hk : Keeps m0 m) :
    Keeps m0 m.refuseFaulty := by
  unfold Module.refuseFaulty
  with_reducible (apply keeps_stopLearning; assumption)
theorem keeps_detectAt {m0 : Module} (m : Module) (ch kind bin endAu : Nat) (hk : Keeps m0 m) :
    Keeps m0 (m.detectAt ch kind bin endAu) := by
  unfold Module.detectAt
  dsimp only; with_reducible (apply keeps_detect; refine Keeps.update ?_ rfl; assumption)
theorem keeps_countCode {m0 : Module} (m : Module) (ch code bin endAu : Nat) (hk : Keeps m0 m) :
    Keeps m0 (m.countCode ch code bin endAu) := by
  unfold Module.countCode
  dsimp only; split; with_reducible apply keeps_endFault; split; with_reducible apply keeps_endFault; split
  with_reducible apply keeps_detectAt; split; with_reducible (apply keeps_detectAt; apply keeps_setChan; assumption)
  with_reducible (apply keeps_setChan; assumption); split; with_reducible (apply keeps_detectAt; apply keeps_setChan)
  with_reducible (assumption; apply keeps_setChan; assumption); split; with_reducible apply keeps_detectAt; split
  with_reducible (apply keeps_detectAt; apply keeps_setChan; assumption; apply keeps_setChan; assumption); split
  with_reducible (apply keeps_detectAt; apply keeps_setChan; assumption; apply keeps_setChan; assumption); split
  with_reducible apply keeps_endFault; split; with_reducible apply keeps_detectAt; split
  with_reducible (apply keeps_detectAt; apply keeps_setChan; assumption; apply keeps_setChan; assumption); split
  with_reducible (apply keeps_detectAt; apply keeps_setChan; assumption; apply keeps_setChan; assumption); split
  with_reducible apply keeps_detectAt; split; with_reducible (apply keeps_detectAt; apply keeps_setChan; assumption)
  with_reducible (apply keeps_setChan; assumption); split; with_reducible (apply keeps_detectAt; apply keeps_setChan)
  with_reducible (assumption; apply keeps_setChan; assumption)
theorem keeps_countVerdict {m0 : Module} (m : Module) (n bin endAu : Nat) (codes : Word32) (hk : Keeps m0 m) :
    Keeps m0 (m.countVerdict n bin endAu codes) := by
  unfold Module.countVerdict
  dsimp only; with_reducible apply keeps_refuseFaulty; split; with_reducible (apply keeps_each; apply keeps_foldl)
  with_reducible (apply keeps_setSlice; assumption); intro _; intro _; intro _; with_reducible apply keeps_countCode
  with_reducible assumption; intro _; intro _; intro _; with_reducible (apply keeps_endFault; assumption)
  with_reducible (apply keeps_foldl; apply keeps_setSlice; assumption); intro _; intro _; intro _
  with_reducible (apply keeps_countCode; assumption)
theorem keeps_silent {m0 : Module} (m : Module) (n : Nat) (hk : Keeps m0 m) :
    Keeps m0 (m.silent n) := by
  unfold Module.silent
  split; dsimp only; with_reducible (apply keeps_refuseFaulty; apply keeps_each; apply keeps_setSlice; assumption)
  intro _; intro _; intro _; with_reducible (apply keeps_detect; assumption; assumption)
theorem keeps_takeVerdict {m0 : Module} (m : Module) (n bin : Nat) (cyc : Word16) (codes : Word32) (hk : Keeps m0 m) :
    Keeps m0 (m.takeVerdict n bin cyc codes) := by
  unfold Module.takeVerdict
  dsimp only; split; with_reducible (apply keeps_countVerdict; apply keeps_silent; assumption; apply keeps_silent)
  with_reducible assumption
theorem keeps_track {m0 : Module} (m : Module) (n pos : Nat) (hk : Keeps m0 m) :
    Keeps m0 (m.track n pos) := by
  unfold Module.track
  dsimp only; split; with_reducible (apply keeps_setOwn; assumption; assumption)
theorem keeps_setLearning {m0 : Module} (m : Module) (ch : Nat)
    (f : Nat × Bool × Option Nat → Nat × Bool × Option Nat) (hk : Keeps m0 m) :
    Keeps m0 (m.setLearning ch f) := by
  unfold Module.setLearning
  with_reducible (refine Keeps.update ?_ rfl; assumption)
theorem keeps_beginLearning {m0 : Module} (m : Module) (ch : Nat) (hk : Keeps m0 m) :
    Keeps m0 (m.beginLearning ch) := by
  unfold Module.beginLearning
  split; with_reducible (apply keeps_setLearning; assumption; assumption)
theorem keeps_learnSample {m0 : Module} (m : Module) (n b : Nat) (xs : List (Int × Int)) (hk : Keeps m0 m) :
    Keeps m0 (m.learnSample n b xs) := by
  unfold Module.learnSample
  with_reducible (apply keeps_foldl; assumption); intro _; intro _; intro _; split; split
  with_reducible (refine Keeps.update ?_ rfl; assumption; assumption; assumption)
theorem keeps_doneLearning {m0 : Module} (m : Module) (ch : Nat) (hk : Keeps m0 m) :
    Keeps m0 (m.doneLearning ch) := by
  unfold Module.doneLearning
  dsimp only; split; split; with_reducible (apply keeps_settleLearns; apply keeps_dropSamples)
  with_reducible apply keeps_setLearning; split; with_reducible (apply keeps_changeItems; refine Keeps.update ?_ rfl)
  with_reducible (assumption; refine Keeps.update ?_ rfl; assumption; assumption; assumption)
theorem keeps_wireSample {m0 : Module} (m : Module) (n b : Nat) (codes : List (List Int)) (hk : Keeps m0 m) :
    Keeps m0 (m.wireSample n b codes) := by
  unfold Module.wireSample
  split; dsimp only; split; with_reducible (apply keeps_setSlice; assumption); split
  with_reducible (apply keeps_setSlice; assumption; assumption; assumption)
theorem keeps_wireAgain {m0 : Module} (m : Module) (n : Nat) (hk : Keeps m0 m) :
    Keeps m0 (m.wireAgain n) := by
  unfold Module.wireAgain
  split; dsimp only; split; with_reducible (apply keeps_setSlice; assumption; assumption; assumption)
theorem keeps_wireTested {m0 : Module} (m : Module) (ch : Nat) (hk : Keeps m0 m) :
    Keeps m0 (m.wireTested ch) := by
  unfold Module.wireTested
  dsimp only; split; split; with_reducible (apply keeps_startWire; apply keeps_settleWires); split
  with_reducible (apply keeps_detect; apply keeps_setWire; apply keeps_setSlice; assumption; apply keeps_endFault)
  with_reducible (apply keeps_setWire; apply keeps_setSlice; assumption; assumption; assumption)
theorem keeps_gatherFirst {m0 : Module} (m : Module) (n b : Nat) (v right : Int) (cur : List Int) (hk : Keeps m0 m) :
    Keeps m0 (m.gatherFirst n b v right cur) := by
  unfold Module.gatherFirst
  with_reducible (apply keeps_foldl; assumption); intro _; intro _; intro _; dsimp only
  with_reducible (refine Keeps.update ?_ rfl; assumption)
theorem keeps_meterBin {m0 : Module} (m : Module) (n b : Nat) (cal : List CalPath) (codes : List (List Int))
    (xs : List (Int × Int)) (hk : Keeps m0 m) :
    Keeps m0 (m.meterBin n b cal codes xs) := by
  unfold Module.meterBin
  dsimp only; split; split; split; with_reducible (apply keeps_gatherSecond; assumption; refine Keeps.update ?_ rfl)
  with_reducible (apply keeps_setSlice; apply keeps_gatherFirst; apply keeps_gatherSecond; assumption); split
  with_reducible (apply keeps_gatherSecond; refine Keeps.update ?_ rfl; assumption; refine Keeps.update ?_ rfl)
  with_reducible (apply keeps_setSlice; apply keeps_gatherFirst; apply keeps_gatherSecond; refine Keeps.update ?_ rfl)
  with_reducible assumption; split; with_reducible (assumption; refine Keeps.update ?_ rfl; apply keeps_setSlice)
  with_reducible (apply keeps_gatherFirst; assumption)
theorem keeps_sample {m0 : Module} (m : Module) (n b : Nat) (steps : List (List Word16)) (hk : Keeps m0 m) :
    Keeps m0 (m.sample n b steps) := by
  unfold Module.sample
  split; with_reducible assumption; dsimp only; split; split; split; with_reducible apply keeps_sliceReset
  with_reducible (apply keeps_setSlice; apply keeps_startWire; apply keeps_wireAgain; apply keeps_wireSample)
  with_reducible (apply keeps_learnSample; apply keeps_setSlice; apply keeps_meterBin; apply keeps_setSlice)
  with_reducible (assumption; apply keeps_startWire; apply keeps_wireAgain; apply keeps_wireSample)
  with_reducible (apply keeps_learnSample; apply keeps_setSlice; apply keeps_meterBin; apply keeps_setSlice)
  with_reducible assumption; split; with_reducible (apply keeps_sliceReset; apply keeps_setSlice)
  with_reducible (apply keeps_startWire; apply keeps_wireAgain; apply keeps_wireSample; apply keeps_learnSample)
  with_reducible (apply keeps_setSlice; apply keeps_setSlice; assumption; apply keeps_startWire)
  with_reducible (apply keeps_wireAgain; apply keeps_wireSample; apply keeps_learnSample; apply keeps_setSlice)
  with_reducible (apply keeps_setSlice; assumption); split; split; with_reducible apply keeps_sliceReset
  with_reducible (apply keeps_setSlice; apply keeps_startWire; apply keeps_wireAgain; apply keeps_wireSample)
  with_reducible (apply keeps_learnSample; apply keeps_setSlice; apply keeps_meterBin; assumption)
  with_reducible (apply keeps_startWire; apply keeps_wireAgain; apply keeps_wireSample; apply keeps_learnSample)
  with_reducible (apply keeps_setSlice; apply keeps_meterBin; assumption); split
  with_reducible (apply keeps_sliceReset; apply keeps_setSlice; apply keeps_startWire; apply keeps_wireAgain)
  with_reducible (apply keeps_wireSample; apply keeps_learnSample; apply keeps_setSlice; assumption)
  with_reducible (apply keeps_startWire; apply keeps_wireAgain; apply keeps_wireSample; apply keeps_learnSample)
  with_reducible (apply keeps_setSlice; assumption)
theorem keeps_takeAnswer {m0 : Module} (m : Module) (n : Nat) (u : Unacked) (ans : SliceAns) (hk : Keeps m0 m) :
    Keeps m0 (m.takeAnswer n u ans) := by
  unfold Module.takeAnswer
  split; split; with_reducible (apply keeps_complete; assumption; assumption; apply keeps_setSlice; assumption)
  with_reducible assumption
theorem keeps_sliceReplied {m0 : Module} (m : Module) (n : Nat) (ofSeq : Word16) (ans : SliceAns) (hk : Keeps m0 m) :
    Keeps m0 (m.sliceReplied n ofSeq ans) := by
  unfold Module.sliceReplied
  split; with_reducible (assumption; apply keeps_takeAnswer; apply keeps_setFrames; assumption)
theorem keeps_linkDeadline {m0 : Module} (m : Module) (n : Nat) (seq : Word16) (hk : Keeps m0 m) :
    Keeps m0 (m.linkDeadline n seq) := by
  unfold Module.linkDeadline
  split; with_reducible assumption; split; with_reducible assumption; split; with_reducible apply keeps_sliceReset
  with_reducible assumption; dsimp only; with_reducible (apply keeps_foldl; apply keeps_setSlice; assumption); intro _
  intro _; intro _; with_reducible (apply keeps_putFrame; assumption)
theorem keeps_reloadEnds {m0 : Module} (m : Module) (hk : Keeps m0 m) :
    Keeps m0 m.reloadEnds := by
  unfold Module.reloadEnds
  split; with_reducible (refine Keeps.update ?_ rfl; assumption; assumption)
theorem keeps_loadItems {m0 : Module} (m : Module) (n : Nat) (hk : Keeps m0 m) :
    Keeps m0 (m.loadItems n) := by
  unfold Module.loadItems
  dsimp only; with_reducible (refine Keeps.update ?_ rfl; assumption)
theorem keeps_loadOwn {m0 : Module} (m : Module) (n : Nat) (hk : Keeps m0 m) :
    Keeps m0 (m.loadOwn n) := by
  unfold Module.loadOwn
  dsimp only; with_reducible (apply keeps_setOwn; assumption)
theorem keeps_loadMeasured {m0 : Module} (m : Module) (n : Nat) (sums : List Int) (hk : Keeps m0 m) :
    Keeps m0 (m.loadMeasured n sums) := by
  unfold Module.loadMeasured
  dsimp only; split; with_reducible (apply keeps_sendSlice; apply keeps_sendSlice; apply keeps_foldl)
  with_reducible (apply keeps_sendSlice; apply keeps_loadItems; apply keeps_setSlice; assumption); intro _; intro _
  intro _; with_reducible (apply keeps_sendSlice; assumption; apply keeps_loadFailed; assumption)
theorem keeps_loadDone {m0 : Module} (m : Module) (n : Nat) (hk : Keeps m0 m) :
    Keeps m0 (m.loadDone n) := by
  unfold Module.loadDone
  dsimp only; with_reducible (apply keeps_loadOwn; apply keeps_setSlice; assumption)
theorem keeps_loadEnds {m0 : Module} (m : Module) (n : Nat) (outcome : LoadOutcome) (hk : Keeps m0 m) :
    Keeps m0 (m.loadEnds n outcome) := by
  unfold Module.loadEnds
  dsimp only; split; with_reducible assumption; split; split; with_reducible apply keeps_reloadEnds
  with_reducible (apply keeps_loadMeasured; assumption; assumption); split; with_reducible apply keeps_reloadEnds
  with_reducible (apply keeps_loadDone; assumption; assumption; apply keeps_reloadEnds; apply keeps_loadFailed)
  with_reducible assumption
theorem keeps_helloExpired {m0 : Module} (m : Module) (n : Nat) (hk : Keeps m0 m) :
    Keeps m0 (m.helloExpired n) := by
  unfold Module.helloExpired
  split; with_reducible assumption; split; dsimp only; split; with_reducible apply keeps_reloadEnds
  with_reducible (apply keeps_holdFailed; assumption; apply keeps_put; apply keeps_setSlice; assumption; assumption)
theorem keeps_sliceHello {m0 : Module} (m : Module) (n : Nat) (hk : Keeps m0 m) :
    Keeps m0 (m.sliceHello n) := by
  unfold Module.sliceHello
  dsimp only; split; with_reducible assumption; split; split; with_reducible assumption; split
  with_reducible (apply keeps_beginLoad; apply keeps_setSlice; assumption; apply keeps_setSlice; assumption); split
  with_reducible (apply keeps_sliceReset; assumption); split; with_reducible apply keeps_reloadEnds
  with_reducible (apply keeps_loadFailed; assumption; assumption)
theorem keeps_reissue {m0 : Module} (m : Module) (n : Nat) (hk : Keeps m0 m) :
    Keeps m0 (m.reissue n) := by
  unfold Module.reissue
  dsimp only; split; with_reducible (apply keeps_foldl; refine Keeps.update ?_ rfl; apply keeps_each)
  with_reducible (apply keeps_setSlice; assumption); intro _; intro _; intro _; split
  with_reducible (apply keeps_takeEffect; assumption; apply keeps_applyFallback; assumption); intro _; intro _
  intro _; split; with_reducible (apply keeps_planTo; assumption; apply keeps_dispatch; assumption; assumption)
theorem keeps_recalibrate {m0 : Module} (m : Module) (n : Nat) (hk : Keeps m0 m) :
    Keeps m0 (m.recalibrate n) := by
  unfold Module.recalibrate
  dsimp only; split; split; with_reducible (apply keeps_sendSlice; apply keeps_setSlice; assumption)
  with_reducible (apply keeps_sliceReset; assumption; assumption)
theorem keeps_sendTimes {m0 : Module} (m : Module) (hk : Keeps m0 m) :
    Keeps m0 m.sendTimes := by
  unfold Module.sendTimes
  split; dsimp only; with_reducible (apply keeps_each; refine Keeps.update ?_ rfl; assumption); intro _; intro _
  intro _; with_reducible (apply keeps_put; assumption; assumption)
theorem keeps_inSequence {m0 : Module} (m : Module) (n : Nat) (hdr : HubHdr) (f : Module → Module) (hk : Keeps m0 m)
    (hf : ∀ x, Keeps m0 x → Keeps m0 (f x)) :
    Keeps m0 (m.inSequence n hdr f) := by
  unfold Module.inSequence
  dsimp only; split; with_reducible (apply_assumption; apply keeps_setOwn; assumption; apply keeps_setOwn; assumption)
theorem keeps_takeBlock {m0 : Module} (m : Module) (n : Nat) (block : LoadBlock) (hk : Keeps m0 m) :
    Keeps m0 (m.takeBlock n block) := by
  unfold Module.takeBlock
  dsimp only; with_reducible (apply keeps_setOwn; assumption)
theorem keeps_takeLoad {m0 : Module} (m : Module) (n : Nat) (hdr : HubHdr) (start : Bool) (block : LoadBlock)
    (hk : Keeps m0 m) :
    Keeps m0 (m.takeLoad n hdr start block) := by
  unfold Module.takeLoad
  split; with_reducible (apply keeps_takeBlock; apply keeps_setOwn; assumption); split
  with_reducible (apply keeps_inSequence; assumption); intro _; intro _; with_reducible apply keeps_takeBlock
  with_reducible (assumption; assumption)
theorem keeps_takePlan {m0 : Module} (m : Module) (n : Nat) (body : PlanBody) (hk : Keeps m0 m) :
    Keeps m0 (m.takePlan n body) := by
  unfold Module.takePlan
  split; dsimp only; with_reducible (apply keeps_foldl; apply keeps_setOwn; assumption); intro _; intro _; intro _
  with_reducible (apply keeps_act; assumption; apply keeps_setOwn; assumption; apply keeps_setOwn; assumption)
  with_reducible (apply keeps_setOwn; assumption; apply keeps_setOwn; assumption; apply keeps_setOwn; assumption)
theorem keeps_takeRequest {m0 : Module} (m : Module) (n : Nat) (seq : Word16) (req : SliceReq) (hk : Keeps m0 m) :
    Keeps m0 (m.takeRequest n seq req) := by
  unfold Module.takeRequest
  dsimp only; with_reducible apply keeps_fromOwn; split; with_reducible (apply keeps_setOwn; assumption)
  with_reducible (apply keeps_setOwn; assumption; assumption)
theorem keeps_sliceRestart {m0 : Module} (m : Module) (n : Nat) (cause : Byte) (hk : Keeps m0 m) :
    Keeps m0 (m.sliceRestart n cause) := by
  unfold Module.sliceRestart
  dsimp only; with_reducible (refine Keeps.update ?_ rfl; apply keeps_setSlice; apply keeps_openAll; assumption)
theorem keeps_goAlone {m0 : Module} (m : Module) (n : Nat) (hk : Keeps m0 m) :
    Keeps m0 (m.goAlone n) := by
  unfold Module.goAlone
  dsimp only; split; with_reducible (apply keeps_foldl; apply keeps_setSlice; apply keeps_setOwn; assumption); intro _
  intro _; intro _; split; with_reducible (apply keeps_patternChanged; apply keeps_setChan; assumption)
  with_reducible (apply keeps_refresh; apply keeps_patternChanged; apply keeps_setChan; assumption; assumption)
theorem keeps_storedHalf {m0 : Module} (m : Module) (n : Nat) (hk : Keeps m0 m) :
    Keeps m0 (m.storedHalf n) := by
  unfold Module.storedHalf
  dsimp only; split; with_reducible (apply keeps_each; apply keeps_setOwn; assumption); intro _; intro _; intro _
  with_reducible apply keeps_refresh; split; split; with_reducible (apply keeps_setChan; assumption; assumption)
  split; with_reducible (apply keeps_setChan; assumption; assumption; assumption)
theorem keeps_kindChanged {m0 : Module} (m : Module) (n : Nat) (old : BusKind) (hk : Keeps m0 m) :
    Keeps m0 (m.kindChanged n old) := by
  unfold Module.kindChanged
  dsimp only; split; with_reducible assumption; split; with_reducible (apply keeps_busBack; apply keeps_stopLearning)
  with_reducible (assumption; apply keeps_stopLearning; assumption)
theorem keeps_newKind {m0 : Module} (m : Module) (n : Nat) (old : Items) (hk : Keeps m0 m) :
    Keeps m0 (m.newKind n old) := by
  unfold Module.newKind
  split; with_reducible assumption; dsimp only; with_reducible (apply keeps_kindChanged; apply keeps_setSlice)
  with_reducible assumption
theorem keeps_sendItems {m0 : Module} (m : Module) (n : Nat) (old : Items) (hk : Keeps m0 m) :
    Keeps m0 (m.sendItems n old) := by
  unfold Module.sendItems
  split; with_reducible assumption; dsimp only; with_reducible apply keeps_each; split; with_reducible assumption
  with_reducible (apply keeps_sendSlice; assumption); intro _; intro _; intro _; split; split
  with_reducible (assumption; apply keeps_sendSlice; assumption; apply keeps_sendSlice); split
  with_reducible (assumption; apply keeps_sendSlice; assumption)
theorem keeps_takeItems {m0 : Module} (m : Module) (hk : Keeps m0 m) :
    Keeps m0 m.takeItems := by
  unfold Module.takeItems
  dsimp only; split; with_reducible (assumption; apply keeps_each; refine Keeps.update ?_ rfl; assumption); intro _
  intro _; intro _; with_reducible (apply keeps_sendItems; apply keeps_newKind; assumption)
theorem keeps_cycleBegins {m0 : Module} (m : Module) (hk : Keeps m0 m) :
    Keeps m0 m.cycleBegins := by
  unfold Module.cycleBegins
  dsimp only; split; with_reducible (apply keeps_takeItems; refine Keeps.update ?_ rfl; assumption)
  with_reducible (refine Keeps.update ?_ rfl; assumption)
theorem keeps_stepAngle {m0 : Module} (m : Module) (delta : Nat) (rebase : Option Cycle) (hk : Keeps m0 m) :
    Keeps m0 (m.stepAngle delta rebase) := by
  unfold Module.stepAngle
  dsimp only; split; with_reducible apply keeps_meterRebase; split; with_reducible apply keeps_each
  with_reducible (apply keeps_stopLearning; apply keeps_event; refine Keeps.update ?_ rfl; apply keeps_foldl)
  with_reducible (refine Keeps.update ?_ rfl; assumption); intro _; intro _; intro _
  with_reducible (apply keeps_runPlan; assumption); intro _; intro _; intro _; with_reducible apply keeps_setOwn
  with_reducible (assumption; apply keeps_cycleBegins; apply keeps_each; apply keeps_stopLearning; apply keeps_event)
  with_reducible (refine Keeps.update ?_ rfl; apply keeps_foldl; refine Keeps.update ?_ rfl; assumption); intro _
  intro _; intro _; with_reducible (apply keeps_runPlan; assumption); intro _; intro _; intro _
  with_reducible (apply keeps_setOwn; assumption); split; with_reducible (apply keeps_each; apply keeps_stopLearning)
  with_reducible (apply keeps_event; refine Keeps.update ?_ rfl; apply keeps_foldl; refine Keeps.update ?_ rfl)
  with_reducible assumption; intro _; intro _; intro _; with_reducible (apply keeps_runPlan; assumption); intro _
  intro _; intro _; with_reducible (apply keeps_setOwn; assumption; apply keeps_cycleBegins; apply keeps_each)
  with_reducible (apply keeps_stopLearning; apply keeps_event; refine Keeps.update ?_ rfl; apply keeps_foldl)
  with_reducible (refine Keeps.update ?_ rfl; assumption); intro _; intro _; intro _
  with_reducible (apply keeps_runPlan; assumption); intro _; intro _; intro _; with_reducible apply keeps_setOwn
  with_reducible assumption
theorem keeps_stepUnlessWrap {m0 : Module} (m : Module) (delta : Nat) (hk : Keeps m0 m) :
    Keeps m0 (m.stepUnlessWrap delta) := by
  unfold Module.stepUnlessWrap
  split; with_reducible (refine Keeps.update ?_ rfl; assumption; apply keeps_stepAngle; assumption)
theorem keeps_takeSource {m0 : Module} (m : Module) (delta d : Nat) (always : Bool) (hk : Keeps m0 m) :
    Keeps m0 (m.takeSource delta d always) := by
  unfold Module.takeSource
  dsimp only; split; with_reducible (apply keeps_stepUnlessWrap; refine Keeps.update ?_ rfl; assumption)
  with_reducible (refine Keeps.update ?_ rfl; assumption)
theorem keeps_mismatch {m0 : Module} (m : Module) (n cause : Nat) (hk : Keeps m0 m) :
    Keeps m0 (m.mismatch n cause) := by
  unfold Module.mismatch
  dsimp only; with_reducible (apply keeps_event; assumption)
theorem keeps_refCrossing {m0 : Module} (m : Module) (n delta d : Nat) (hk : Keeps m0 m) :
    Keeps m0 (m.refCrossing n delta d) := by
  unfold Module.refCrossing
  dsimp only; split; split; with_reducible (assumption; apply keeps_takeSource; assumption); split
  with_reducible (assumption; apply keeps_takeSource; assumption; refine Keeps.update ?_ rfl; assumption)
  with_reducible (refine Keeps.update ?_ rfl; assumption); split; with_reducible apply keeps_takeSource
  with_reducible (refine Keeps.update ?_ rfl; assumption; refine Keeps.update ?_ rfl; assumption; assumption)
  with_reducible assumption
theorem keeps_takePrimary {m0 : Module} (m : Module) (delta d : Nat) (hk : Keeps m0 m) :
    Keeps m0 (m.takePrimary delta d) := by
  unfold Module.takePrimary
  with_reducible (apply keeps_takeSource; refine Keeps.update ?_ rfl; assumption)
theorem keeps_cross {m0 : Module} (m : Module) (n : Nat) (rising : Bool) (delta : Nat) (hk : Keeps m0 m) :
    Keeps m0 (m.cross n rising delta) := by
  unfold Module.cross
  dsimp only; split; with_reducible apply keeps_crossing; split; split; split; with_reducible apply keeps_mismatch
  with_reducible (apply keeps_setSlice; apply keeps_learnGuard; apply keeps_kindChanged; apply keeps_setSlice)
  with_reducible (apply keeps_takePrimary; apply keeps_setSlice; assumption; apply keeps_learnGuard)
  with_reducible (apply keeps_kindChanged; apply keeps_setSlice; apply keeps_takePrimary; apply keeps_setSlice)
  with_reducible assumption; split; split; with_reducible (apply keeps_mismatch; apply keeps_setSlice)
  with_reducible (apply keeps_learnGuard; apply keeps_kindChanged; apply keeps_setSlice; apply keeps_refCrossing)
  with_reducible (apply keeps_setSlice; assumption; apply keeps_learnGuard; apply keeps_kindChanged)
  with_reducible (apply keeps_setSlice; apply keeps_refCrossing; apply keeps_setSlice; assumption); split
  with_reducible (apply keeps_mismatch; apply keeps_setSlice; apply keeps_learnGuard; apply keeps_kindChanged)
  with_reducible (apply keeps_setSlice; apply keeps_setSlice; assumption; apply keeps_learnGuard)
  with_reducible (apply keeps_kindChanged; apply keeps_setSlice; apply keeps_setSlice; assumption); split; split
  with_reducible (apply keeps_mismatch; apply keeps_setSlice; apply keeps_learnGuard; apply keeps_kindChanged)
  with_reducible (apply keeps_setSlice; apply keeps_takePrimary; apply keeps_setSlice; assumption)
  with_reducible (apply keeps_learnGuard; apply keeps_kindChanged; apply keeps_setSlice; apply keeps_takePrimary)
  with_reducible (apply keeps_setSlice; assumption); split; split; with_reducible apply keeps_mismatch
  with_reducible (apply keeps_setSlice; apply keeps_learnGuard; apply keeps_kindChanged; apply keeps_setSlice)
  with_reducible (apply keeps_refCrossing; apply keeps_setSlice; assumption; apply keeps_learnGuard)
  with_reducible (apply keeps_kindChanged; apply keeps_setSlice; apply keeps_refCrossing; apply keeps_setSlice)
  with_reducible assumption; split; with_reducible (apply keeps_mismatch; apply keeps_setSlice)
  with_reducible (apply keeps_learnGuard; apply keeps_kindChanged; apply keeps_setSlice; apply keeps_setSlice)
  with_reducible (assumption; apply keeps_learnGuard; apply keeps_kindChanged; apply keeps_setSlice)
  with_reducible (apply keeps_setSlice; assumption); split; split; with_reducible refine Keeps.update ?_ rfl
  with_reducible (apply keeps_setSlice; assumption; apply keeps_setSlice; assumption); split
  with_reducible (refine Keeps.update ?_ rfl; apply keeps_setSlice; assumption; apply keeps_setSlice; assumption)
theorem keeps_flywheel {m0 : Module} (m : Module) (hk : Keeps m0 m) :
    Keeps m0 m.flywheel := by
  unfold Module.flywheel
  dsimp only; split; split; with_reducible (refine Keeps.update ?_ rfl; assumption; assumption); split
  with_reducible (refine Keeps.update ?_ rfl; assumption; assumption)
theorem keeps_alternate {m0 : Module} (m : Module) (hk : Keeps m0 m) :
    Keeps m0 m.alternate := by
  unfold Module.alternate
  dsimp only; split; with_reducible (refine Keeps.update ?_ rfl; assumption; assumption)
theorem keeps_primaryReturn {m0 : Module} (m : Module) (stamp : Nat) (hk : Keeps m0 m) :
    Keeps m0 (m.primaryReturn stamp) := by
  unfold Module.primaryReturn
  dsimp only; split; with_reducible (apply keeps_takePrimary; assumption; assumption)
theorem keeps_busReversed {m0 : Module} (m : Module) (n : Nat) (hk : Keeps m0 m) :
    Keeps m0 (m.busReversed n) := by
  unfold Module.busReversed
  with_reducible (apply keeps_mismatch; apply keeps_openAll; assumption)
theorem keeps_busRighted {m0 : Module} (m : Module) (n : Nat) (hk : Keeps m0 m) :
    Keeps m0 (m.busRighted n) := by
  unfold Module.busRighted
  with_reducible (apply keeps_each; apply keeps_busBack; assumption); intro _; intro _; intro _
  with_reducible (apply keeps_setChan; assumption)
theorem keeps_busHalf {m0 : Module} (m : Module) (n : Nat) (v : Int) (hk : Keeps m0 m) :
    Keeps m0 (m.busHalf n v) := by
  unfold Module.busHalf
  dsimp only; split; split; with_reducible (apply keeps_busReversed; apply keeps_each; apply keeps_learnGuard)
  with_reducible (apply keeps_kindChanged; apply keeps_setSlice; assumption); intro _; intro _; intro _
  with_reducible (apply keeps_dimStep; assumption); split; with_reducible (apply keeps_busRighted; apply keeps_each)
  with_reducible (apply keeps_learnGuard; apply keeps_kindChanged; apply keeps_setSlice; assumption); intro _; intro _
  intro _; with_reducible (apply keeps_dimStep; assumption; apply keeps_each; apply keeps_learnGuard)
  with_reducible (apply keeps_kindChanged; apply keeps_setSlice; assumption); intro _; intro _; intro _
  with_reducible (apply keeps_dimStep; assumption); split; with_reducible (apply keeps_busReversed; apply keeps_each)
  with_reducible (apply keeps_learnGuard; apply keeps_kindChanged; apply keeps_setSlice; apply keeps_each)
  with_reducible (apply keeps_startSlice; assumption); intro _; intro _; intro _
  with_reducible (apply keeps_runWaiting; assumption); intro _; intro _; intro _; with_reducible apply keeps_dimStep
  with_reducible assumption; split; with_reducible (apply keeps_busRighted; apply keeps_each; apply keeps_learnGuard)
  with_reducible (apply keeps_kindChanged; apply keeps_setSlice; apply keeps_each; apply keeps_startSlice; assumption)
  intro _; intro _; intro _; with_reducible (apply keeps_runWaiting; assumption); intro _; intro _; intro _
  with_reducible (apply keeps_dimStep; assumption; apply keeps_each; apply keeps_learnGuard; apply keeps_kindChanged)
  with_reducible (apply keeps_setSlice; apply keeps_each; apply keeps_startSlice; assumption); intro _; intro _
  intro _; with_reducible (apply keeps_runWaiting; assumption); intro _; intro _; intro _
  with_reducible (apply keeps_dimStep; assumption)
theorem keeps_synthetic {m0 : Module} (m : Module) (hk : Keeps m0 m) :
    Keeps m0 m.synthetic := by
  unfold Module.synthetic
  dsimp only; split; split; split; with_reducible (refine Keeps.update ?_ rfl; refine Keeps.update ?_ rfl; assumption)
  with_reducible (refine Keeps.update ?_ rfl; assumption); split; with_reducible refine Keeps.update ?_ rfl
  with_reducible (assumption; assumption); split; split; with_reducible refine Keeps.update ?_ rfl
  with_reducible (refine Keeps.update ?_ rfl; assumption; refine Keeps.update ?_ rfl; assumption); split
  with_reducible (refine Keeps.update ?_ rfl; assumption; assumption); split; split
  with_reducible (refine Keeps.update ?_ rfl; refine Keeps.update ?_ rfl; assumption; refine Keeps.update ?_ rfl)
  with_reducible assumption; split; with_reducible (refine Keeps.update ?_ rfl; assumption; assumption); split; split
  with_reducible (refine Keeps.update ?_ rfl; refine Keeps.update ?_ rfl; assumption; refine Keeps.update ?_ rfl)
  with_reducible assumption; split; with_reducible (refine Keeps.update ?_ rfl; assumption; assumption); split; split
  with_reducible (refine Keeps.update ?_ rfl; refine Keeps.update ?_ rfl; assumption; refine Keeps.update ?_ rfl)
  with_reducible assumption; split; with_reducible (refine Keeps.update ?_ rfl; assumption; assumption)
theorem keeps_halfBoundary {m0 : Module} (m : Module) (means : List Int) (hk : Keeps m0 m) :
    Keeps m0 (m.halfBoundary means) := by
  unfold Module.halfBoundary
  split; dsimp only; split; with_reducible (apply keeps_meterBoundary; refine Keeps.update ?_ rfl)
  with_reducible (apply keeps_synthetic; apply keeps_each; refine Keeps.update ?_ rfl; assumption); intro _; intro _
  intro _; with_reducible (apply keeps_busHalf; assumption; refine Keeps.update ?_ rfl; apply keeps_synthetic)
  with_reducible (apply keeps_each; refine Keeps.update ?_ rfl; assumption); intro _; intro _; intro _
  with_reducible (apply keeps_busHalf; assumption; assumption)

end Sys2Proof.Machine
end

