-- ==== Sys2Proof/Laws/KeepsRing.lean ====
section
/-! SUPPORT. The same for the ring, its links and frames, and the update (Laws/Keeps.lean). -/

namespace Sys2Proof.Machine
open Sys2Proof

theorem keeps_setSpan {m0 : Module} (m : Module) (side : Side) (f : Span → Span) (hk : Keeps m0 m) :
    Keeps m0 (m.setSpan side f) := by
  unfold Module.setSpan
  split; with_reducible (refine Keeps.update ?_ rfl; assumption; refine Keeps.update ?_ rfl; assumption)
theorem keeps_measure {m0 : Module} (m : Module) (l : Lane) (hk : Keeps m0 m) :
    Keeps m0 (m.measure l) := by
  unfold Module.measure
  with_reducible (apply keeps_put; assumption)
theorem keeps_link {m0 : Module} (m : Module) (side : Side) (ty : Byte) (payload : List Byte) (hk : Keeps m0 m) :
    Keeps m0 (m.link side ty payload) := by
  unfold Module.link
  split; with_reducible (apply keeps_put; assumption; assumption)
theorem keeps_putLane {m0 : Module} (m : Module) (l : Lane) (o : Out) (hk : Keeps m0 m) :
    Keeps m0 (m.putLane l o) := by
  unfold Module.putLane
  split; with_reducible (apply keeps_put; assumption; assumption)
theorem keeps_idleLane {m0 : Module} (m : Module) (idle : Bool) (l : Lane) (hk : Keeps m0 m) :
    Keeps m0 (m.idleLane idle l) := by
  unfold Module.idleLane
  dsimp only; split; with_reducible (apply keeps_setLane; assumption); split; split
  with_reducible (apply keeps_measure; apply keeps_setLane; assumption; apply keeps_setLane; assumption; assumption)
theorem keeps_takeForm {m0 : Module} (m : Module) (f : Form) (hk : Keeps m0 m) :
    Keeps m0 (m.takeForm f) := by
  unfold Module.takeForm
  dsimp only; with_reducible (apply keeps_idleLane; apply keeps_idleLane; refine Keeps.update ?_ rfl; assumption)
theorem keeps_noteBreak {m0 : Module} (m : Module) (key : Nat) (broken : Bool) (hk : Keeps m0 m) :
    Keeps m0 (m.noteBreak key broken) := by
  unfold Module.noteBreak
  dsimp only; split; with_reducible (apply keeps_takeForm; refine Keeps.update ?_ rfl; assumption); split
  with_reducible (apply keeps_takeForm; refine Keeps.update ?_ rfl; assumption; refine Keeps.update ?_ rfl)
  with_reducible assumption
theorem keeps_seeVariant {m0 : Module} (m : Module) (position variant : Byte) (hk : Keeps m0 m) :
    Keeps m0 (m.seeVariant position variant) := by
  unfold Module.seeVariant
  split; with_reducible (refine Keeps.update ?_ rfl; assumption; assumption)
theorem keeps_brokenForm {m0 : Module} (m : Module) (hk : Keeps m0 m) :
    Keeps m0 m.brokenForm.1 := by
  unfold Module.brokenForm
  split; with_reducible assumption; dsimp only; with_reducible (refine Keeps.update ?_ rfl; assumption)
theorem keeps_ringChange {m0 : Module} (m : Module) (cause : Nat) (subject lane : Nat) (epoch : Word16)
    (hk : Keeps m0 m) :
    Keeps m0 (m.ringChange cause subject lane epoch) := by
  unfold Module.ringChange
  split; with_reducible (apply keeps_event; assumption; assumption)
theorem keeps_sendChange {m0 : Module} (m : Module) (cause : Nat) (subject : Nat) (hk : Keeps m0 m) :
    Keeps m0 (m.sendChange cause subject) := by
  unfold Module.sendChange
  split; with_reducible (apply keeps_ringSend; assumption; assumption)
theorem keeps_failTill {m0 : Module} (m : Module) (t : Word16) (status : Word16) (hk : Keeps m0 m) :
    Keeps m0 (m.failTill t status) := by
  unfold Module.failTill
  split; with_reducible assumption; dsimp only; with_reducible (apply keeps_resetStep; apply keeps_complete)
  with_reducible (apply keeps_setTill; refine Keeps.update ?_ rfl; assumption)
theorem keeps_peerRestarted {m0 : Module} (m : Module) (pos : Nat) (e : Word16) (hk : Keeps m0 m) :
    Keeps m0 (m.peerRestarted pos e) := by
  unfold Module.peerRestarted
  dsimp only; with_reducible (apply keeps_ringChange; apply keeps_memberRestarted); split
  with_reducible (refine Keeps.update ?_ rfl; apply keeps_foldl; refine Keeps.update ?_ rfl; apply keeps_foldl)
  with_reducible assumption; intro _; intro _; intro _; with_reducible (apply keeps_failTill; assumption); intro _
  intro _; intro _; with_reducible (apply keeps_final; assumption; apply keeps_foldl; refine Keeps.update ?_ rfl)
  with_reducible (apply keeps_foldl; assumption); intro _; intro _; intro _; with_reducible apply keeps_failTill
  with_reducible assumption; intro _; intro _; intro _; with_reducible (apply keeps_final; assumption)
theorem keeps_seeEpoch {m0 : Module} (m : Module) (pos : Nat) (e : Word16) (hk : Keeps m0 m) :
    Keeps m0 (m.seeEpoch pos e) := by
  unfold Module.seeEpoch
  dsimp only; split; with_reducible assumption; split; with_reducible (refine Keeps.update ?_ rfl; assumption)
  with_reducible (apply keeps_peerRestarted; refine Keeps.update ?_ rfl; assumption)
theorem keeps_addressed {m0 : Module} (m : Module) (hdr : RingHdr) (f : Module → Module) (hk : Keeps m0 m)
    (hf : ∀ x, Keeps m0 x → Keeps m0 (f x)) :
    Keeps m0 (m.addressed hdr f) := by
  unfold Module.addressed
  split; dsimp only; split; with_reducible (apply_assumption; apply keeps_seeEpoch; assumption; apply keeps_seeEpoch)
  with_reducible (assumption; assumption)
theorem keeps_takeOnce {m0 : Module} (m : Module) (hdr : RingHdr) (f : Module → Module) (hk : Keeps m0 m)
    (hf : ∀ x, Keeps m0 x → Keeps m0 (f x)) :
    Keeps m0 (m.takeOnce hdr f) := by
  unfold Module.takeOnce
  split; dsimp only; split; split; with_reducible (apply_assumption; refine Keeps.update ?_ rfl; apply keeps_seeEpoch)
  with_reducible (assumption; apply keeps_seeEpoch; assumption); split; with_reducible apply_assumption
  with_reducible (refine Keeps.update ?_ rfl; apply keeps_seeEpoch; assumption; apply keeps_seeEpoch; assumption)
  with_reducible assumption
theorem keeps_erasePrevious {m0 : Module} (m : Module) (hk : Keeps m0 m) :
    Keeps m0 m.erasePrevious := by
  unfold Module.erasePrevious
  dsimp only; split; split; with_reducible (refine Keeps.update ?_ rfl; assumption; assumption); split
  with_reducible (refine Keeps.update ?_ rfl; assumption; assumption)
theorem keeps_enterShelf {m0 : Module} (m : Module) (hk : Keeps m0 m) : Keeps m0 m.enterShelf := by
  have key : ∀ (y : Module) (l k : List Nat) (f : HubSlice → HubSlice) (g : Chan → Chan), Safe y →
      Safe ((y.takeItems.each l (fun n m => m.setSlice n f)).each k
    (fun ch m => m.takeEffect ch g)) := fun y _ _ _ _ hy =>
    (keeps_each _ _ _ (keeps_each _ _ _ (keeps_takeItems _ (Keeps.refl y)) (fun _ _ hx => keeps_setSlice _ _ _ hx))
      (fun _ _ hx => keeps_takeEffect _ _ _ hx)).safe hy
  unfold Module.enterShelf
  exact Keeps.safeStop (fun hs => key _ _ _ _ _ ((keeps_dropSchedules m hk).safe hs))
theorem keeps_eraseKeys {m0 : Module} (m : Module) (hk : Keeps m0 m) :
    Keeps m0 m.eraseKeys := by
  unfold Module.eraseKeys
  split; dsimp only; split; with_reducible (apply keeps_foldl; refine Keeps.update ?_ rfl; assumption); intro _
  intro _; intro _; with_reducible (apply keeps_setSpan; assumption; apply keeps_enterShelf; apply keeps_foldl)
  with_reducible (refine Keeps.update ?_ rfl; assumption); intro _; intro _; intro _
  with_reducible (apply keeps_setSpan; assumption; assumption)
theorem keeps_pushSide {m0 : Module} (m : Module) (side : Side) (hk : Keeps m0 m) :
    Keeps m0 (m.pushSide side) := by
  unfold Module.pushSide
  dsimp only; split; split; split; split; with_reducible (refine Keeps.update ?_ rfl; apply keeps_foldl; assumption)
  intro _; intro _; intro _; with_reducible (apply keeps_ringSend; assumption; assumption; assumption; assumption)
  split; split; split; with_reducible (refine Keeps.update ?_ rfl; apply keeps_foldl; assumption); intro _; intro _
  intro _; with_reducible (apply keeps_ringSend; assumption; assumption; assumption; assumption)
theorem keeps_pushEscrow {m0 : Module} (m : Module) (hk : Keeps m0 m) :
    Keeps m0 m.pushEscrow := by
  unfold Module.pushEscrow
  with_reducible (apply keeps_pushSide; apply keeps_pushSide; assumption)
theorem keeps_settlePushes {m0 : Module} (m : Module) (hk : Keeps m0 m) :
    Keeps m0 m.settlePushes := by
  unfold Module.settlePushes
  dsimp only; with_reducible (apply keeps_foldl; refine Keeps.update ?_ rfl; assumption); intro _; intro _; intro _
  with_reducible (apply keeps_final; assumption)
theorem keeps_breakSpan {m0 : Module} (m : Module) (side : Side) (hk : Keeps m0 m) :
    Keeps m0 (m.breakSpan side) := by
  unfold Module.breakSpan
  split; with_reducible assumption; dsimp only; with_reducible (apply keeps_settlePushes; apply keeps_ringChange)
  with_reducible (apply keeps_sendChange; apply keeps_noteBreak; refine Keeps.update ?_ rfl; apply keeps_setSpan)
  with_reducible assumption
theorem keeps_authLater {m0 : Module} (m : Module) (side : Side) (hk : Keeps m0 m) :
    Keeps m0 (m.authLater side) := by
  unfold Module.authLater
  with_reducible (apply keeps_setSpan; assumption)
theorem keeps_sendA {m0 : Module} (m : Module) (na : List Byte) (hk : Keeps m0 m) :
    Keeps m0 (m.sendA na) := by
  unfold Module.sendA
  with_reducible (apply keeps_link; apply keeps_setSpan; assumption)
theorem keeps_sendB {m0 : Module} (m : Module) (nb : List Byte) (hk : Keeps m0 m) :
    Keeps m0 (m.sendB nb) := by
  unfold Module.sendB
  dsimp only; split; with_reducible (apply keeps_authLater; assumption; apply keeps_link; apply keeps_setSpan)
  with_reducible assumption
theorem keeps_nonce {m0 : Module} (m : Module) (side : Side) (hk : Keeps m0 m) :
    Keeps m0 (m.nonce side) := by
  unfold Module.nonce
  split; dsimp only; split; with_reducible (apply keeps_sendA; apply keeps_draw; assumption; apply keeps_sendB)
  with_reducible (apply keeps_draw; assumption); split; dsimp only; split; split; with_reducible assumption
  with_reducible (apply keeps_awaitEntropy; assumption); split; with_reducible (assumption; apply keeps_awaitEntropy)
  with_reducible (assumption; apply keeps_authLater; assumption)
theorem keeps_beginAuth {m0 : Module} (m : Module) (side : Side) (hk : Keeps m0 m) :
    Keeps m0 (m.beginAuth side) := by
  unfold Module.beginAuth
  split; dsimp only; split; split; with_reducible (apply keeps_setSpan; assumption); split
  with_reducible (apply keeps_nonce; assumption; assumption); split; with_reducible (apply keeps_nonce; assumption)
  with_reducible (assumption; assumption)
theorem keeps_reauth {m0 : Module} (m : Module) (side : Side) (hk : Keeps m0 m) :
    Keeps m0 (m.reauth side) := by
  unfold Module.reauth
  dsimp only; with_reducible (apply keeps_beginAuth; apply keeps_breakSpan; apply keeps_setSpan; assumption)
theorem keeps_authDone {m0 : Module} (m : Module) (side : Side) (current : Bool) (hk : Keeps m0 m) :
    Keeps m0 (m.authDone side current) := by
  unfold Module.authDone
  with_reducible (apply keeps_erasePrevious; apply keeps_setSpan; assumption)
theorem keeps_authFails {m0 : Module} (m : Module) (side : Side) (mismatch : Bool) (hk : Keeps m0 m) :
    Keeps m0 (m.authFails side mismatch) := by
  unfold Module.authFails
  dsimp only; with_reducible (apply keeps_eraseKeys; apply keeps_ringChange; apply keeps_breakSpan)
  with_reducible (apply keeps_setSpan; apply keeps_authLater; assumption)
theorem keeps_bindConfig {m0 : Module} (m : Module) (p : Nat) (hk : Keeps m0 m) :
    Keeps m0 (m.bindConfig p) := by
  unfold Module.bindConfig
  with_reducible (refine Keeps.update ?_ rfl; assumption)
theorem keeps_takePosition {m0 : Module} (m : Module) (p : Nat) (hk : Keeps m0 m) :
    Keeps m0 (m.takePosition p) := by
  unfold Module.takePosition
  dsimp only; split; with_reducible (refine Keeps.update ?_ rfl; apply keeps_bindConfig; assumption)
  with_reducible (refine Keeps.update ?_ rfl; apply keeps_bindConfig; assumption)
theorem keeps_stayUnpositioned {m0 : Module} (m : Module) (positions : Nat) (hk : Keeps m0 m) :
    Keeps m0 (m.stayUnpositioned positions) := by
  unfold Module.stayUnpositioned
  with_reducible (apply keeps_ringChange; refine Keeps.update ?_ rfl; assumption)
theorem keeps_startEnum {m0 : Module} (m : Module) (hk : Keeps m0 m) :
    Keeps m0 m.startEnum := by
  unfold Module.startEnum
  dsimp only; with_reducible (apply keeps_link; refine Keeps.update ?_ rfl; apply keeps_takePosition; assumption)
theorem keeps_enumerated {m0 : Module} (m : Module) (positions : Nat) (form : Form) (refList : List Byte)
    (hk : Keeps m0 m) :
    Keeps m0 (m.enumerated positions form refList) := by
  unfold Module.enumerated
  dsimp only; with_reducible (apply keeps_ringChange; apply keeps_foldl; apply keeps_takeForm)
  with_reducible (refine Keeps.update ?_ rfl; assumption); intro _; intro _; intro _
  with_reducible (apply keeps_setSpan; assumption)
theorem keeps_storeSize {m0 : Module} (m : Module) (hk : Keeps m0 m) :
    Keeps m0 m.storeSize := by
  unfold Module.storeSize
  split; split; dsimp only; split; with_reducible (refine Keeps.update ?_ rfl; assumption; apply keeps_storeItems)
  with_reducible (refine Keeps.update ?_ rfl; assumption; assumption; assumption)
theorem keeps_finishEnum {m0 : Module} (m : Module) (positions : Nat) (form : Form) (hk : Keeps m0 m) :
    Keeps m0 (m.finishEnum positions form) := by
  unfold Module.finishEnum
  dsimp only; with_reducible apply keeps_foldl; split; with_reducible (apply keeps_link; apply keeps_enumerated)
  with_reducible (apply keeps_storeSize; refine Keeps.update ?_ rfl; assumption; apply keeps_link; apply keeps_link)
  with_reducible (apply keeps_enumerated; apply keeps_storeSize; refine Keeps.update ?_ rfl; assumption); intro _
  intro _; intro _; with_reducible (apply keeps_final; assumption)
theorem acts_opRingStatus {m0 : Module} (p : Packet) (m : Module) (w : When) (hk : Keeps m0 m) :
    Keeps m0 (opRingStatus.act m p w).1 := by
  unfold opRingStatus
  with_reducible assumption
theorem after_opRingStatus {m0 : Module} (p : Packet) (m : Module) (hk : Keeps m0 m) :
    Keeps m0 (opRingStatus.after m p) := by
  unfold opRingStatus
  with_reducible assumption
theorem acts_opLaneStatus {m0 : Module} (p : Packet) (m : Module) (w : When) (hk : Keeps m0 m) :
    Keeps m0 (opLaneStatus.act m p w).1 := by
  unfold opLaneStatus
  with_reducible assumption
theorem after_opLaneStatus {m0 : Module} (p : Packet) (m : Module) (hk : Keeps m0 m) :
    Keeps m0 (opLaneStatus.after m p) := by
  unfold opLaneStatus
  with_reducible assumption
theorem acts_opRingEnumerate {m0 : Module} (p : Packet) (m : Module) (w : When) (hk : Keeps m0 m) :
    Keeps m0 (opRingEnumerate.act m p w).1 := by
  unfold opRingEnumerate
  dsimp only; with_reducible (apply keeps_startEnum; refine Keeps.update ?_ rfl; assumption)
theorem after_opRingEnumerate {m0 : Module} (p : Packet) (m : Module) (hk : Keeps m0 m) :
    Keeps m0 (opRingEnumerate.after m p) := by
  unfold opRingEnumerate
  with_reducible assumption
theorem acts_opEscrowPush {m0 : Module} (p : Packet) (m : Module) (w : When) (hk : Keeps m0 m) :
    Keeps m0 (opEscrowPush.act m p w).1 := by
  unfold opEscrowPush
  dsimp only; with_reducible (refine Keeps.update ?_ rfl; assumption)
theorem after_opEscrowPush {m0 : Module} (p : Packet) (m : Module) (hk : Keeps m0 m) :
    Keeps m0 (opEscrowPush.after m p) := by
  unfold opEscrowPush
  dsimp only; with_reducible (apply keeps_settlePushes; apply keeps_pushEscrow; assumption)
theorem keeps_laneUp {m0 : Module} (m : Module) (l : Lane) (fec : Bool) (hk : Keeps m0 m) :
    Keeps m0 (m.laneUp l fec) := by
  unfold Module.laneUp
  dsimp only; split; split; split; with_reducible (apply keeps_setLane; assumption); split
  with_reducible (apply keeps_setLane; assumption; apply keeps_beginAuth; apply keeps_measure; apply keeps_setLane)
  with_reducible (assumption; assumption); split; split; with_reducible (apply keeps_setLane; assumption); split
  with_reducible (apply keeps_setLane; assumption; apply keeps_beginAuth; apply keeps_measure; apply keeps_setLane)
  with_reducible (assumption; assumption)
theorem keeps_linkGone {m0 : Module} (m : Module) (l : Lane) (hk : Keeps m0 m) :
    Keeps m0 (m.linkGone l) := by
  unfold Module.linkGone
  split; dsimp only; with_reducible (refine Keeps.update ?_ rfl; apply keeps_detachHost; assumption); split
  with_reducible (apply keeps_breakSpan; apply keeps_setSpan; assumption; assumption)
theorem keeps_laneDown {m0 : Module} (m : Module) (l : Lane) (hk : Keeps m0 m) :
    Keeps m0 (m.laneDown l) := by
  unfold Module.laneDown
  dsimp only; split; with_reducible (apply keeps_linkGone; apply keeps_trainLane; apply keeps_setLane; assumption)
  with_reducible assumption
theorem keeps_prbsStep {m0 : Module} (m : Module) (hk : Keeps m0 m) :
    Keeps m0 m.prbsStep := by
  unfold Module.prbsStep
  split; split; with_reducible (apply keeps_foldl; assumption); intro _; intro _; intro _; split
  with_reducible (assumption; apply keeps_linkGone; apply keeps_setLane; assumption; assumption; assumption)
theorem keeps_unwrapSpan {m0 : Module} (m : Module) (side : Side) (hk : Keeps m0 m) :
    Keeps m0 (m.unwrapSpan side) := by
  unfold Module.unwrapSpan
  split; dsimp only; with_reducible (apply keeps_ringChange; apply keeps_sendChange; apply keeps_noteBreak)
  with_reducible (apply keeps_setSpan; assumption; assumption)
theorem keeps_setEscrow {m0 : Module} (m : Module) (side : Side) (e : Option Escrow) (hk : Keeps m0 m) :
    Keeps m0 (m.setEscrow side e) := by
  unfold Module.setEscrow
  split; with_reducible (refine Keeps.update ?_ rfl; assumption; refine Keeps.update ?_ rfl; assumption)
theorem keeps_sendHello {m0 : Module} (m : Module) (hk : Keeps m0 m) :
    Keeps m0 m.sendHello := by
  unfold Module.sendHello
  split; dsimp only; with_reducible (apply keeps_setSpan; apply keeps_setSpan; apply keeps_link; apply keeps_link)
  with_reducible (assumption; assumption)
theorem keeps_onLink {m0 : Module} (m : Module) (hdr : LinkHdr) (f : Side → Module → Module) (hk : Keeps m0 m)
    (hf : ∀ a0 x, Keeps m0 x → Keeps m0 (f a0 x)) :
    Keeps m0 (m.onLink hdr f) := by
  unfold Module.onLink
  split; with_reducible assumption; split; with_reducible (apply_assumption; apply keeps_seeEpoch; assumption)
  with_reducible assumption
theorem keeps_helloAuth {m0 : Module} (m : Module) (side : Side) (restarted keyless : Bool) (hk : Keeps m0 m) :
    Keeps m0 (m.helloAuth side restarted keyless) := by
  unfold Module.helloAuth
  split; with_reducible (apply keeps_reauth; assumption); split; with_reducible (apply keeps_setSpan; assumption)
  with_reducible (apply keeps_beginAuth; assumption)
theorem keeps_takeHello {m0 : Module} (m : Module) (side : Side) (epoch : Word16)
    (position claim variant flags name : Byte) (seen : Word16) (hk : Keeps m0 m) :
    Keeps m0 (m.takeHello side epoch position claim variant flags name seen) := by
  unfold Module.takeHello
  dsimp only; with_reducible apply keeps_helloAuth; split; split; with_reducible apply keeps_ringChange
  with_reducible (apply keeps_sendChange; apply keeps_setSpan; apply keeps_seeVariant; apply keeps_seeEpoch)
  with_reducible (assumption; apply keeps_setSpan; apply keeps_seeVariant; apply keeps_seeEpoch; assumption); split
  with_reducible (apply keeps_ringChange; apply keeps_sendChange; apply keeps_setEscrow; apply keeps_setSpan)
  with_reducible (apply keeps_seeVariant; apply keeps_seeEpoch; assumption; apply keeps_setEscrow)
  with_reducible (apply keeps_setSpan; apply keeps_seeVariant; apply keeps_seeEpoch; assumption)
theorem keeps_answerEcho {m0 : Module} (m : Module) (l : Lane) (tickSent : Nat) (hk : Keeps m0 m) :
    Keeps m0 (m.answerEcho l tickSent) := by
  unfold Module.answerEcho
  split; dsimp only; with_reducible (apply keeps_put; refine Keeps.update ?_ rfl; assumption; assumption)
theorem keeps_takeEcho {m0 : Module} (m : Module) (l : Lane) (tickSent turn : Nat) (hk : Keeps m0 m) :
    Keeps m0 (m.takeEcho l tickSent turn) := by
  unfold Module.takeEcho
  dsimp only; split; with_reducible assumption; split; split; with_reducible apply keeps_measure
  with_reducible (apply keeps_setLane; assumption); split; with_reducible (apply keeps_setLane; assumption)
  with_reducible (apply keeps_linkGone; apply keeps_setLane; assumption; assumption)
theorem keeps_takeA {m0 : Module} (m : Module) (epoch : Word16) (na : List Byte) (hk : Keeps m0 m) :
    Keeps m0 (m.takeA epoch na) := by
  unfold Module.takeA
  split; dsimp only; with_reducible (apply keeps_nonce; apply keeps_setSpan); split
  with_reducible (apply keeps_breakSpan; assumption; assumption; assumption)
theorem keeps_takeB {m0 : Module} (m : Module) (epoch : Word16) (nb mb : List Byte) (hk : Keeps m0 m) :
    Keeps m0 (m.takeB epoch nb mb) := by
  unfold Module.takeB
  split; dsimp only; split; split; with_reducible (apply keeps_authDone; apply keeps_link; apply keeps_setSpan)
  with_reducible assumption; split; split; with_reducible (apply keeps_authDone; apply keeps_link)
  with_reducible (apply keeps_setSpan; assumption; apply keeps_authFails; apply keeps_setSpan; assumption)
  with_reducible (apply keeps_authFails; apply keeps_setSpan; assumption; apply keeps_authFails; apply keeps_setSpan)
  with_reducible (assumption; assumption)
theorem keeps_takeC {m0 : Module} (m : Module) (epoch : Word16) (ma : List Byte) (hk : Keeps m0 m) :
    Keeps m0 (m.takeC epoch ma) := by
  unfold Module.takeC
  split; dsimp only; split; split; with_reducible (apply keeps_authDone; assumption; apply keeps_authFails)
  with_reducible (assumption; apply keeps_authFails; assumption; assumption)
theorem keeps_authRetry {m0 : Module} (m : Module) (side : Side) (hk : Keeps m0 m) :
    Keeps m0 (m.authRetry side) := by
  unfold Module.authRetry
  dsimp only; split; split; split; with_reducible (apply keeps_beginAuth; apply keeps_setSpan; assumption)
  with_reducible (apply keeps_authFails; assumption; assumption); split; with_reducible apply keeps_beginAuth
  with_reducible (assumption; assumption)
theorem keeps_enumEast {m0 : Module} (m : Module) (count : Nat) (all384 : Bool) (hk : Keeps m0 m) :
    Keeps m0 (m.enumEast count all384) := by
  unfold Module.enumEast
  split; with_reducible (apply keeps_link; refine Keeps.update ?_ rfl; assumption); dsimp only
  with_reducible (apply keeps_link; refine Keeps.update ?_ rfl; apply keeps_takePosition; assumption)
theorem keeps_enumWest {m0 : Module} (m : Module) (d : Nat) (all384 : Bool) (size highest : Nat) (hk : Keeps m0 m) :
    Keeps m0 (m.enumWest d all384 size highest) := by
  unfold Module.enumWest
  split; with_reducible assumption; dsimp only; with_reducible (apply keeps_link; refine Keeps.update ?_ rfl); split
  with_reducible (apply keeps_takePosition; assumption; apply keeps_stayUnpositioned; assumption)
theorem keeps_takeEnum {m0 : Module} (m : Module) (side : Side) (count : Nat) (wWard all384 : Bool)
    (size highest : Nat) (hk : Keeps m0 m) :
    Keeps m0 (m.takeEnum side count wWard all384 size highest) := by
  unfold Module.takeEnum
  split; split; with_reducible (apply keeps_finishEnum; assumption; assumption); split
  with_reducible (apply keeps_enumEast; assumption; apply keeps_enumWest; assumption; assumption)
theorem keeps_takeDone {m0 : Module} (m : Module) (side : Side) (positions : Nat) (form : Form)
    (refList : List Byte) (hk : Keeps m0 m) :
    Keeps m0 (m.takeDone side positions form refList) := by
  unfold Module.takeDone
  split; with_reducible assumption; dsimp only; with_reducible (apply keeps_link; apply keeps_enumerated; assumption)
theorem keeps_takeRefuse {m0 : Module} (m : Module) (side : Side) (cause : Byte) (hk : Keeps m0 m) :
    Keeps m0 (m.takeRefuse side cause) := by
  unfold Module.takeRefuse
  dsimp only; split; with_reducible (apply keeps_ringChange; apply keeps_sendChange; apply keeps_breakSpan)
  with_reducible (apply keeps_setSpan; assumption; apply keeps_breakSpan; apply keeps_setSpan; assumption)
theorem keeps_enumTimeout {m0 : Module} (m : Module) (highest : Nat) (hk : Keeps m0 m) :
    Keeps m0 (m.enumTimeout highest) := by
  unfold Module.enumTimeout
  split; split; split; dsimp only; with_reducible (apply keeps_finishEnum; apply keeps_brokenForm; assumption)
  with_reducible (apply keeps_link; refine Keeps.update ?_ rfl; assumption; assumption; assumption)
theorem keeps_takeNotice {m0 : Module} (m : Module) (weft : Word32) (hk : Keeps m0 m) :
    Keeps m0 (m.takeNotice weft) := by
  unfold Module.takeNotice
  dsimp only; split; with_reducible (apply keeps_ringChange; refine Keeps.update ?_ rfl; assumption)
  with_reducible (refine Keeps.update ?_ rfl; assumption)
theorem keeps_takeAck {m0 : Module} (m : Module) (side : Side) (revision : Word32) (hk : Keeps m0 m) :
    Keeps m0 (m.takeAck side revision) := by
  unfold Module.takeAck
  split; dsimp only; with_reducible (apply keeps_settlePushes; apply keeps_erasePrevious); split
  with_reducible (refine Keeps.update ?_ rfl; apply keeps_setSpan; assumption; refine Keeps.update ?_ rfl)
  with_reducible (apply keeps_setSpan; assumption; assumption)
theorem keeps_writeBlock {m0 : Module} (m : Module) (b : Block) (e : PartEntry) (out : List Byte) (hk : Keeps m0 m) :
    Keeps m0 (m.writeBlock b e out) := by
  unfold Module.writeBlock
  dsimp only; with_reducible (refine Keeps.update ?_ rfl; assumption)
theorem keeps_copySame {m0 : Module} (m : Module) (hk : Keeps m0 m) :
    Keeps m0 m.copySame := by
  unfold Module.copySame
  dsimp only; with_reducible (refine Keeps.update ?_ rfl; assumption)
theorem keeps_assemble {m0 : Module} (m : Module) (hk : Keeps m0 m) :
    Keeps m0 m.assemble := by
  unfold Module.assemble
  split; dsimp only; split; with_reducible (apply keeps_setSession; apply keeps_copySame; assumption)
  with_reducible (apply keeps_setSession; refine Keeps.update ?_ rfl; apply keeps_copySame; assumption; assumption)
theorem keeps_openSession {m0 : Module} (m : Module) (id : Word32) (clean : Bool) (man : List Byte) (gateway : Byte)
    (opener : Bool) (roster : List Nat) (hk : Keeps m0 m) :
    Keeps m0 (m.openSession id clean man gateway opener roster) := by
  unfold Module.openSession
  dsimp only; with_reducible (apply keeps_assemble; refine Keeps.update ?_ rfl; apply keeps_setSession; assumption)
theorem keeps_flushHeld {m0 : Module} (m : Module) (hk : Keeps m0 m) :
    Keeps m0 m.flushHeld := by
  unfold Module.flushHeld
  split; dsimp only; split; with_reducible (apply keeps_foldl; refine Keeps.update ?_ rfl; assumption); intro _
  intro _; intro _; split; with_reducible (apply keeps_deliver; assumption; apply keeps_ringSend; assumption); split
  with_reducible (apply keeps_deliver; apply keeps_logEntry; apply keeps_foldl; refine Keeps.update ?_ rfl)
  with_reducible assumption; intro _; intro _; intro _; split; with_reducible (apply keeps_deliver; assumption)
  with_reducible (apply keeps_ringSend; assumption; apply keeps_ringSend; apply keeps_logEntry; apply keeps_foldl)
  with_reducible (refine Keeps.update ?_ rfl; assumption); intro _; intro _; intro _; split
  with_reducible (apply keeps_deliver; assumption; apply keeps_ringSend; assumption; assumption)
theorem keeps_adopt {m0 : Module} (m : Module) (h : WeftHdr) (d : Nat) (hk : Keeps m0 m) :
    Keeps m0 (m.adopt h d).1 := by
  unfold Module.adopt
  dsimp only; split; dsimp only; with_reducible (refine Keeps.update ?_ rfl; apply keeps_stepAngle)
  with_reducible (refine Keeps.update ?_ rfl; assumption); split; dsimp only
  with_reducible (apply keeps_stepUnlessWrap; refine Keeps.update ?_ rfl; assumption); dsimp only
  with_reducible (refine Keeps.update ?_ rfl; assumption)
theorem keeps_judgeMute {m0 : Module} (m : Module) (err : Int) (hk : Keeps m0 m) :
    Keeps m0 (m.judgeMute err) := by
  unfold Module.judgeMute
  dsimp only; split; split; split; with_reducible (apply keeps_ringChange; refine Keeps.update ?_ rfl; assumption)
  split; with_reducible (apply keeps_flushHeld; refine Keeps.update ?_ rfl; assumption; refine Keeps.update ?_ rfl)
  with_reducible assumption; split; with_reducible (apply keeps_ringChange; refine Keeps.update ?_ rfl; assumption)
  split; with_reducible (apply keeps_flushHeld; refine Keeps.update ?_ rfl; assumption; refine Keeps.update ?_ rfl)
  with_reducible assumption; split; split; with_reducible (apply keeps_ringChange; refine Keeps.update ?_ rfl)
  with_reducible assumption; split; with_reducible (apply keeps_flushHeld; refine Keeps.update ?_ rfl; assumption)
  with_reducible (refine Keeps.update ?_ rfl; assumption); split; with_reducible apply keeps_ringChange
  with_reducible (refine Keeps.update ?_ rfl; assumption); split; with_reducible apply keeps_flushHeld
  with_reducible (refine Keeps.update ?_ rfl; assumption; refine Keeps.update ?_ rfl; assumption)
theorem keeps_joinBetween {m0 : Module} (m : Module) (positions : Nat) (hk : Keeps m0 m) :
    Keeps m0 (m.joinBetween positions) := by
  unfold Module.joinBetween
  dsimp only; split; with_reducible assumption; split; split; with_reducible (apply keeps_takePosition; assumption)
  with_reducible (apply keeps_stayUnpositioned; assumption; apply keeps_takePosition; assumption)
  with_reducible (apply keeps_takePosition; assumption; assumption)
theorem keeps_readHeader {m0 : Module} (m : Module) (lane : Lane) (h : WeftHdr) (d : Nat) (hk : Keeps m0 m) :
    Keeps m0 (m.readHeader lane h d) := by
  unfold Module.readHeader
  dsimp only; split; with_reducible apply keeps_ringChange; split; with_reducible apply keeps_setSpan
  with_reducible (apply keeps_setSpan; refine Keeps.update ?_ rfl); split; with_reducible apply keeps_takeForm
  with_reducible (refine Keeps.update ?_ rfl; apply keeps_seeEpoch; assumption; apply keeps_seeEpoch; assumption)
  with_reducible refine Keeps.update ?_ rfl; split; with_reducible (apply keeps_takeForm; refine Keeps.update ?_ rfl)
  with_reducible (apply keeps_seeEpoch; assumption; apply keeps_seeEpoch; assumption); split
  with_reducible (apply keeps_setSpan; apply keeps_setSpan; refine Keeps.update ?_ rfl); split
  with_reducible (apply keeps_takeForm; refine Keeps.update ?_ rfl; apply keeps_seeEpoch; assumption)
  with_reducible (apply keeps_seeEpoch; assumption; refine Keeps.update ?_ rfl); split
  with_reducible (apply keeps_takeForm; refine Keeps.update ?_ rfl; apply keeps_seeEpoch; assumption)
  with_reducible (apply keeps_seeEpoch; assumption)
theorem keeps_passHeader {m0 : Module} (m : Module) (lane : Lane) (h : WeftHdr) (d : Nat) (hk : Keeps m0 m) :
    Keeps m0 (m.passHeader lane h d) := by
  unfold Module.passHeader
  dsimp only; with_reducible (apply keeps_putLane; assumption)
theorem keeps_takeHeader {m0 : Module} (m : Module) (lane : Lane) (h : WeftHdr) (hk : Keeps m0 m) :
    Keeps m0 (m.takeHeader lane h) := by
  unfold Module.takeHeader
  dsimp only; split; with_reducible assumption; split; split; with_reducible (apply keeps_seeEpoch; assumption)
  with_reducible (apply keeps_passHeader; apply keeps_seeEpoch; assumption); split
  with_reducible (apply keeps_seeEpoch; assumption; apply keeps_passHeader); split; split
  with_reducible (apply keeps_judgeMute; apply keeps_adopt; apply keeps_joinBetween; apply keeps_readHeader)
  with_reducible (refine Keeps.update ?_ rfl; assumption; apply keeps_joinBetween; apply keeps_readHeader)
  with_reducible (refine Keeps.update ?_ rfl; assumption); split; with_reducible apply keeps_judgeMute
  with_reducible (apply keeps_adopt; apply keeps_joinBetween; apply keeps_readHeader; assumption)
  with_reducible (apply keeps_joinBetween; apply keeps_readHeader; assumption)
theorem keeps_sendHeaders {m0 : Module} (m : Module) (hk : Keeps m0 m) :
    Keeps m0 m.sendHeaders := by
  unfold Module.sendHeaders
  split; dsimp only; with_reducible (apply keeps_foldl; refine Keeps.update ?_ rfl; apply keeps_foldl; assumption)
  intro _; intro _; intro _; with_reducible (apply keeps_putLane; assumption); intro _; intro _; intro _
  with_reducible (apply keeps_putLane; assumption; assumption)
theorem keeps_becomeRef {m0 : Module} (m : Module) (hk : Keeps m0 m) :
    Keeps m0 m.becomeRef := by
  unfold Module.becomeRef
  dsimp only; with_reducible apply keeps_ringChange; split; with_reducible (refine Keeps.update ?_ rfl; assumption)
  with_reducible (refine Keeps.update ?_ rfl; assumption)
theorem keeps_busy {m0 : Module} (m : Module) (l : Lane) (till : Nat) (hk : Keeps m0 m) :
    Keeps m0 (m.busy l till) := by
  unfold Module.busy
  with_reducible (refine Keeps.update ?_ rfl; assumption)
theorem keeps_insertFrame {m0 : Module} (m : Module) (f : RingOut) (duration : Nat) (hk : Keeps m0 m) :
    Keeps m0 (m.insertFrame f duration) := by
  unfold Module.insertFrame
  dsimp only; with_reducible apply keeps_putLane; split; with_reducible (apply keeps_setTill; apply keeps_busy)
  with_reducible (refine Keeps.update ?_ rfl; assumption; apply keeps_busy; refine Keeps.update ?_ rfl; assumption)
theorem keeps_insert {m0 : Module} (m : Module) (duration : Nat) (hk : Keeps m0 m) :
    Keeps m0 (m.insert duration) := by
  unfold Module.insert
  split; with_reducible assumption; split; dsimp only; split; with_reducible apply keeps_pushEscrow
  with_reducible (apply keeps_flushHeld; assumption; apply keeps_prbsStep; apply keeps_standbyStep)
  with_reducible (apply keeps_resetStep; apply keeps_insertFrame; refine Keeps.update ?_ rfl; apply keeps_pushEscrow)
  with_reducible (apply keeps_flushHeld; assumption; assumption)
theorem keeps_forwardFrame {m0 : Module} (m : Module) (out : Lane) (f : RingOut) (hk : Keeps m0 m) :
    Keeps m0 (m.forwardFrame out f) := by
  unfold Module.forwardFrame
  split; with_reducible (refine Keeps.update ?_ rfl; assumption; apply keeps_putLane; apply keeps_busy; assumption)
theorem keeps_passFrame {m0 : Module} (m : Module) (lane : Lane) (ty : Byte) (hdr : RingHdr) (payload : List Byte)
    (good inserted : Bool) (reach : Nat) (hk : Keeps m0 m) :
    Keeps m0 (m.passFrame lane ty hdr payload good inserted reach) := by
  unfold Module.passFrame
  split; with_reducible assumption; dsimp only; split; with_reducible (apply keeps_link; apply keeps_seeEpoch)
  with_reducible assumption; split; with_reducible (apply keeps_seeEpoch; assumption); split
  with_reducible (apply keeps_seeEpoch; assumption); split; split; with_reducible (apply keeps_seeEpoch; assumption)
  with_reducible (refine Keeps.update ?_ rfl; apply keeps_seeEpoch; assumption; apply keeps_forwardFrame)
  with_reducible (apply keeps_seeEpoch; assumption)
theorem keeps_sendPresence {m0 : Module} (m : Module) (dst : Byte) (hk : Keeps m0 m) :
    Keeps m0 (m.sendPresence dst) := by
  unfold Module.sendPresence
  with_reducible (apply keeps_ringSend; assumption)
theorem keeps_takeRing {m0 : Module} (m : Module) (hdr : RingHdr) (opcode : Word16) (p : Packet) (hk : Keeps m0 m) :
    Keeps m0 (m.takeRing hdr opcode p) := by
  unfold Module.takeRing
  split; with_reducible assumption; split; with_reducible (apply keeps_sendPresence; assumption; apply keeps_arrive)
  with_reducible assumption
theorem keeps_relayFinal {m0 : Module} (m : Module) (src : Nat) (r : Reply) (hk : Keeps m0 m) :
    Keeps m0 (m.relayFinal src r) := by
  unfold Module.relayFinal
  split; with_reducible assumption; dsimp only; with_reducible (apply keeps_send; refine Keeps.update ?_ rfl)
  with_reducible assumption
theorem keeps_relay {m0 : Module} (m : Module) (hdr : RingHdr) (r : Reply) (hk : Keeps m0 m) :
    Keeps m0 (m.relay hdr r) := by
  unfold Module.relay
  dsimp only; split; with_reducible assumption; split; with_reducible (assumption; apply keeps_resetStep)
  with_reducible (apply keeps_completeWith; apply keeps_setTill; refine Keeps.update ?_ rfl; assumption)
theorem keeps_placeEscrow {m0 : Module} (m : Module) (side : Side) (position : Byte) (epoch : Word16)
    (revision : Word32) (bytes mac : List Byte) (hk : Keeps m0 m) :
    Keeps m0 (m.placeEscrow side position epoch revision bytes mac) := by
  unfold Module.placeEscrow
  split; with_reducible (apply keeps_link; apply keeps_setEscrow; assumption; assumption)
theorem keeps_takeEscrow {m0 : Module} (m : Module) (side : Side) (position : Byte) (epoch : Word16)
    (revision total offset : Word32) (data mac : List Byte) (hk : Keeps m0 m) :
    Keeps m0 (m.takeEscrow side position epoch revision total offset data mac) := by
  unfold Module.takeEscrow
  dsimp only; split; with_reducible (apply keeps_setSpan; assumption); split; with_reducible apply keeps_setSpan
  with_reducible assumption; split; with_reducible (apply keeps_placeEscrow; apply keeps_setSpan; assumption)
  with_reducible (apply keeps_setSpan; assumption)
theorem keeps_takeChange {m0 : Module} (m : Module) (src cause subject : Byte) (epoch : Word16) (hk : Keeps m0 m) :
    Keeps m0 (m.takeChange src cause subject epoch) := by
  unfold Module.takeChange
  dsimp only; with_reducible apply keeps_ringChange; split; with_reducible apply keeps_noteBreak
  with_reducible refine Keeps.update ?_ rfl; split; with_reducible apply keeps_seeEpoch; split
  with_reducible (apply keeps_finishEnum; apply keeps_brokenForm; assumption; assumption); split
  with_reducible (apply keeps_finishEnum; apply keeps_brokenForm; assumption; assumption; refine Keeps.update ?_ rfl)
  split; with_reducible apply keeps_seeEpoch; split; with_reducible (apply keeps_finishEnum; apply keeps_brokenForm)
  with_reducible (assumption; assumption); split; with_reducible (apply keeps_finishEnum; apply keeps_brokenForm)
  with_reducible (assumption; assumption)
theorem keeps_openAt {m0 : Module} (m : Module) (p : Packet) (id : Word32) (hk : Keeps m0 m) :
    Keeps m0 (m.openAt p id).1 := by
  unfold Module.openAt
  dsimp only; split; with_reducible (apply keeps_openSession; assumption; apply keeps_ctlAll; apply keeps_openSession)
  with_reducible assumption
theorem keeps_openHere {m0 : Module} (m : Module) (p : Packet) (hk : Keeps m0 m) :
    Keeps m0 (m.openHere p).1 := by
  unfold Module.openHere
  dsimp only; split; with_reducible assumption; split; split; with_reducible (assumption; apply keeps_openAt)
  with_reducible (refine Keeps.update ?_ rfl; assumption); split; with_reducible apply keeps_openAt
  with_reducible (apply keeps_draw; assumption); split; dsimp only; with_reducible apply keeps_awaitEntropy
  with_reducible (assumption; assumption)
theorem acts_opUpdateOpen {m0 : Module} (p : Packet) (m : Module) (w : When) (hk : Keeps m0 m) :
    Keeps m0 (opUpdateOpen.act m p w).1 := by
  unfold opUpdateOpen
  dsimp only; with_reducible (apply keeps_openHere; assumption)
theorem after_opUpdateOpen {m0 : Module} (p : Packet) (m : Module) (hk : Keeps m0 m) :
    Keeps m0 (opUpdateOpen.after m p) := by
  unfold opUpdateOpen
  with_reducible assumption
theorem keeps_onCtl {m0 : Module} (m : Module) (hdr : RingHdr) (f : Module → Module) (hk : Keeps m0 m)
    (hf : ∀ x, Keeps m0 x → Keeps m0 (f x)) :
    Keeps m0 (m.onCtl hdr f) := by
  unfold Module.onCtl
  dsimp only; split; with_reducible (apply keeps_takeOnce; assumption); intro _; intro _; split
  with_reducible (assumption; apply_assumption; assumption; apply keeps_addressed; assumption); intro _; intro _
  split; with_reducible (assumption; apply_assumption; assumption)
theorem keeps_takeOpen {m0 : Module} (m : Module) (u : UpdHdr) (clean : Bool) (man : List Byte) (hk : Keeps m0 m) :
    Keeps m0 (m.takeOpen u clean man) := by
  unfold Module.takeOpen
  dsimp only; split; with_reducible assumption; split; with_reducible (apply keeps_setSession; assumption); split
  with_reducible (apply keeps_setSession; assumption); split; with_reducible (apply keeps_setSession; assumption)
  with_reducible (apply keeps_openSession; assumption)
theorem keeps_passBlock {m0 : Module} (m : Module) (b : Block) (from_ : Option Side) (hk : Keeps m0 m) :
    Keeps m0 (m.passBlock b from_) := by
  unfold Module.passBlock
  with_reducible (apply keeps_foldl; assumption); intro _; intro _; intro _; dsimp only; split
  with_reducible (apply keeps_ringSend; assumption; assumption)
theorem keeps_newBlock {m0 : Module} (m : Module) (b : Block) (e : PartEntry) (out : List Byte)
    (from_ : Option Side) (hk : Keeps m0 m) :
    Keeps m0 (m.newBlock b e out from_) := by
  unfold Module.newBlock
  dsimp only; with_reducible (apply keeps_assemble; apply keeps_setSession; apply keeps_passBlock)
  with_reducible (apply keeps_writeBlock; assumption)
theorem acts_opBlockPut {m0 : Module} (p : Packet) (m : Module) (w : When) (hk : Keeps m0 m) :
    Keeps m0 (opBlockPut.act m p w).1 := by
  unfold opBlockPut
  dsimp only; split; with_reducible assumption; dsimp only; split; with_reducible (assumption; apply keeps_newBlock)
  with_reducible assumption
theorem after_opBlockPut {m0 : Module} (p : Packet) (m : Module) (hk : Keeps m0 m) :
    Keeps m0 (opBlockPut.after m p) := by
  unfold opBlockPut
  with_reducible assumption
theorem keeps_takeBlockFrame {m0 : Module} (m : Module) (side : Side) (b : Block) (hk : Keeps m0 m) :
    Keeps m0 (m.takeBlockFrame side b) := by
  unfold Module.takeBlockFrame
  split; dsimp only; split; split; split; with_reducible (apply keeps_setSession; assumption; apply keeps_newBlock)
  with_reducible (apply keeps_setSession; assumption; apply keeps_setSession; assumption; apply keeps_setSession)
  with_reducible (assumption; assumption)
theorem keeps_answerNeed {m0 : Module} (m : Module) (side : Side) (first count : Nat) (hk : Keeps m0 m) :
    Keeps m0 (m.answerNeed side first count) := by
  unfold Module.answerNeed
  with_reducible (apply keeps_foldl; assumption); intro _; intro _; intro _; split
  with_reducible (apply keeps_ringSend; assumption; assumption)
theorem keeps_stalled {m0 : Module} (m : Module) (hk : Keeps m0 m) :
    Keeps m0 m.stalled := by
  unfold Module.stalled
  dsimp only; split; with_reducible (apply keeps_setSession; assumption; apply keeps_sendCtl; apply keeps_setSession)
  with_reducible assumption
theorem acts_opUpdateStatus {m0 : Module} (p : Packet) (m : Module) (w : When) (hk : Keeps m0 m) :
    Keeps m0 (opUpdateStatus.act m p w).1 := by
  unfold opUpdateStatus
  with_reducible assumption
theorem after_opUpdateStatus {m0 : Module} (p : Packet) (m : Module) (hk : Keeps m0 m) :
    Keeps m0 (opUpdateStatus.after m p) := by
  unfold opUpdateStatus
  with_reducible assumption
theorem keeps_replyCtl {m0 : Module} (m : Module) (u : UpdHdr) (sub : Nat) (cause : Byte) (body : List Byte)
    (hk : Keeps m0 m) :
    Keeps m0 (m.replyCtl u sub cause body) := by
  unfold Module.replyCtl
  with_reducible (apply keeps_ringSend; assumption)
theorem keeps_writeSettings {m0 : Module} (m : Module) (hk : Keeps m0 m) :
    Keeps m0 m.writeSettings := by
  unfold Module.writeSettings
  dsimp only; with_reducible (refine Keeps.update ?_ rfl; assumption)
theorem keeps_castVote {m0 : Module} (m : Module) (u : UpdHdr) (hk : Keeps m0 m) :
    Keeps m0 (m.castVote u) := by
  unfold Module.castVote
  dsimp only; split; split; with_reducible (apply keeps_replyCtl; apply keeps_setSession; apply keeps_writeSettings)
  with_reducible (assumption; apply keeps_replyCtl; assumption; apply keeps_replyCtl; assumption)
theorem keeps_countVote {m0 : Module} (m : Module) (src : Nat) (yes : Bool) (cause : Byte) (hk : Keeps m0 m) :
    Keeps m0 (m.countVote src yes cause) := by
  unfold Module.countVote
  dsimp only; split; with_reducible assumption; split; split; with_reducible apply keeps_endFinals
  with_reducible (apply keeps_setSession; apply keeps_setSession; assumption; apply keeps_setSession; assumption)
  with_reducible assumption
theorem acts_opPrepare {m0 : Module} (p : Packet) (m : Module) (w : When) (hk : Keeps m0 m) :
    Keeps m0 (opPrepare.act m p w).1 := by
  unfold opPrepare
  dsimp only; with_reducible (apply keeps_ctlAll; apply keeps_setSession; assumption)
theorem after_opPrepare {m0 : Module} (p : Packet) (m : Module) (hk : Keeps m0 m) :
    Keeps m0 (opPrepare.after m p) := by
  unfold opPrepare
  dsimp only; with_reducible apply keeps_countVote; split; with_reducible (apply keeps_writeSettings; assumption)
  with_reducible assumption
theorem keeps_sendEach {m0 : Module} (m : Module) (l : List Nat) (sub : Nat) (body : List Byte) (hk : Keeps m0 m) :
    Keeps m0 (m.sendEach l sub body) := by
  unfold Module.sendEach
  with_reducible (apply keeps_foldl; assumption); intro _; intro _; intro _; split; with_reducible assumption
  with_reducible (apply keeps_sendCtl; assumption)
theorem keeps_settleUnwind {m0 : Module} (m : Module) (hk : Keeps m0 m) :
    Keeps m0 m.settleUnwind := by
  unfold Module.settleUnwind
  dsimp only; split; with_reducible (apply keeps_endFinals; apply keeps_endFinals; assumption; assumption)
theorem keeps_noteUnwound {m0 : Module} (m : Module) (q : Nat) (hk : Keeps m0 m) :
    Keeps m0 (m.noteUnwound q) := by
  unfold Module.noteUnwound
  with_reducible (apply keeps_settleUnwind; apply keeps_setSession; assumption)
theorem keeps_beginUnwind {m0 : Module} (m : Module) (hk : Keeps m0 m) :
    Keeps m0 m.beginUnwind := by
  unfold Module.beginUnwind
  split; with_reducible (assumption; apply keeps_ctlAll; apply keeps_setSession; assumption)
theorem keeps_unwindHere {m0 : Module} (m : Module) (hk : Keeps m0 m) :
    Keeps m0 m.unwindHere := by
  unfold Module.unwindHere
  dsimp only; split; with_reducible (refine Keeps.update ?_ rfl; apply keeps_setSession); split
  with_reducible (assumption; refine Keeps.update ?_ rfl; assumption); split; with_reducible apply keeps_noteUnwound
  with_reducible apply keeps_setSession; split; with_reducible (assumption; refine Keeps.update ?_ rfl; assumption)
  with_reducible (apply keeps_ctlGateway; apply keeps_setSession); split; with_reducible assumption
  with_reducible (refine Keeps.update ?_ rfl; assumption)
theorem keeps_judgeTrials {m0 : Module} (m : Module) (deadline : Bool) (hk : Keeps m0 m) :
    Keeps m0 (m.judgeTrials deadline) := by
  unfold Module.judgeTrials
  dsimp only; split; split; with_reducible (apply keeps_beginUnwind; apply keeps_setSession; assumption); split
  with_reducible (apply keeps_endFinals; assumption; assumption; assumption)
theorem keeps_noteTrial {m0 : Module} (m : Module) (q : Nat) (cause : Byte) (hk : Keeps m0 m) :
    Keeps m0 (m.noteTrial q cause) := by
  unfold Module.noteTrial
  with_reducible (apply keeps_judgeTrials; apply keeps_setSession; assumption)
theorem keeps_reportTrial {m0 : Module} (m : Module) (cause : Byte) (hk : Keeps m0 m) :
    Keeps m0 (m.reportTrial cause) := by
  unfold Module.reportTrial
  dsimp only; split; with_reducible (apply keeps_noteTrial; assumption; apply keeps_ctlGateway; assumption)
theorem acts_opCommit {m0 : Module} (p : Packet) (m : Module) (w : When) (hk : Keeps m0 m) :
    Keeps m0 (opCommit.act m p w).1 := by
  unfold opCommit
  dsimp only; with_reducible (apply keeps_ctlAll; apply keeps_setSession; assumption)
theorem after_opCommit {m0 : Module} (p : Packet) (m : Module) (hk : Keeps m0 m) :
    Keeps m0 (opCommit.after m p) := by
  unfold opCommit
  with_reducible assumption
theorem keeps_takeCommit {m0 : Module} (m : Module) (u : UpdHdr) (cycle : Cycle) (hk : Keeps m0 m) :
    Keeps m0 (m.takeCommit u cycle) := by
  unfold Module.takeCommit
  dsimp only; split; with_reducible (apply keeps_setSession; assumption); split; with_reducible assumption
  with_reducible (apply keeps_replyCtl; assumption)
theorem keeps_commitNow {m0 : Module} (m : Module) (c : Nat) (hk : Keeps m0 m) :
    Keeps m0 (m.commitNow c) := by
  unfold Module.commitNow
  dsimp only; split; with_reducible (apply keeps_reportTrial; apply keeps_setSession; assumption)
  with_reducible (refine Keeps.update ?_ rfl; apply keeps_setSession; assumption)
theorem keeps_judgeTrial {m0 : Module} (m : Module) (hk : Keeps m0 m) :
    Keeps m0 m.judgeTrial := by
  unfold Module.judgeTrial
  dsimp only; split; split; with_reducible (assumption; apply keeps_reportTrial; apply keeps_setSession; assumption)
  split; with_reducible (apply keeps_reportTrial; apply keeps_setSession; refine Keeps.update ?_ rfl; assumption)
  with_reducible assumption
theorem keeps_resendCommit {m0 : Module} (m : Module) (hk : Keeps m0 m) :
    Keeps m0 m.resendCommit := by
  unfold Module.resendCommit
  dsimp only; split; split; with_reducible (apply keeps_sendEach; assumption; assumption; assumption)
theorem keeps_resendStep {m0 : Module} (m : Module) (hk : Keeps m0 m) :
    Keeps m0 m.resendStep := by
  unfold Module.resendStep
  dsimp only; split; split; with_reducible (apply keeps_reportTrial; assumption; assumption); split
  with_reducible (apply keeps_sendEach; assumption); split; with_reducible (apply keeps_resendCommit; assumption)
  split; with_reducible (assumption; apply keeps_resendCommit; assumption; apply keeps_sendEach; assumption)
  with_reducible assumption
theorem acts_opConfirm {m0 : Module} (p : Packet) (m : Module) (w : When) (hk : Keeps m0 m) :
    Keeps m0 (opConfirm.act m p w).1 := by
  unfold opConfirm
  dsimp only; split; with_reducible (apply keeps_sendEach; apply keeps_setSession; assumption; apply keeps_ctlAll)
  with_reducible (apply keeps_setSession; assumption)
theorem after_opConfirm {m0 : Module} (p : Packet) (m : Module) (hk : Keeps m0 m) :
    Keeps m0 (opConfirm.after m p) := by
  unfold opConfirm
  with_reducible assumption
theorem keeps_noteConfirmed {m0 : Module} (m : Module) (q : Nat) (cause : Byte) (hk : Keeps m0 m) :
    Keeps m0 (m.noteConfirmed q cause) := by
  unfold Module.noteConfirmed
  dsimp only; split; with_reducible (apply keeps_endFinals; apply keeps_setSession; apply keeps_setSession)
  with_reducible (assumption; apply keeps_setSession; assumption)
theorem keeps_reportConfirmed {m0 : Module} (m : Module) (hk : Keeps m0 m) :
    Keeps m0 m.reportConfirmed := by
  unfold Module.reportConfirmed
  dsimp only; split; with_reducible (apply keeps_noteConfirmed; assumption; apply keeps_ctlGateway; assumption)
theorem keeps_confirmHere {m0 : Module} (m : Module) (readBurnt : Nat) (hk : Keeps m0 m) :
    Keeps m0 (m.confirmHere readBurnt) := by
  unfold Module.confirmHere
  dsimp only; with_reducible (apply keeps_reportConfirmed; apply keeps_setSession; refine Keeps.update ?_ rfl); split
  with_reducible (apply keeps_storeItems; refine Keeps.update ?_ rfl; assumption; refine Keeps.update ?_ rfl)
  with_reducible assumption
theorem acts_opUnwind {m0 : Module} (p : Packet) (m : Module) (w : When) (hk : Keeps m0 m) :
    Keeps m0 (opUnwind.act m p w).1 := by
  unfold opUnwind
  dsimp only; with_reducible (apply keeps_beginUnwind; apply keeps_setSession; assumption)
theorem after_opUnwind {m0 : Module} (p : Packet) (m : Module) (hk : Keeps m0 m) :
    Keeps m0 (opUnwind.after m p) := by
  unfold opUnwind
  with_reducible assumption
theorem keeps_abortHere {m0 : Module} (m : Module) (hk : Keeps m0 m) :
    Keeps m0 m.abortHere := by
  unfold Module.abortHere
  with_reducible (apply keeps_setSession; assumption)
theorem acts_opUpdateAbort {m0 : Module} (p : Packet) (m : Module) (w : When) (hk : Keeps m0 m) :
    Keeps m0 (opUpdateAbort.act m p w).1 := by
  unfold opUpdateAbort
  dsimp only; with_reducible (apply keeps_endFinals; apply keeps_abortHere); split
  with_reducible (apply keeps_ctlAll; assumption; assumption)
theorem after_opUpdateAbort {m0 : Module} (p : Packet) (m : Module) (hk : Keeps m0 m) :
    Keeps m0 (opUpdateAbort.after m p) := by
  unfold opUpdateAbort
  with_reducible assumption
theorem keeps_recover {m0 : Module} (m : Module) (hk : Keeps m0 m) :
    Keeps m0 m.recover.1 := by
  unfold Module.recover
  dsimp only; split; with_reducible assumption; split; with_reducible assumption; split; with_reducible assumption
  split; with_reducible assumption; dsimp only; with_reducible (refine Keeps.update ?_ rfl; assumption)
theorem acts_opRecoverActivate {m0 : Module} (p : Packet) (m : Module) (w : When) (hk : Keeps m0 m) :
    Keeps m0 (opRecoverActivate.act m p w).1 := by
  unfold opRecoverActivate
  dsimp only; with_reducible (apply keeps_recover; assumption)
theorem after_opRecoverActivate {m0 : Module} (p : Packet) (m : Module) (hk : Keeps m0 m) :
    Keeps m0 (opRecoverActivate.after m p) := by
  unfold opRecoverActivate
  dsimp only; with_reducible (apply keeps_resetStep; assumption)
theorem keeps_resumeGateway {m0 : Module} (m : Module) (hk : Keeps m0 m) :
    Keeps m0 m.resumeGateway := by
  unfold Module.resumeGateway
  dsimp only; split; split; with_reducible (apply keeps_ctlAll; apply keeps_setSession; assumption; assumption); split
  with_reducible (apply keeps_ctlAll; apply keeps_setSession; assumption; assumption); split; split
  with_reducible (assumption; apply keeps_setSession; assumption); split; with_reducible apply keeps_ctlAll
  with_reducible (assumption; apply keeps_resendCommit; assumption); split; with_reducible apply keeps_sendEach
  with_reducible assumption; split; with_reducible (apply keeps_ctlAll; assumption; apply keeps_resendCommit)
  with_reducible (assumption; apply keeps_sendEach; assumption; apply keeps_noteUnwound; apply keeps_setSession)
  split; with_reducible (apply keeps_ctlAll; apply keeps_setSession; assumption; apply keeps_sendEach; assumption)
  with_reducible assumption
theorem keeps_resumeMember {m0 : Module} (m : Module) (hk : Keeps m0 m) :
    Keeps m0 m.resumeMember := by
  unfold Module.resumeMember
  dsimp only; split; split; with_reducible (apply keeps_ctlGateway; apply keeps_setSession; assumption)
  with_reducible (apply keeps_reportTrial; apply keeps_setSession; assumption; assumption)
theorem keeps_resumeSession {m0 : Module} (m : Module) (hk : Keeps m0 m) :
    Keeps m0 m.resumeSession := by
  unfold Module.resumeSession
  split; dsimp only; split; with_reducible (apply keeps_resumeGateway; apply keeps_setSession; assumption)
  with_reducible (apply keeps_resumeMember; apply keeps_setSession; assumption; assumption)
theorem keeps_cycleStart {m0 : Module} (m : Module) (hk : Keeps m0 m) :
    Keeps m0 m.cycleStart := by
  unfold Module.cycleStart
  split; dsimp only; split; with_reducible (apply keeps_unwindHere; apply keeps_cycleBegins)
  with_reducible (refine Keeps.update ?_ rfl; assumption; apply keeps_cycleBegins; refine Keeps.update ?_ rfl)
  with_reducible (assumption; assumption)

end Sys2Proof.Machine
end

