-- ==== Sys2Proof/Laws/KeepsRest.lean ====
section
/-! SUPPORT. The same for the start, the entropy unit, the ports and the self-tests (Laws/Keeps.lean). -/

namespace Sys2Proof.Machine
open Sys2Proof

theorem keeps_powerOn {m0 : Module} (m : Module) (supply : Supply) (hk : Keeps m0 m) :
    Keeps m0 (m.powerOn supply) := by
  unfold Module.powerOn
  split; dsimp only; with_reducible (apply keeps_each; refine Keeps.update ?_ rfl; assumption); intro _; intro _
  intro _; with_reducible (apply keeps_setSlice; assumption; assumption)
theorem keeps_bootBack {m0 : Module} (m : Module) (hk : Keeps m0 m) :
    Keeps m0 m.bootBack := by
  unfold Module.bootBack
  dsimp only; with_reducible (apply keeps_setSession; refine Keeps.update ?_ rfl; assumption)
theorem keeps_slicesOff {m0 : Module} (m : Module) (hk : Keeps m0 m) :
    Keeps m0 m.slicesOff := by
  unfold Module.slicesOff
  with_reducible (apply keeps_each; assumption); intro _; intro _; intro _; with_reducible apply keeps_sliceRestart
  with_reducible assumption
theorem keeps_boot {m0 : Module} (m : Module) (digestsOk : Bool) (hk : Keeps m0 m) :
    Keeps m0 (m.boot digestsOk) := by
  unfold Module.boot
  split; dsimp only; split; split; split; with_reducible (refine Keeps.update ?_ rfl; refine Keeps.update ?_ rfl)
  with_reducible (assumption; apply keeps_slicesOff; refine Keeps.update ?_ rfl; refine Keeps.update ?_ rfl)
  with_reducible assumption; split; with_reducible (refine Keeps.update ?_ rfl; apply keeps_bootBack; assumption)
  with_reducible (apply keeps_slicesOff; refine Keeps.update ?_ rfl; apply keeps_bootBack; assumption); split
  with_reducible (refine Keeps.update ?_ rfl; assumption; apply keeps_slicesOff; refine Keeps.update ?_ rfl)
  with_reducible (assumption; assumption)
theorem keeps_promoteKey {m0 : Module} (m : Module) (hk : Keeps m0 m) :
    Keeps m0 m.promoteKey := by
  unfold Module.promoteKey
  split; dsimp only; split; split; with_reducible (refine Keeps.update ?_ rfl; assumption; apply keeps_erasePrevious)
  with_reducible (refine Keeps.update ?_ rfl; assumption; refine Keeps.update ?_ rfl; assumption; assumption)
theorem keeps_loadConfig {m0 : Module} (m : Module) (hk : Keeps m0 m) :
    Keeps m0 m.loadConfig := by
  unfold Module.loadConfig
  with_reducible (refine Keeps.update ?_ rfl; assumption)
theorem keeps_vaultStage {m0 : Module} (m : Module) (hk : Keeps m0 m) :
    Keeps m0 m.vaultStage := by
  unfold Module.vaultStage
  split; dsimp only; with_reducible apply keeps_trainLanes; split; split; split
  with_reducible (apply keeps_entropyEvent; apply keeps_reloadAll; refine Keeps.update ?_ rfl; apply keeps_loadConfig)
  with_reducible (apply keeps_promoteKey; apply keeps_meterStart; refine Keeps.update ?_ rfl; assumption)
  with_reducible (apply keeps_reloadAll; refine Keeps.update ?_ rfl; apply keeps_loadConfig; apply keeps_promoteKey)
  with_reducible (apply keeps_meterStart; refine Keeps.update ?_ rfl; assumption); split
  with_reducible (apply keeps_entropyEvent; apply keeps_reloadAll; refine Keeps.update ?_ rfl; apply keeps_loadConfig)
  with_reducible (apply keeps_promoteKey; apply keeps_meterStart; refine Keeps.update ?_ rfl; assumption)
  with_reducible (apply keeps_reloadAll; refine Keeps.update ?_ rfl; apply keeps_loadConfig; apply keeps_promoteKey)
  with_reducible (apply keeps_meterStart; refine Keeps.update ?_ rfl; assumption); split; split
  with_reducible (apply keeps_entropyEvent; apply keeps_reloadAll; refine Keeps.update ?_ rfl; apply keeps_loadConfig)
  with_reducible (apply keeps_promoteKey; apply keeps_meterStart; refine Keeps.update ?_ rfl; assumption)
  with_reducible (apply keeps_reloadAll; refine Keeps.update ?_ rfl; apply keeps_loadConfig; apply keeps_promoteKey)
  with_reducible (apply keeps_meterStart; refine Keeps.update ?_ rfl; assumption); split
  with_reducible (apply keeps_entropyEvent; apply keeps_reloadAll; refine Keeps.update ?_ rfl; apply keeps_loadConfig)
  with_reducible (apply keeps_promoteKey; apply keeps_meterStart; refine Keeps.update ?_ rfl; assumption)
  with_reducible (apply keeps_reloadAll; refine Keeps.update ?_ rfl; apply keeps_loadConfig; apply keeps_promoteKey)
  with_reducible (apply keeps_meterStart; refine Keeps.update ?_ rfl; assumption; assumption)
theorem keeps_startsDue {m0 : Module} (m : Module) (hk : Keeps m0 m) :
    Keeps m0 m.startsDue := by
  unfold Module.startsDue
  with_reducible (apply keeps_each; refine Keeps.update ?_ rfl; assumption); intro _; intro _; intro _
  with_reducible (apply keeps_setSlice; assumption)
theorem keeps_aloneReady {m0 : Module} (m : Module) (hk : Keeps m0 m) :
    Keeps m0 m.aloneReady := by
  unfold Module.aloneReady
  split; split; with_reducible (apply keeps_resumeSession; refine Keeps.update ?_ rfl; assumption)
  with_reducible (apply keeps_reloadAll; refine Keeps.update ?_ rfl; assumption; apply keeps_enterShelf; assumption)
theorem keeps_firstLamp {m0 : Module} (m : Module) (hk : Keeps m0 m) :
    Keeps m0 m.firstLamp := by
  unfold Module.firstLamp
  split; dsimp only; split; with_reducible (apply keeps_startsDue; refine Keeps.update ?_ rfl; assumption)
  with_reducible (apply keeps_aloneReady; apply keeps_startsDue; refine Keeps.update ?_ rfl; assumption; assumption)
theorem keeps_dropOldPlace {m0 : Module} (m : Module) (hk : Keeps m0 m) :
    Keeps m0 m.dropOldPlace := by
  unfold Module.dropOldPlace
  split; with_reducible (refine Keeps.update ?_ rfl; assumption; assumption)
theorem keeps_takeCopy {m0 : Module} (m : Module) (c : Escrow) (split : Bool) (hk : Keeps m0 m) :
    Keeps m0 (m.takeCopy c split) := by
  unfold Module.takeCopy
  dsimp only; with_reducible (apply keeps_reloadAll; apply keeps_judgeLedgerFree; apply keeps_capBackup)
  with_reducible (apply keeps_primaryNamed; refine Keeps.update ?_ rfl; apply keeps_dropOldPlace; assumption)
theorem keeps_escrowEpoch {m0 : Module} (m : Module) (east west : Option Escrow) (hk : Keeps m0 m) :
    Keeps m0 (m.escrowEpoch east west) := by
  unfold Module.escrowEpoch
  dsimp only; with_reducible (apply keeps_reauth; apply keeps_reauth; refine Keeps.update ?_ rfl; assumption)
theorem keeps_keepOwn {m0 : Module} (m : Module) (e w : Option Escrow) (hk : Keeps m0 m) :
    Keeps m0 (m.keepOwn e w) := by
  unfold Module.keepOwn
  dsimp only; with_reducible (refine Keeps.update ?_ rfl; assumption)
theorem keeps_settleConfig {m0 : Module} (m : Module) (east west : Option Escrow) (hk : Keeps m0 m) :
    Keeps m0 (m.settleConfig east west) := by
  unfold Module.settleConfig
  dsimp only; split; split; split; with_reducible (apply keeps_takeCopy; assumption); split
  with_reducible (apply keeps_storeSize; apply keeps_keepOwn; assumption; apply keeps_reloadAll)
  with_reducible (refine Keeps.update ?_ rfl; assumption); split; with_reducible apply keeps_storeSize
  with_reducible (apply keeps_keepOwn; assumption; apply keeps_reloadAll; refine Keeps.update ?_ rfl; assumption)
  split; with_reducible (apply keeps_escrowEpoch; apply keeps_takeCopy; assumption); split
  with_reducible (assumption; apply keeps_enterShelf; apply keeps_dropOldPlace; assumption)
theorem keeps_joinRing {m0 : Module} (m : Module) (hk : Keeps m0 m) :
    Keeps m0 m.joinRing := by
  unfold Module.joinRing
  dsimp only; with_reducible (apply keeps_resumeSession; apply keeps_pushEscrow; apply keeps_flushHeld)
  with_reducible apply keeps_sendPresence; split; with_reducible assumption; split
  with_reducible (refine Keeps.update ?_ rfl; assumption; apply keeps_becomeRef; assumption)
theorem keeps_stage7 {m0 : Module} (m : Module) (east west : Option Escrow) (hk : Keeps m0 m) :
    Keeps m0 (m.stage7 east west) := by
  unfold Module.stage7
  dsimp only; split; split; with_reducible (apply keeps_joinRing; apply keeps_settleConfig; assumption)
  with_reducible (apply keeps_settleConfig; assumption; assumption)
theorem keeps_finishDump {m0 : Module} (m : Module) (hk : Keeps m0 m) :
    Keeps m0 m.finishDump := by
  unfold Module.finishDump
  split; dsimp only; with_reducible (refine Keeps.update ?_ rfl; apply keeps_poke; assumption; assumption)
theorem keeps_warmReset {m0 : Module} (m : Module) (cause : ResetCause) (hk : Keeps m0 m) :
    Keeps m0 (m.warmReset cause) := by
  unfold Module.warmReset
  split; dsimp only; split; with_reducible (refine Keeps.update ?_ rfl; apply keeps_hubReset; apply keeps_finishDump)
  with_reducible (assumption; apply keeps_hubReset; apply keeps_finishDump; assumption; assumption)
theorem keeps_writeDump {m0 : Module} (m : Module) (r : DumpRec) (secs : List (Nat × Bool × List Byte))
    (hk : Keeps m0 m) :
    Keeps m0 (m.writeDump r secs) := by
  have k : ∀ (x : Module) (b : Nat) (l : List (BitVec 2)) (d : Diag), Keeps m0 x → Keeps m0 { x with
      win := { x.win with passbook := Tbl.setRange (0 : BitVec 2) x.win.passbook b l }, diag := d } := by
    intro x b l d hx
    exact hx.winOf (fun hs => ⟨hs.1, Tbl.wf_setRange hs.2.1 _ _, hs.2.2⟩) rfl
  exact k _ _ _ _ (keeps_poke _ _ _ (keeps_poke _ _ _ hk))
theorem keeps_writeFault {m0 : Module} (m : Module) (cause : Nat) (detail : Word32) (hk : Keeps m0 m) :
    Keeps m0 (m.writeFault cause detail) := by
  unfold Module.writeFault
  dsimp only; with_reducible refine Keeps.update ?_ rfl; split; with_reducible apply keeps_writeDump
  with_reducible (refine Keeps.update ?_ rfl; assumption; refine Keeps.update ?_ rfl; assumption)
theorem keeps_faulted {m0 : Module} (m : Module) (f : Proving → Proving) (dump : Option (Nat × Word32))
    (cause : ResetCause) (hk : Keeps m0 m) :
    Keeps m0 (m.faulted f dump cause) := by
  unfold Module.faulted
  split; with_reducible (refine Keeps.update ?_ rfl; assumption); dsimp only
  with_reducible (refine Keeps.update ?_ rfl; apply keeps_endUnit); split; with_reducible apply keeps_writeFault
  with_reducible (refine Keeps.stopped ?_ rfl; assumption; refine Keeps.stopped ?_ rfl; assumption)
theorem keeps_fatal {m0 : Module} (m : Module) (cause : Nat) (detail : Word32) (hk : Keeps m0 m) :
    Keeps m0 (m.fatal cause detail) := by
  unfold Module.fatal
  with_reducible (apply keeps_faulted; assumption)
theorem keeps_overtemp {m0 : Module} (m : Module) (temp : Int) (hk : Keeps m0 m) :
    Keeps m0 (m.overtemp temp) := by
  unfold Module.overtemp
  dsimp only; split; with_reducible (apply keeps_fatal; refine Keeps.update ?_ rfl; assumption)
  with_reducible (refine Keeps.update ?_ rfl; assumption)
theorem keeps_mismatch2 {m0 : Module} (m : Module) (dump : Option (Nat × Word32)) (cause : ResetCause)
    (hk : Keeps m0 m) :
    Keeps m0 (m.mismatch2 dump cause) := by
  unfold Module.mismatch2
  with_reducible (apply keeps_faulted; assumption)
theorem acts_opRandom {m0 : Module} (p : Packet) (m : Module) (w : When) (hk : Keeps m0 m) :
    Keeps m0 (opRandom.act m p w).1 := by
  unfold opRandom
  dsimp only; split; dsimp only; with_reducible (apply keeps_draw; assumption); split; dsimp only
  with_reducible (apply keeps_awaitEntropy; assumption; assumption)
theorem after_opRandom {m0 : Module} (p : Packet) (m : Module) (hk : Keeps m0 m) :
    Keeps m0 (opRandom.after m p) := by
  unfold opRandom
  with_reducible assumption
theorem acts_opEntropyStatus {m0 : Module} (p : Packet) (m : Module) (w : When) (hk : Keeps m0 m) :
    Keeps m0 (opEntropyStatus.act m p w).1 := by
  unfold opEntropyStatus
  with_reducible assumption
theorem after_opEntropyStatus {m0 : Module} (p : Packet) (m : Module) (hk : Keeps m0 m) :
    Keeps m0 (opEntropyStatus.after m p) := by
  unfold opEntropyStatus
  with_reducible assumption
theorem keeps_firstKey {m0 : Module} (m : Module) (key : List Byte) (hk : Keeps m0 m) :
    Keeps m0 (m.firstKey key) := by
  unfold Module.firstKey
  dsimp only; with_reducible apply keeps_leaveShelf; split; with_reducible (apply keeps_reauth; apply keeps_reauth)
  split; split; with_reducible (refine Keeps.update ?_ rfl; assumption; refine Keeps.update ?_ rfl; assumption)
  with_reducible (refine Keeps.update ?_ rfl; assumption); split; split; with_reducible refine Keeps.update ?_ rfl
  with_reducible (assumption; refine Keeps.update ?_ rfl; assumption; refine Keeps.update ?_ rfl; assumption)
theorem keeps_writeKey {m0 : Module} (m : Module) (key : List Byte) (hk : Keeps m0 m) :
    Keeps m0 (m.writeKey key) := by
  unfold Module.writeKey
  split; with_reducible (apply keeps_firstKey; assumption); split; split; with_reducible refine Keeps.update ?_ rfl
  with_reducible (assumption; assumption; refine Keeps.update ?_ rfl; assumption)
theorem acts_opDomainKeyWrite {m0 : Module} (p : Packet) (m : Module) (w : When) (hk : Keeps m0 m) :
    Keeps m0 (opDomainKeyWrite.act m p w).1 := by
  unfold opDomainKeyWrite
  dsimp only; with_reducible (apply keeps_writeKey; assumption)
theorem after_opDomainKeyWrite {m0 : Module} (p : Packet) (m : Module) (hk : Keeps m0 m) :
    Keeps m0 (opDomainKeyWrite.after m p) := by
  unfold opDomainKeyWrite
  with_reducible assumption
theorem acts_opCosignKeySet {m0 : Module} (p : Packet) (m : Module) (w : When) (hk : Keeps m0 m) :
    Keeps m0 (opCosignKeySet.act m p w).1 := by
  unfold opCosignKeySet
  dsimp only; split; dsimp only; with_reducible (refine Keeps.update ?_ rfl; assumption; assumption)
theorem after_opCosignKeySet {m0 : Module} (p : Packet) (m : Module) (hk : Keeps m0 m) :
    Keeps m0 (opCosignKeySet.after m p) := by
  unfold opCosignKeySet
  with_reducible assumption
theorem keeps_failRequest {m0 : Module} (m : Module) (detail : Word16) (r : EntReq) (hk : Keeps m0 m) :
    Keeps m0 (m.failRequest detail r) := by
  unfold Module.failRequest
  split; with_reducible (apply keeps_authLater; assumption; apply keeps_authLater; assumption; apply keeps_complete)
  with_reducible (assumption; assumption)
theorem keeps_serveRequest {m0 : Module} (m : Module) (r : EntReq) (hk : Keeps m0 m) :
    Keeps m0 (m.serveRequest r) := by
  unfold Module.serveRequest
  dsimp only; split; split; with_reducible (apply keeps_sendA; apply keeps_draw; assumption; assumption); split
  with_reducible (apply keeps_sendB; apply keeps_draw; assumption; assumption); split
  with_reducible (apply keeps_complete; assumption); split; with_reducible (apply keeps_complete; apply keeps_openAt)
  with_reducible (apply keeps_draw; assumption; apply keeps_openAt; apply keeps_draw; assumption)
  with_reducible (apply keeps_complete; apply keeps_draw; assumption; assumption)
theorem keeps_serveOrKeep {m0 : Module} (m : Module) (r : EntReq) (hk : Keeps m0 m) :
    Keeps m0 (m.serveOrKeep r) := by
  unfold Module.serveOrKeep
  split; with_reducible (refine Keeps.update ?_ rfl; assumption; apply keeps_serveRequest; assumption)
theorem keeps_healthFails {m0 : Module} (m : Module) (test : HealthTest) (hk : Keeps m0 m) :
    Keeps m0 (m.healthFails test) := by
  unfold Module.healthFails
  split; dsimp only; split; with_reducible (apply keeps_entropyEvent; apply keeps_foldl; refine Keeps.update ?_ rfl)
  with_reducible assumption; intro _; intro _; intro _; with_reducible (apply keeps_failRequest; assumption)
  with_reducible (refine Keeps.update ?_ rfl; assumption; assumption)
theorem keeps_entropyRestart {m0 : Module} (m : Module) (hk : Keeps m0 m) :
    Keeps m0 m.entropyRestart := by
  unfold Module.entropyRestart
  split; split; with_reducible (refine Keeps.update ?_ rfl; assumption; assumption; assumption)
theorem keeps_startupDone {m0 : Module} (m : Module) (failure : Option HealthTest) (hk : Keeps m0 m) :
    Keeps m0 (m.startupDone failure) := by
  unfold Module.startupDone
  split; dsimp only; with_reducible (apply keeps_entropyEvent; refine Keeps.update ?_ rfl; assumption; assumption)
theorem keeps_reseed {m0 : Module} (m : Module) (hk : Keeps m0 m) :
    Keeps m0 m.reseed := by
  unfold Module.reseed
  dsimp only; split; with_reducible (apply keeps_foldl; refine Keeps.update ?_ rfl; assumption); intro _; intro _
  intro _; with_reducible (apply keeps_serveOrKeep; assumption; assumption)
theorem keeps_requestDeadline {m0 : Module} (m : Module) (hk : Keeps m0 m) :
    Keeps m0 m.requestDeadline := by
  unfold Module.requestDeadline
  split; dsimp only; with_reducible (apply keeps_foldl; refine Keeps.update ?_ rfl; assumption); intro _; intro _
  intro _; with_reducible (apply keeps_failRequest; assumption; assumption)
theorem keeps_beginBreak {m0 : Module} (m : Module) (port : Port) (bits : Nat) (hk : Keeps m0 m) :
    Keeps m0 (m.beginBreak port bits) := by
  unfold Module.beginBreak
  dsimp only; split; with_reducible (apply keeps_setPort; assumption; apply keeps_put; apply keeps_setPort)
  with_reducible assumption
theorem keeps_runJobs {m0 : Module} (m : Module) (port : Port) (w0 : Nat) (hk : Keeps m0 m) :
    Keeps m0 (m.runJobs port w0) := by
  induction w0 generalizing m with
  | zero => exact hk
  | succ n keeps_runJobs =>
    unfold Module.runJobs
    split; with_reducible (apply keeps_runJobs; apply keeps_setPort; apply keeps_setPort; assumption); split
    with_reducible (assumption; apply keeps_beginBreak; apply keeps_setPort; assumption; assumption)
theorem keeps_portJobs {m0 : Module} (m : Module) (port : Port) (hk : Keeps m0 m) :
    Keeps m0 (m.portJobs port) := by
  unfold Module.portJobs
  with_reducible (apply keeps_runJobs; assumption)
theorem keeps_addJob {m0 : Module} (m : Module) (port : Port) (j : PortJob) (hk : Keeps m0 m) :
    Keeps m0 (m.addJob port j) := by
  unfold Module.addJob
  with_reducible (apply keeps_portJobs; apply keeps_setPort; assumption)
theorem keeps_uartSet {m0 : Module} (m : Module) (p : Packet) (hk : Keeps m0 m) :
    Keeps m0 (m.uartSet p) := by
  unfold Module.uartSet
  dsimp only; split; with_reducible (apply keeps_addJob; assumption; apply keeps_setPort; assumption)
theorem acts_opUartSet {m0 : Module} (p : Packet) (m : Module) (w : When) (hk : Keeps m0 m) :
    Keeps m0 (opUartSet.act m p w).1 := by
  unfold opUartSet
  with_reducible assumption
theorem after_opUartSet {m0 : Module} (p : Packet) (m : Module) (hk : Keeps m0 m) :
    Keeps m0 (opUartSet.after m p) := by
  unfold opUartSet
  dsimp only; with_reducible (apply keeps_uartSet; assumption)
theorem acts_opUartStatus {m0 : Module} (p : Packet) (m : Module) (w : When) (hk : Keeps m0 m) :
    Keeps m0 (opUartStatus.act m p w).1 := by
  unfold opUartStatus
  with_reducible assumption
theorem after_opUartStatus {m0 : Module} (p : Packet) (m : Module) (hk : Keeps m0 m) :
    Keeps m0 (opUartStatus.after m p) := by
  unfold opUartStatus
  with_reducible assumption
theorem acts_opUartBreak {m0 : Module} (p : Packet) (m : Module) (w : When) (hk : Keeps m0 m) :
    Keeps m0 (opUartBreak.act m p w).1 := by
  unfold opUartBreak
  with_reducible assumption
theorem after_opUartBreak {m0 : Module} (p : Packet) (m : Module) (hk : Keeps m0 m) :
    Keeps m0 (opUartBreak.after m p) := by
  unfold opUartBreak
  dsimp only; with_reducible (apply keeps_addJob; assumption)
theorem keeps_replySent {m0 : Module} (m : Module) (port : Port) (hk : Keeps m0 m) :
    Keeps m0 (m.replySent port) := by
  unfold Module.replySent
  dsimp only; split; split; with_reducible (assumption; apply keeps_prbsStep; apply keeps_standbyStep)
  with_reducible (apply keeps_resetStep; apply keeps_portJobs; apply keeps_setPort); split
  with_reducible (assumption; apply keeps_put; assumption; assumption)
theorem keeps_breakSent {m0 : Module} (m : Module) (port : Port) (hk : Keeps m0 m) :
    Keeps m0 (m.breakSent port) := by
  unfold Module.breakSent
  split; with_reducible (apply keeps_portJobs; apply keeps_setPort; assumption; assumption)
theorem keeps_character {m0 : Module} (m : Module) (port : Port) (c : BitVec 9) (startOne stopOne noisy : Bool)
    (hk : Keeps m0 m) :
    Keeps m0 (m.character port c startOne stopOne noisy) := by
  unfold Module.character
  split; with_reducible (apply keeps_receive; assumption); split; with_reducible (apply keeps_setPort; assumption)
  with_reducible assumption
theorem keeps_breakHeard {m0 : Module} (m : Module) (port : Port) (bits lpo : Nat) (hk : Keeps m0 m) :
    Keeps m0 (m.breakHeard port bits lpo) := by
  unfold Module.breakHeard
  split; dsimp only; split; with_reducible (apply keeps_setPort; apply keeps_setPort; assumption; apply keeps_setPort)
  with_reducible (assumption; assumption)
theorem keeps_sleepChar {m0 : Module} (m : Module) (c : BitVec 9) (stopOne noisy : Bool) (hk : Keeps m0 m) :
    Keeps m0 (m.sleepChar c stopOne noisy) := by
  unfold Module.sleepChar
  split; dsimp only; split; with_reducible (apply keeps_wake; apply keeps_setPort; assumption; apply keeps_setPort)
  with_reducible (assumption; assumption)
theorem keeps_beginTest {m0 : Module} (m : Module) (target : Nat) (select : Word16) (hk : Keeps m0 m) :
    Keeps m0 (m.beginTest target select) := by
  unfold Module.beginTest
  split; with_reducible (apply keeps_each; assumption); intro _; intro _; intro _
  with_reducible (apply keeps_sendSlice; assumption); split; with_reducible (apply keeps_each; assumption); intro _
  intro _; intro _; with_reducible (apply keeps_sendSlice; assumption); split
  with_reducible (refine Keeps.update ?_ rfl; assumption; apply keeps_nextUnit; assumption)
theorem acts_opBistRun {m0 : Module} (p : Packet) (m : Module) (w : When) (hk : Keeps m0 m) :
    Keeps m0 (opBistRun.act m p w).1 := by
  unfold opBistRun
  dsimp only; with_reducible (apply keeps_beginTest; refine Keeps.update ?_ rfl; assumption)
theorem after_opBistRun {m0 : Module} (p : Packet) (m : Module) (hk : Keeps m0 m) :
    Keeps m0 (opBistRun.after m p) := by
  unfold opBistRun
  dsimp only; with_reducible (apply keeps_prbsStep; apply keeps_resetStep; assumption)
theorem keeps_fullDdrDone {m0 : Module} (m : Module) (found : BistFound) (hk : Keeps m0 m) :
    Keeps m0 (m.fullDdrDone found) := by
  unfold Module.fullDdrDone
  dsimp only; with_reducible (refine Keeps.update ?_ rfl; assumption)
theorem keeps_afterTest {m0 : Module} (m : Module) (target : Nat) (select : Word16) (hk : Keeps m0 m) : Keeps m0
    (m.afterTest target select) := by
  unfold Module.afterTest
  split
  · exact keeps_tillsFilter _ hk
  · split
    · exact keeps_foldl _ _ hk (fun _ _ hx => keeps_trainLane _ _ (keeps_setLane _ _ _ hx))
    · exact keeps_endUnit _ hk
theorem keeps_testDone {m0 : Module} (m : Module) (found : BistFound) (hk : Keeps m0 m) :
    Keeps m0 (m.testDone found) := by
  unfold Module.testDone
  split; with_reducible assumption; split; split; with_reducible (apply keeps_fullDdrDone; assumption; assumption)
  split; dsimp only; split; with_reducible (apply keeps_each; apply keeps_final; apply keeps_afterTest)
  with_reducible (refine Keeps.update ?_ rfl; assumption); intro _; intro _; intro _
  with_reducible (apply keeps_sliceReset; assumption; apply keeps_final; apply keeps_afterTest)
  with_reducible (refine Keeps.update ?_ rfl; assumption; assumption)
theorem acts_opDumpSummary {m0 : Module} (p : Packet) (m : Module) (w : When) (hk : Keeps m0 m) :
    Keeps m0 (opDumpSummary.act m p w).1 := by
  unfold opDumpSummary
  with_reducible assumption
theorem after_opDumpSummary {m0 : Module} (p : Packet) (m : Module) (hk : Keeps m0 m) :
    Keeps m0 (opDumpSummary.after m p) := by
  unfold opDumpSummary
  with_reducible assumption
theorem keeps_releaseDump {m0 : Module} (m : Module) (hk : Keeps m0 m) : Keeps m0 m.releaseDump :=
  hk.winOf (fun hs => ⟨hs.1, Tbl.wf_filter hs.2.1 _, hs.2.2⟩) rfl
theorem acts_opDumpRelease {m0 : Module} (p : Packet) (m : Module) (w : When) (hk : Keeps m0 m) :
    Keeps m0 (opDumpRelease.act m p w).1 := by
  unfold opDumpRelease
  dsimp only; with_reducible (apply keeps_releaseDump; assumption)
theorem after_opDumpRelease {m0 : Module} (p : Packet) (m : Module) (hk : Keeps m0 m) :
    Keeps m0 (opDumpRelease.after m p) := by
  unfold opDumpRelease
  with_reducible assumption

end Sys2Proof.Machine
end

