-- ==== Sys2Proof/Laws/KeepsRows.lean ====
section
/-! SUPPORT. What every row of the command table keeps where it answers a next state: Laws/Keeps.lean's two facts, and the queue. -/

namespace Sys2Proof.Machine
open Sys2Proof

/-- A row that answers a next state keeps what `Keeps` says, and leaves the queue. -/
def RowKeeps (s : State) (r : Result) : Prop := ∀ t, r = .next t → Keeps s.m t.m ∧ t.pending = s.pending
theorem rowKeeps_on {s : State} {dt : Nat} {f : Module → Module} (hf : ∀ x, Keeps s.m x → Keeps s.m (f x)) :
    RowKeeps s (s.on dt f) := by
  intro t ht; unfold State.on at ht; injection ht with ht; subst ht
  exact ⟨hf _ (keeps_elapse _ _ (Keeps.refl _)), rfl⟩
theorem rowKeeps_onSlice {s : State} {dt n : Nat} {f : Module → Module} (hf : ∀ x, Keeps s.m x → Keeps s.m (f x)) :
    RowKeeps s (s.onSlice dt n f) := by
  unfold State.onSlice; split
  · exact rowKeeps_on hf
  · intro t ht; cases ht
theorem rowKeeps_onChannel {s : State} {dt n : Nat} {f : Module → Module} (hf : ∀ x, Keeps s.m x → Keeps s.m (f x)) :
    RowKeeps s (s.onChannel dt n f) := by
  unfold State.onChannel; split
  · exact rowKeeps_on hf
  · intro t ht; cases ht
theorem rowKeeps_onLane {s : State} {dt : Nat} {n : Lane} {f : Module → Module} (hf : ∀ x, Keeps s.m x → Keeps
    s.m (f x)) :
    RowKeeps s (s.onLane dt n f) := by
  unfold State.onLane; split
  · exact rowKeeps_on hf
  · intro t ht; cases ht
theorem rowKeeps_serve {s : State} {dt : Nat} {op : Op} {p : Packet}
    (ha : ∀ x w, Keeps s.m x → Keeps s.m (op.act x p w).1) (hf : ∀ x, Keeps s.m x → Keeps s.m (op.after x p)) :
    RowKeeps s (s.serve dt op p) := rowKeeps_on (fun x hx => keeps_serve x op p hx ha hf)
theorem rowKeeps_energyRead (dt : Nat) (p : Packet) (s : State) :
    RowKeeps s (execEnergyRead dt p s) := by
  unfold execEnergyRead
  exact rowKeeps_serve (fun x w hx => acts_opEnergyRead _ _ _ hx) (fun x hx => after_opEnergyRead _ _ hx)
theorem rowKeeps_tariffAt (dt : Nat) (p : Packet) (s : State) :
    RowKeeps s (execTariffAt dt p s) := by
  unfold execTariffAt
  exact rowKeeps_serve (fun x w hx => acts_opTariffAt _ _ _ hx) (fun x hx => after_opTariffAt _ _ hx)
theorem rowKeeps_demandSet (dt : Nat) (p : Packet) (s : State) :
    RowKeeps s (execDemandSet dt p s) := by
  unfold execDemandSet
  exact rowKeeps_serve (fun x w hx => acts_opDemandSet _ _ _ hx) (fun x hx => after_opDemandSet _ _ hx)
theorem rowKeeps_demandRead (dt : Nat) (p : Packet) (s : State) :
    RowKeeps s (execDemandRead dt p s) := by
  unfold execDemandRead
  exact rowKeeps_serve (fun x w hx => acts_opDemandRead _ _ _ hx) (fun x hx => after_opDemandRead _ _ hx)
theorem rowKeeps_boundaryRead (dt : Nat) (p : Packet) (s : State) :
    RowKeeps s (execBoundaryRead dt p s) := by
  unfold execBoundaryRead
  exact rowKeeps_serve (fun x w hx => acts_opBoundaryRead _ _ _ hx) (fun x hx => after_opBoundaryRead _ _ hx)
theorem rowKeeps_halfCycleCommit (dt : Nat) (s : State) :
    RowKeeps s (execHalfCycleCommit dt s) := by
  unfold execHalfCycleCommit
  apply rowKeeps_on
  intro _; intro _; split; split; with_reducible (apply keeps_commitHalf; assumption; assumption; assumption)
theorem rowKeeps_persistencePass (dt : Nat) (s : State) :
    RowKeeps s (execPersistencePass dt s) := by
  unfold execPersistencePass
  apply rowKeeps_on
  intro _; intro _; split; with_reducible (apply keeps_pass; assumption; assumption)
theorem rowKeeps_demandClose (dt : Nat) (s : State) :
    RowKeeps s (execDemandClose dt s) := by
  unfold execDemandClose
  apply rowKeeps_on
  intro _; intro _; split; with_reducible (apply keeps_demandClose; assumption; assumption)
theorem rowKeeps_tariffChange (dt : Nat) (s : State) :
    RowKeeps s (execTariffChange dt s) := by
  unfold execTariffChange
  apply rowKeeps_on
  intro _; intro _; split; with_reducible (apply keeps_tariffChange; assumption; assumption)
theorem rowKeeps_channelSet (dt : Nat) (p : Packet) (s : State) :
    RowKeeps s (execChannelSet dt p s) := by
  unfold execChannelSet
  exact rowKeeps_serve (fun x w hx => acts_opChannelSet _ _ _ hx) (fun x hx => after_opChannelSet _ _ hx)
theorem rowKeeps_aspectDefine (dt : Nat) (p : Packet) (s : State) :
    RowKeeps s (execAspectDefine dt p s) := by
  unfold execAspectDefine
  exact rowKeeps_serve (fun x w hx => acts_opAspectDefine _ _ _ hx) (fun x hx => after_opAspectDefine _ _ hx)
theorem rowKeeps_aspectShow (dt : Nat) (p : Packet) (s : State) :
    RowKeeps s (execAspectShow dt p s) := by
  unfold execAspectShow
  exact rowKeeps_serve (fun x w hx => acts_opAspectShow _ _ _ hx) (fun x hx => after_opAspectShow _ _ hx)
theorem rowKeeps_aspectDelete (dt : Nat) (p : Packet) (s : State) :
    RowKeeps s (execAspectDelete dt p s) := by
  unfold execAspectDelete
  exact rowKeeps_serve (fun x w hx => acts_opAspectDelete _ _ _ hx) (fun x hx => after_opAspectDelete _ _ hx)
theorem rowKeeps_flashSet (dt : Nat) (p : Packet) (s : State) :
    RowKeeps s (execFlashSet dt p s) := by
  unfold execFlashSet
  exact rowKeeps_serve (fun x w hx => acts_opFlashSet _ _ _ hx) (fun x hx => after_opFlashSet _ _ hx)
theorem rowKeeps_channelRead (dt : Nat) (p : Packet) (s : State) :
    RowKeeps s (execChannelRead dt p s) := by
  unfold execChannelRead
  exact rowKeeps_serve (fun x w hx => acts_opChannelRead _ _ _ hx) (fun x hx => after_opChannelRead _ _ hx)
theorem rowKeeps_doorbell (dt : Nat) (till prod epoch : Word16) (s : State) :
    RowKeeps s (execDoorbell dt till prod epoch s) := by
  unfold execDoorbell
  apply rowKeeps_on
  intro _; intro _; with_reducible (apply keeps_doorbell; assumption)
theorem rowKeeps_attach (dt : Nat) (sysPage : BitVec 14) (s : State) :
    RowKeeps s (execAttach dt sysPage s) := by
  unfold execAttach
  apply rowKeeps_on
  intro _; intro _; with_reducible (apply keeps_attachHost; assumption)
theorem rowKeeps_detach (dt : Nat) (s : State) :
    RowKeeps s (execDetach dt s) := by
  unfold execDetach
  apply rowKeeps_on
  intro _; intro _; split; with_reducible (apply keeps_detachHost; assumption; assumption)
theorem rowKeeps_keepalive (dt : Nat) (ms : Word16) (s : State) :
    RowKeeps s (execKeepalive dt ms s) := by
  unfold execKeepalive
  apply rowKeeps_on
  intro _; intro _; with_reducible (apply keeps_writeKeepalive; assumption)
theorem rowKeeps_keepaliveExpiry (dt : Nat) (s : State) :
    RowKeeps s (execKeepaliveExpiry dt s) := by
  unfold execKeepaliveExpiry
  apply rowKeeps_on
  intro _; intro _; with_reducible (apply keeps_keepaliveExpiry; assumption)
theorem rowKeeps_pxRequest (dt : Nat) (first count : Word16) (expect new : BitVec 2) (seq : Word16) (s : State) :
    RowKeeps s (execPxRequest dt first count expect new seq s) := by
  unfold execPxRequest
  apply rowKeeps_on
  intro _; intro _; split; with_reducible (apply keeps_exchange; assumption; assumption)
theorem rowKeeps_pendingClear (dt : Nat) (first : Nat) (data : List Byte) (s : State) :
    RowKeeps s (execPendingClear dt first data s) := by
  unfold execPendingClear
  apply rowKeeps_on
  intro _; intro _; split; with_reducible (refine Keeps.update ?_ rfl; assumption; assumption)
theorem rowKeeps_wr (dt : Nat) (offset : Word32) (data : List Byte) (good : Bool) (s : State) :
    RowKeeps s (execWr dt offset data good s) := by
  unfold execWr
  apply rowKeeps_on
  intro _; intro _; split; split; with_reducible (apply keeps_write; assumption; apply keeps_badFrame; assumption)
  with_reducible assumption
theorem rowKeeps_rd (dt : Nat) (tag : Nat) (offset : Word32) (len : Word16) (good : Bool) (s : State) :
    RowKeeps s (execRd dt tag offset len good s) := by
  unfold execRd
  apply rowKeeps_on
  intro _; intro _; split; split; with_reducible (apply keeps_readReq; assumption; apply keeps_badFrame; assumption)
  with_reducible assumption
theorem rowKeeps_hostHello (dt : Nat) (good : Bool) (s : State) :
    RowKeeps s (execHostHello dt good s) := by
  unfold execHostHello
  apply rowKeeps_on
  intro _; intro _; split; split; with_reducible (apply keeps_hostHello; assumption; apply keeps_badFrame; assumption)
  with_reducible assumption
theorem rowKeeps_pageEcc (dt : Nat) (source : Byte) (word : Word32) (s : State) :
    RowKeeps s (execPageEcc dt source word s) := by
  unfold execPageEcc
  apply rowKeeps_on
  intro _; intro _; with_reducible (apply keeps_pageEcc; assumption)
theorem rowKeeps_capabilityRead (dt : Nat) (p : Packet) (s : State) :
    RowKeeps s (execCapabilityRead dt p s) := by
  unfold execCapabilityRead
  exact rowKeeps_serve (fun x w hx => acts_opCapabilityRead _ _ _ hx) (fun x hx => after_opCapabilityRead _ _ hx)
theorem rowKeeps_statusRead (dt : Nat) (p : Packet) (s : State) :
    RowKeeps s (execStatusRead dt p s) := by
  unfold execStatusRead
  exact rowKeeps_serve (fun x w hx => acts_opStatusRead _ _ _ hx) (fun x hx => after_opStatusRead _ _ hx)
theorem rowKeeps_timeRead (dt : Nat) (p : Packet) (s : State) :
    RowKeeps s (execTimeRead dt p s) := by
  unfold execTimeRead
  exact rowKeeps_serve (fun x w hx => acts_opTimeRead _ _ _ hx) (fun x hx => after_opTimeRead _ _ hx)
theorem rowKeeps_tillOpen (dt : Nat) (p : Packet) (s : State) :
    RowKeeps s (execTillOpen dt p s) := by
  unfold execTillOpen
  exact rowKeeps_serve (fun x w hx => acts_opTillOpen _ _ _ hx) (fun x hx => after_opTillOpen _ _ hx)
theorem rowKeeps_tillClose (dt : Nat) (p : Packet) (s : State) :
    RowKeeps s (execTillClose dt p s) := by
  unfold execTillClose
  exact rowKeeps_serve (fun x w hx => acts_opTillClose _ _ _ hx) (fun x hx => after_opTillClose _ _ hx)
theorem rowKeeps_tillRead (dt : Nat) (p : Packet) (s : State) :
    RowKeeps s (execTillRead dt p s) := by
  unfold execTillRead
  exact rowKeeps_serve (fun x w hx => acts_opTillRead _ _ _ hx) (fun x hx => after_opTillRead _ _ hx)
theorem rowKeeps_scheduleCancel (dt : Nat) (p : Packet) (s : State) :
    RowKeeps s (execScheduleCancel dt p s) := by
  unfold execScheduleCancel
  exact rowKeeps_serve (fun x w hx => acts_opScheduleCancel _ _ _ hx) (fun x hx => after_opScheduleCancel _ _ hx)
theorem rowKeeps_tagQuery (dt : Nat) (p : Packet) (s : State) :
    RowKeeps s (execTagQuery dt p s) := by
  unfold execTagQuery
  exact rowKeeps_serve (fun x w hx => acts_opTagQuery _ _ _ hx) (fun x hx => after_opTagQuery _ _ hx)
theorem rowKeeps_reset (dt : Nat) (p : Packet) (s : State) :
    RowKeeps s (execReset dt p s) := by
  unfold execReset
  exact rowKeeps_serve (fun x w hx => acts_opReset _ _ _ hx) (fun x hx => after_opReset _ _ hx)
theorem rowKeeps_configWrite (dt : Nat) (p : Packet) (s : State) :
    RowKeeps s (execConfigWrite dt p s) := by
  unfold execConfigWrite
  exact rowKeeps_serve (fun x w hx => acts_opConfigWrite _ _ _ hx) (fun x hx => after_opConfigWrite _ _ hx)
theorem rowKeeps_configRead (dt : Nat) (p : Packet) (s : State) :
    RowKeeps s (execConfigRead dt p s) := by
  unfold execConfigRead
  exact rowKeeps_serve (fun x w hx => acts_opConfigRead _ _ _ hx) (fun x hx => after_opConfigRead _ _ hx)
theorem rowKeeps_notWellFormedPacket (dt : Nat) (opcode : Word16) (p : Packet) (s : State) :
    RowKeeps s (execNotWellFormedPacket dt opcode p s) := by
  unfold execNotWellFormedPacket
  apply rowKeeps_on
  intro _; intro _; with_reducible (apply keeps_turn; assumption); intro _; intro _
  with_reducible (apply keeps_refuseBad; assumption)
theorem rowKeeps_undefinedOpcode (dt : Nat) (opcode : Word16) (p : Packet) (s : State) :
    RowKeeps s (execUndefinedOpcode dt opcode p s) := by
  unfold execUndefinedOpcode
  apply rowKeeps_on
  intro _; intro _; split; with_reducible (assumption; apply keeps_turn; assumption); intro _; intro _
  with_reducible (apply keeps_undefinedOp; assumption)
theorem rowKeeps_swatchLearn (dt : Nat) (p : Packet) (s : State) :
    RowKeeps s (execSwatchLearn dt p s) := by
  unfold execSwatchLearn
  exact rowKeeps_serve (fun x w hx => acts_opSwatchLearn _ _ _ hx) (fun x hx => after_opSwatchLearn _ _ hx)
theorem rowKeeps_swatchRead (dt : Nat) (p : Packet) (s : State) :
    RowKeeps s (execSwatchRead dt p s) := by
  unfold execSwatchRead
  exact rowKeeps_serve (fun x w hx => acts_opSwatchRead _ _ _ hx) (fun x hx => after_opSwatchRead _ _ hx)
theorem rowKeeps_swatchMode (dt : Nat) (p : Packet) (s : State) :
    RowKeeps s (execSwatchMode dt p s) := by
  unfold execSwatchMode
  exact rowKeeps_serve (fun x w hx => acts_opSwatchMode _ _ _ hx) (fun x hx => after_opSwatchMode _ _ hx)
theorem rowKeeps_responseSet (dt : Nat) (p : Packet) (s : State) :
    RowKeeps s (execResponseSet dt p s) := by
  unfold execResponseSet
  exact rowKeeps_serve (fun x w hx => acts_opResponseSet _ _ _ hx) (fun x hx => after_opResponseSet _ _ hx)
theorem rowKeeps_faultRead (dt : Nat) (p : Packet) (s : State) :
    RowKeeps s (execFaultRead dt p s) := by
  unfold execFaultRead
  exact rowKeeps_serve (fun x w hx => acts_opFaultRead _ _ _ hx) (fun x hx => after_opFaultRead _ _ hx)
theorem rowKeeps_faultClear (dt : Nat) (p : Packet) (s : State) :
    RowKeeps s (execFaultClear dt p s) := by
  unfold execFaultClear
  exact rowKeeps_serve (fun x w hx => acts_opFaultClear _ _ _ hx) (fun x hx => after_opFaultClear _ _ hx)
theorem rowKeeps_openWireTest (dt : Nat) (p : Packet) (s : State) :
    RowKeeps s (execOpenWireTest dt p s) := by
  unfold execOpenWireTest
  exact rowKeeps_serve (fun x w hx => acts_opOpenWireTest _ _ _ hx) (fun x hx => after_opOpenWireTest _ _ hx)
theorem rowKeeps_ledgerRead (dt : Nat) (p : Packet) (s : State) :
    RowKeeps s (execLedgerRead dt p s) := by
  unfold execLedgerRead
  exact rowKeeps_serve (fun x w hx => acts_opLedgerRead _ _ _ hx) (fun x hx => after_opLedgerRead _ _ hx)
theorem rowKeeps_ledgerSet (dt : Nat) (p : Packet) (s : State) :
    RowKeeps s (execLedgerSet dt p s) := by
  unfold execLedgerSet
  exact rowKeeps_serve (fun x w hx => acts_opLedgerSet _ _ _ hx) (fun x hx => after_opLedgerSet _ _ hx)
theorem rowKeeps_standbyEnter (dt : Nat) (p : Packet) (s : State) :
    RowKeeps s (execStandbyEnter dt p s) := by
  unfold execStandbyEnter
  exact rowKeeps_serve (fun x w hx => acts_opStandbyEnter _ _ _ hx) (fun x hx => after_opStandbyEnter _ _ hx)
theorem rowKeeps_mainsValid (dt : Nat) (dv : Word16) (s : State) :
    RowKeeps s (execMainsValid dt dv s) := by
  unfold execMainsValid
  apply rowKeeps_on
  intro _; intro _; with_reducible (apply keeps_mainsIn; assumption)
theorem rowKeeps_mainsInvalid (dt : Nat) (dv : Word16) (s : State) :
    RowKeeps s (execMainsInvalid dt dv s) := by
  unfold execMainsInvalid
  apply rowKeeps_on
  intro _; intro _; with_reducible (apply keeps_mainsOut; assumption)
theorem rowKeeps_backupValid (dt : Nat) (cv : Word16) (s : State) :
    RowKeeps s (execBackupValid dt cv s) := by
  unfold execBackupValid
  apply rowKeeps_on
  intro _; intro _; with_reducible (apply keeps_backupIn; assumption)
theorem rowKeeps_backupInvalid (dt : Nat) (cv : Word16) (s : State) :
    RowKeeps s (execBackupInvalid dt cv s) := by
  unfold execBackupInvalid
  apply rowKeeps_on
  intro _; intro _; with_reducible (apply keeps_backupOut; assumption)
theorem rowKeeps_toMains (dt : Nat) (s : State) :
    RowKeeps s (execToMains dt s) := by
  unfold execToMains
  apply rowKeeps_on
  intro _; intro _; split; with_reducible (apply keeps_toMains; assumption; assumption)
theorem rowKeeps_backupIntegrate (dt : Nat) (groats : Word32) (s : State) :
    RowKeeps s (execBackupIntegrate dt groats s) := by
  unfold execBackupIntegrate
  apply rowKeeps_on
  intro _; intro _; with_reducible (apply keeps_integrate; assumption)
theorem rowKeeps_backupCheckpoint (dt : Nat) (s : State) :
    RowKeeps s (execBackupCheckpoint dt s) := by
  unfold execBackupCheckpoint
  apply rowKeeps_on
  intro _; intro _; split; with_reducible (refine Keeps.update ?_ rfl; assumption; assumption)
theorem rowKeeps_backupRefill (dt : Nat) (s : State) :
    RowKeeps s (execBackupRefill dt s) := by
  unfold execBackupRefill
  apply rowKeeps_on
  intro _; intro _; split; with_reducible (refine Keeps.update ?_ rfl; assumption; assumption)
theorem rowKeeps_reserveArmed (dt : Nat) (groats : Word32) (s : State) :
    RowKeeps s (execReserveArmed dt groats s) := by
  unfold execReserveArmed
  apply rowKeeps_on
  intro _; intro _; split; with_reducible (refine Keeps.update ?_ rfl; assumption; assumption)
theorem rowKeeps_standbyCountdown (dt : Nat) (s : State) :
    RowKeeps s (execStandbyCountdown dt s) := by
  unfold execStandbyCountdown
  apply rowKeeps_on
  intro _; intro _; with_reducible (apply keeps_countdown; assumption)
theorem rowKeeps_standbyCheckpoint (dt : Nat) (s : State) :
    RowKeeps s (execStandbyCheckpoint dt s) := by
  unfold execStandbyCheckpoint
  apply rowKeeps_on
  intro _; intro _; split; with_reducible (refine Keeps.update ?_ rfl; assumption; assumption)
theorem rowKeeps_thermalModel (dt slice : Nat) (hub : Int) (s : State) :
    RowKeeps s (execThermalModel dt slice hub s) := by
  unfold execThermalModel
  apply rowKeeps_onSlice
  intro _; intro _; with_reducible (apply keeps_thermal; assumption)
theorem rowKeeps_planEntryAction (dt id : Nat) (s : State) :
    RowKeeps s (execPlanEntryAction dt id s) := by
  unfold execPlanEntryAction
  apply rowKeeps_on
  intro _; intro _; split; split; with_reducible (apply keeps_runPlan; assumption; assumption; assumption)
theorem rowKeeps_planDispatch (dt id : Nat) (s : State) :
    RowKeeps s (execPlanDispatch dt id s) := by
  unfold execPlanDispatch
  apply rowKeeps_on
  intro _; intro _; split; split; with_reducible (assumption; apply keeps_dispatch; assumption; assumption)
theorem rowKeeps_zeroCrossTimeout (dt channel : Nat) (s : State) :
    RowKeeps s (execZeroCrossTimeout dt channel s) := by
  unfold execZeroCrossTimeout
  apply rowKeeps_onChannel
  intro _; intro _; with_reducible (apply keeps_zcTimeout; assumption)
theorem rowKeeps_flashBoundary (dt : Nat) (s : State) :
    RowKeeps s (execFlashBoundary dt s) := by
  unfold execFlashBoundary
  apply rowKeeps_on
  intro _; intro _; with_reducible (apply keeps_flashBoundary; assumption)
theorem rowKeeps_dimFiring (dt channel : Nat) (s : State) :
    RowKeeps s (execDimFiring dt channel s) := by
  unfold execDimFiring
  apply rowKeeps_onChannel
  intro _; intro _; with_reducible (apply keeps_dimStep; assumption)
theorem rowKeeps_fallbackApply (dt slice : Nat) (s : State) :
    RowKeeps s (execFallbackApply dt slice s) := by
  unfold execFallbackApply
  apply rowKeeps_onSlice
  intro _; intro _; with_reducible (apply keeps_fallbackPoint; assumption)
theorem rowKeeps_overcurrentTrip (dt channel peak : Nat) (s : State) :
    RowKeeps s (execOvercurrentTrip dt channel peak s) := by
  unfold execOvercurrentTrip
  apply rowKeeps_onChannel
  intro _; intro _; with_reducible (apply keeps_overcurrent; assumption)
theorem rowKeeps_inrushWindowEnd (dt channel : Nat) (s : State) :
    RowKeeps s (execInrushWindowEnd dt channel s) := by
  unfold execInrushWindowEnd
  apply rowKeeps_onChannel
  intro _; intro _; split; split; with_reducible (apply keeps_setChan; assumption; assumption; assumption)
theorem rowKeeps_thermalCut (dt slice : Nat) (s : State) :
    RowKeeps s (execThermalCut dt slice s) := by
  unfold execThermalCut
  apply rowKeeps_onSlice
  intro _; intro _; with_reducible (apply keeps_thermalCut; assumption)
theorem rowKeeps_trip (dt slice : Nat) (hdr : SliceHdr) (_pos : Option Nat) (s : State) :
    RowKeeps s (execTrip dt slice hdr _pos s) := by
  unfold execTrip
  apply rowKeeps_onSlice
  intro _; intro _; with_reducible (apply keeps_fromSlice; assumption); intro _; intro _; rw [id_eq]
  with_reducible assumption
theorem rowKeeps_vitalOkResume (dt : Nat) (s : State) :
    RowKeeps s (execVitalOkResume dt s) := by
  unfold execVitalOkResume
  apply rowKeeps_on
  intro _; intro _; with_reducible (apply keeps_vitalResume; assumption)
theorem rowKeeps_sliceBinEnd (dt slice bin : Nat) (codes : List (List Int)) (s : State) :
    RowKeeps s (execSliceBinEnd dt slice bin codes s) := by
  unfold execSliceBinEnd
  apply rowKeeps_onSlice
  intro _; intro _; with_reducible (apply keeps_binEnds; assumption)
theorem rowKeeps_sliceSilent (dt slice : Nat) (s : State) :
    RowKeeps s (execSliceSilent dt slice s) := by
  unfold execSliceSilent
  apply rowKeeps_onSlice
  intro _; intro _; with_reducible (apply keeps_silent; assumption)
theorem rowKeeps_verdict (dt slice : Nat) (hdr : SliceHdr) (bin : Nat) (cyc : Word16) (codes : Word32) (s : State) :
    RowKeeps s (execVerdict dt slice hdr bin cyc codes s) := by
  unfold execVerdict
  apply rowKeeps_onSlice
  intro _; intro _; with_reducible (apply keeps_fromSlice; assumption); intro _; intro _
  with_reducible (apply keeps_takeVerdict; assumption)
theorem rowKeeps_swatchTrack (dt slice pos : Nat) (s : State) :
    RowKeeps s (execSwatchTrack dt slice pos s) := by
  unfold execSwatchTrack
  apply rowKeeps_onSlice
  intro _; intro _; with_reducible (apply keeps_track; assumption)
theorem rowKeeps_swatchLearnBegin (dt channel : Nat) (s : State) :
    RowKeeps s (execSwatchLearnBegin dt channel s) := by
  unfold execSwatchLearnBegin
  apply rowKeeps_onChannel
  intro _; intro _; with_reducible (apply keeps_beginLearning; assumption)
theorem rowKeeps_swatchLearnDone (dt channel : Nat) (s : State) :
    RowKeeps s (execSwatchLearnDone dt channel s) := by
  unfold execSwatchLearnDone
  apply rowKeeps_onChannel
  intro _; intro _; with_reducible (apply keeps_doneLearning; assumption)
theorem rowKeeps_openWireChannelTest (dt channel : Nat) (s : State) :
    RowKeeps s (execOpenWireChannelTest dt channel s) := by
  unfold execOpenWireChannelTest
  apply rowKeeps_onChannel
  intro _; intro _; with_reducible (apply keeps_wireTested; assumption)
theorem rowKeeps_samples (dt slice : Nat) (hdr : SliceHdr) (bin : Nat) (steps : List (List Word16)) (s : State) :
    RowKeeps s (execSamples dt slice hdr bin steps s) := by
  unfold execSamples
  apply rowKeeps_onSlice
  intro _; intro _; with_reducible (apply keeps_fromSlice; assumption); intro _; intro _
  with_reducible (apply keeps_sample; assumption)
theorem rowKeeps_sliceReply (dt slice : Nat) (hdr : SliceHdr) (ofSeq : Word16) (ans : SliceAns) (s : State) :
    RowKeeps s (execSliceReply dt slice hdr ofSeq ans s) := by
  unfold execSliceReply
  apply rowKeeps_onSlice
  intro _; intro _; with_reducible (apply keeps_fromSlice; assumption); intro _; intro _
  with_reducible (apply keeps_sliceReplied; assumption)
theorem rowKeeps_sliceLinkDeadline (dt slice : Nat) (seq : Word16) (s : State) :
    RowKeeps s (execSliceLinkDeadline dt slice seq s) := by
  unfold execSliceLinkDeadline
  apply rowKeeps_onSlice
  intro _; intro _; with_reducible (apply keeps_linkDeadline; assumption)
theorem rowKeeps_sliceLinkSilence (dt slice : Nat) (s : State) :
    RowKeeps s (execSliceLinkSilence dt slice s) := by
  unfold execSliceLinkSilence
  apply rowKeeps_onSlice
  intro _; intro _; split; with_reducible (apply keeps_sliceReset; assumption; assumption)
theorem rowKeeps_sliceReload (dt slice : Nat) (outcome : LoadOutcome) (s : State) :
    RowKeeps s (execSliceReload dt slice outcome s) := by
  unfold execSliceReload
  apply rowKeeps_onSlice
  intro _; intro _; with_reducible (apply keeps_loadEnds; assumption)
theorem rowKeeps_helloWaitExpiry (dt slice : Nat) (s : State) :
    RowKeeps s (execHelloWaitExpiry dt slice s) := by
  unfold execHelloWaitExpiry
  apply rowKeeps_onSlice
  intro _; intro _; with_reducible (apply keeps_helloExpired; assumption)
theorem rowKeeps_sliceHello (dt slice : Nat) (good : Bool) (_cause : Byte) (s : State) :
    RowKeeps s (execSliceHello dt slice good _cause s) := by
  unfold execSliceHello
  apply rowKeeps_onSlice
  intro _; intro _; split; with_reducible (apply keeps_sliceHello; assumption; assumption)
theorem rowKeeps_sliceReissue (dt slice : Nat) (s : State) :
    RowKeeps s (execSliceReissue dt slice s) := by
  unfold execSliceReissue
  apply rowKeeps_onSlice
  intro _; intro _; with_reducible (apply keeps_reissue; assumption)
theorem rowKeeps_calibrationUpdate (dt slice : Nat) (s : State) :
    RowKeeps s (execCalibrationUpdate dt slice s) := by
  unfold execCalibrationUpdate
  apply rowKeeps_onSlice
  intro _; intro _; with_reducible (apply keeps_recalibrate; assumption)
theorem rowKeeps_timeFrameSend (dt : Nat) (s : State) :
    RowKeeps s (execTimeFrameSend dt s) := by
  unfold execTimeFrameSend
  apply rowKeeps_on
  intro _; intro _; with_reducible (apply keeps_sendTimes; assumption)
theorem rowKeeps_load (dt slice : Nat) (hdr : HubHdr) (start : Bool) (block : LoadBlock) (s : State) :
    RowKeeps s (execLoad dt slice hdr start block s) := by
  unfold execLoad
  apply rowKeeps_onSlice
  intro _; intro _; with_reducible (apply keeps_takeLoad; assumption)
theorem rowKeeps_plan (dt slice : Nat) (hdr : HubHdr) (body : PlanBody) (s : State) :
    RowKeeps s (execPlan dt slice hdr body s) := by
  unfold execPlan
  apply rowKeeps_onSlice
  intro _; intro _; split; with_reducible (apply keeps_inSequence; assumption); intro _; intro _
  with_reducible (apply keeps_takePlan; assumption; assumption)
theorem rowKeeps_timeFrame (dt slice : Nat) (hdr : HubHdr) (body : TimeBody) (s : State) :
    RowKeeps s (execTimeFrame dt slice hdr body s) := by
  unfold execTimeFrame
  apply rowKeeps_onSlice
  intro _; intro _; split; with_reducible (apply keeps_setOwn; assumption; assumption)
theorem rowKeeps_sliceRequest (dt slice : Nat) (hdr : HubHdr) (req : SliceReq) (s : State) :
    RowKeeps s (execSliceRequest dt slice hdr req s) := by
  unfold execSliceRequest
  apply rowKeeps_onSlice
  intro _; intro _; split; with_reducible (apply keeps_inSequence; assumption); intro _; intro _
  with_reducible (apply keeps_takeRequest; assumption; assumption)
theorem rowKeeps_linkResetSequence (dt slice : Nat) (s : State) :
    RowKeeps s (execLinkResetSequence dt slice s) := by
  unfold execLinkResetSequence
  apply rowKeeps_onSlice
  intro _; intro _; with_reducible (apply keeps_sliceRestart; assumption)
theorem rowKeeps_sliceWatchdog (dt slice : Nat) (s : State) :
    RowKeeps s (execSliceWatchdog dt slice s) := by
  unfold execSliceWatchdog
  apply rowKeeps_onSlice
  intro _; intro _; with_reducible (apply keeps_sliceRestart; assumption)
theorem rowKeeps_sliceSupplyLoss (dt slice : Nat) (s : State) :
    RowKeeps s (execSliceSupplyLoss dt slice s) := by
  unfold execSliceSupplyLoss
  apply rowKeeps_onSlice
  intro _; intro _; with_reducible (apply keeps_sliceRestart; assumption)
theorem rowKeeps_sliceHubSilence (dt slice : Nat) (s : State) :
    RowKeeps s (execSliceHubSilence dt slice s) := by
  unfold execSliceHubSilence
  apply rowKeeps_onSlice
  intro _; intro _; with_reducible (apply keeps_goAlone; assumption)
theorem rowKeeps_sliceHelloTimer (dt slice : Nat) (s : State) :
    RowKeeps s (execSliceHelloTimer dt slice s) := by
  unfold execSliceHelloTimer
  apply rowKeeps_onSlice
  intro _; intro _; split; with_reducible (apply keeps_fromOwn; assumption; assumption)
theorem rowKeeps_storedFallbackHalfCycle (dt slice : Nat) (s : State) :
    RowKeeps s (execStoredFallbackHalfCycle dt slice s) := by
  unfold execStoredFallbackHalfCycle
  apply rowKeeps_onSlice
  intro _; intro _; with_reducible (apply keeps_storedHalf; assumption)
theorem rowKeeps_xing (dt slice : Nat) (hdr : SliceHdr) (rising : Bool) (stamp : Nat) (s : State) :
    RowKeeps s (execXing dt slice hdr rising stamp s) := by
  unfold execXing
  apply rowKeeps_onSlice
  intro _; intro _; with_reducible (apply keeps_fromSlice; assumption); intro _; intro _
  with_reducible (apply keeps_cross; assumption)
theorem rowKeeps_flywheelEntry (dt : Nat) (s : State) :
    RowKeeps s (execFlywheelEntry dt s) := by
  unfold execFlywheelEntry
  apply rowKeeps_on
  intro _; intro _; with_reducible (apply keeps_flywheel; assumption)
theorem rowKeeps_alternateTakeover (dt : Nat) (s : State) :
    RowKeeps s (execAlternateTakeover dt s) := by
  unfold execAlternateTakeover
  apply rowKeeps_on
  intro _; intro _; with_reducible (apply keeps_alternate; assumption)
theorem rowKeeps_primaryReturn (dt stamp : Nat) (s : State) :
    RowKeeps s (execPrimaryReturn dt stamp s) := by
  unfold execPrimaryReturn
  apply rowKeeps_on
  intro _; intro _; with_reducible (apply keeps_primaryReturn; assumption)
theorem rowKeeps_domainHoldEntry (dt : Nat) (s : State) :
    RowKeeps s (execDomainHoldEntry dt s) := by
  unfold execDomainHoldEntry
  apply rowKeeps_on
  intro _; intro _; split; with_reducible (refine Keeps.update ?_ rfl; assumption; assumption)
theorem rowKeeps_cycleCheckpoint (dt : Nat) (s : State) :
    RowKeeps s (execCycleCheckpoint dt s) := by
  unfold execCycleCheckpoint
  apply rowKeeps_on
  intro _; intro _; split; with_reducible (refine Keeps.update ?_ rfl; assumption; assumption)
theorem rowKeeps_ringStatus (dt : Nat) (p : Packet) (s : State) :
    RowKeeps s (execRingStatus dt p s) := by
  unfold execRingStatus
  exact rowKeeps_serve (fun x w hx => acts_opRingStatus _ _ _ hx) (fun x hx => after_opRingStatus _ _ hx)
theorem rowKeeps_laneStatus (dt : Nat) (p : Packet) (s : State) :
    RowKeeps s (execLaneStatus dt p s) := by
  unfold execLaneStatus
  exact rowKeeps_serve (fun x w hx => acts_opLaneStatus _ _ _ hx) (fun x hx => after_opLaneStatus _ _ hx)
theorem rowKeeps_ringEnumerate (dt : Nat) (p : Packet) (s : State) :
    RowKeeps s (execRingEnumerate dt p s) := by
  unfold execRingEnumerate
  exact rowKeeps_serve (fun x w hx => acts_opRingEnumerate _ _ _ hx) (fun x hx => after_opRingEnumerate _ _ hx)
theorem rowKeeps_escrowPush (dt : Nat) (p : Packet) (s : State) :
    RowKeeps s (execEscrowPush dt p s) := by
  unfold execEscrowPush
  exact rowKeeps_serve (fun x w hx => acts_opEscrowPush _ _ _ hx) (fun x hx => after_opEscrowPush _ _ hx)
theorem rowKeeps_linkUp (dt : Nat) (lane : Lane) (fec : Bool) (s : State) :
    RowKeeps s (execLinkUp dt lane fec s) := by
  unfold execLinkUp
  apply rowKeeps_onLane
  intro _; intro _; with_reducible (apply keeps_laneUp; assumption)
theorem rowKeeps_halfCycleBoundary (dt : Nat) (means : List Int) (s : State) :
    RowKeeps s (execHalfCycleBoundary dt means s) := by
  unfold execHalfCycleBoundary
  apply rowKeeps_on
  intro _; intro _; with_reducible (apply keeps_prbsStep; apply keeps_halfBoundary; assumption)
theorem rowKeeps_laneLockLoss (dt : Nat) (lane : Lane) (s : State) :
    RowKeeps s (execLaneLockLoss dt lane s) := by
  unfold execLaneLockLoss
  apply rowKeeps_onLane
  intro _; intro _; with_reducible (apply keeps_laneDown; assumption)
theorem rowKeeps_unwrap (dt : Nat) (side : Side) (s : State) :
    RowKeeps s (execUnwrap dt side s) := by
  unfold execUnwrap
  apply rowKeeps_on
  intro _; intro _; with_reducible (apply keeps_unwrapSpan; assumption)
theorem rowKeeps_helloSend (dt : Nat) (s : State) :
    RowKeeps s (execHelloSend dt s) := by
  unfold execHelloSend
  apply rowKeeps_on
  intro _; intro _; with_reducible (apply keeps_sendHello; assumption)
theorem rowKeeps_hello (dt : Nat) (hdr : LinkHdr) (position claim variant flags name : Byte) (epochSeen : Word16)
    (s : State) :
    RowKeeps s (execHello dt hdr position claim variant flags name epochSeen s) := by
  unfold execHello
  apply rowKeeps_on
  intro _; intro _; with_reducible (apply keeps_onLink; assumption); intro _; intro _; intro _
  with_reducible (apply keeps_takeHello; assumption)
theorem rowKeeps_helloTimeout (dt : Nat) (side : Side) (s : State) :
    RowKeeps s (execHelloTimeout dt side s) := by
  unfold execHelloTimeout
  apply rowKeeps_on
  intro _; intro _; split; with_reducible (apply keeps_breakSpan; assumption; assumption)
theorem rowKeeps_echo (dt : Nat) (lane : Lane) (tickSent : Nat) (s : State) :
    RowKeeps s (execEcho dt lane tickSent s) := by
  unfold execEcho
  apply rowKeeps_onLane
  intro _; intro _; with_reducible (apply keeps_answerEcho; assumption)
theorem rowKeeps_echoReply (dt : Nat) (lane : Lane) (tickSent turn : Nat) (s : State) :
    RowKeeps s (execEchoReply dt lane tickSent turn s) := by
  unfold execEchoReply
  apply rowKeeps_onLane
  intro _; intro _; with_reducible (apply keeps_takeEcho; assumption)
theorem rowKeeps_authA (dt : Nat) (hdr : LinkHdr) (na : List Byte) (s : State) :
    RowKeeps s (execAuthA dt hdr na s) := by
  unfold execAuthA
  apply rowKeeps_on
  intro _; intro _; with_reducible (apply keeps_onLink; assumption); intro _; intro _; intro _; split
  with_reducible (apply keeps_takeA; assumption; assumption)
theorem rowKeeps_authB (dt : Nat) (hdr : LinkHdr) (nb mb : List Byte) (s : State) :
    RowKeeps s (execAuthB dt hdr nb mb s) := by
  unfold execAuthB
  apply rowKeeps_on
  intro _; intro _; with_reducible (apply keeps_onLink; assumption); intro _; intro _; intro _; split
  with_reducible (apply keeps_takeB; assumption; assumption)
theorem rowKeeps_authC (dt : Nat) (hdr : LinkHdr) (ma : List Byte) (s : State) :
    RowKeeps s (execAuthC dt hdr ma s) := by
  unfold execAuthC
  apply rowKeeps_on
  intro _; intro _; with_reducible (apply keeps_onLink; assumption); intro _; intro _; intro _; split
  with_reducible (apply keeps_takeC; assumption; assumption)
theorem rowKeeps_authRetry (dt : Nat) (side : Side) (s : State) :
    RowKeeps s (execAuthRetry dt side s) := by
  unfold execAuthRetry
  apply rowKeeps_on
  intro _; intro _; with_reducible (apply keeps_authRetry; assumption)
theorem rowKeeps_domainJoin (dt : Nat) (s : State) :
    RowKeeps s (execDomainJoin dt s) := by
  unfold execDomainJoin
  apply rowKeeps_on
  intro _; intro _; split; with_reducible (apply keeps_startEnum; assumption; assumption)
theorem rowKeeps_enumerate (dt : Nat) (hdr : LinkHdr) (count : Byte) (wWard all384 : Bool) (ringSize highest : Nat)
    (s : State) :
    RowKeeps s (execEnumerate dt hdr count wWard all384 ringSize highest s) := by
  unfold execEnumerate
  apply rowKeeps_on
  intro _; intro _; with_reducible (apply keeps_onLink; assumption); intro _; intro _; intro _
  with_reducible (apply keeps_takeEnum; assumption)
theorem rowKeeps_enumDone (dt : Nat) (hdr : LinkHdr) (positions : Byte) (form : Form) (refList : List Byte)
    (s : State) :
    RowKeeps s (execEnumDone dt hdr positions form refList s) := by
  unfold execEnumDone
  apply rowKeeps_on
  intro _; intro _; with_reducible (apply keeps_onLink; assumption); intro _; intro _; intro _
  with_reducible (apply keeps_takeDone; assumption)
theorem rowKeeps_enumRefuse (dt : Nat) (hdr : LinkHdr) (cause : Byte) (s : State) :
    RowKeeps s (execEnumRefuse dt hdr cause s) := by
  unfold execEnumRefuse
  apply rowKeeps_on
  intro _; intro _; with_reducible (apply keeps_onLink; assumption); intro _; intro _; intro _
  with_reducible (apply keeps_takeRefuse; assumption)
theorem rowKeeps_enumRefuseSend (dt : Nat) (s : State) :
    RowKeeps s (execEnumRefuseSend dt s) := by
  unfold execEnumRefuseSend
  apply rowKeeps_on
  intro _; intro _; split; with_reducible (apply keeps_link; apply keeps_link; assumption; assumption)
theorem rowKeeps_enumTimeout (dt highest : Nat) (s : State) :
    RowKeeps s (execEnumTimeout dt highest s) := by
  unfold execEnumTimeout
  apply rowKeeps_on
  intro _; intro _; with_reducible (apply keeps_enumTimeout; assumption)
theorem rowKeeps_slotNotice (dt : Nat) (hdr : LinkHdr) (weft : Word32) (_slot _loop : Byte) (s : State) :
    RowKeeps s (execSlotNotice dt hdr weft _slot _loop s) := by
  unfold execSlotNotice
  apply rowKeeps_on
  intro _; intro _; with_reducible (apply keeps_onLink; assumption); intro _; intro _; intro _
  with_reducible (apply keeps_takeNotice; assumption)
theorem rowKeeps_escrowAck (dt : Nat) (hdr : LinkHdr) (revision : Word32) (s : State) :
    RowKeeps s (execEscrowAck dt hdr revision s) := by
  unfold execEscrowAck
  apply rowKeeps_on
  intro _; intro _; with_reducible (apply keeps_onLink; assumption); intro _; intro _; intro _
  with_reducible (apply keeps_takeAck; assumption)
theorem rowKeeps_weftHeader (dt : Nat) (lane : Lane) (h : WeftHdr) (s : State) :
    RowKeeps s (execWeftHeader dt lane h s) := by
  unfold execWeftHeader
  apply rowKeeps_onLane
  intro _; intro _; with_reducible (apply keeps_takeHeader; assumption)
theorem rowKeeps_weftHeaderSend (dt : Nat) (s : State) :
    RowKeeps s (execWeftHeaderSend dt s) := by
  unfold execWeftHeaderSend
  apply rowKeeps_on
  intro _; intro _; with_reducible (apply keeps_sendHeaders; assumption)
theorem rowKeeps_referenceTakeover (dt : Nat) (s : State) :
    RowKeeps s (execReferenceTakeover dt s) := by
  unfold execReferenceTakeover
  apply rowKeeps_on
  intro _; intro _; split; with_reducible (apply keeps_becomeRef; assumption; assumption)
theorem rowKeeps_insertion (dt duration : Nat) (s : State) :
    RowKeeps s (execInsertion dt duration s) := by
  unfold execInsertion
  apply rowKeeps_on
  intro _; intro _; with_reducible (apply keeps_insert; assumption)
theorem rowKeeps_ringFrameForward (dt : Nat) (lane : Lane) (ty : Byte) (hdr : RingHdr) (payload : List Byte)
    (good inserted : Bool) (reach : Nat) (s : State) :
    RowKeeps s (execRingFrameForward dt lane ty hdr payload good inserted reach s) := by
  unfold execRingFrameForward
  apply rowKeeps_onLane
  intro _; intro _; with_reducible (apply keeps_passFrame; assumption)
theorem rowKeeps_request (dt : Nat) (hdr : RingHdr) (opcode : Word16) (p : Packet) (s : State) :
    RowKeeps s (execRequest dt hdr opcode p s) := by
  unfold execRequest
  apply rowKeeps_on
  intro _; intro _; with_reducible (apply keeps_addressed; assumption); intro _; intro _
  with_reducible (apply keeps_takeRing; assumption)
theorem rowKeeps_ringReply (dt : Nat) (hdr : RingHdr) (r : Reply) (s : State) :
    RowKeeps s (execRingReply dt hdr r s) := by
  unfold execRingReply
  apply rowKeeps_on
  intro _; intro _; with_reducible (apply keeps_addressed; assumption); intro _; intro _; split
  with_reducible (apply keeps_relayFinal; assumption; apply keeps_relay; assumption)
theorem rowKeeps_ringReplyTimeout (dt : Nat) (till : Word16) (s : State) :
    RowKeeps s (execRingReplyTimeout dt till s) := by
  unfold execRingReplyTimeout
  apply rowKeeps_on
  intro _; intro _; split; with_reducible (apply keeps_failTill; assumption; assumption)
theorem rowKeeps_escrow (dt : Nat) (side : Side) (hdr : RingHdr) (position : Byte) (epoch : Word16)
    (revision total offset : Word32) (data mac : List Byte) (s : State) :
    RowKeeps s (execEscrow dt side hdr position epoch revision total offset data mac s) := by
  unfold execEscrow
  apply rowKeeps_on
  intro _; intro _; with_reducible (apply keeps_addressed; assumption); intro _; intro _; split
  with_reducible (apply keeps_takeEscrow; assumption; assumption)
theorem rowKeeps_presence (dt : Nat) (hdr : RingHdr) (position variant : Byte) (epoch : Word16) (s : State) :
    RowKeeps s (execPresence dt hdr position variant epoch s) := by
  unfold execPresence
  apply rowKeeps_on
  intro _; intro _; with_reducible (apply keeps_takeOnce; assumption); intro _; intro _
  with_reducible (apply keeps_seeVariant; apply keeps_seeEpoch; assumption)
theorem rowKeeps_change (dt : Nat) (hdr : RingHdr) (cause subject : Byte) (epoch : Word16) (s : State) :
    RowKeeps s (execChange dt hdr cause subject epoch s) := by
  unfold execChange
  apply rowKeeps_on
  intro _; intro _; with_reducible (apply keeps_takeOnce; assumption); intro _; intro _; split
  with_reducible (assumption; apply keeps_takeChange; assumption)
theorem rowKeeps_event (dt : Nat) (hdr : RingHdr) (r : Reply) (s : State) :
    RowKeeps s (execEvent dt hdr r s) := by
  unfold execEvent
  apply rowKeeps_on
  intro _; intro _; with_reducible (apply keeps_takeOnce; assumption); intro _; intro _; split
  with_reducible (apply keeps_deliver; assumption; assumption)
theorem rowKeeps_updateOpen (dt : Nat) (p : Packet) (s : State) :
    RowKeeps s (execUpdateOpen dt p s) := by
  unfold execUpdateOpen
  exact rowKeeps_serve (fun x w hx => acts_opUpdateOpen _ _ _ hx) (fun x hx => after_opUpdateOpen _ _ hx)
theorem rowKeeps_updOpen (dt : Nat) (hdr : RingHdr) (u : UpdHdr) (clean : Bool) (manifest : List Byte) (s : State) :
    RowKeeps s (execUpdOpen dt hdr u clean manifest s) := by
  unfold execUpdOpen
  apply rowKeeps_on
  intro _; intro _; with_reducible (apply keeps_onCtl; assumption); intro _; intro _
  with_reducible (apply keeps_takeOpen; assumption)
theorem rowKeeps_blockPut (dt : Nat) (p : Packet) (s : State) :
    RowKeeps s (execBlockPut dt p s) := by
  unfold execBlockPut
  exact rowKeeps_serve (fun x w hx => acts_opBlockPut _ _ _ hx) (fun x hx => after_opBlockPut _ _ hx)
theorem rowKeeps_block (dt : Nat) (side : Side) (hdr : RingHdr) (b : Block) (s : State) :
    RowKeeps s (execBlock dt side hdr b s) := by
  unfold execBlock
  apply rowKeeps_on
  intro _; intro _; with_reducible (apply keeps_addressed; assumption); intro _; intro _; split
  with_reducible (assumption; apply keeps_takeBlockFrame; assumption)
theorem rowKeeps_need (dt : Nat) (side : Side) (hdr : RingHdr) (u : UpdHdr) (first count : Word32) (s : State) :
    RowKeeps s (execNeed dt side hdr u first count s) := by
  unfold execNeed
  apply rowKeeps_on
  intro _; intro _; with_reducible (apply keeps_onCtl; assumption); intro _; intro _; split
  with_reducible (apply keeps_answerNeed; assumption; assumption)
theorem rowKeeps_blockStall (dt : Nat) (s : State) :
    RowKeeps s (execBlockStall dt s) := by
  unfold execBlockStall
  apply rowKeeps_on
  intro _; intro _; split; with_reducible (apply keeps_stalled; assumption; assumption)
theorem rowKeeps_updateStatus (dt : Nat) (p : Packet) (s : State) :
    RowKeeps s (execUpdateStatus dt p s) := by
  unfold execUpdateStatus
  exact rowKeeps_serve (fun x w hx => acts_opUpdateStatus _ _ _ hx) (fun x hx => after_opUpdateStatus _ _ hx)
theorem rowKeeps_voteCall (dt : Nat) (hdr : RingHdr) (u : UpdHdr) (_angle : Angle) (_cycle : Cycle) (s : State) :
    RowKeeps s (execVoteCall dt hdr u _angle _cycle s) := by
  unfold execVoteCall
  apply rowKeeps_on
  intro _; intro _; with_reducible (apply keeps_onCtl; assumption); intro _; intro _; split
  with_reducible (assumption; apply keeps_castVote; assumption)
theorem rowKeeps_vote (dt : Nat) (hdr : RingHdr) (u : UpdHdr) (yes : Bool) (s : State) :
    RowKeeps s (execVote dt hdr u yes s) := by
  unfold execVote
  apply rowKeeps_on
  intro _; intro _; with_reducible (apply keeps_onCtl; assumption); intro _; intro _; split
  with_reducible (apply keeps_countVote; assumption; assumption)
theorem rowKeeps_prepare (dt : Nat) (p : Packet) (s : State) :
    RowKeeps s (execPrepare dt p s) := by
  unfold execPrepare
  exact rowKeeps_serve (fun x w hx => acts_opPrepare _ _ _ hx) (fun x hx => after_opPrepare _ _ hx)
theorem rowKeeps_voteClose (dt : Nat) (s : State) :
    RowKeeps s (execVoteClose dt s) := by
  unfold execVoteClose
  apply rowKeeps_on
  intro _; intro _; split; split; with_reducible (apply keeps_releaseVote; assumption; assumption; assumption)
theorem rowKeeps_voteRelease (dt : Nat) (hdr : RingHdr) (u : UpdHdr) (s : State) :
    RowKeeps s (execVoteRelease dt hdr u s) := by
  unfold execVoteRelease
  apply rowKeeps_on
  intro _; intro _; with_reducible (apply keeps_onCtl; assumption); intro _; intro _; split
  with_reducible (apply keeps_setSession; assumption; assumption)
theorem rowKeeps_commit (dt : Nat) (p : Packet) (s : State) :
    RowKeeps s (execCommit dt p s) := by
  unfold execCommit
  exact rowKeeps_serve (fun x w hx => acts_opCommit _ _ _ hx) (fun x hx => after_opCommit _ _ hx)
theorem rowKeeps_updateCtlCommit (dt : Nat) (hdr : RingHdr) (u : UpdHdr) (cycle : Cycle) (s : State) :
    RowKeeps s (execUpdateCtlCommit dt hdr u cycle s) := by
  unfold execUpdateCtlCommit
  apply rowKeeps_on
  intro _; intro _; with_reducible (apply keeps_onCtl; assumption); intro _; intro _; split
  with_reducible (assumption; apply keeps_takeCommit; assumption)
theorem rowKeeps_commitInstant (dt : Nat) (s : State) :
    RowKeeps s (execCommitInstant dt s) := by
  unfold execCommitInstant
  apply rowKeeps_on
  intro _; intro _; split; split; with_reducible (apply keeps_commitNow; assumption; assumption; assumption)
theorem rowKeeps_trialPass (dt : Nat) (s : State) :
    RowKeeps s (execTrialPass dt s) := by
  unfold execTrialPass
  apply rowKeeps_on
  intro _; intro _; split; with_reducible (apply keeps_judgeTrial; assumption; assumption)
theorem rowKeeps_trialResend (dt : Nat) (s : State) :
    RowKeeps s (execTrialResend dt s) := by
  unfold execTrialResend
  apply rowKeeps_on
  intro _; intro _; split; with_reducible (apply keeps_resendStep; refine Keeps.update ?_ rfl; assumption; assumption)
theorem rowKeeps_trial (dt : Nat) (hdr : RingHdr) (u : UpdHdr) (_cycle : Cycle) (s : State) :
    RowKeeps s (execTrial dt hdr u _cycle s) := by
  unfold execTrial
  apply rowKeeps_on
  intro _; intro _; with_reducible (apply keeps_onCtl; assumption); intro _; intro _; split
  with_reducible (apply keeps_noteTrial; assumption; assumption)
theorem rowKeeps_trialDeadline (dt : Nat) (s : State) :
    RowKeeps s (execTrialDeadline dt s) := by
  unfold execTrialDeadline
  apply rowKeeps_on
  intro _; intro _; split; split; with_reducible (apply keeps_judgeTrials; assumption; assumption; assumption)
theorem rowKeeps_confirm (dt : Nat) (p : Packet) (s : State) :
    RowKeeps s (execConfirm dt p s) := by
  unfold execConfirm
  exact rowKeeps_serve (fun x w hx => acts_opConfirm _ _ _ hx) (fun x hx => after_opConfirm _ _ hx)
theorem rowKeeps_updateCtlConfirm (dt : Nat) (hdr : RingHdr) (u : UpdHdr) (readBurnt : Nat) (s : State) :
    RowKeeps s (execUpdateCtlConfirm dt hdr u readBurnt s) := by
  unfold execUpdateCtlConfirm
  apply rowKeeps_on
  intro _; intro _; dsimp only; split; split; split; split; with_reducible (apply keeps_confirmHere; assumption)
  split; with_reducible (apply keeps_reportConfirmed; assumption; assumption; assumption; apply keeps_onCtl)
  with_reducible assumption; intro _; intro _; split; with_reducible (apply keeps_confirmHere; assumption); split
  with_reducible (apply keeps_reportConfirmed; assumption; assumption; assumption)
theorem rowKeeps_confirmed (dt : Nat) (hdr : RingHdr) (u : UpdHdr) (s : State) :
    RowKeeps s (execConfirmed dt hdr u s) := by
  unfold execConfirmed
  apply rowKeeps_on
  intro _; intro _; with_reducible (apply keeps_onCtl; assumption); intro _; intro _; split
  with_reducible (apply keeps_noteConfirmed; assumption; assumption)
theorem rowKeeps_confirmDeadline (dt : Nat) (s : State) :
    RowKeeps s (execConfirmDeadline dt s) := by
  unfold execConfirmDeadline
  apply rowKeeps_on
  intro _; intro _; split; split; with_reducible (apply keeps_endFinals; apply keeps_setSession; assumption)
  with_reducible (assumption; assumption)
theorem rowKeeps_unwind (dt : Nat) (p : Packet) (s : State) :
    RowKeeps s (execUnwind dt p s) := by
  unfold execUnwind
  exact rowKeeps_serve (fun x w hx => acts_opUnwind _ _ _ hx) (fun x hx => after_opUnwind _ _ hx)
theorem rowKeeps_updateCtlUnwind (dt : Nat) (hdr : RingHdr) (u : UpdHdr) (s : State) :
    RowKeeps s (execUpdateCtlUnwind dt hdr u s) := by
  unfold execUpdateCtlUnwind
  apply rowKeeps_on
  intro _; intro _; with_reducible (apply keeps_onCtl; assumption); intro _; intro _; split; split
  with_reducible (assumption; assumption); split; with_reducible (assumption; apply keeps_ctlGateway; assumption)
  with_reducible (apply keeps_unwindHere; assumption; assumption)
theorem rowKeeps_unwound (dt : Nat) (hdr : RingHdr) (u : UpdHdr) (s : State) :
    RowKeeps s (execUnwound dt hdr u s) := by
  unfold execUnwound
  apply rowKeeps_on
  intro _; intro _; with_reducible (apply keeps_onCtl; assumption); intro _; intro _; split
  with_reducible (apply keeps_noteUnwound; assumption; assumption)
theorem rowKeeps_updateAbort (dt : Nat) (p : Packet) (s : State) :
    RowKeeps s (execUpdateAbort dt p s) := by
  unfold execUpdateAbort
  exact rowKeeps_serve (fun x w hx => acts_opUpdateAbort _ _ _ hx) (fun x hx => after_opUpdateAbort _ _ hx)
theorem rowKeeps_updAbort (dt : Nat) (hdr : RingHdr) (u : UpdHdr) (s : State) :
    RowKeeps s (execUpdAbort dt hdr u s) := by
  unfold execUpdAbort
  apply rowKeeps_on
  intro _; intro _; with_reducible (apply keeps_onCtl; assumption); intro _; intro _; split
  with_reducible (apply keeps_abortHere; assumption; assumption)
theorem rowKeeps_recoverActivate (dt : Nat) (p : Packet) (s : State) :
    RowKeeps s (execRecoverActivate dt p s) := by
  unfold execRecoverActivate
  exact rowKeeps_serve (fun x w hx => acts_opRecoverActivate _ _ _ hx) (fun x hx => after_opRecoverActivate _ _ hx)
theorem rowKeeps_cycleStart (dt : Nat) (s : State) :
    RowKeeps s (execCycleStart dt s) := by
  unfold execCycleStart
  apply rowKeeps_on
  intro _; intro _; with_reducible (apply keeps_cycleStart; assumption)
theorem rowKeeps_powerOn (dt : Nat) (supply : Supply) (s : State) :
    RowKeeps s (execPowerOn dt supply s) := by
  unfold execPowerOn
  apply rowKeeps_on
  intro _; intro _; with_reducible (apply keeps_powerOn; assumption)
theorem rowKeeps_bootCheck (dt : Nat) (digestsOk : Bool) (s : State) :
    RowKeeps s (execBootCheck dt digestsOk s) := by
  unfold execBootCheck
  apply rowKeeps_on
  intro _; intro _; with_reducible (apply keeps_boot; assumption)
theorem rowKeeps_vaultStage (dt : Nat) (s : State) :
    RowKeeps s (execVaultStage dt s) := by
  unfold execVaultStage
  apply rowKeeps_on
  intro _; intro _; with_reducible (apply keeps_vaultStage; assumption)
theorem rowKeeps_firstLampControl (dt : Nat) (s : State) :
    RowKeeps s (execFirstLampControl dt s) := by
  unfold execFirstLampControl
  apply rowKeeps_on
  intro _; intro _; with_reducible (apply keeps_firstLamp; assumption)
theorem rowKeeps_ringReady (dt : Nat) (east west : Option Escrow) (s : State) :
    RowKeeps s (execRingReady dt east west s) := by
  unfold execRingReady
  apply rowKeeps_on
  intro _; intro _; with_reducible (apply keeps_stage7; assumption)
theorem rowKeeps_hubWarmReset (dt : Nat) (cause : ResetCause) (s : State) :
    RowKeeps s (execHubWarmReset dt cause s) := by
  unfold execHubWarmReset
  apply rowKeeps_on
  intro _; intro _; with_reducible (apply keeps_warmReset; assumption)
theorem rowKeeps_fatalError (dt : Nat) (cause : FatalCause) (s : State) :
    RowKeeps s (execFatalError dt cause s) := by
  unfold execFatalError
  apply rowKeeps_on
  intro _; intro _; split; with_reducible (apply keeps_fatal; assumption; assumption)
theorem rowKeeps_hubOvertemp (dt : Nat) (temp : Int) (s : State) :
    RowKeeps s (execHubOvertemp dt temp s) := by
  unfold execHubOvertemp
  apply rowKeeps_on
  intro _; intro _; split; with_reducible (apply keeps_overtemp; assumption; assumption)
theorem rowKeeps_lockstepTeller (dt : Nat) (s : State) :
    RowKeeps s (execLockstepTeller dt s) := by
  unfold execLockstepTeller
  apply rowKeeps_on
  intro _; intro _; split; with_reducible (apply keeps_mismatch2; assumption; assumption)
theorem rowKeeps_lockstepKeeper (dt : Nat) (s : State) :
    RowKeeps s (execLockstepKeeper dt s) := by
  unfold execLockstepKeeper
  apply rowKeeps_on
  intro _; intro _; split; with_reducible (apply keeps_mismatch2; assumption; assumption)
theorem rowKeeps_keeperStall (dt : Nat) (s : State) :
    RowKeeps s (execKeeperStall dt s) := by
  unfold execKeeperStall
  apply rowKeeps_on
  intro _; intro _; split; with_reducible (refine Keeps.stopped ?_ rfl; assumption; assumption)
theorem rowKeeps_keeperHeartbeatReturn (dt : Nat) (s : State) :
    RowKeeps s (execKeeperHeartbeatReturn dt s) := by
  unfold execKeeperHeartbeatReturn
  apply rowKeeps_on
  intro _; intro _; split; with_reducible (apply keeps_hubReset; assumption; assumption)
theorem rowKeeps_hubWatchdog (dt : Nat) (s : State) :
    RowKeeps s (execHubWatchdog dt s) := by
  unfold execHubWatchdog
  apply rowKeeps_on
  intro _; intro _; split; with_reducible (apply keeps_hubReset; assumption; assumption)
theorem rowKeeps_random (dt : Nat) (p : Packet) (s : State) :
    RowKeeps s (execRandom dt p s) := by
  unfold execRandom
  exact rowKeeps_serve (fun x w hx => acts_opRandom _ _ _ hx) (fun x hx => after_opRandom _ _ hx)
theorem rowKeeps_entropyStatus (dt : Nat) (p : Packet) (s : State) :
    RowKeeps s (execEntropyStatus dt p s) := by
  unfold execEntropyStatus
  exact rowKeeps_serve (fun x w hx => acts_opEntropyStatus _ _ _ hx) (fun x hx => after_opEntropyStatus _ _ hx)
theorem rowKeeps_domainKeyWrite (dt : Nat) (p : Packet) (s : State) :
    RowKeeps s (execDomainKeyWrite dt p s) := by
  unfold execDomainKeyWrite
  exact rowKeeps_serve (fun x w hx => acts_opDomainKeyWrite _ _ _ hx) (fun x hx => after_opDomainKeyWrite _ _ hx)
theorem rowKeeps_cosignKeySet (dt : Nat) (p : Packet) (s : State) :
    RowKeeps s (execCosignKeySet dt p s) := by
  unfold execCosignKeySet
  exact rowKeeps_serve (fun x w hx => acts_opCosignKeySet _ _ _ hx) (fun x hx => after_opCosignKeySet _ _ hx)
theorem rowKeeps_healthTestFail (dt : Nat) (test : HealthTest) (s : State) :
    RowKeeps s (execHealthTestFail dt test s) := by
  unfold execHealthTestFail
  apply rowKeeps_on
  intro _; intro _; with_reducible (apply keeps_healthFails; assumption)
theorem rowKeeps_entropyRestart (dt : Nat) (s : State) :
    RowKeeps s (execEntropyRestart dt s) := by
  unfold execEntropyRestart
  apply rowKeeps_on
  intro _; intro _; with_reducible (apply keeps_entropyRestart; assumption)
theorem rowKeeps_startupTestDone (dt : Nat) (failure : Option HealthTest) (s : State) :
    RowKeeps s (execStartupTestDone dt failure s) := by
  unfold execStartupTestDone
  apply rowKeeps_on
  intro _; intro _; with_reducible (apply keeps_startupDone; assumption)
theorem rowKeeps_reseed (dt : Nat) (s : State) :
    RowKeeps s (execReseed dt s) := by
  unfold execReseed
  apply rowKeeps_on
  intro _; intro _; with_reducible (apply keeps_reseed; assumption)
theorem rowKeeps_entropyRequestDeadline (dt : Nat) (s : State) :
    RowKeeps s (execEntropyRequestDeadline dt s) := by
  unfold execEntropyRequestDeadline
  apply rowKeeps_on
  intro _; intro _; with_reducible (apply keeps_requestDeadline; assumption)
theorem rowKeeps_uartSet (dt : Nat) (p : Packet) (s : State) :
    RowKeeps s (execUartSet dt p s) := by
  unfold execUartSet
  exact rowKeeps_serve (fun x w hx => acts_opUartSet _ _ _ hx) (fun x hx => after_opUartSet _ _ hx)
theorem rowKeeps_uartStatus (dt : Nat) (p : Packet) (s : State) :
    RowKeeps s (execUartStatus dt p s) := by
  unfold execUartStatus
  exact rowKeeps_serve (fun x w hx => acts_opUartStatus _ _ _ hx) (fun x hx => after_opUartStatus _ _ hx)
theorem rowKeeps_uartBreak (dt : Nat) (p : Packet) (s : State) :
    RowKeeps s (execUartBreak dt p s) := by
  unfold execUartBreak
  exact rowKeeps_serve (fun x w hx => acts_opUartBreak _ _ _ hx) (fun x hx => after_opUartBreak _ _ hx)
theorem rowKeeps_replySentInFull (dt : Nat) (port : Port) (s : State) :
    RowKeeps s (execReplySentInFull dt port s) := by
  unfold execReplySentInFull
  apply rowKeeps_on
  intro _; intro _; with_reducible (apply keeps_replySent; assumption)
theorem rowKeeps_uartBreakEnd (dt : Nat) (port : Port) (s : State) :
    RowKeeps s (execUartBreakEnd dt port s) := by
  unfold execUartBreakEnd
  apply rowKeeps_on
  intro _; intro _; with_reducible (apply keeps_breakSent; assumption)
theorem rowKeeps_character (dt : Nat) (port : Port) (c : BitVec 9) (startOne stopOne noisy : Bool) (s : State) :
    RowKeeps s (execCharacter dt port c startOne stopOne noisy s) := by
  unfold execCharacter
  apply rowKeeps_on
  intro _; intro _; with_reducible (apply keeps_character; assumption)
theorem rowKeeps_receiveTimeout (dt : Nat) (port : Port) (s : State) :
    RowKeeps s (execReceiveTimeout dt port s) := by
  unfold execReceiveTimeout
  apply rowKeeps_on
  intro _; intro _; split; with_reducible (apply keeps_setPort; assumption; assumption)
theorem rowKeeps_serialBreak (dt : Nat) (port : Port) (bits lpo : Nat) (s : State) :
    RowKeeps s (execSerialBreak dt port bits lpo s) := by
  unfold execSerialBreak
  apply rowKeeps_on
  intro _; intro _; with_reducible (apply keeps_breakHeard; assumption)
theorem rowKeeps_dropWake (dt : Nat) (c : BitVec 9) (stopOne noisy : Bool) (s : State) :
    RowKeeps s (execDropWake dt c stopOne noisy s) := by
  unfold execDropWake
  apply rowKeeps_on
  intro _; intro _; with_reducible (apply keeps_sleepChar; assumption)
theorem rowKeeps_dropResume (dt : Nat) (s : State) :
    RowKeeps s (execDropResume dt s) := by
  unfold execDropResume
  apply rowKeeps_on
  intro _; intro _; split; with_reducible (apply keeps_setPort; assumption; assumption)
theorem rowKeeps_reportEntryPlace (dt : Nat) (till : Word16) (s : State) :
    RowKeeps s (execReportEntryPlace dt till s) := by
  unfold execReportEntryPlace
  apply rowKeeps_on
  intro _; intro _; split; with_reducible (assumption; apply keeps_prbsStep; apply keeps_standbyStep)
  with_reducible (apply keeps_resetStep; apply keeps_placeEntry; assumption)
theorem rowKeeps_bistRun (dt : Nat) (p : Packet) (s : State) :
    RowKeeps s (execBistRun dt p s) := by
  unfold execBistRun
  exact rowKeeps_serve (fun x w hx => acts_opBistRun _ _ _ hx) (fun x hx => after_opBistRun _ _ hx)
theorem rowKeeps_bistDone (dt : Nat) (found : BistFound) (s : State) :
    RowKeeps s (execBistDone dt found s) := by
  unfold execBistDone
  apply rowKeeps_on
  intro _; intro _; with_reducible (apply keeps_testDone; assumption)
theorem rowKeeps_dumpSummary (dt : Nat) (p : Packet) (s : State) :
    RowKeeps s (execDumpSummary dt p s) := by
  unfold execDumpSummary
  exact rowKeeps_serve (fun x w hx => acts_opDumpSummary _ _ _ hx) (fun x hx => after_opDumpSummary _ _ hx)
theorem rowKeeps_dumpRelease (dt : Nat) (p : Packet) (s : State) :
    RowKeeps s (execDumpRelease dt p s) := by
  unfold execDumpRelease
  exact rowKeeps_serve (fun x w hx => acts_opDumpRelease _ _ _ hx) (fun x hx => after_opDumpRelease _ _ hx)
theorem rowKeeps_vaultScrub (dt : Nat) (s : State) :
    RowKeeps s (execVaultScrub dt s) := by
  unfold execVaultScrub
  apply rowKeeps_on
  intro _; intro _; rw [id_eq]; with_reducible assumption

end Sys2Proof.Machine
end

