-- ==== Sys2Proof/Laws/Serve.lean ====
section
/-! SUPPORT. What the pipeline of R139 does with a packet, said once: later proofs cite these and leave `Module.serve`
folded. -/

namespace Sys2Proof.Machine
open Sys2Proof

theorem firstOf_none_head {d : Deny} {ds : List Deny} (h : firstOf (d :: ds) = none) : d = none ∧ firstOf ds = none := by
  cases d with
  | none => exact ⟨rfl, h⟩
  | some _ => simp [firstOf] at h

/-- A packet that passes step 7 for an opcode not marked T has no TIMED flag (R137, R139). -/
theorem headerCheck_untimed {m : Module} {op : Op} {p : Packet} (h : m.headerCheck op p = none) (ht : op.timed = false) :
    p.timed = false := by
  have h1 := (firstOf_none_head h).1
  cases hp : p.timed with
  | false => rfl
  | true => simp [hp, ht, badAt] at h1

theorem admitted_untimed {op : Op} {p : Packet} {s : State} {dt : Nat} (h : Admitted op p s dt) (ht : op.timed = false) :
    p.timed = false := by
  have hc := h.2.2.2
  have h2 := (firstOf_none_head (firstOf_none_head (firstOf_none_head hc).2).2).1
  exact headerCheck_untimed h2 ht

/-- A packet that is not served, or while a TILL_SRAM test runs, changes nothing (R49, R324, R435, R444). -/
theorem turn_deaf {m : Module} (opcode : Word16) (p : Packet) (good : Bool) (f : Module → Module)
    (h : m.tillTest = true ∨ m.takes p.path = false) : m.turn opcode p good f = m := by
  rcases h with h | h <;> simp [Module.turn, h]

/-- A packet taken at its turn leaves the queue and is judged (R39). -/
theorem turn_taken {m : Module} {opcode : Word16} {p : Packet} {good : Bool} (f : Module → Module)
    (h1 : m.tillTest = false) (h2 : m.takes p.path = true) (h3 : m.atTurn opcode p good = true) :
    m.turn opcode p good f = f (m.dequeue p) := by simp [Module.turn, h1, h2, h3]

/-- A packet whose turn has not come waits (R39). -/
theorem turn_waits {m : Module} {opcode : Word16} {p : Packet} {good : Bool} (f : Module → Module)
    (h1 : m.tillTest = false) (h2 : m.takes p.path = true) (h3 : m.atTurn opcode p good = false) :
    m.turn opcode p good f = m.wait opcode p good := by simp [Module.turn, h1, h2, h3]

/-- An admitted packet is carried out here. -/
theorem serve_admitted {op : Op} {p : Packet} {s : State} {dt : Nat} (h : Admitted op p s dt) :
    s.serve dt op p = .next { s with m := (s.turn dt p).serveHere op p } := by
  obtain ⟨⟨h1, h2, h3⟩, h4, h5, _⟩ := h
  simp only [State.turn] at h4 h5
  simp only [State.serve, State.on, Module.serve, Module.turn, Module.judge, h1, h2, h3, h4, h5, State.turn, Bool.not_true,
    Bool.or_self, Bool.false_eq_true, if_false, if_true]

theorem execAt_untimed {c : Clock} {p : Packet} (h : p.timed = false) : c.execAt p = some (c.soon, false) := by
  simp [Clock.execAt, h]

/-- An admitted packet that is not timed, answered at once. -/
theorem serve_now {op : Op} {p : Packet} {s : State} {dt : Nat} (h : Admitted op p s dt) (hu : p.timed = false)
    {m' : Module} {a : Ans}
    (ha : op.act (s.turn dt p) p ⟨(s.turn dt p).clk.soon, none, false⟩ = (m', some a)) :
    s.serve dt op p =
      .next { s with m := op.after (m'.answer op.code p a.rflags a.status a.detail a.payload) p } := by
  rw [serve_admitted h]
  have hc := h.2.2.2
  simp only [Module.serveHere, hc, execAt_untimed hu, hu, Option.getD_some, Bool.false_eq_true, if_false, ha,
    Option.getD_none]

/-- An admitted packet that is not timed, whose answer comes later. -/
theorem serve_later {op : Op} {p : Packet} {s : State} {dt : Nat} (h : Admitted op p s dt) (hu : p.timed = false)
    {m' : Module}
    (ha : op.act (s.turn dt p) p ⟨(s.turn dt p).clk.soon, none, false⟩ = (m', none)) :
    s.serve dt op p = .next { s with m := m'.noteTaken op.code p } := by
  rw [serve_admitted h]
  have hc := h.2.2.2
  simp only [Module.serveHere, hc, execAt_untimed hu, hu, Option.getD_some, Bool.false_eq_true, if_false, ha]

/-- An admitted timed packet takes a schedule till (R113, R138). -/
theorem serve_timed {op : Op} {p : Packet} {s : State} {dt : Nat} (h : Admitted op p s dt) (ht : p.timed = true)
    {x : Nat × Bool} {t : Word16} {m' : Module} {a : Ans}
    (hx : (s.turn dt p).clk.execAt p = some x) (hf : (s.turn dt p).freeSched = some t)
    (ha : op.act ((s.turn dt p).schedule p t x.1) p ⟨x.1, some t, x.2⟩ = (m', some a)) :
    s.serve dt op p =
      .next { s with
        m := op.after (m'.answer op.code p (if x.2 then a.rflags ||| rfLate else a.rflags) a.status t a.payload) p } := by
  rw [serve_admitted h]
  have hc := h.2.2.2
  simp only [Module.serveHere, hc, hx, ht, hf, Option.getD_some, if_true, ha]

end Sys2Proof.Machine
end

