-- ==== Sys2Proof/Laws/Outcomes.lean ====
section
/-! SUPPORT. What the rows' own operations answer and change, one lemma each, for the statements about rows. -/

namespace Sys2Proof.Machine
open Sys2Proof

/-- A row of a slice that the variant has answers its effect. -/
theorem onSlice_next {s : State} {dt n : Nat} {f : Module → Module} (h : n < (s.m.elapse dt).variant.slices) : s.onSlice dt n f = .next { s with m := f (s.m.elapse dt) } := by
  have e : (s.m.elapse dt).variant = s.m.variant := by unfold Module.elapse; split <;> rfl
  rw [e] at h
  simp [State.onSlice, h, State.on]

/-- A row of a channel that the variant has answers its effect. -/
theorem onChannel_next {s : State} {dt n : Nat} {f : Module → Module} (h : n < (s.m.elapse dt).variant.channels) : s.onChannel dt n f = .next { s with m := f (s.m.elapse dt) } := by
  have e : (s.m.elapse dt).variant = s.m.variant := by unfold Module.elapse; split <;> rfl
  rw [e] at h
  simp [State.onChannel, h, State.on]

/-- A row of a lane that the variant has answers its effect. -/
theorem onLane_next {s : State} {dt : Nat} {l : Lane} {f : Module → Module} (h : (s.m.elapse dt).variant.fits l = true) : s.onLane dt l f = .next { s with m := f (s.m.elapse dt) } := by
  have e : (s.m.elapse dt).variant = s.m.variant := by unfold Module.elapse; split <;> rfl
  rw [e] at h
  simp [State.onLane, h, State.on]

/-- Reading a slice after a slice is changed. -/
theorem slice_setSlice {m : Module} (hw : Tbl.wf HubSlice.reset m.hub = true) (n k : Nat) (f) : (m.setSlice n f).slice k = if k = n then f (m.slice n) else m.slice k := Tbl.get_modify hw _ _ _

/-- Reading a slice's own state after one is changed. -/
theorem ownOf_setOwn {m : Module} (hw : Tbl.wf (OwnSlice.reset 1) m.own = true) (n k : Nat) (f) : (m.setOwn n f).ownOf k = if k = n then f (m.ownOf n) else m.ownOf k := Tbl.get_modify hw _ _ _

/-- Reading a channel after a channel is changed. -/
theorem chan_setChan {m : Module} (hw : Tbl.wf Chan.reset m.lamps.chans = true) (n k : Nat) (f) : (m.setChan n f).chan k = if k = n then f (m.chan n) else m.chan k := Tbl.get_modify hw _ _ _

/-- Reading a till after a till is changed. -/
theorem till_setTill {m : Module} (t : Word16) (f : Till → Till) (h : Tbl.wf Till.closed m.win.tills = true) :
    (m.setTill t f).till t = f (m.till t) := by
  simp [Module.till, Module.setTill, Tbl.get_modify h]

/-- Reading a lane just changed. -/
theorem lane_setLane {m : Module} (hw : Tbl.wf LaneSt.down m.ring.lanes = true) (l : Lane) (f) : (m.setLane l f).lane l = f (m.lane l) := by
  unfold Module.setLane Module.lane; dsimp only; rw [Tbl.get_modify hw, if_pos rfl]

/-- Reading a port just changed. -/
theorem port_setPort (m : Module) (port : Port) (f : Uart → Uart) : (m.setPort port f).port port = f (m.port port) := by cases port <;> rfl

/-- Reading a fault record after one is changed. -/
theorem record_setRecord {m : Module} (hw : Tbl.wf FaultRec.none m.prov.records = true) (ch kind c k) (f) (h1 : 1 ≤ kind) (h2 : kind ≤ 4) (h3 : 1 ≤ k) (h4 : k ≤ 4) : (m.setRecord ch kind f).record c k = if c = ch ∧ k = kind then f (m.record ch kind) else m.record c k := by
  have e : (recKey c k = recKey ch kind) = (c = ch ∧ k = kind) := by apply propext; unfold recKey; omega
  refine (Tbl.get_modify hw _ _ _).trans ?_
  simp only [e]; rfl

/-- The channels of a slice. -/
theorem mem_sliceChans (n ch : Nat) : ch ∈ sliceChans n ↔ ch / 16 = n := by
  simp only [sliceChans, List.mem_map, List.mem_range]
  constructor
  · rintro ⟨p, hp, rfl⟩; omega
  · intro h; exact ⟨ch % 16, by omega, by omega⟩

/-- A slice frame of the current epoch is acknowledged and acted on (R229). -/
theorem fromSlice_ok {m : Module} {n : Nat} {hdr : SliceHdr} (hs1 : m.stage ≠ .unpowered) (hs2 : m.stage ≠ .rails)
    (hf : (m.slice n).failed = false) (hg : hdr.good = true) (he : hdr.epoch = (m.slice n).epoch) (h0 : hdr.epoch ≠ 0)
    (hw : Tbl.wf HubSlice.reset m.hub = true) (f : Module → Module) :
    m.fromSlice n hdr f = f ((m.setSlice n (fun h => { h with
      stale := 0, lastFrame := m.clk.turn, rxSeq := hdr.seq
      gaps := if hdr.seq = (m.slice n).rxSeq + 1 then h.gaps else h.gaps + 1 })).setFrames n
        (ackFrames m.clk.tick.toNat hdr.ack (m.slice n).unacked)) := by
  have a1 : (m.stage == .unpowered || m.stage == .rails || (m.slice n).failed || !hdr.good) = false := by
    simp [hs1, hs2, hf, hg]
  have a2 : ¬ (hdr.epoch ≠ (m.slice n).epoch || (m.slice n).epoch = 0) = true := by
    rw [← he]; simpa using h0
  have a3 : ∀ g : HubSlice → HubSlice, ((m.setSlice n g).slice n).unacked = (g (m.slice n)).unacked := by
    intro g; unfold Module.slice Module.setSlice
    rw [Tbl.get_modify hw, if_pos rfl]
  simp only [Module.fromSlice, a1, Bool.false_eq_true, if_false]
  rw [if_neg a2, a3]
  have a4 : m.setSlice n (fun h => { h with
      stale := 0, lastFrame := m.clk.turn, rxSeq := hdr.seq
      gaps := if hdr.seq = h.rxSeq + 1 then h.gaps else h.gaps + 1 }) = m.setSlice n (fun h => { h with
      stale := 0, lastFrame := m.clk.turn, rxSeq := hdr.seq
      gaps := if hdr.seq = (m.slice n).rxSeq + 1 then h.gaps else h.gaps + 1 }) := rfl
  rw [a4]; rfl

/-- What each turn of a loop keeps, the loop keeps. -/
theorem foldl_keeps {α β : Type} (g : Module → β) (f : Module → α → Module) (h : ∀ m a, g (f m a) = g m) : ∀ (l : List α) (m : Module), g (l.foldl f m) = g m := by
  intro l; induction l with
  | nil => intro m; rfl
  | cons a l ih => intro m; simp only [List.foldl_cons]; rw [ih, h]

/-- A change of every channel of a list. -/
theorem each_setChan (f : Chan → Chan) (hcl : ∀ c, (f c).closed = false) : ∀ (l : List Nat) (m : Module), Tbl.wf Chan.reset m.lamps.chans = true →
   Tbl.wf Chan.reset (m.each l (fun ch m => m.setChan ch f)).lamps.chans = true ∧
   (∀ ch, ch ∈ l → ((m.each l (fun ch m => m.setChan ch f)).chan ch).closed = false) ∧ (∀ ch, ch ∉ l → (m.each l (fun ch m => m.setChan ch f)).chan ch = m.chan ch)  ∧ (m.each l (fun ch m => m.setChan ch f)).own = m.own := by
  intro l; induction l with
  | nil => intro m hw; exact ⟨hw, by simp, fun _ _ => rfl, rfl⟩
  | cons a l ih =>
    intro m hw
    have hw1 : Tbl.wf Chan.reset (m.setChan a f).lamps.chans = true := Tbl.wf_modify hw _ _
    obtain ⟨h1, h2, h3, h4⟩ := ih (m.setChan a f) hw1
    refine ⟨h1, ?_, ?_, h4⟩
    · intro ch hch
      by_cases hl : ch ∈ l
      · exact h2 ch hl
      · have e : ch = a := by simpa [hl] using hch
        have := h3 ch hl
        show (((m.setChan a f).each l (fun ch m => m.setChan ch f)).chan ch).closed = false
        rw [this, chan_setChan hw, if_pos e]; exact hcl _
    · intro ch hch
      have := h3 ch (fun hh => hch (List.mem_cons_of_mem _ hh))
      show ((m.setChan a f).each l (fun ch m => m.setChan ch f)).chan ch = _
      rw [this, chan_setChan hw, if_neg (fun hh => hch (by rw [hh]; exact List.mem_cons_self))]

/-- Outputs put one after another. -/
theorem foldl_put {α : Type} (f : α → Out) : ∀ (l : List α) (m : Module), l.foldl (fun m v => m.put (f v)) m = { m with out := m.out ++ l.map f } := by
  intro l; induction l with
  | nil => intro m; simp
  | cons a l ih => intro m; simp only [List.foldl_cons]; rw [ih]; simp [Module.put]

/-- Turns that change only the lamps change only the lamps. -/
theorem foldl_lamps {α : Type} (f : Module → α → Module) (h : ∀ m a, ∃ x, f m a = { m with lamps := x }) : ∀ (l : List α) (m : Module), ∃ x, l.foldl f m = { m with lamps := x } := by
  intro l; induction l with
  | nil => intro m; exact ⟨m.lamps, rfl⟩
  | cons a l ih =>
    intro m; obtain ⟨x, e⟩ := h m a; obtain ⟨y, e2⟩ := ih (f m a)
    refine ⟨y, ?_⟩
    simp only [List.foldl_cons]; rw [e2, e]

/-- Every page of a range takes the code (R109). -/
theorem setCode_range (w : Window) (f : Nat) (c : BitVec 2) (hf : 2 ≤ f) : ∀ n, Tbl.wf 0 w.passbook = true →
    let w' := (List.range n).foldl (fun w i => w.setCode (f + i) c) w
    Tbl.wf 0 w'.passbook = true ∧ w' = { w with passbook := w'.passbook } ∧
      ∀ k, w'.code k = if f ≤ k ∧ k < f + n then c else w.code k := by
  intro n
  induction n with
  | zero => intro h; refine ⟨h, rfl, ?_⟩; intro k; rw [if_neg (by omega)]; rfl
  | succ n ih =>
    intro h
    obtain ⟨h1, h2, h3⟩ := ih h
    simp only [List.range_succ, List.foldl_append, List.foldl_cons, List.foldl_nil]
    generalize hw : (List.range n).foldl (fun w i => w.setCode (f + i) c) w = w' at h1 h2 h3
    have hn : ¬ f + n < 2 := by omega
    refine ⟨?_, ?_, ?_⟩
    · simp only [Window.setCode, hn, if_false]; exact Tbl.wf_set h1 _ _
    · simp only [Window.setCode, hn, if_false]; rw [h2]
    · intro k
      simp only [Window.setCode, hn, if_false, Window.code] at *
      have := h3 k
      simp only [Tbl.get_set h1]
      by_cases hk2 : k < 2
      · simp [hk2]; intro; omega
      · simp only [hk2, if_false] at *
        by_cases hk : k = f + n
        · subst hk; simp
        · rw [if_neg hk, this]
          by_cases hh : f ≤ k ∧ k < f + n
          · rw [if_pos hh, if_pos (by omega)]
          · rw [if_neg hh, if_neg (by omega)]

/-- The exchanges a host may ask for (R104). -/
theorem hostTransition_iff (e n : BitVec 2) : hostTransition e n = true ↔ ((e = 0 ∧ n = 1) ∨ (e = 1 ∧ n = 0) ∨ (e = 1 ∧ n = 2)) := by
  simp [hostTransition, or_assoc]

/-- PENDING bits cleared by one byte (R111). -/
theorem get_clear_byte (b : Byte) (k : Nat) : ∀ (n : Nat) (t : Tbl Bool), Tbl.wf false t = true →
   let t' := (List.range n).foldl (fun t i => if b.getLsbD i then Tbl.erase t (8 * k + i) else t) t
   Tbl.wf false t' = true ∧ ∀ i, Tbl.get false t' i = (Tbl.get false t i && !(decide (8 * k ≤ i ∧ i < 8 * k + n) && b.getLsbD (i - 8 * k))) := by
  intro n; induction n with
  | zero => intro t h; refine ⟨h, ?_⟩; intro i; have : ¬(8 * k ≤ i ∧ i < 8*k+0) := by omega
            simp only [this, decide_false, Bool.false_and, Bool.not_false, Bool.and_true]; rfl
  | succ n ih =>
    intro t h
    obtain ⟨h1, h2⟩ := ih t h
    simp only [List.range_succ, List.foldl_append, List.foldl_cons, List.foldl_nil]
    generalize hw : (List.range n).foldl (fun t i => if b.getLsbD i then Tbl.erase t (8 * k + i) else t) t = t' at h1 h2
    by_cases hb : b.getLsbD n = true
    · simp only [hb, if_true]
      refine ⟨Tbl.wf_erase h1 _, ?_⟩
      intro i
      rw [Tbl.get_erase h1, h2]
      by_cases hi : i = 8 * k + n
      · subst hi; simp [hb]
      · rw [if_neg hi]
        by_cases hh : 8 * k ≤ i ∧ i < 8 * k + n
        · have : 8 * k ≤ i ∧ i < 8 * k + (n+1) := by omega
          simp [hh, this]
        · have : ¬ (8 * k ≤ i ∧ i < 8 * k + (n+1)) := by omega
          simp only [hh, this, decide_false]
    · simp only [hb]
      refine ⟨h1, ?_⟩
      intro i
      rw [if_neg (by simp), h2]
      by_cases hi : i = 8 * k + n
      · subst hi; simp [hb]
      · by_cases hh : 8 * k ≤ i ∧ i < 8 * k + n
        · have : 8 * k ≤ i ∧ i < 8 * k + (n+1) := by omega
          simp [hh, this]
        · have : ¬ (8 * k ≤ i ∧ i < 8 * k + (n+1)) := by omega
          simp only [hh, this, decide_false]

/-- PENDING bits cleared by a write (R111). -/
theorem get_clearPending : ∀ (d : List Byte) (f : Nat) (t : Tbl Bool), Tbl.wf false t = true → ∀ i,
   Tbl.get false (clearPending t f d) i = (Tbl.get false t i && !(decide (8 * f ≤ i) && (d.getD (i / 8 - f) 0).getLsbD (i % 8))) := by
  intro d; induction d with
  | nil => intro f t h i; simp [clearPending]
  | cons b bs ih =>
    intro f t h i
    obtain ⟨h1, h2⟩ := get_clear_byte b f 8 t h
    rw [clearPending, ih _ _ h1, h2]
    by_cases c1 : 8 * f ≤ i
    · by_cases c2 : i < 8 * f + 8
      · have e1 : i / 8 - f = 0 := by omega
        have e2 : i - 8 * f = i % 8 := by omega
        have e3 : ¬ 8 * (f+1) ≤ i := by omega
        simp only [e1, e2, e3, c1, c2]; simp
      · have e1 : i / 8 - f = (i / 8 - (f+1)) + 1 := by omega
        have e3 : 8 * (f+1) ≤ i := by omega
        rw [e1]; simp only [e3, c1, c2]; simp
    · have e3 : ¬ 8 * (f+1) ≤ i := by omega
      simp only [e3, c1]; simp

/-- Nothing due after a reply: nothing happens. -/
theorem resetStep_idle (m : Module) (h1 : m.resetDue = none) (h2 : m.pow.standbyDue = false) (h3 : m.diag.bist = none) :
   m.resetStep.standbyStep.prbsStep = m := by
  have e : m.resetStep = m := by simp [Module.resetStep, h1]
  rw [e]
  have e : m.standbyStep = m := by simp [Module.standbyStep, h2]
  rw [e]; simp [Module.prbsStep, h3]

/-- An image that parses is stored under the next REVISION (R165). -/
theorem storeImage_stores (m : Module) (p : Packet) (bytes : List Byte) (i : Items)
    (he : p.field 0 4 = 0 ∨ p.field 0 4 = m.revision.toNat)
    (hp : parseImage m.variant m.upd.schema m.positionByte bytes = some i) :
    m.storeImage p bytes = 
      let m' := ((({ m with staging := none }.storeItems i).configChanged m.items).capBackup.judgeLedgerFree).leaveShelf
      (m', some (.ok (u32 m'.revision.toNat ++ u8 m'.escrowBits ++ rsv 3))) := by
  unfold Module.storeImage
  have hp' : parseImage ({ m with staging := none } : Module).variant ({ m with staging := none } : Module).upd.schema ({ m with staging := none } : Module).positionByte bytes = some i := hp
  simp only
  rw [if_neg (by rcases he with he | he <;> simp [he, Module.revision]), hp']
  rfl

/-- A sparse table after entries are dropped. -/
theorem get_filter {α : Type} [DecidableEq α] (d : α) (p : Nat × α → Bool) : ∀ (t : Tbl α) (b : Nat), Tbl.wfFrom d b t = true → ∀ k,
    Tbl.get d (t.filter p) k = if p (k, Tbl.get d t k) then Tbl.get d t k else d := by
  intro t; induction t with
  | nil => intro b h k; show d = if _ then d else d; simp
  | cons e t ih =>
    intro b h k
    obtain ⟨k0, v⟩ := e
    have hw : Tbl.wfFrom d (k0+1) t = true := by simp [Tbl.wfFrom] at h; exact h.2
    by_cases hk : k0 = k
    · subst hk
      by_cases hp : p (k0, v) = true
      · simp [List.filter, hp, Tbl.get]
      · simp only [List.filter, hp, Tbl.get, if_true]
        rw [ih _ hw, Tbl.get_below hw (by omega)]; simp [hp]
    · have h1 := ih _ hw k
      by_cases hp : p (k0, v) = true
      · simp only [List.filter, hp, Tbl.get, if_neg hk, h1]
      · simp only [List.filter, hp, Tbl.get, if_neg hk, h1]

/-- What stopping VITAL-OK leaves (R225). -/
theorem vitalStop_prov (m : Module) : m.vitalStop.prov = if m.prov.toggling && !m.vitalFree then
      { m.prov with toggling := false, lastToggle := m.now } else m.prov := by
  rw [(talk_vitalStop m).prov]; split <;> rfl

/-- What stopping VITAL-OK can change. -/
theorem books_vitalStop (m : Module) : Books { m with prov := m.vitalStop.prov } m.vitalStop := by
  have h := talk_vitalStop m
  have h2 := vitalStop_prov m
  split at h2 <;> rename_i hc
  · rw [if_pos hc] at h; rw [h2]; exact h.books
  · rw [if_neg hc] at h; rw [h2]; exact h.books

/-- Where a condition holds, VITAL-OK is open afterwards (R225). -/
theorem vitalStop_open {m : Module} (h : m.vitalCause ≠ 0) : m.vitalStop.prov.toggling = false ∧
    (if m.vitalStop.prov.toggling then m.clk.tick.toNat else m.vitalStop.prov.lastToggle) = if m.prov.toggling then m.clk.tick.toNat else m.prov.lastToggle := by
  have hv : m.vitalFree = false := by simp [Module.vitalFree, h]
  rw [vitalStop_prov, hv]
  cases ht : m.prov.toggling <;> simp [ht, Module.now]

/-- What redoing the journal keeps (R341). -/
theorem redoJournal_keeps (m : Module) : m.redoJournal.vault.hubEpoch = m.vault.hubEpoch ∧ m.redoJournal.vault.checkpoint = m.vault.checkpoint ∧ m.redoJournal.ent = m.ent ∧ m.redoJournal.variant = m.variant := by
  unfold Module.redoJournal
  dsimp only
  split
  · exact ⟨rfl, rfl, rfl, rfl⟩
  · split
    · obtain ⟨c, hc⟩ := setCounter_same m.vault.journal.entries m.vault
      rw [hc]; exact ⟨rfl, rfl, rfl, rfl⟩
    · exact ⟨rfl, rfl, rfl, rfl⟩

/-- Settling the first interval changes the metering only. -/
theorem settleStart_eq (m : Module) : ∃ x, m.settleStart = { m with meter := x } := ⟨_, rfl⟩

/-- What the start of the metering keeps (R343). -/
theorem meterStart_keeps (m : Module) (b : Bool) : (m.meterStart b).vault.hubEpoch = m.vault.hubEpoch ∧ (m.meterStart b).vault.checkpoint = m.vault.checkpoint ∧ (m.meterStart b).ent = m.ent := by
  obtain ⟨h1, h2, h3, _⟩ := redoJournal_keeps m
  unfold Module.meterStart
  dsimp only
  split
  · rw [(settleStart_eq _).choose_spec]; exact ⟨h1, h2, h3⟩
  · exact ⟨h1, h2, h3⟩

/-- Erasing PREVIOUS changes its slot only (R406). -/
theorem erasePrevious_eq (m : Module) : ∃ x, m.erasePrevious = { m with vault := { m.vault with alternate := x } } := by
  unfold Module.erasePrevious; dsimp only
  generalize m.vault.config.any _ = own
  split <;> split
  all_goals first | exact ⟨_, rfl⟩ | exact ⟨m.vault.alternate, rfl⟩

/-- What promoting PENDING keeps (R403). -/
theorem promoteKey_keeps (m : Module) : m.promoteKey.vault.hubEpoch = m.vault.hubEpoch ∧ m.promoteKey.vault.checkpoint = m.vault.checkpoint ∧ m.promoteKey.ent = m.ent := by
  unfold Module.promoteKey; dsimp only
  split
  · split
    · split
      · exact ⟨rfl, rfl, rfl⟩
      · rw [(erasePrevious_eq _).choose_spec]; exact ⟨rfl, rfl, rfl⟩
    · exact ⟨rfl, rfl, rfl⟩
  · exact ⟨rfl, rfl, rfl⟩

/-- An epoch is never 0. -/
theorem nextEpoch_ne_zero (e : Word16) : nextEpoch e ≠ 0 := by
  unfold nextEpoch; split
  · decide
  · rename_i h; intro hh; apply h
    have := congrArg BitVec.toNat hh
    apply BitVec.eq_of_toNat_eq
    simp at this ⊢; omega

/-- Calibration within R244's limits. -/
theorem cal_ok (cal : List CalPath) : cal.all CalPath_ok = true ↔ ∀ p ∈ cal, p.offset.natAbs ≤ 100 ∧ 9500 ≤ p.gain ∧ p.gain ≤ 10500 := by
  simp [List.all_eq_true, CalPath_ok, and_assoc]

/-- The end of the loads changes the stage only. -/
theorem reloadEnds_eq (m : Module) : ∃ x, m.reloadEnds = { m with stage := x } := by
  unfold Module.reloadEnds; split
  · exact ⟨_, rfl⟩
  · exact ⟨m.stage, rfl⟩

/-- Settling learnings leaves the slices. -/
theorem settleLearns_hub_own (m : Module) : m.settleLearns.hub = m.hub ∧ m.settleLearns.own = m.own := by
  have h := talk_foldl (fun (m : Module) (j : LearnJob) => m.final j.ref (if j.restarted then stSliceRestarted else stOk) 0
      (resultPayload (j.chans.map (fun c => (c.1, c.2.2.getD 3))))) (fun m _ => talk_final _ _ _ _ _) (m.prov.learns.filter (fun j => j.chans.all (fun c => c.2.2.isSome))) { m with prov := { m.prov with learns := m.prov.learns.filter (fun j => !j.chans.all (fun c => c.2.2.isSome)) } }
  exact ⟨h.hub, h.own⟩

/-- Settling wire tests leaves the slices. -/
theorem settleWires_hub_own (m : Module) : m.settleWires.hub = m.hub ∧ m.settleWires.own = m.own := by
  have h := talk_foldl (fun (m : Module) (j : WireJob) => m.final j.ref (if j.restarted then stSliceRestarted else stOk) 0
      (resultPayload (j.chans.map (fun c => (c.1, c.2.getD 2))))) (fun m _ => talk_final _ _ _ _ _) (m.prov.wires.filter (fun j => j.chans.all (fun c => c.2.isSome))) { m with prov := { m.prov with wires := m.prov.wires.filter (fun j => !j.chans.all (fun c => c.2.isSome)) } }
  exact ⟨h.hub, h.own⟩

/-- Ending a fault leaves the slices. -/
theorem endFault_hub_own (m : Module) (a b c) : (m.endFault a b c).hub = m.hub ∧ (m.endFault a b c).own = m.own := by
  unfold Module.endFault; dsimp only; split
  · have h := talk_event (m.setRecord a b (fun r => { r with active := false })) 0x8302 (u16 a ++ u8 b ++ u8 c ++ (m.setRecord a b (fun r => { r with active := false })).ca ++ u8 (bit (m.record a b).latched) ++ rsv 4)
    exact ⟨h.hub, h.own⟩
  · exact ⟨rfl, rfl⟩

/-- When a slice does not take a frame (R229). -/
theorem not_listens {o : OwnSlice} {d : HubHdr}
    (h : d.good = false ∨ o.running = false ∨ o.alone = true ∨ d.epoch ≠ o.epoch ∨ d.epoch = 0) : o.listens d = false := by
  unfold OwnSlice.listens
  rcases h with h | h | h | h | h
  · simp [h]
  · simp [h]
  · simp [h]
  · have : (o.epoch == d.epoch) = false := by simpa using fun hh => h (Eq.symm hh)
    simp [this]
  · simp [h]

/-- When a slice takes a frame (R229). -/
theorem listens {o : OwnSlice} {d : HubHdr} (h0 : d.good = true) (h1 : o.running = true) (h2 : o.alone = false)
    (h3 : d.epoch = o.epoch) (h4 : d.epoch ≠ 0) : o.listens d = true := by
  unfold OwnSlice.listens; rw [← h3, h0, h1, h2]; simp only [beq_self_eq_true, Bool.not_false, Bool.and_self, Bool.true_and, bne_iff_ne]; exact h4

/-- Records are read from the proving state. -/
theorem record_congr {m t : Module} (h : t.prov.records = m.prov.records) (ch k) : t.record ch k = m.record ch k := by unfold Module.record; rw [h]

/-- An active record is not detected again. -/
theorem detect_active (m : Module) (ch kind c a bin v) (h : (m.record ch kind).active = true) : m.detect ch kind c a bin v = m := by
  unfold Module.detect; simp only [h, if_true]

/-- What a detection writes (R217). -/
theorem detect_records (m : Module) (ch kind c a bin v) : (m.record ch kind).active = false →
   (m.detect ch kind c a bin v).prov.records = (m.setRecord ch kind (fun r =>
      { active := true, latched := true, response := if kind = 4 then 0 else m.response ch
        cycle := if r.latched then r.cycle else m.clk.cycle
        tick := if r.latched then r.tick else m.now })).prov.records := by
  intro h
  unfold Module.detect; dsimp only
  rw [h]; simp only [Bool.false_eq_true, if_false]
  generalize (m.setRecord ch kind (fun r =>
      { active := true, latched := true, response := if kind = 4 then 0 else m.response ch
        cycle := if r.latched then r.cycle else m.clk.cycle
        tick := if r.latched then r.tick else m.now })) = m1
  generalize (u16 ch ++ u8 kind ++ _ ++ _ ++ _ ++ _ ++ _ ++ _ : List Byte) = p
  have h1 := talk_vitalStop (m1.event 0x8301 p)
  have h2 := talk_event m1 0x8301 p
  rw [h1.prov]; split <;> (try dsimp only) <;> rw [h2.prov]

/-- The record after a detection (R217). -/
theorem record_detect {m : Module} (hw : Tbl.wf FaultRec.none m.prov.records = true) (ch k kind c a bin v) (x : Nat) (h1 : 1 ≤ kind) (h2 : kind ≤ 4) (h3 : 1 ≤ k) (h4 : k ≤ 4) :
   Tbl.wf FaultRec.none (m.detect ch kind c a bin v).prov.records = true ∧
   ((m.detect ch kind c a bin v).record ch kind).active = true ∧
   ((m.record ch kind).active = false → ((m.detect ch kind c a bin v).record ch kind) = { active := true, latched := true, response := if kind = 4 then 0 else m.response ch, cycle := if (m.record ch kind).latched then (m.record ch kind).cycle else m.clk.cycle, tick := if (m.record ch kind).latched then (m.record ch kind).tick else m.now }) ∧
   (¬ (x = ch ∧ k = kind) → (m.detect ch kind c a bin v).record x k = m.record x k) := by
  cases ha : (m.record ch kind).active with
  | true => rw [detect_active _ _ _ _ _ _ _ ha]; exact ⟨hw, ha, by simp, fun _ => rfl⟩
  | false =>
    have e := detect_records m ch kind c a bin v ha
    refine ⟨?_, ?_, ?_, ?_⟩
    · rw [e]; exact Tbl.wf_modify (t := m.prov.records) hw (recKey ch kind) (fun r =>
            { active := true, latched := true, response := if kind = 4 then 0 else m.response ch, cycle := if r.latched = true then r.cycle else m.clk.cycle, tick := if r.latched = true then r.tick else m.now })
    · rw [record_congr e, record_setRecord hw _ _ _ _ _ h1 h2 h1 h2, if_pos ⟨rfl, rfl⟩]
    · intro _; rw [record_congr e, record_setRecord hw _ _ _ _ _ h1 h2 h1 h2, if_pos ⟨rfl, rfl⟩]
    · intro hh; rw [record_congr e, record_setRecord hw _ _ _ _ _ h1 h2 h3 h4, if_neg hh]

/-- Every channel of a silent slice is detected. -/
theorem each_detect_silent (c a : _) : ∀ (l : List Nat) (m : Module), Tbl.wf FaultRec.none m.prov.records = true →
   let t := m.each l (fun ch m => m.detect ch 3 c a 0xFF 0)
   Tbl.wf FaultRec.none t.prov.records = true ∧
   (∀ ch, ch ∈ l → (t.record ch 3).active = true) ∧ (∀ ch, ch ∉ l → t.record ch 3 = m.record ch 3) ∧
   (∀ ch, (m.record ch 3).active = true → t.record ch 3 = m.record ch 3) ∧
   (∀ ch, ch ∈ l → (m.record ch 3).active = false → (t.record ch 3).latched = true ∧ (t.record ch 3).response = m.response ch) ∧
   (∀ ch k, 1 ≤ k → k ≤ 4 → k ≠ 3 → t.record ch k = m.record ch k) := by
  intro l; induction l with
  | nil => intro m hw; exact ⟨hw, by simp, fun _ _ => rfl, fun _ _ => rfl, by simp, fun _ _ _ _ _ => rfl⟩
  | cons x l ih =>
    intro m hw
    have d0 := fun k y => record_detect hw x k 3 c a 0xFF 0 y (by omega) (by omega)
    have hr : (m.detect x 3 c a 0xFF 0).response = m.response := by
      funext ch; unfold Module.response; rw [(drives_detect m x 3 c a 0xFF 0).live]
    obtain ⟨i1, i2, i3, i4, i5, i6⟩ := ih (m.detect x 3 c a 0xFF 0) (d0 3 0 (by omega) (by omega)).1
    refine ⟨i1, ?_, ?_, ?_, ?_, ?_⟩
    · intro ch hch
      by_cases hl : ch ∈ l
      · exact i2 ch hl
      · have e : ch = x := by simpa [hl] using hch
        have := i3 ch hl
        show ((Module.each (m.detect x 3 c a 0xFF 0) l _).record ch 3).active = true
        rw [this, e]; exact (d0 3 0 (by omega) (by omega)).2.1
    · intro ch hch
      have := i3 ch (fun h => hch (List.mem_cons_of_mem _ h))
      show ((Module.each (m.detect x 3 c a 0xFF 0) l _).record ch 3) = _
      rw [this]; exact (d0 3 ch (by omega) (by omega)).2.2.2 (by intro hh; exact hch (by rw [hh.1]; exact List.mem_cons_self))
    · intro ch hch
      have e : (m.detect x 3 c a 0xFF 0).record ch 3 = m.record ch 3 := by
        by_cases hx : ch = x
        · subst hx; rw [detect_active _ _ _ _ _ _ _ hch]
        · exact (d0 3 ch (by omega) (by omega)).2.2.2 (by intro hh; exact hx hh.1)
      have := i4 ch (by rw [e]; exact hch)
      show ((Module.each (m.detect x 3 c a 0xFF 0) l _).record ch 3) = _
      rw [this, e]
    · intro ch hch hna
      by_cases hx : ch = x
      · subst hx
        have e := (d0 3 0 (by omega) (by omega)).2.2.1 hna
        have := i4 ch (by rw [e])
        show ((Module.each (m.detect ch 3 c a 0xFF 0) l _).record ch 3).latched = true ∧ ((Module.each (m.detect ch 3 c a 0xFF 0) l _).record ch 3).response = _
        rw [this, e]; exact ⟨rfl, rfl⟩
      · have hl : ch ∈ l := by simpa [hx] using hch
        have e : (m.detect x 3 c a 0xFF 0).record ch 3 = m.record ch 3 := (d0 3 ch (by omega) (by omega)).2.2.2 (by intro hh; exact hx hh.1)
        have := i5 ch hl (by rw [e]; exact hna)
        rw [hr] at this; exact this
    · intro ch k h1 h2 h3
      have := i6 ch k h1 h2 h3
      show ((Module.each (m.detect x 3 c a 0xFF 0) l _).record ch k) = _
      rw [this]; exact (d0 k ch h1 h2).2.2.2 (by intro hh; exact h3 hh.2)

/-- Stopping a learning leaves the records. -/
theorem stopLearning_records (m : Module) (p r b) : (m.stopLearning p r b).prov.records = m.prov.records := by
  unfold Module.stopLearning Module.settleLearns; dsimp only
  refine (foldl_keeps (fun m => m.prov.records) _ ?_ _ _).trans rfl
  intro m a
  exact congrArg Proving.records (talk_final _ _ _ _ _).prov

/-- Stopping a learning leaves the slices. -/
theorem stopLearning_hub (m : Module) (p r b) : (m.stopLearning p r b).hub = m.hub := by
  unfold Module.stopLearning Module.settleLearns; dsimp only
  refine (foldl_keeps (fun m => m.hub) _ ?_ _ _).trans rfl
  intro m a
  exact (talk_final _ _ _ _ _).hub

/-- A detection leaves the slices. -/
theorem detect_hub (m : Module) (ch kind c a b v) : (m.detect ch kind c a b v).hub = m.hub := by
  unfold Module.detect; dsimp only; split
  · rfl
  · have h1 := fun t : Module => talk_vitalStop t
    have e : ∀ t : Module, t.vitalStop.hub = t.hub := by
      intro t; rw [(h1 t).hub]; split <;> rfl
    rw [e, (talk_event _ _ _).hub]; rfl

/-- A cut made twice is the cut. -/
theorem each_cut (f : Chan → Chan) : ∀ (l : List Nat) (m : Module), Tbl.wf Chan.reset m.lamps.chans = true → (∀ c, f (f c) = f c) →
   (∀ ch, ch ∈ l → ((m.each l (fun ch m => m.setChan ch f)).chan ch) = f (m.chan ch)) ∧ (∀ ch, ch ∉ l → (m.each l (fun ch m => m.setChan ch f)).chan ch = m.chan ch) ∧ (m.each l (fun ch m => m.setChan ch f)).out = m.out := by
  intro l; induction l with
  | nil => intro m hw _; exact ⟨by simp, fun _ _ => rfl, rfl⟩
  | cons a l ih =>
    intro m hw hff
    have hw1 : Tbl.wf Chan.reset (m.setChan a f).lamps.chans = true := Tbl.wf_modify hw _ _
    obtain ⟨h2, h3, h4⟩ := ih (m.setChan a f) hw1 hff
    refine ⟨?_, ?_, h4⟩
    · intro ch hch
      show (((m.setChan a f).each l (fun ch m => m.setChan ch f)).chan ch) = _
      by_cases hl : ch ∈ l
      · rw [h2 ch hl, chan_setChan hw]; split
        · rename_i hh; subst hh; rw [hff]
        · rfl
      · have e : ch = a := by simpa [hl] using hch
        rw [h3 ch hl, chan_setChan hw, if_pos e, e]
    · intro ch hch
      show (((m.setChan a f).each l (fun ch m => m.setChan ch f)).chan ch) = _
      rw [h3 ch (fun hh => hch (List.mem_cons_of_mem _ hh)), chan_setChan hw, if_neg (fun hh => hch (by rw [hh]; exact List.mem_cons_self))]

/-- Stretch factors of many slices. -/
theorem each_stretch (k : Nat) : ∀ (l : List Nat) (m : Module), ∃ x, m.each l (fun n m =>
        m.setSlice n (fun h => { h with stretchNow := Tbl.set 1 h.stretchNow k h.stretch })) = { m with hub := x } := by
  intro l; induction l with
  | nil => intro m; exact ⟨m.hub, rfl⟩
  | cons a l ih => intro m; obtain ⟨x, e⟩ := ih (m.setSlice a (fun h => { h with stretchNow := Tbl.set 1 h.stretchNow k h.stretch })); exact ⟨x, e⟩

/-- Stretch factors taken: the slices only. -/
theorem takeStretch_eq (m : Module) : ∃ h, m.takeStretch = { m with hub := h } := by
  unfold Module.takeStretch
  have : ∀ (l : List Nat) (m : Module), ∃ h, l.foldl (fun m k =>
    if (m.lamps.gen k).index m.lamps.half = 0 then
      m.each (List.range m.variant.slices) (fun n m =>
        m.setSlice n (fun h => { h with stretchNow := Tbl.set 1 h.stretchNow k h.stretch }))
    else m) m = { m with hub := h } := by
    intro l; induction l with
    | nil => intro m; exact ⟨m.hub, rfl⟩
    | cons a l ih =>
      intro m
      simp only [List.foldl_cons]
      split
      · obtain ⟨x, e1⟩ := each_stretch a (List.range m.variant.slices) m
        rw [e1]
        obtain ⟨y, e2⟩ := ih ({ m with hub := x }); exact ⟨y, e2⟩
      · exact ih m
  exact this _ m

/-- The length of the cycle in progress. -/
theorem setLen_eq (c : Clock) (l : Word32) (h : l ≠ 0) : c.setLen l = { c with cycleLen := l, frac := c.frac * l.toNat / c.cycleLen.toNat } := by
  unfold Clock.setLen; rw [if_neg h]

/-- Clearing a half-cycle changes the metering only. -/
theorem clearHalf_eq (m : Module) (h : Nat) : ∃ x, m.clearHalf h = { m with meter := x } := ⟨_, rfl⟩

/-- A gap changes the metering only. -/
theorem gapSince_eq (m : Module) (b : Nat) : ∃ x, m.gapSince b = { m with meter := x } := by
  unfold Module.gapSince; split
  · exact ⟨m.meter, rfl⟩
  · exact ⟨_, rfl⟩

/-- A boundary changes the metering only. -/
theorem meterBoundary_eq (m : Module) : ∃ x, m.meterBoundary = { m with meter := x } := by
  unfold Module.meterBoundary; dsimp only
  split
  · obtain ⟨x, e⟩ := gapSince_eq m (m.au / 32768 * 32768)
    rw [e]; exact ⟨_, rfl⟩
  · split
    · exact ⟨_, rfl⟩
    · exact ⟨m.meter, rfl⟩

/-- With power the module is alive. -/
theorem alive_of {m : Module} (h1 : m.stage ≠ .unpowered) (h2 : m.stage ≠ .holdup) : m.alive = true := by unfold Module.alive; simp [h1, h2]

/-- Without power it is not. -/
theorem not_alive {m : Module} (h : m.stage = .unpowered ∨ m.stage = .holdup) : m.alive = false := by
  unfold Module.alive; rcases h with h | h <;> simp [h]

/-- A boundary record takes the checkpoint with it. -/
theorem writeRecord_checkpoint (m : Module) (b : Boundary) : (m.writeRecord b).vault.checkpoint = some m.clk.cycle ∧ (m.writeRecord b).clk = m.clk := by
  unfold Module.writeRecord
  have h := books_pass m
  generalize m.pass = t at h
  dsimp only
  split
  · rw [Talk.vault (talk_event _ _ _), Talk.clk (talk_event _ _ _), h.clk]; exact ⟨rfl, rfl⟩
  · dsimp only; rw [h.clk]; exact ⟨rfl, rfl⟩

/-- A record opened stays opened. -/
theorem recordAt_opened (t : Meter) (au : Nat) (f) : (t.recordAt au f).opened ≠ [] := by
  unfold Meter.recordAt; dsimp only
  split
  · rename_i h; intro hh; rw [List.map_eq_nil_iff] at hh; rw [hh] at h; simp at h
  · simp

/-- Reading a counter after a counter is written. -/
theorem counter_setCounter {t : Meter} (hw : Tbl.wf (0 : BitVec 64) t.counters = true) (k v j : Nat) :
   (t.setCounter k v).counter j = if j = k then v % 2 ^ 64 else t.counter j := by
  unfold Meter.setCounter Meter.counter; dsimp only
  rw [Tbl.get_set hw]
  split
  · simp
  · rfl

/-- What merging the start keeps. -/
theorem mergeStart_keeps (t : Meter) : t.mergeStart.committed = t.committed ∧ t.mergeStart.lastTariff = t.lastTariff ∧ t.mergeStart.ended = t.ended := by
  unfold Meter.mergeStart; split <;> exact ⟨rfl, rfl, rfl⟩

/-- What committing a half-cycle writes (R330). -/
theorem commitHalf_keeps (m : Module) (b ticks tariff : Nat) : Books m (m.commitHalf b ticks tariff) ∧ (m.commitHalf b ticks tariff).meter.committed = b ∧ (m.commitHalf b ticks tariff).meter.lastTariff = tariff ∧ (m.commitHalf b ticks tariff).meter.ended = none := by
  unfold Module.commitHalf; dsimp only
  have h : Books m ((m.demandClose.writeBelow b).countHalf ((b / 32768 + 1) % 2) ticks tariff) :=
    (books_demandClose m).trans ((books_writeBelow _ _).trans (books_countHalf _ _ _ _))
  generalize (m.demandClose.writeBelow b).countHalf ((b / 32768 + 1) % 2) ticks tariff = x at h
  obtain ⟨h1, h2, h3⟩ := mergeStart_keeps ({ x.meter with committed := b, lastTariff := tariff, ended := none, opened := x.meter.opened.map (fun (r : Boundary) => if r.au = b then { ({ x.meter with committed := b, lastTariff := tariff, ended := none } : Meter).fill r with demandTariff := tariff } else r) })
  exact ⟨(h.withMeter _).withMeter _, h1, h2, h3⟩

/-- A 64-bit counter is its four cells. -/
theorem split64 (x : BitVec 64) : BitVec.ofNat 64 ((BitVec.ofNat 16 x.toNat : BitVec 16).toNat + 65536 * ((BitVec.ofNat 16 (x.toNat / 2 ^ 16) : BitVec 16).toNat + 65536 * ((BitVec.ofNat 16 (x.toNat / 2 ^ 32) : BitVec 16).toNat + 65536 * (BitVec.ofNat 16 (x.toNat / 2 ^ 48) : BitVec 16).toNat))) = x := by
  apply BitVec.eq_of_toNat_eq
  have := x.isLt
  simp only [BitVec.toNat_ofNat]
  omega

/-- Reading a tally counter after one is written (R339). -/
theorem counter_setCells {v : Vault} (hw : Tbl.wf (0 : Word16) v.cells = true) (k j : Nat) (x : BitVec 64) : (v.setCounter k x).counter j = if j = k then x else v.counter j := by
  unfold Vault.counter Vault.setCounter; dsimp only
  have hl : (cellsOf x).length = 4 := rfl
  by_cases h : j = k
  · subst h
    rw [if_pos rfl, Tbl.get_setRange hw, Tbl.get_setRange hw, Tbl.get_setRange hw, Tbl.get_setRange hw, hl]
    rw [if_pos (by omega), if_pos (by omega), if_pos (by omega), if_pos (by omega)]
    rw [show 4 * j + 0 - 4 * j = 0 by omega, show 4 * j + 1 - 4 * j = 1 by omega, show 4 * j + 2 - 4 * j = 2 by omega, show 4 * j + 3 - 4 * j = 3 by omega]
    exact split64 x
  · rw [if_neg h, Tbl.get_setRange hw, Tbl.get_setRange hw, Tbl.get_setRange hw, Tbl.get_setRange hw, hl]
    rw [if_neg (by omega), if_neg (by omega), if_neg (by omega), if_neg (by omega)]

/-- The cells stay canonical. -/
theorem wf_setCells {v : Vault} (hw : Tbl.wf (0 : Word16) v.cells = true) (k : Nat) (x : BitVec 64) : Tbl.wf (0 : Word16) (v.setCounter k x).cells = true := Tbl.wf_setRange hw _ _

/-- Tally counters written one after another. -/
theorem foldl_setCells (g : Nat → BitVec 64) : ∀ (l : List (Nat × BitVec 64 × BitVec 64)) (v : Vault), Tbl.wf (0 : Word16) v.cells = true → (∀ e ∈ l, e.2.2 = g e.1) →
   Tbl.wf (0 : Word16) (l.foldl (fun v e => v.setCounter e.1 e.2.2) v).cells = true ∧ (∀ k, (l.foldl (fun v e => v.setCounter e.1 e.2.2) v).counter k = if k ∈ l.map (fun e => e.1) then g k else v.counter k) := by
  intro l; induction l with
  | nil => intro v hw _; exact ⟨hw, fun k => by simp⟩
  | cons a l ih =>
    intro v hw hg
    obtain ⟨h1, h2⟩ := ih (v.setCounter a.1 a.2.2) (wf_setCells hw _ _) (fun e he => hg e (List.mem_cons_of_mem _ he))
    refine ⟨h1, ?_⟩
    intro k; simp only [List.foldl_cons]; rw [h2, counter_setCells hw]
    simp only [List.map_cons, List.mem_cons]
    by_cases hk : k = a.1
    · subst hk; simp only [true_or, if_true]; rw [hg a (List.mem_cons_self ..)]; simp
    · simp only [hk, if_false, false_or]

/-- The last change in cycle order (R334). -/
theorem lastChange_some : ∀ (l : List (Nat × Nat × Nat)), l ≠ [] → ∃ e, lastChange l = some e ∧ e ∈ l ∧ ∀ x ∈ l, x.2.1 ≤ e.2.1 := by
  intro l; induction l with
  | nil => intro h; exact absurd rfl h
  | cons a l ih =>
    intro _
    by_cases hl : l = []
    · subst hl; exact ⟨a, rfl, by simp, by simp⟩
    · obtain ⟨e, h1, h2, h3⟩ := ih hl
      unfold lastChange; rw [h1]; dsimp only
      split
      · exact ⟨e, rfl, List.mem_cons_of_mem _ h2, fun x hx => by
          rcases List.mem_cons.1 hx with rfl | hx
          · omega
          · exact h3 x hx⟩
      · exact ⟨a, rfl, List.mem_cons_self .., fun x hx => by
          rcases List.mem_cons.1 hx with rfl | hx
          · omega
          · have := h3 x hx; omega⟩

/-- Writing counters leaves the committed boundary. -/
theorem setCounters_committed (t : Meter) (l : List (Nat × Nat)) : (t.setCounters l).committed = t.committed := by
  unfold Meter.setCounters
  induction l generalizing t with
  | nil => rfl
  | cons a l ih => simp only [List.foldl_cons]; rw [ih]; rfl

/-- No tariff due: nothing applies. -/
theorem applyTariffs_none (t : Meter) (now : Nat) (h : ∀ e ∈ t.pendingTariffs, now < e.2.1) : t.applyTariffs now = none := by
  unfold Meter.applyTariffs
  have : t.pendingTariffs.filter (fun e => decide (e.2.1 ≤ now)) = [] := by
    rw [List.filter_eq_nil_iff]; intro e he; have := h e he; simp; omega
  dsimp only; rw [this]; rfl

/-- What sending CHANGE can change. -/
theorem talk_sendChange (m : Module) (c n : Nat) : Talk m (m.sendChange c n) := by
  unfold Module.sendChange; split
  · exact talk_ringSend _ _ _ _ _ _
  · exact Talk.refl _

/-- What RING_CHANGE can change. -/
theorem talk_ringChange (m : Module) (a b c : Nat) (e : Word16) : Talk m (m.ringChange a b c e) := by
  unfold Module.ringChange; split
  · exact talk_event _ _ _
  · exact Talk.refl _

/-- What settling pushes can change. -/
theorem settlePushes_talk (m : Module) : ∃ x, Talk { m with ring := { m.ring with pushRef := x } } m.settlePushes := by
  unfold Module.settlePushes; dsimp only
  exact ⟨_, talk_foldl _ (fun m j => talk_final m _ _ _ _) _ _⟩

/-- A link-control frame on a lane in lock is acted on, its epoch recorded first (R266). -/
theorem onLink_ok {m : Module} {hdr : LinkHdr} {side : Side} {f : Side → Module → Module} (h1 : m.ringUp = true) (h2 : laneSide (farLane hdr.lane) = some side) (h3 : (m.lane (farLane hdr.lane)).state = 2) :
   m.onLink hdr f = f side (m.seeEpoch (m.peerPosition side).toNat hdr.srcEpoch) := by
  unfold Module.onLink; rw [h2]; dsimp only; rw [if_pos (by simp [h1, h3])]

/-- A link-control frame on a lane that is up is put out. -/
theorem link_up {m : Module} {side : Side} (h : (m.lane (lane0 side)).state = 2) (ty : Byte) (p) : m.link side ty p = { m with out := m.out ++ [.link (lane0 side) ty p] } := by
  unfold Module.link; rw [if_pos (by simp [h])]; rfl

/-- A link-control frame changes the outputs only. -/
theorem link_eq (m : Module) (side : Side) (ty : Byte) (p) : ∃ o, m.link side ty p = { m with out := o } := by
  unfold Module.link; split
  · exact ⟨_, rfl⟩
  · exact ⟨m.out, rfl⟩

/-- What taking a position changes. -/
theorem takePosition_eq (m : Module) (p : Nat) : ∃ st c, m.takePosition p = { m with
    stage := st, vault := { m.vault with config := c }
    ring := { m.ring with position := some p, refusing := false, unpositioned := false } } := by
  unfold Module.takePosition Module.bindConfig; dsimp only; split
  · exact ⟨.lamps, _, rfl⟩
  · exact ⟨m.stage, _, rfl⟩

/-- What a lane's going idle or coming back can change (R8, R267). -/
theorem idleLane_eq (m : Module) (idle : Bool) (l : Lane) :
    ∃ x o, m.idleLane idle l = { m with ring := { m.ring with lanes := x }, out := o } := by
  unfold Module.idleLane; dsimp only
  split
  · exact ⟨_, m.out, rfl⟩
  · split
    · split
      · exact ⟨_, _, rfl⟩
      · exact ⟨_, m.out, rfl⟩
    · exact ⟨m.ring.lanes, m.out, rfl⟩

/-- What running in a form can change (R8, R257). -/
theorem takeForm_eq (m : Module) (f : Form) : ∃ i x o, m.takeForm f = { m with
    ring := { m.ring with form := f, e1w1Idle := i, lanes := x }, out := o } := by
  unfold Module.takeForm; dsimp only
  generalize (m.variant == Variant.um384 && f != .none && !secondLanes f) = c
  obtain ⟨x, o, h⟩ := idleLane_eq { m with ring := { m.ring with form := f, e1w1Idle := c } } c .e1
  rw [h]
  obtain ⟨x', o', h'⟩ := idleLane_eq
    { m with ring := { m.ring with form := f, e1w1Idle := c, lanes := x }, out := o } c .w1
  exact ⟨c, x', o', h'⟩

/-- What a numbered ring settles (R260). -/
theorem enumerated_ring (m : Module) (n : Nat) (form : Form) (refs : List Byte) :
    (m.enumerated n form refs).ring.positions = n ∧ (m.enumerated n form refs).ring.form = form ∧
      (m.enumerated n form refs).ring.refList = refs ∧ (m.enumerated n form refs).ring.counted = none ∧
      (m.enumerated n form refs).ring.position = m.ring.position := by
  unfold Module.enumerated; dsimp only
  let K : Module → Prop := fun y => y.ring.positions = n ∧ y.ring.form = form ∧ y.ring.refList = refs ∧
    y.ring.counted = none ∧ y.ring.position = m.ring.position
  obtain ⟨i, x, o, h⟩ := takeForm_eq { m with ring := { m.ring with
    positions := n, refList := refs, breaks := [], counted := none, enum := none } } form
  rw [h]
  have k2 : ∀ (l : List Side) (z : Module), K z →
      K (l.foldl (fun m side => m.setSpan side (fun s => { s with broken := !m.spanUsable side })) z) := by
    intro l; induction l with
    | nil => intro z hz; exact hz
    | cons a l ih => intro z hz; exact ih _ (by cases a <;> exact hz)
  have k3 : ∀ (z : Module) a b c e, K z → K (z.ringChange a b c e) := by
    intro z a b c e hz
    have h := (talk_ringChange z a b c e).same
    show _ ∧ _
    rw [h]; exact hz
  exact k3 _ _ _ _ _ (k2 _ _ ⟨rfl, rfl, rfl, rfl, rfl⟩)

/-- What sending the held entries can change. -/
theorem talk_flushHeld (m : Module) : ∃ a b, Talk { m with ring := { m.ring with held := a, heldLoss := b } } m.flushHeld := by
  unfold Module.flushHeld
  split
  · dsimp only
    have k1 : ∀ (y : Module) (r : Reply), Talk y (if y.gateway then y.deliver 1 r y.vault.hostEpoch else y.ringSend 9 0xFE 0 0 r.bytes) := by
      intro y r; split
      · exact talk_deliver _ _ _ _
      · exact talk_ringSend _ _ _ _ _ _
    refine ⟨[], none, ?_⟩
    split
    · exact talk_foldl _ k1 _ _
    · exact (talk_foldl _ k1 _ _).trans ((talk_logEntry _ _).trans (k1 _ _))
  · exact ⟨m.ring.held, m.ring.heldLoss, Talk.refl m⟩

/-- The ring after the tail of a mute judgement. -/
theorem ring_after_mute (x : Module) (c1 c2 : Bool) (n : Nat) : (if c1 = true then x.ringChange 9 n 0xFF 0 else if c2 = true then x.flushHeld else x).ring.offset = x.ring.offset ∧ (if c1 = true then x.ringChange 9 n 0xFF 0 else if c2 = true then x.flushHeld else x).ring.muted = x.ring.muted := by
  have key : ∀ x y : Module, (∃ a b, Talk { x with ring := { x.ring with held := a, heldLoss := b } } y) → y.ring.offset = x.ring.offset ∧ y.ring.muted = x.ring.muted := by
    rintro x y ⟨a, b, h⟩
    have e := h.same
    exact ⟨(congrArg (fun z : Module => z.ring.offset) e).trans rfl, (congrArg (fun z : Module => z.ring.muted) e).trans rfl⟩
  split
  · exact key _ _ ⟨x.ring.held, x.ring.heldLoss, talk_ringChange x 9 _ 0xFF 0⟩
  · split
    · exact key _ _ (talk_flushHeld _)
    · exact ⟨rfl, rfl⟩

/-- What judging the mute writes (R280). -/
theorem judgeMute_ring (m : Module) (o : Int) : (m.judgeMute o).ring.offset = -(o.tdiv 65536) ∧
    (m.judgeMute o).ring.muted = (decide (1000 * 65536 < o.natAbs) ||
      (m.ring.muted && (decide ((if o.natAbs ≤ 500 * 65536 then min 8 (m.ring.calmRun + 1) else 0) < 8) ||
        (match m.ring.muteUntil with | some w => decide (m.clk.turn / 32768 < w) | none => false)))) := by
  unfold Module.judgeMute; dsimp only
  exact ⟨(ring_after_mute _ _ _ _).1, (ring_after_mute _ _ _ _).2⟩

/-- Nothing to flush before the ring is ready. -/
theorem flushHeld_idle {m : Module} (h : m.ringReady = false) : m.flushHeld = m := by
  unfold Module.flushHeld; rw [if_neg (by simp [h])]

/-- No push wanted: nothing sent. -/
theorem pushEscrow_idle {m : Module} (h1 : m.ring.pushE = false) (h2 : m.ring.pushW = false) : m.pushEscrow = m := by
  have e : ∀ side, m.pushSide side = m := by
    intro side; unfold Module.pushSide; dsimp only
    rw [if_neg]; cases side <;> simp [h1, h2]
  unfold Module.pushEscrow; rw [e, e]

/-- A reply header has 32 bytes (R140). -/
theorem length_header (r : Reply) (c) : (r.header c).length = 32 := by unfold Reply.header u16 u32 u8 u40 rsv; simp [length_leBytes]

end Sys2Proof.Machine
end

