-- ==== Sys2Proof/Laws/State.lean ====
section
/-! SUPPORT. One lemma per field and named update of the state: the fields that an update does not name are unchanged. -/

namespace Sys2Proof.Machine
open Sys2Proof

/-! ### A change of a slice -/

@[simp] theorem setSlice_variant (m : Module) (n : Nat) (f : HubSlice → HubSlice) : (m.setSlice n f).variant = m.variant := rfl
@[simp] theorem setSlice_stage (m : Module) (n : Nat) (f : HubSlice → HubSlice) : (m.setSlice n f).stage = m.stage := rfl
@[simp] theorem setSlice_shelf (m : Module) (n : Nat) (f : HubSlice → HubSlice) : (m.setSlice n f).shelf = m.shelf := rfl
@[simp] theorem setSlice_inUse (m : Module) (n : Nat) (f : HubSlice → HubSlice) : (m.setSlice n f).inUse = m.inUse := rfl
@[simp] theorem setSlice_firstCause (m : Module) (n : Nat) (f : HubSlice → HubSlice) : (m.setSlice n f).firstCause = m.firstCause := rfl
@[simp] theorem setSlice_latestCause (m : Module) (n : Nat) (f : HubSlice → HubSlice) : (m.setSlice n f).latestCause = m.latestCause := rfl
@[simp] theorem setSlice_unread (m : Module) (n : Nat) (f : HubSlice → HubSlice) : (m.setSlice n f).unread = m.unread := rfl
@[simp] theorem setSlice_resetDue (m : Module) (n : Nat) (f : HubSlice → HubSlice) : (m.setSlice n f).resetDue = m.resetDue := rfl
@[simp] theorem setSlice_clk (m : Module) (n : Nat) (f : HubSlice → HubSlice) : (m.setSlice n f).clk = m.clk := rfl
@[simp] theorem setSlice_win (m : Module) (n : Nat) (f : HubSlice → HubSlice) : (m.setSlice n f).win = m.win := rfl
@[simp] theorem setSlice_tel (m : Module) (n : Nat) (f : HubSlice → HubSlice) : (m.setSlice n f).tel = m.tel := rfl
@[simp] theorem setSlice_lamps (m : Module) (n : Nat) (f : HubSlice → HubSlice) : (m.setSlice n f).lamps = m.lamps := rfl
@[simp] theorem setSlice_prov (m : Module) (n : Nat) (f : HubSlice → HubSlice) : (m.setSlice n f).prov = m.prov := rfl
@[simp] theorem setSlice_own (m : Module) (n : Nat) (f : HubSlice → HubSlice) : (m.setSlice n f).own = m.own := rfl
@[simp] theorem setSlice_ring (m : Module) (n : Nat) (f : HubSlice → HubSlice) : (m.setSlice n f).ring = m.ring := rfl
@[simp] theorem setSlice_pow (m : Module) (n : Nat) (f : HubSlice → HubSlice) : (m.setSlice n f).pow = m.pow := rfl
@[simp] theorem setSlice_meter (m : Module) (n : Nat) (f : HubSlice → HubSlice) : (m.setSlice n f).meter = m.meter := rfl
@[simp] theorem setSlice_upd (m : Module) (n : Nat) (f : HubSlice → HubSlice) : (m.setSlice n f).upd = m.upd := rfl
@[simp] theorem setSlice_ent (m : Module) (n : Nat) (f : HubSlice → HubSlice) : (m.setSlice n f).ent = m.ent := rfl
@[simp] theorem setSlice_maint (m : Module) (n : Nat) (f : HubSlice → HubSlice) : (m.setSlice n f).maint = m.maint := rfl
@[simp] theorem setSlice_drop (m : Module) (n : Nat) (f : HubSlice → HubSlice) : (m.setSlice n f).drop = m.drop := rfl
@[simp] theorem setSlice_diag (m : Module) (n : Nat) (f : HubSlice → HubSlice) : (m.setSlice n f).diag = m.diag := rfl
@[simp] theorem setSlice_vault (m : Module) (n : Nat) (f : HubSlice → HubSlice) : (m.setSlice n f).vault = m.vault := rfl
@[simp] theorem setSlice_live (m : Module) (n : Nat) (f : HubSlice → HubSlice) : (m.setSlice n f).live = m.live := rfl
@[simp] theorem setSlice_staging (m : Module) (n : Nat) (f : HubSlice → HubSlice) : (m.setSlice n f).staging = m.staging := rfl
@[simp] theorem setSlice_free (m : Module) (n : Nat) (f : HubSlice → HubSlice) : (m.setSlice n f).free = m.free := rfl
@[simp] theorem setSlice_out (m : Module) (n : Nat) (f : HubSlice → HubSlice) : (m.setSlice n f).out = m.out := rfl

/-! ### A change of a slice's own state -/

@[simp] theorem setOwn_variant (m : Module) (n : Nat) (f : OwnSlice → OwnSlice) : (m.setOwn n f).variant = m.variant := rfl
@[simp] theorem setOwn_stage (m : Module) (n : Nat) (f : OwnSlice → OwnSlice) : (m.setOwn n f).stage = m.stage := rfl
@[simp] theorem setOwn_shelf (m : Module) (n : Nat) (f : OwnSlice → OwnSlice) : (m.setOwn n f).shelf = m.shelf := rfl
@[simp] theorem setOwn_inUse (m : Module) (n : Nat) (f : OwnSlice → OwnSlice) : (m.setOwn n f).inUse = m.inUse := rfl
@[simp] theorem setOwn_firstCause (m : Module) (n : Nat) (f : OwnSlice → OwnSlice) : (m.setOwn n f).firstCause = m.firstCause := rfl
@[simp] theorem setOwn_latestCause (m : Module) (n : Nat) (f : OwnSlice → OwnSlice) : (m.setOwn n f).latestCause = m.latestCause := rfl
@[simp] theorem setOwn_unread (m : Module) (n : Nat) (f : OwnSlice → OwnSlice) : (m.setOwn n f).unread = m.unread := rfl
@[simp] theorem setOwn_resetDue (m : Module) (n : Nat) (f : OwnSlice → OwnSlice) : (m.setOwn n f).resetDue = m.resetDue := rfl
@[simp] theorem setOwn_clk (m : Module) (n : Nat) (f : OwnSlice → OwnSlice) : (m.setOwn n f).clk = m.clk := rfl
@[simp] theorem setOwn_win (m : Module) (n : Nat) (f : OwnSlice → OwnSlice) : (m.setOwn n f).win = m.win := rfl
@[simp] theorem setOwn_tel (m : Module) (n : Nat) (f : OwnSlice → OwnSlice) : (m.setOwn n f).tel = m.tel := rfl
@[simp] theorem setOwn_lamps (m : Module) (n : Nat) (f : OwnSlice → OwnSlice) : (m.setOwn n f).lamps = m.lamps := rfl
@[simp] theorem setOwn_prov (m : Module) (n : Nat) (f : OwnSlice → OwnSlice) : (m.setOwn n f).prov = m.prov := rfl
@[simp] theorem setOwn_hub (m : Module) (n : Nat) (f : OwnSlice → OwnSlice) : (m.setOwn n f).hub = m.hub := rfl
@[simp] theorem setOwn_ring (m : Module) (n : Nat) (f : OwnSlice → OwnSlice) : (m.setOwn n f).ring = m.ring := rfl
@[simp] theorem setOwn_pow (m : Module) (n : Nat) (f : OwnSlice → OwnSlice) : (m.setOwn n f).pow = m.pow := rfl
@[simp] theorem setOwn_meter (m : Module) (n : Nat) (f : OwnSlice → OwnSlice) : (m.setOwn n f).meter = m.meter := rfl
@[simp] theorem setOwn_upd (m : Module) (n : Nat) (f : OwnSlice → OwnSlice) : (m.setOwn n f).upd = m.upd := rfl
@[simp] theorem setOwn_ent (m : Module) (n : Nat) (f : OwnSlice → OwnSlice) : (m.setOwn n f).ent = m.ent := rfl
@[simp] theorem setOwn_maint (m : Module) (n : Nat) (f : OwnSlice → OwnSlice) : (m.setOwn n f).maint = m.maint := rfl
@[simp] theorem setOwn_drop (m : Module) (n : Nat) (f : OwnSlice → OwnSlice) : (m.setOwn n f).drop = m.drop := rfl
@[simp] theorem setOwn_diag (m : Module) (n : Nat) (f : OwnSlice → OwnSlice) : (m.setOwn n f).diag = m.diag := rfl
@[simp] theorem setOwn_vault (m : Module) (n : Nat) (f : OwnSlice → OwnSlice) : (m.setOwn n f).vault = m.vault := rfl
@[simp] theorem setOwn_live (m : Module) (n : Nat) (f : OwnSlice → OwnSlice) : (m.setOwn n f).live = m.live := rfl
@[simp] theorem setOwn_staging (m : Module) (n : Nat) (f : OwnSlice → OwnSlice) : (m.setOwn n f).staging = m.staging := rfl
@[simp] theorem setOwn_free (m : Module) (n : Nat) (f : OwnSlice → OwnSlice) : (m.setOwn n f).free = m.free := rfl
@[simp] theorem setOwn_out (m : Module) (n : Nat) (f : OwnSlice → OwnSlice) : (m.setOwn n f).out = m.out := rfl

/-! ### A change of a channel -/

@[simp] theorem setChan_variant (m : Module) (c : Nat) (f : Chan → Chan) : (m.setChan c f).variant = m.variant := rfl
@[simp] theorem setChan_stage (m : Module) (c : Nat) (f : Chan → Chan) : (m.setChan c f).stage = m.stage := rfl
@[simp] theorem setChan_shelf (m : Module) (c : Nat) (f : Chan → Chan) : (m.setChan c f).shelf = m.shelf := rfl
@[simp] theorem setChan_inUse (m : Module) (c : Nat) (f : Chan → Chan) : (m.setChan c f).inUse = m.inUse := rfl
@[simp] theorem setChan_firstCause (m : Module) (c : Nat) (f : Chan → Chan) : (m.setChan c f).firstCause = m.firstCause := rfl
@[simp] theorem setChan_latestCause (m : Module) (c : Nat) (f : Chan → Chan) : (m.setChan c f).latestCause = m.latestCause := rfl
@[simp] theorem setChan_unread (m : Module) (c : Nat) (f : Chan → Chan) : (m.setChan c f).unread = m.unread := rfl
@[simp] theorem setChan_resetDue (m : Module) (c : Nat) (f : Chan → Chan) : (m.setChan c f).resetDue = m.resetDue := rfl
@[simp] theorem setChan_clk (m : Module) (c : Nat) (f : Chan → Chan) : (m.setChan c f).clk = m.clk := rfl
@[simp] theorem setChan_win (m : Module) (c : Nat) (f : Chan → Chan) : (m.setChan c f).win = m.win := rfl
@[simp] theorem setChan_tel (m : Module) (c : Nat) (f : Chan → Chan) : (m.setChan c f).tel = m.tel := rfl
@[simp] theorem setChan_prov (m : Module) (c : Nat) (f : Chan → Chan) : (m.setChan c f).prov = m.prov := rfl
@[simp] theorem setChan_hub (m : Module) (c : Nat) (f : Chan → Chan) : (m.setChan c f).hub = m.hub := rfl
@[simp] theorem setChan_own (m : Module) (c : Nat) (f : Chan → Chan) : (m.setChan c f).own = m.own := rfl
@[simp] theorem setChan_ring (m : Module) (c : Nat) (f : Chan → Chan) : (m.setChan c f).ring = m.ring := rfl
@[simp] theorem setChan_pow (m : Module) (c : Nat) (f : Chan → Chan) : (m.setChan c f).pow = m.pow := rfl
@[simp] theorem setChan_meter (m : Module) (c : Nat) (f : Chan → Chan) : (m.setChan c f).meter = m.meter := rfl
@[simp] theorem setChan_upd (m : Module) (c : Nat) (f : Chan → Chan) : (m.setChan c f).upd = m.upd := rfl
@[simp] theorem setChan_ent (m : Module) (c : Nat) (f : Chan → Chan) : (m.setChan c f).ent = m.ent := rfl
@[simp] theorem setChan_maint (m : Module) (c : Nat) (f : Chan → Chan) : (m.setChan c f).maint = m.maint := rfl
@[simp] theorem setChan_drop (m : Module) (c : Nat) (f : Chan → Chan) : (m.setChan c f).drop = m.drop := rfl
@[simp] theorem setChan_diag (m : Module) (c : Nat) (f : Chan → Chan) : (m.setChan c f).diag = m.diag := rfl
@[simp] theorem setChan_vault (m : Module) (c : Nat) (f : Chan → Chan) : (m.setChan c f).vault = m.vault := rfl
@[simp] theorem setChan_live (m : Module) (c : Nat) (f : Chan → Chan) : (m.setChan c f).live = m.live := rfl
@[simp] theorem setChan_staging (m : Module) (c : Nat) (f : Chan → Chan) : (m.setChan c f).staging = m.staging := rfl
@[simp] theorem setChan_free (m : Module) (c : Nat) (f : Chan → Chan) : (m.setChan c f).free = m.free := rfl
@[simp] theorem setChan_out (m : Module) (c : Nat) (f : Chan → Chan) : (m.setChan c f).out = m.out := rfl
@[simp] theorem setChan_lamps_half (m : Module) (c : Nat) (f : Chan → Chan) : (m.setChan c f).lamps.half = m.lamps.half := rfl
@[simp] theorem setChan_lamps_genA (m : Module) (c : Nat) (f : Chan → Chan) : (m.setChan c f).lamps.genA = m.lamps.genA := rfl
@[simp] theorem setChan_lamps_genB (m : Module) (c : Nat) (f : Chan → Chan) : (m.setChan c f).lamps.genB = m.lamps.genB := rfl
@[simp] theorem setChan_lamps_aspects (m : Module) (c : Nat) (f : Chan → Chan) : (m.setChan c f).lamps.aspects = m.lamps.aspects := rfl
@[simp] theorem setChan_lamps_plans (m : Module) (c : Nat) (f : Chan → Chan) : (m.setChan c f).lamps.plans = m.lamps.plans := rfl

/-! ### A change of a till -/

@[simp] theorem setTill_variant (m : Module) (t : Word16) (f : Till → Till) : (m.setTill t f).variant = m.variant := rfl
@[simp] theorem setTill_stage (m : Module) (t : Word16) (f : Till → Till) : (m.setTill t f).stage = m.stage := rfl
@[simp] theorem setTill_shelf (m : Module) (t : Word16) (f : Till → Till) : (m.setTill t f).shelf = m.shelf := rfl
@[simp] theorem setTill_inUse (m : Module) (t : Word16) (f : Till → Till) : (m.setTill t f).inUse = m.inUse := rfl
@[simp] theorem setTill_firstCause (m : Module) (t : Word16) (f : Till → Till) : (m.setTill t f).firstCause = m.firstCause := rfl
@[simp] theorem setTill_latestCause (m : Module) (t : Word16) (f : Till → Till) : (m.setTill t f).latestCause = m.latestCause := rfl
@[simp] theorem setTill_unread (m : Module) (t : Word16) (f : Till → Till) : (m.setTill t f).unread = m.unread := rfl
@[simp] theorem setTill_resetDue (m : Module) (t : Word16) (f : Till → Till) : (m.setTill t f).resetDue = m.resetDue := rfl
@[simp] theorem setTill_clk (m : Module) (t : Word16) (f : Till → Till) : (m.setTill t f).clk = m.clk := rfl
@[simp] theorem setTill_tel (m : Module) (t : Word16) (f : Till → Till) : (m.setTill t f).tel = m.tel := rfl
@[simp] theorem setTill_lamps (m : Module) (t : Word16) (f : Till → Till) : (m.setTill t f).lamps = m.lamps := rfl
@[simp] theorem setTill_prov (m : Module) (t : Word16) (f : Till → Till) : (m.setTill t f).prov = m.prov := rfl
@[simp] theorem setTill_hub (m : Module) (t : Word16) (f : Till → Till) : (m.setTill t f).hub = m.hub := rfl
@[simp] theorem setTill_own (m : Module) (t : Word16) (f : Till → Till) : (m.setTill t f).own = m.own := rfl
@[simp] theorem setTill_ring (m : Module) (t : Word16) (f : Till → Till) : (m.setTill t f).ring = m.ring := rfl
@[simp] theorem setTill_pow (m : Module) (t : Word16) (f : Till → Till) : (m.setTill t f).pow = m.pow := rfl
@[simp] theorem setTill_meter (m : Module) (t : Word16) (f : Till → Till) : (m.setTill t f).meter = m.meter := rfl
@[simp] theorem setTill_upd (m : Module) (t : Word16) (f : Till → Till) : (m.setTill t f).upd = m.upd := rfl
@[simp] theorem setTill_ent (m : Module) (t : Word16) (f : Till → Till) : (m.setTill t f).ent = m.ent := rfl
@[simp] theorem setTill_maint (m : Module) (t : Word16) (f : Till → Till) : (m.setTill t f).maint = m.maint := rfl
@[simp] theorem setTill_drop (m : Module) (t : Word16) (f : Till → Till) : (m.setTill t f).drop = m.drop := rfl
@[simp] theorem setTill_diag (m : Module) (t : Word16) (f : Till → Till) : (m.setTill t f).diag = m.diag := rfl
@[simp] theorem setTill_vault (m : Module) (t : Word16) (f : Till → Till) : (m.setTill t f).vault = m.vault := rfl
@[simp] theorem setTill_live (m : Module) (t : Word16) (f : Till → Till) : (m.setTill t f).live = m.live := rfl
@[simp] theorem setTill_staging (m : Module) (t : Word16) (f : Till → Till) : (m.setTill t f).staging = m.staging := rfl
@[simp] theorem setTill_free (m : Module) (t : Word16) (f : Till → Till) : (m.setTill t f).free = m.free := rfl
@[simp] theorem setTill_out (m : Module) (t : Word16) (f : Till → Till) : (m.setTill t f).out = m.out := rfl
@[simp] theorem setTill_win_passbook (m : Module) (t : Word16) (f : Till → Till) : (m.setTill t f).win.passbook = m.win.passbook := rfl
@[simp] theorem setTill_win_mem (m : Module) (t : Word16) (f : Till → Till) : (m.setTill t f).win.mem = m.win.mem := rfl
@[simp] theorem setTill_win_attached (m : Module) (t : Word16) (f : Till → Till) : (m.setTill t f).win.attached = m.win.attached := rfl
@[simp] theorem setTill_win_waiting (m : Module) (t : Word16) (f : Till → Till) : (m.setTill t f).win.waiting = m.win.waiting := rfl

/-! ### A change of a fault record -/

@[simp] theorem setRecord_variant (m : Module) (ch kind : Nat) (f : FaultRec → FaultRec) : (m.setRecord ch kind f).variant = m.variant := rfl
@[simp] theorem setRecord_stage (m : Module) (ch kind : Nat) (f : FaultRec → FaultRec) : (m.setRecord ch kind f).stage = m.stage := rfl
@[simp] theorem setRecord_shelf (m : Module) (ch kind : Nat) (f : FaultRec → FaultRec) : (m.setRecord ch kind f).shelf = m.shelf := rfl
@[simp] theorem setRecord_inUse (m : Module) (ch kind : Nat) (f : FaultRec → FaultRec) : (m.setRecord ch kind f).inUse = m.inUse := rfl
@[simp] theorem setRecord_firstCause (m : Module) (ch kind : Nat) (f : FaultRec → FaultRec) : (m.setRecord ch kind f).firstCause = m.firstCause := rfl
@[simp] theorem setRecord_latestCause (m : Module) (ch kind : Nat) (f : FaultRec → FaultRec) : (m.setRecord ch kind f).latestCause = m.latestCause := rfl
@[simp] theorem setRecord_unread (m : Module) (ch kind : Nat) (f : FaultRec → FaultRec) : (m.setRecord ch kind f).unread = m.unread := rfl
@[simp] theorem setRecord_resetDue (m : Module) (ch kind : Nat) (f : FaultRec → FaultRec) : (m.setRecord ch kind f).resetDue = m.resetDue := rfl
@[simp] theorem setRecord_clk (m : Module) (ch kind : Nat) (f : FaultRec → FaultRec) : (m.setRecord ch kind f).clk = m.clk := rfl
@[simp] theorem setRecord_win (m : Module) (ch kind : Nat) (f : FaultRec → FaultRec) : (m.setRecord ch kind f).win = m.win := rfl
@[simp] theorem setRecord_tel (m : Module) (ch kind : Nat) (f : FaultRec → FaultRec) : (m.setRecord ch kind f).tel = m.tel := rfl
@[simp] theorem setRecord_lamps (m : Module) (ch kind : Nat) (f : FaultRec → FaultRec) : (m.setRecord ch kind f).lamps = m.lamps := rfl
@[simp] theorem setRecord_hub (m : Module) (ch kind : Nat) (f : FaultRec → FaultRec) : (m.setRecord ch kind f).hub = m.hub := rfl
@[simp] theorem setRecord_own (m : Module) (ch kind : Nat) (f : FaultRec → FaultRec) : (m.setRecord ch kind f).own = m.own := rfl
@[simp] theorem setRecord_ring (m : Module) (ch kind : Nat) (f : FaultRec → FaultRec) : (m.setRecord ch kind f).ring = m.ring := rfl
@[simp] theorem setRecord_pow (m : Module) (ch kind : Nat) (f : FaultRec → FaultRec) : (m.setRecord ch kind f).pow = m.pow := rfl
@[simp] theorem setRecord_meter (m : Module) (ch kind : Nat) (f : FaultRec → FaultRec) : (m.setRecord ch kind f).meter = m.meter := rfl
@[simp] theorem setRecord_upd (m : Module) (ch kind : Nat) (f : FaultRec → FaultRec) : (m.setRecord ch kind f).upd = m.upd := rfl
@[simp] theorem setRecord_ent (m : Module) (ch kind : Nat) (f : FaultRec → FaultRec) : (m.setRecord ch kind f).ent = m.ent := rfl
@[simp] theorem setRecord_maint (m : Module) (ch kind : Nat) (f : FaultRec → FaultRec) : (m.setRecord ch kind f).maint = m.maint := rfl
@[simp] theorem setRecord_drop (m : Module) (ch kind : Nat) (f : FaultRec → FaultRec) : (m.setRecord ch kind f).drop = m.drop := rfl
@[simp] theorem setRecord_diag (m : Module) (ch kind : Nat) (f : FaultRec → FaultRec) : (m.setRecord ch kind f).diag = m.diag := rfl
@[simp] theorem setRecord_vault (m : Module) (ch kind : Nat) (f : FaultRec → FaultRec) : (m.setRecord ch kind f).vault = m.vault := rfl
@[simp] theorem setRecord_live (m : Module) (ch kind : Nat) (f : FaultRec → FaultRec) : (m.setRecord ch kind f).live = m.live := rfl
@[simp] theorem setRecord_staging (m : Module) (ch kind : Nat) (f : FaultRec → FaultRec) : (m.setRecord ch kind f).staging = m.staging := rfl
@[simp] theorem setRecord_free (m : Module) (ch kind : Nat) (f : FaultRec → FaultRec) : (m.setRecord ch kind f).free = m.free := rfl
@[simp] theorem setRecord_out (m : Module) (ch kind : Nat) (f : FaultRec → FaultRec) : (m.setRecord ch kind f).out = m.out := rfl
@[simp] theorem setRecord_prov_toggling (m : Module) (ch kind : Nat) (f : FaultRec → FaultRec) : (m.setRecord ch kind f).prov.toggling = m.prov.toggling := rfl
@[simp] theorem setRecord_prov_hold (m : Module) (ch kind : Nat) (f : FaultRec → FaultRec) : (m.setRecord ch kind f).prov.hold = m.prov.hold := rfl
@[simp] theorem setRecord_prov_dark (m : Module) (ch kind : Nat) (f : FaultRec → FaultRec) : (m.setRecord ch kind f).prov.dark = m.prov.dark := rfl
@[simp] theorem setRecord_prov_fatal (m : Module) (ch kind : Nat) (f : FaultRec → FaultRec) : (m.setRecord ch kind f).prov.fatal = m.prov.fatal := rfl
@[simp] theorem setRecord_prov_lockstep (m : Module) (ch kind : Nat) (f : FaultRec → FaultRec) : (m.setRecord ch kind f).prov.lockstep = m.prov.lockstep := rfl
@[simp] theorem setRecord_prov_stall (m : Module) (ch kind : Nat) (f : FaultRec → FaultRec) : (m.setRecord ch kind f).prov.stall = m.prov.stall := rfl

/-! ### A change of the event log -/

@[simp] theorem logEntry_variant (m : Module) (r : Reply) : (m.logEntry r).variant = m.variant := rfl
@[simp] theorem logEntry_stage (m : Module) (r : Reply) : (m.logEntry r).stage = m.stage := rfl
@[simp] theorem logEntry_shelf (m : Module) (r : Reply) : (m.logEntry r).shelf = m.shelf := rfl
@[simp] theorem logEntry_inUse (m : Module) (r : Reply) : (m.logEntry r).inUse = m.inUse := rfl
@[simp] theorem logEntry_firstCause (m : Module) (r : Reply) : (m.logEntry r).firstCause = m.firstCause := rfl
@[simp] theorem logEntry_latestCause (m : Module) (r : Reply) : (m.logEntry r).latestCause = m.latestCause := rfl
@[simp] theorem logEntry_unread (m : Module) (r : Reply) : (m.logEntry r).unread = m.unread := rfl
@[simp] theorem logEntry_resetDue (m : Module) (r : Reply) : (m.logEntry r).resetDue = m.resetDue := rfl
@[simp] theorem logEntry_clk (m : Module) (r : Reply) : (m.logEntry r).clk = m.clk := rfl
@[simp] theorem logEntry_win (m : Module) (r : Reply) : (m.logEntry r).win = m.win := rfl
@[simp] theorem logEntry_lamps (m : Module) (r : Reply) : (m.logEntry r).lamps = m.lamps := rfl
@[simp] theorem logEntry_prov (m : Module) (r : Reply) : (m.logEntry r).prov = m.prov := rfl
@[simp] theorem logEntry_hub (m : Module) (r : Reply) : (m.logEntry r).hub = m.hub := rfl
@[simp] theorem logEntry_own (m : Module) (r : Reply) : (m.logEntry r).own = m.own := rfl
@[simp] theorem logEntry_ring (m : Module) (r : Reply) : (m.logEntry r).ring = m.ring := rfl
@[simp] theorem logEntry_pow (m : Module) (r : Reply) : (m.logEntry r).pow = m.pow := rfl
@[simp] theorem logEntry_meter (m : Module) (r : Reply) : (m.logEntry r).meter = m.meter := rfl
@[simp] theorem logEntry_upd (m : Module) (r : Reply) : (m.logEntry r).upd = m.upd := rfl
@[simp] theorem logEntry_ent (m : Module) (r : Reply) : (m.logEntry r).ent = m.ent := rfl
@[simp] theorem logEntry_maint (m : Module) (r : Reply) : (m.logEntry r).maint = m.maint := rfl
@[simp] theorem logEntry_drop (m : Module) (r : Reply) : (m.logEntry r).drop = m.drop := rfl
@[simp] theorem logEntry_diag (m : Module) (r : Reply) : (m.logEntry r).diag = m.diag := rfl
@[simp] theorem logEntry_vault (m : Module) (r : Reply) : (m.logEntry r).vault = m.vault := rfl
@[simp] theorem logEntry_live (m : Module) (r : Reply) : (m.logEntry r).live = m.live := rfl
@[simp] theorem logEntry_staging (m : Module) (r : Reply) : (m.logEntry r).staging = m.staging := rfl
@[simp] theorem logEntry_free (m : Module) (r : Reply) : (m.logEntry r).free = m.free := rfl
@[simp] theorem logEntry_out (m : Module) (r : Reply) : (m.logEntry r).out = m.out := rfl
@[simp] theorem logEntry_tel_memH (m : Module) (r : Reply) : (m.logEntry r).tel.memH = m.tel.memH := rfl
@[simp] theorem logEntry_tel_memMaint (m : Module) (r : Reply) : (m.logEntry r).tel.memMaint = m.tel.memMaint := rfl
@[simp] theorem logEntry_tel_memDrop (m : Module) (r : Reply) : (m.logEntry r).tel.memDrop = m.tel.memDrop := rfl

/-! ### A change of the outputs -/

@[simp] theorem put_variant (m : Module) (o : Out) : (m.put o).variant = m.variant := rfl
@[simp] theorem put_stage (m : Module) (o : Out) : (m.put o).stage = m.stage := rfl
@[simp] theorem put_shelf (m : Module) (o : Out) : (m.put o).shelf = m.shelf := rfl
@[simp] theorem put_inUse (m : Module) (o : Out) : (m.put o).inUse = m.inUse := rfl
@[simp] theorem put_firstCause (m : Module) (o : Out) : (m.put o).firstCause = m.firstCause := rfl
@[simp] theorem put_latestCause (m : Module) (o : Out) : (m.put o).latestCause = m.latestCause := rfl
@[simp] theorem put_unread (m : Module) (o : Out) : (m.put o).unread = m.unread := rfl
@[simp] theorem put_resetDue (m : Module) (o : Out) : (m.put o).resetDue = m.resetDue := rfl
@[simp] theorem put_clk (m : Module) (o : Out) : (m.put o).clk = m.clk := rfl
@[simp] theorem put_win (m : Module) (o : Out) : (m.put o).win = m.win := rfl
@[simp] theorem put_tel (m : Module) (o : Out) : (m.put o).tel = m.tel := rfl
@[simp] theorem put_lamps (m : Module) (o : Out) : (m.put o).lamps = m.lamps := rfl
@[simp] theorem put_prov (m : Module) (o : Out) : (m.put o).prov = m.prov := rfl
@[simp] theorem put_hub (m : Module) (o : Out) : (m.put o).hub = m.hub := rfl
@[simp] theorem put_own (m : Module) (o : Out) : (m.put o).own = m.own := rfl
@[simp] theorem put_ring (m : Module) (o : Out) : (m.put o).ring = m.ring := rfl
@[simp] theorem put_pow (m : Module) (o : Out) : (m.put o).pow = m.pow := rfl
@[simp] theorem put_meter (m : Module) (o : Out) : (m.put o).meter = m.meter := rfl
@[simp] theorem put_upd (m : Module) (o : Out) : (m.put o).upd = m.upd := rfl
@[simp] theorem put_ent (m : Module) (o : Out) : (m.put o).ent = m.ent := rfl
@[simp] theorem put_maint (m : Module) (o : Out) : (m.put o).maint = m.maint := rfl
@[simp] theorem put_drop (m : Module) (o : Out) : (m.put o).drop = m.drop := rfl
@[simp] theorem put_diag (m : Module) (o : Out) : (m.put o).diag = m.diag := rfl
@[simp] theorem put_vault (m : Module) (o : Out) : (m.put o).vault = m.vault := rfl
@[simp] theorem put_live (m : Module) (o : Out) : (m.put o).live = m.live := rfl
@[simp] theorem put_staging (m : Module) (o : Out) : (m.put o).staging = m.staging := rfl
@[simp] theorem put_free (m : Module) (o : Out) : (m.put o).free = m.free := rfl

/-! ### A change of a lane -/

@[simp] theorem setLane_variant (m : Module) (l : Lane) (f : LaneSt → LaneSt) : (m.setLane l f).variant = m.variant := rfl
@[simp] theorem setLane_stage (m : Module) (l : Lane) (f : LaneSt → LaneSt) : (m.setLane l f).stage = m.stage := rfl
@[simp] theorem setLane_shelf (m : Module) (l : Lane) (f : LaneSt → LaneSt) : (m.setLane l f).shelf = m.shelf := rfl
@[simp] theorem setLane_inUse (m : Module) (l : Lane) (f : LaneSt → LaneSt) : (m.setLane l f).inUse = m.inUse := rfl
@[simp] theorem setLane_firstCause (m : Module) (l : Lane) (f : LaneSt → LaneSt) : (m.setLane l f).firstCause = m.firstCause := rfl
@[simp] theorem setLane_latestCause (m : Module) (l : Lane) (f : LaneSt → LaneSt) : (m.setLane l f).latestCause = m.latestCause := rfl
@[simp] theorem setLane_unread (m : Module) (l : Lane) (f : LaneSt → LaneSt) : (m.setLane l f).unread = m.unread := rfl
@[simp] theorem setLane_resetDue (m : Module) (l : Lane) (f : LaneSt → LaneSt) : (m.setLane l f).resetDue = m.resetDue := rfl
@[simp] theorem setLane_clk (m : Module) (l : Lane) (f : LaneSt → LaneSt) : (m.setLane l f).clk = m.clk := rfl
@[simp] theorem setLane_win (m : Module) (l : Lane) (f : LaneSt → LaneSt) : (m.setLane l f).win = m.win := rfl
@[simp] theorem setLane_tel (m : Module) (l : Lane) (f : LaneSt → LaneSt) : (m.setLane l f).tel = m.tel := rfl
@[simp] theorem setLane_lamps (m : Module) (l : Lane) (f : LaneSt → LaneSt) : (m.setLane l f).lamps = m.lamps := rfl
@[simp] theorem setLane_prov (m : Module) (l : Lane) (f : LaneSt → LaneSt) : (m.setLane l f).prov = m.prov := rfl
@[simp] theorem setLane_hub (m : Module) (l : Lane) (f : LaneSt → LaneSt) : (m.setLane l f).hub = m.hub := rfl
@[simp] theorem setLane_own (m : Module) (l : Lane) (f : LaneSt → LaneSt) : (m.setLane l f).own = m.own := rfl
@[simp] theorem setLane_pow (m : Module) (l : Lane) (f : LaneSt → LaneSt) : (m.setLane l f).pow = m.pow := rfl
@[simp] theorem setLane_meter (m : Module) (l : Lane) (f : LaneSt → LaneSt) : (m.setLane l f).meter = m.meter := rfl
@[simp] theorem setLane_upd (m : Module) (l : Lane) (f : LaneSt → LaneSt) : (m.setLane l f).upd = m.upd := rfl
@[simp] theorem setLane_ent (m : Module) (l : Lane) (f : LaneSt → LaneSt) : (m.setLane l f).ent = m.ent := rfl
@[simp] theorem setLane_maint (m : Module) (l : Lane) (f : LaneSt → LaneSt) : (m.setLane l f).maint = m.maint := rfl
@[simp] theorem setLane_drop (m : Module) (l : Lane) (f : LaneSt → LaneSt) : (m.setLane l f).drop = m.drop := rfl
@[simp] theorem setLane_diag (m : Module) (l : Lane) (f : LaneSt → LaneSt) : (m.setLane l f).diag = m.diag := rfl
@[simp] theorem setLane_vault (m : Module) (l : Lane) (f : LaneSt → LaneSt) : (m.setLane l f).vault = m.vault := rfl
@[simp] theorem setLane_live (m : Module) (l : Lane) (f : LaneSt → LaneSt) : (m.setLane l f).live = m.live := rfl
@[simp] theorem setLane_staging (m : Module) (l : Lane) (f : LaneSt → LaneSt) : (m.setLane l f).staging = m.staging := rfl
@[simp] theorem setLane_free (m : Module) (l : Lane) (f : LaneSt → LaneSt) : (m.setLane l f).free = m.free := rfl
@[simp] theorem setLane_out (m : Module) (l : Lane) (f : LaneSt → LaneSt) : (m.setLane l f).out = m.out := rfl
@[simp] theorem setLane_ring_position (m : Module) (l : Lane) (f : LaneSt → LaneSt) : (m.setLane l f).ring.position = m.ring.position := rfl
@[simp] theorem setLane_ring_positions (m : Module) (l : Lane) (f : LaneSt → LaneSt) : (m.setLane l f).ring.positions = m.ring.positions := rfl
@[simp] theorem setLane_ring_form (m : Module) (l : Lane) (f : LaneSt → LaneSt) : (m.setLane l f).ring.form = m.ring.form := rfl
@[simp] theorem setLane_ring_east (m : Module) (l : Lane) (f : LaneSt → LaneSt) : (m.setLane l f).ring.east = m.ring.east := rfl
@[simp] theorem setLane_ring_west (m : Module) (l : Lane) (f : LaneSt → LaneSt) : (m.setLane l f).ring.west = m.ring.west := rfl
@[simp] theorem setLane_ring_isRef (m : Module) (l : Lane) (f : LaneSt → LaneSt) : (m.setLane l f).ring.isRef = m.ring.isRef := rfl

/-! ### A change of the update session -/

@[simp] theorem setSession_variant (m : Module) (f : Session → Session) : (m.setSession f).variant = m.variant := rfl
@[simp] theorem setSession_stage (m : Module) (f : Session → Session) : (m.setSession f).stage = m.stage := rfl
@[simp] theorem setSession_shelf (m : Module) (f : Session → Session) : (m.setSession f).shelf = m.shelf := rfl
@[simp] theorem setSession_inUse (m : Module) (f : Session → Session) : (m.setSession f).inUse = m.inUse := rfl
@[simp] theorem setSession_firstCause (m : Module) (f : Session → Session) : (m.setSession f).firstCause = m.firstCause := rfl
@[simp] theorem setSession_latestCause (m : Module) (f : Session → Session) : (m.setSession f).latestCause = m.latestCause := rfl
@[simp] theorem setSession_unread (m : Module) (f : Session → Session) : (m.setSession f).unread = m.unread := rfl
@[simp] theorem setSession_resetDue (m : Module) (f : Session → Session) : (m.setSession f).resetDue = m.resetDue := rfl
@[simp] theorem setSession_clk (m : Module) (f : Session → Session) : (m.setSession f).clk = m.clk := rfl
@[simp] theorem setSession_win (m : Module) (f : Session → Session) : (m.setSession f).win = m.win := rfl
@[simp] theorem setSession_tel (m : Module) (f : Session → Session) : (m.setSession f).tel = m.tel := rfl
@[simp] theorem setSession_lamps (m : Module) (f : Session → Session) : (m.setSession f).lamps = m.lamps := rfl
@[simp] theorem setSession_prov (m : Module) (f : Session → Session) : (m.setSession f).prov = m.prov := rfl
@[simp] theorem setSession_hub (m : Module) (f : Session → Session) : (m.setSession f).hub = m.hub := rfl
@[simp] theorem setSession_own (m : Module) (f : Session → Session) : (m.setSession f).own = m.own := rfl
@[simp] theorem setSession_ring (m : Module) (f : Session → Session) : (m.setSession f).ring = m.ring := rfl
@[simp] theorem setSession_pow (m : Module) (f : Session → Session) : (m.setSession f).pow = m.pow := rfl
@[simp] theorem setSession_meter (m : Module) (f : Session → Session) : (m.setSession f).meter = m.meter := rfl
@[simp] theorem setSession_ent (m : Module) (f : Session → Session) : (m.setSession f).ent = m.ent := rfl
@[simp] theorem setSession_maint (m : Module) (f : Session → Session) : (m.setSession f).maint = m.maint := rfl
@[simp] theorem setSession_drop (m : Module) (f : Session → Session) : (m.setSession f).drop = m.drop := rfl
@[simp] theorem setSession_diag (m : Module) (f : Session → Session) : (m.setSession f).diag = m.diag := rfl
@[simp] theorem setSession_vault (m : Module) (f : Session → Session) : (m.setSession f).vault = m.vault := rfl
@[simp] theorem setSession_live (m : Module) (f : Session → Session) : (m.setSession f).live = m.live := rfl
@[simp] theorem setSession_staging (m : Module) (f : Session → Session) : (m.setSession f).staging = m.staging := rfl
@[simp] theorem setSession_free (m : Module) (f : Session → Session) : (m.setSession f).free = m.free := rfl
@[simp] theorem setSession_out (m : Module) (f : Session → Session) : (m.setSession f).out = m.out := rfl
@[simp] theorem setSession_upd_select (m : Module) (f : Session → Session) : (m.setSession f).upd.select = m.upd.select := rfl

/-! ### A change of a port -/

@[simp] theorem setPort_variant (m : Module) (p : Port) (f : Uart → Uart) : (m.setPort p f).variant = m.variant := by cases p <;> rfl
@[simp] theorem setPort_stage (m : Module) (p : Port) (f : Uart → Uart) : (m.setPort p f).stage = m.stage := by cases p <;> rfl
@[simp] theorem setPort_shelf (m : Module) (p : Port) (f : Uart → Uart) : (m.setPort p f).shelf = m.shelf := by cases p <;> rfl
@[simp] theorem setPort_inUse (m : Module) (p : Port) (f : Uart → Uart) : (m.setPort p f).inUse = m.inUse := by cases p <;> rfl
@[simp] theorem setPort_firstCause (m : Module) (p : Port) (f : Uart → Uart) : (m.setPort p f).firstCause = m.firstCause := by cases p <;> rfl
@[simp] theorem setPort_latestCause (m : Module) (p : Port) (f : Uart → Uart) : (m.setPort p f).latestCause = m.latestCause := by cases p <;> rfl
@[simp] theorem setPort_unread (m : Module) (p : Port) (f : Uart → Uart) : (m.setPort p f).unread = m.unread := by cases p <;> rfl
@[simp] theorem setPort_resetDue (m : Module) (p : Port) (f : Uart → Uart) : (m.setPort p f).resetDue = m.resetDue := by cases p <;> rfl
@[simp] theorem setPort_clk (m : Module) (p : Port) (f : Uart → Uart) : (m.setPort p f).clk = m.clk := by cases p <;> rfl
@[simp] theorem setPort_win (m : Module) (p : Port) (f : Uart → Uart) : (m.setPort p f).win = m.win := by cases p <;> rfl
@[simp] theorem setPort_tel (m : Module) (p : Port) (f : Uart → Uart) : (m.setPort p f).tel = m.tel := by cases p <;> rfl
@[simp] theorem setPort_lamps (m : Module) (p : Port) (f : Uart → Uart) : (m.setPort p f).lamps = m.lamps := by cases p <;> rfl
@[simp] theorem setPort_prov (m : Module) (p : Port) (f : Uart → Uart) : (m.setPort p f).prov = m.prov := by cases p <;> rfl
@[simp] theorem setPort_hub (m : Module) (p : Port) (f : Uart → Uart) : (m.setPort p f).hub = m.hub := by cases p <;> rfl
@[simp] theorem setPort_own (m : Module) (p : Port) (f : Uart → Uart) : (m.setPort p f).own = m.own := by cases p <;> rfl
@[simp] theorem setPort_ring (m : Module) (p : Port) (f : Uart → Uart) : (m.setPort p f).ring = m.ring := by cases p <;> rfl
@[simp] theorem setPort_pow (m : Module) (p : Port) (f : Uart → Uart) : (m.setPort p f).pow = m.pow := by cases p <;> rfl
@[simp] theorem setPort_meter (m : Module) (p : Port) (f : Uart → Uart) : (m.setPort p f).meter = m.meter := by cases p <;> rfl
@[simp] theorem setPort_upd (m : Module) (p : Port) (f : Uart → Uart) : (m.setPort p f).upd = m.upd := by cases p <;> rfl
@[simp] theorem setPort_ent (m : Module) (p : Port) (f : Uart → Uart) : (m.setPort p f).ent = m.ent := by cases p <;> rfl
@[simp] theorem setPort_diag (m : Module) (p : Port) (f : Uart → Uart) : (m.setPort p f).diag = m.diag := by cases p <;> rfl
@[simp] theorem setPort_vault (m : Module) (p : Port) (f : Uart → Uart) : (m.setPort p f).vault = m.vault := by cases p <;> rfl
@[simp] theorem setPort_live (m : Module) (p : Port) (f : Uart → Uart) : (m.setPort p f).live = m.live := by cases p <;> rfl
@[simp] theorem setPort_staging (m : Module) (p : Port) (f : Uart → Uart) : (m.setPort p f).staging = m.staging := by cases p <;> rfl
@[simp] theorem setPort_free (m : Module) (p : Port) (f : Uart → Uart) : (m.setPort p f).free = m.free := by cases p <;> rfl
@[simp] theorem setPort_out (m : Module) (p : Port) (f : Uart → Uart) : (m.setPort p f).out = m.out := by cases p <;> rfl

/-! ### A change of a span -/

@[simp] theorem setSpan_variant (m : Module) (side : Side) (f : Span → Span) : (m.setSpan side f).variant = m.variant := by cases side <;> rfl
@[simp] theorem setSpan_stage (m : Module) (side : Side) (f : Span → Span) : (m.setSpan side f).stage = m.stage := by cases side <;> rfl
@[simp] theorem setSpan_shelf (m : Module) (side : Side) (f : Span → Span) : (m.setSpan side f).shelf = m.shelf := by cases side <;> rfl
@[simp] theorem setSpan_inUse (m : Module) (side : Side) (f : Span → Span) : (m.setSpan side f).inUse = m.inUse := by cases side <;> rfl
@[simp] theorem setSpan_firstCause (m : Module) (side : Side) (f : Span → Span) : (m.setSpan side f).firstCause = m.firstCause := by cases side <;> rfl
@[simp] theorem setSpan_latestCause (m : Module) (side : Side) (f : Span → Span) : (m.setSpan side f).latestCause = m.latestCause := by cases side <;> rfl
@[simp] theorem setSpan_unread (m : Module) (side : Side) (f : Span → Span) : (m.setSpan side f).unread = m.unread := by cases side <;> rfl
@[simp] theorem setSpan_resetDue (m : Module) (side : Side) (f : Span → Span) : (m.setSpan side f).resetDue = m.resetDue := by cases side <;> rfl
@[simp] theorem setSpan_clk (m : Module) (side : Side) (f : Span → Span) : (m.setSpan side f).clk = m.clk := by cases side <;> rfl
@[simp] theorem setSpan_win (m : Module) (side : Side) (f : Span → Span) : (m.setSpan side f).win = m.win := by cases side <;> rfl
@[simp] theorem setSpan_tel (m : Module) (side : Side) (f : Span → Span) : (m.setSpan side f).tel = m.tel := by cases side <;> rfl
@[simp] theorem setSpan_lamps (m : Module) (side : Side) (f : Span → Span) : (m.setSpan side f).lamps = m.lamps := by cases side <;> rfl
@[simp] theorem setSpan_prov (m : Module) (side : Side) (f : Span → Span) : (m.setSpan side f).prov = m.prov := by cases side <;> rfl
@[simp] theorem setSpan_hub (m : Module) (side : Side) (f : Span → Span) : (m.setSpan side f).hub = m.hub := by cases side <;> rfl
@[simp] theorem setSpan_own (m : Module) (side : Side) (f : Span → Span) : (m.setSpan side f).own = m.own := by cases side <;> rfl
@[simp] theorem setSpan_pow (m : Module) (side : Side) (f : Span → Span) : (m.setSpan side f).pow = m.pow := by cases side <;> rfl
@[simp] theorem setSpan_meter (m : Module) (side : Side) (f : Span → Span) : (m.setSpan side f).meter = m.meter := by cases side <;> rfl
@[simp] theorem setSpan_upd (m : Module) (side : Side) (f : Span → Span) : (m.setSpan side f).upd = m.upd := by cases side <;> rfl
@[simp] theorem setSpan_ent (m : Module) (side : Side) (f : Span → Span) : (m.setSpan side f).ent = m.ent := by cases side <;> rfl
@[simp] theorem setSpan_maint (m : Module) (side : Side) (f : Span → Span) : (m.setSpan side f).maint = m.maint := by cases side <;> rfl
@[simp] theorem setSpan_drop (m : Module) (side : Side) (f : Span → Span) : (m.setSpan side f).drop = m.drop := by cases side <;> rfl
@[simp] theorem setSpan_diag (m : Module) (side : Side) (f : Span → Span) : (m.setSpan side f).diag = m.diag := by cases side <;> rfl
@[simp] theorem setSpan_vault (m : Module) (side : Side) (f : Span → Span) : (m.setSpan side f).vault = m.vault := by cases side <;> rfl
@[simp] theorem setSpan_live (m : Module) (side : Side) (f : Span → Span) : (m.setSpan side f).live = m.live := by cases side <;> rfl
@[simp] theorem setSpan_staging (m : Module) (side : Side) (f : Span → Span) : (m.setSpan side f).staging = m.staging := by cases side <;> rfl
@[simp] theorem setSpan_free (m : Module) (side : Side) (f : Span → Span) : (m.setSpan side f).free = m.free := by cases side <;> rfl
@[simp] theorem setSpan_out (m : Module) (side : Side) (f : Span → Span) : (m.setSpan side f).out = m.out := by cases side <;> rfl
@[simp] theorem setSpan_ring_position (m : Module) (side : Side) (f : Span → Span) : (m.setSpan side f).ring.position = m.ring.position := by cases side <;> rfl
@[simp] theorem setSpan_ring_positions (m : Module) (side : Side) (f : Span → Span) : (m.setSpan side f).ring.positions = m.ring.positions := by cases side <;> rfl
@[simp] theorem setSpan_ring_form (m : Module) (side : Side) (f : Span → Span) : (m.setSpan side f).ring.form = m.ring.form := by cases side <;> rfl
@[simp] theorem setSpan_ring_lanes (m : Module) (side : Side) (f : Span → Span) : (m.setSpan side f).ring.lanes = m.ring.lanes := by cases side <;> rfl
@[simp] theorem setSpan_ring_isRef (m : Module) (side : Side) (f : Span → Span) : (m.setSpan side f).ring.isRef = m.ring.isRef := by cases side <;> rfl

/-! ### Time passes: only the clock changes -/

@[simp] theorem elapse_variant (m : Module) (dt : Nat) : (m.elapse dt).variant = m.variant := by
  unfold Module.elapse; split <;> rfl
@[simp] theorem elapse_stage (m : Module) (dt : Nat) : (m.elapse dt).stage = m.stage := by
  unfold Module.elapse; split <;> rfl
@[simp] theorem elapse_shelf (m : Module) (dt : Nat) : (m.elapse dt).shelf = m.shelf := by
  unfold Module.elapse; split <;> rfl
@[simp] theorem elapse_inUse (m : Module) (dt : Nat) : (m.elapse dt).inUse = m.inUse := by
  unfold Module.elapse; split <;> rfl
@[simp] theorem elapse_firstCause (m : Module) (dt : Nat) : (m.elapse dt).firstCause = m.firstCause := by
  unfold Module.elapse; split <;> rfl
@[simp] theorem elapse_latestCause (m : Module) (dt : Nat) : (m.elapse dt).latestCause = m.latestCause := by
  unfold Module.elapse; split <;> rfl
@[simp] theorem elapse_unread (m : Module) (dt : Nat) : (m.elapse dt).unread = m.unread := by
  unfold Module.elapse; split <;> rfl
@[simp] theorem elapse_resetDue (m : Module) (dt : Nat) : (m.elapse dt).resetDue = m.resetDue := by
  unfold Module.elapse; split <;> rfl
@[simp] theorem elapse_win (m : Module) (dt : Nat) : (m.elapse dt).win = m.win := by
  unfold Module.elapse; split <;> rfl
@[simp] theorem elapse_tel (m : Module) (dt : Nat) : (m.elapse dt).tel = m.tel := by
  unfold Module.elapse; split <;> rfl
@[simp] theorem elapse_lamps (m : Module) (dt : Nat) : (m.elapse dt).lamps = m.lamps := by
  unfold Module.elapse; split <;> rfl
@[simp] theorem elapse_prov (m : Module) (dt : Nat) : (m.elapse dt).prov = m.prov := by
  unfold Module.elapse; split <;> rfl
@[simp] theorem elapse_hub (m : Module) (dt : Nat) : (m.elapse dt).hub = m.hub := by
  unfold Module.elapse; split <;> rfl
@[simp] theorem elapse_own (m : Module) (dt : Nat) : (m.elapse dt).own = m.own := by
  unfold Module.elapse; split <;> rfl
@[simp] theorem elapse_ring (m : Module) (dt : Nat) : (m.elapse dt).ring = m.ring := by
  unfold Module.elapse; split <;> rfl
@[simp] theorem elapse_pow (m : Module) (dt : Nat) : (m.elapse dt).pow = m.pow := by
  unfold Module.elapse; split <;> rfl
@[simp] theorem elapse_meter (m : Module) (dt : Nat) : (m.elapse dt).meter = m.meter := by
  unfold Module.elapse; split <;> rfl
@[simp] theorem elapse_upd (m : Module) (dt : Nat) : (m.elapse dt).upd = m.upd := by
  unfold Module.elapse; split <;> rfl
@[simp] theorem elapse_ent (m : Module) (dt : Nat) : (m.elapse dt).ent = m.ent := by
  unfold Module.elapse; split <;> rfl
@[simp] theorem elapse_maint (m : Module) (dt : Nat) : (m.elapse dt).maint = m.maint := by
  unfold Module.elapse; split <;> rfl
@[simp] theorem elapse_drop (m : Module) (dt : Nat) : (m.elapse dt).drop = m.drop := by
  unfold Module.elapse; split <;> rfl
@[simp] theorem elapse_diag (m : Module) (dt : Nat) : (m.elapse dt).diag = m.diag := by
  unfold Module.elapse; split <;> rfl
@[simp] theorem elapse_vault (m : Module) (dt : Nat) : (m.elapse dt).vault = m.vault := by
  unfold Module.elapse; split <;> rfl
@[simp] theorem elapse_live (m : Module) (dt : Nat) : (m.elapse dt).live = m.live := by
  unfold Module.elapse; split <;> rfl
@[simp] theorem elapse_staging (m : Module) (dt : Nat) : (m.elapse dt).staging = m.staging := by
  unfold Module.elapse; split <;> rfl
@[simp] theorem elapse_free (m : Module) (dt : Nat) : (m.elapse dt).free = m.free := by
  unfold Module.elapse; split <;> rfl
@[simp] theorem elapse_out (m : Module) (dt : Nat) : (m.elapse dt).out = m.out := by
  unfold Module.elapse; split <;> rfl

end Sys2Proof.Machine
end

