-- ==== Sys2Proof/Tests/Slice0.lean ====
section
/-! SUPPORT. Own tests: the checks on ill-formed commands, a witness for each clause of each statement that has hypotheses,
and one step each of a few commands on small states. -/

namespace Sys2Proof.Tests
open Sys2Proof Sys2Proof.Machine
set_option Elab.async false
set_option linter.unusedVariables false

/-- A state of the module `m` with no command waiting. -/
def at_ (m : Module) : State := ⟨[], m⟩

/-- A UM-384 in use, ring ready as position 0 of four, with its ring lanes up and slice 0 loaded and running. -/
def up : Module := { Module.reset with
  stage := .ready, inUse := true
  clk := { Clock.powerOn 65536 with tick := 2000000000000 }
  hub := [(0, { HubSlice.reset with epoch := 1, loaded := true })]
  own := [(0, { OwnSlice.reset 1 with epoch := 1, running := true })]
  vault := { Vault.blank with hubEpoch := 1, hostEpoch := 1 }
  ring := { Ring.reset with
    lanes := [1, 2, 3, 4].map (fun k => (k, { LaneSt.down with state := 2 }))
    position := some 0, positions := 4, form := .single } }

/-- A packet on MAINT for this module, with the parameters given. -/
def pkt (params : List Byte) : Packet := ⟨.maint, 0, 1, 0xFF, 0, 0, 0, params⟩
def hdr0 : RingHdr := ⟨0, false, 1, 0, 0, 0, 0, 0, 0⟩
def reply0 : Reply := ⟨0x0101, 0, 1, 0, 0, 1, 0, 0, 0, []⟩
def weft0 : WeftHdr := ⟨0, false, false, 1, 4, 1, .single, .locked, 65536, 1, 0, 0, 2000000⟩
def found0 : BistFound := ⟨0, [], [], []⟩

/-- One part entry of a manifest: TYPE, LENGTH and block count, FULL from offset 0. -/
def part (ty len count : Nat) (digest : List Byte) : List Byte :=
  u8 ty ++ u8 0 ++ rsv 2 ++ u32 0 ++ u32 len ++ u32 0 ++ u32 count ++ rsv 12 ++ digest ++ rsv 32
/-- A manifest laid out as R355 and R356 say, with `total` blocks and the parts given. -/
def man (total : Nat) (parts : List Byte) : List Byte :=
  u16 1 ++ u8 6 ++ u8 0 ++ u16 0 ++ u8 7 ++ rsv 6 ++ u8 1 ++ rsv 2 ++ u32 total ++ u32 608 ++ rsv 8 ++ parts ++ rsv 64
/-- Six empty parts. -/
def man0 : List Byte := man 0 ([1, 2, 3, 4, 5, 6].map (fun t => part t 0 0 (sha256 []))).flatten
/-- One part of one byte, in one block. -/
def man1 : List Byte := man 1 (part 1 1 1 (sha256 [1]) ++ ([2, 3, 4, 5, 6].map (fun t => part t 0 0 (sha256 []))).flatten)
/-- The block of `man1`, without its CRC and with it. -/
def block1Body : List Byte :=
  u16 1 ++ u8 1 ++ u8 0 ++ u32 0 ++ u32 0 ++ u16 1 ++ rsv 2 ++ u32 1 ++ manifestTag man1 ++ [1]
def block1 : Block := block1Body ++ u32 (crc32c block1Body).toNat

/-! ### What the larger witnesses need -/

theorem swatch_length : (swatchBytes Swatch.none).length = 385 := by decide +kernel
theorem elem_length : ∀ e ∈ itemTable .um384, ∀ k, (Items.default.elem e.1 k).length = e.2.2 := by
  intro e he k
  simp only [itemTable, List.mem_cons, List.not_mem_nil, or_false] at he
  rcases he with h | h | h | h | h | h | h | h | h | h | h | h | h | h | h | h <;> subst h
  all_goals simp only [Items.elem]
  all_goals (try split)
  all_goals simp [Items.startOf, Items.default, Tbl.get, swatch_length, rsv, u8, u16, u32, Gen.bytes, length_leBytes]
theorem record_length (e : Nat × Nat × Nat) (h : ∀ k, (Items.default.elem e.1 k).length = e.2.2) :
    (Items.default.record e).length = 8 + e.2.1 * e.2.2 + (4 - (8 + e.2.1 * e.2.2) % 4) % 4 := by
  have : ((List.range e.2.1).map (Items.default.elem e.1)).flatten.length = e.2.1 * e.2.2 := by
    simp [List.length_flatten, Function.comp_def, h]
  simp only [Items.record, pad4, rsv, List.length_append, List.length_replicate, u16, length_leBytes, this]
theorem stored_length : (storedForm .um384 0x0100 0 0 Items.default).length = 154628 := by
  have h := elem_length
  simp only [storedForm, List.length_append, List.length_flatten, List.map_map, Function.comp_def]
  rw [List.map_congr_left (fun e he => record_length e (h e he))]
  decide
/-- An image with no record. -/
def img : List Byte := u16 1 ++ u16 0x100 ++ u8 0xFF ++ u8 1 ++ u16 0 ++ u32 0 ++ u32 16
theorem image_parses : parseImage .um384 0x0100 0 img = some Items.default := by
  have h : Items.takeRecords .um384 (fieldAt img 6 2) [] (img.drop 16) Items.default = some Items.default := by decide +kernel
  unfold parseImage
  rw [h]
  have c : (16 ≤ img.length && decide (fieldAt img 0 2 = 1) && decide (fieldAt img 2 2 / 256 = (0x0100 : Word16).toNat / 256) && decide (fieldAt img 2 2 % 256 ≤ (0x0100 : Word16).toNat % 256) &&
     (decide (fieldAt img 4 1 = 0xFF) || decide (fieldAt img 4 1 = (0 : Byte).toNat)) && decide (fieldAt img 5 1 = Variant.um384.code.toNat) && decide (fieldAt img 12 4 = img.length)) = true := by decide +kernel
  simp only []
  rw [if_pos c]
  simp only [stored_length]
  rfl
theorem sealed_valid (m : Module) (k : List Byte) (c : StoredConfig) (h : m.vault.current = some k)
    (hs : c.sealed = .mac (hmac k (m.form c))) (hc : m.vault.config = some c) (hp : c.position = m.positionByte) :
    m.configValid = true := by
  simp only [Module.configValid, Module.configSealed, hc, hs, Module.verifies, Module.macOf, h, Option.map_some,
    Option.isSome_some, hp, beq_self_eq_true, Bool.true_or, Bool.and_self]

/-- A configuration sealed under the key 01. -/
def sealedConfig : StoredConfig :=
  ⟨0, 0x0100, 1, Items.default, .mac (hmac [1] (storedForm .um384 0x0100 0 1 Items.default))⟩

theorem taken {code : Word16} {p : Packet} {s : State} {dt : Nat}
    (h : (s.m.elapse dt).tillTest = false ∧ (s.m.elapse dt).takes p.path = true ∧ (s.m.elapse dt).atTurn code p true = true) :
    Taken code p s dt := h
/-- What is asked of an admitted packet, in the form `decide` takes. -/
theorem admitted {op : Op} {p : Packet} {s : State} {dt : Nat}
    (h : ((s.m.elapse dt).tillTest = false ∧ (s.m.elapse dt).takes p.path = true ∧
        (s.m.elapse dt).atTurn op.code p true = true) ∧ (s.turn dt p).retried op.code p = none ∧
      (s.turn dt p).aim op p = .here ∧ (s.turn dt p).check op p = none) : Admitted op p s dt := h

/-! ### The hypotheses of each statement are met -/

/-- Each group of hypotheses of `Obligations.Reads` is met together. -/
theorem test_reads_met :
    (∃ (s : State) (dt : Nat) (p : Packet) (m : Module), m = s.turn dt p ∧ Admitted opCapabilityRead p s dt) ∧
    (∃ (s : State) (dt : Nat) (p : Packet) (m : Module), m = s.turn dt p ∧ Admitted opStatusRead p s dt ∧ p.field 0 1 = 0) ∧
    (∃ (s : State) (dt : Nat) (p : Packet) (m : Module), m = s.turn dt p ∧ Admitted opStatusRead p s dt ∧ p.field 0 1 = 1) ∧
    (∃ (s : State) (dt : Nat) (p : Packet) (m : Module), m = s.turn dt p ∧ Admitted opTimeRead p s dt) ∧
    (∃ (s : State) (dt : Nat) (p : Packet) (m : Module), m = s.turn dt p ∧ Admitted opTillRead p s dt) ∧
    (∃ (s : State) (dt : Nat) (p : Packet) (m : Module), m = s.turn dt p ∧ Admitted opTagQuery p s dt) ∧
    (∃ (s : State) (dt : Nat) (p : Packet) (m : Module), m = s.turn dt p ∧ Admitted opConfigRead p s dt) ∧
    (∃ (s : State) (dt : Nat) (p : Packet) (m : Module), m = s.turn dt p ∧ Admitted opChannelRead p s dt) ∧
    (∃ (s : State) (dt : Nat) (p : Packet) (m : Module), m = s.turn dt p ∧ Admitted opFaultRead p s dt) ∧
    (∃ (s : State) (dt : Nat) (p : Packet) (m : Module), m = s.turn dt p ∧ Admitted opRingStatus p s dt) ∧
    (∃ (s : State) (dt : Nat) (p : Packet) (m : Module) (l : Lane), m = s.turn dt p ∧ Admitted opLaneStatus p s dt ∧
      laneOf (p.field 0 1) = some l) ∧
    (∃ (s : State) (dt : Nat) (p : Packet) (m : Module), m = s.turn dt p ∧ Admitted opLedgerRead p s dt) ∧
    (∃ (s : State) (dt : Nat) (p : Packet) (m : Module), m = s.turn dt p ∧ Admitted opEnergyRead p s dt) ∧
    (∃ (s : State) (dt : Nat) (p : Packet) (m : Module), m = s.turn dt p ∧ Admitted opDemandRead p s dt) ∧
    (∃ (s : State) (dt : Nat) (p : Packet) (m : Module) (b : Boundary), m = s.turn dt p ∧ Admitted opBoundaryRead p s dt ∧
      m.vault.records[p.field 0 2]? = some b) ∧
    (∃ (s : State) (dt : Nat) (p : Packet) (m : Module), m = s.turn dt p ∧ Admitted opUpdateStatus p s dt) ∧
    (∃ (s : State) (dt : Nat) (p : Packet) (m : Module), m = s.turn dt p ∧ Admitted opEntropyStatus p s dt) ∧
    (∃ (s : State) (dt : Nat) (p : Packet) (m : Module), m = s.turn dt p ∧ Admitted opUartStatus p s dt) ∧
    (∃ (s : State) (dt : Nat) (p : Packet) (m : Module), m = s.turn dt p ∧ Admitted opDumpSummary p s dt) :=
  ⟨⟨at_ up, 0, pkt [], _, rfl, admitted (by decide +kernel)⟩,
   ⟨at_ up, 0, pkt (u32 0), _, rfl, admitted (by decide +kernel), by decide +kernel⟩,
   ⟨at_ up, 0, pkt (u32 1), _, rfl, admitted (by decide +kernel), by decide +kernel⟩,
   ⟨at_ up, 0, pkt [], _, rfl, admitted (by decide +kernel)⟩,
   ⟨at_ up, 0, pkt (u32 0x100), _, rfl, admitted (by decide +kernel)⟩,
   ⟨at_ up, 0, pkt (u32 1 ++ rsv 8), _, rfl, admitted (by decide +kernel)⟩,
   ⟨at_ up, 0, pkt (u16 0 ++ u16 16 ++ u32 0), _, rfl, admitted (by decide +kernel)⟩,
   ⟨at_ up, 0, pkt (u16 383 ++ u16 1), _, rfl, admitted (by decide +kernel)⟩,
   ⟨at_ up, 0, pkt (u16 0 ++ u16 384), _, rfl, admitted (by decide +kernel)⟩,
   ⟨at_ up, 0, pkt [], _, rfl, admitted (by decide +kernel)⟩,
   ⟨at_ up, 0, pkt (u32 1), _, .e0, rfl, admitted (by decide +kernel), by decide +kernel⟩,
   ⟨at_ up, 0, pkt [], _, rfl, admitted (by decide +kernel)⟩,
   ⟨at_ up, 0, pkt (u8 0 ++ u8 0 ++ u16 0 ++ u16 1 ++ rsv 2), _, rfl, admitted (by decide +kernel)⟩,
   ⟨at_ up, 0, pkt (u32 1), _, rfl, admitted (by decide +kernel)⟩,
   ⟨at_ ({ up with vault := { up.vault with records := [⟨1, 65536, 0, 1, 0, 0, [], 0, 0, 0, 0, 0, [], [], [], 0, 1⟩] } }),
     0, pkt (u32 0), _, _, rfl, admitted (by decide +kernel), rfl⟩,
   ⟨at_ up, 0, pkt (u32 0), _, rfl, admitted (by decide +kernel)⟩,
   ⟨at_ up, 0, pkt [], _, rfl, admitted (by decide +kernel)⟩,
   ⟨at_ up, 0, pkt (u32 1), _, rfl, admitted (by decide +kernel)⟩,
   ⟨at_ up, 0, pkt (u32 1), _, rfl, admitted (by decide +kernel)⟩⟩

/-- Each group of hypotheses of `Obligations.TillCommands` is met together. -/
theorem test_till_commands_met :
    (∃ (s : State) (dt : Nat) (p : Packet) (m : Module), m = s.turn dt p ∧ Admitted opTillOpen p s dt) ∧
    (∃ (s : State) (dt : Nat) (p : Packet) (m : Module) (id : Word16), m = s.turn dt p ∧ id = BitVec.ofNat 16 (p.field 0
      2) ∧ Admitted opTillClose p s dt ∧ (m.till id).kind = 3 ∧ (m.till id).state = 1) ∧
    (∃ (s : State) (dt : Nat) (p : Packet) (m : Module) (id : Word16), m = s.turn dt p ∧ id = BitVec.ofNat 16 (p.field 0
      2) ∧ Admitted opTillClose p s dt ∧ (m.till id).kind = 2 ∧ (m.till id).state = 1) ∧
    (∃ (s : State) (dt : Nat) (p : Packet) (m : Module) (id : Word16), m = s.turn dt p ∧ id = BitVec.ofNat 16 (p.field 0
      2) ∧ Admitted opScheduleCancel p s dt) :=
  ⟨⟨at_ ({ up with win := { up.win with attached := true, passbook := [(2, 1)] } }), 0, pkt (u16 0x1000 ++ u8 3 ++ u8 0 ++
     u32 8192 ++ u16 16 ++ u16 0), _, rfl, admitted (by decide +kernel)⟩,
   ⟨at_ ({ up with win := { up.win with tills := [(0x1000, { Till.closed with kind := 3, state := 1 })] } }), 0, pkt (u32
     0x1000), _, 0x1000, rfl, by decide +kernel, admitted (by decide +kernel), by decide +kernel⟩,
   ⟨at_
     ({ up with win := { up.win with tills := [(1, { Till.closed with state := 1 }), (0x100, { Till.closed with kind := 2, state := 1 })], attached := true } }),
     0, { pkt (u32 0x100) with path := .laneH 0x100 }, _, 0x100, rfl, by decide +kernel, admitted (by decide +kernel),
     by decide +kernel⟩,
   ⟨at_
     ({ up with win := { up.win with tills := [(0x2000, { Till.closed with kind := 4, state := 4, tag := 5, due := 65537 * 65536 })] } }),
     0, pkt (u16 0x2000 ++ u16 0 ++ u32 5), _, 0x2000, rfl, by decide +kernel, admitted (by decide +kernel)⟩⟩

/-- Each group of hypotheses of `Obligations.ControlCommands` is met together. -/
theorem test_control_commands_met :
    (∃ (s : State) (dt : Nat) (p : Packet) (m : Module), m = s.turn dt p ∧ Admitted opReset p s dt) ∧
    (∃ (s : State) (dt : Nat) (p : Packet) (m : Module), m = s.turn dt p ∧ Admitted opStandbyEnter p s dt) ∧
    (∃ (s : State) (dt : Nat) (p : Packet) (m : Module), m = s.turn dt p ∧ Admitted opDumpRelease p s dt) ∧
    (∃ (s : State) (dt : Nat) (p : Packet) (m : Module) (k : List Byte), m = s.turn dt p ∧ Admitted opDomainKeyWrite p s
      dt ∧ m.vault.current = some k ∧ k ≠ p.params) ∧
    (∃ (s : State) (dt : Nat) (p : Packet) (m : Module), m = s.turn dt p ∧ Admitted opDomainKeyWrite p s dt ∧
      m.vault.current = some p.params) ∧
    (∃ (s : State) (dt : Nat) (p : Packet) (m : Module), m = s.turn dt p ∧ Admitted opDomainKeyWrite p s dt ∧
      m.vault.current = none) ∧
    (∃ (s : State) (dt : Nat) (p : Packet) (m : Module), m = s.turn dt p ∧ Admitted opCosignKeySet p s dt ∧ m.vault.cosign
      = none ∧ allZero (p.params.drop 36) = true ∧ allZero ((p.params.drop 4).take 32) = false) ∧
    (∃ (s : State) (dt : Nat) (p : Packet) (m : Module) (k : List Byte), m = s.turn dt p ∧ Admitted opCosignKeySet p s dt
      ∧ m.vault.cosign = some k) :=
  ⟨⟨at_ up, 0, pkt (u32 1), _, rfl, admitted (by decide +kernel)⟩,
   ⟨at_ ({ up with pow := { up.pow with onBackup := true } }), 0, pkt [], _, rfl, admitted (by decide +kernel)⟩,
   ⟨at_ up, 0, pkt [], _, rfl, admitted (by decide +kernel)⟩,
   ⟨at_ ({ up with vault := { up.vault with current := some [1] } }), 0, pkt (List.replicate 32 1), _, [1], rfl, admitted
     (by decide +kernel), rfl, by decide +kernel⟩,
   ⟨at_ ({ up with vault := { up.vault with current := some (List.replicate 32 1) } }), 0, pkt (List.replicate 32 1), _,
     rfl, admitted (by decide +kernel), by decide +kernel⟩,
   ⟨at_ ({ up with vault := { up.vault with current := none } }), 0, pkt (List.replicate 32 1), _, rfl, admitted
     (by decide +kernel), by decide +kernel⟩,
   ⟨at_ ({ up with vault := { up.vault with cosign := none } }), 0, pkt (rsv 4 ++ List.replicate 32 1 ++ rsv 64), _, rfl,
     admitted (by decide +kernel), by decide +kernel⟩,
   ⟨at_ ({ up with vault := { up.vault with cosign := some [1] } }), 0, pkt (rsv 4 ++ List.replicate 32 1 ++ rsv 64), _,
     [1], rfl, admitted (by decide +kernel), by decide +kernel⟩⟩

/-- Each group of hypotheses of `Obligations.LampCommands` is met together. -/
theorem test_lamp_commands_met :
    (∃ (s : State) (dt : Nat) (p : Packet) (m : Module), m = s.turn dt p ∧ Admitted opChannelSet p s dt ∧ p.flags.getLsbD
      0 = false) ∧
    (∃ (s : State) (dt : Nat) (p : Packet) (m : Module), m = s.turn dt p ∧ Admitted opAspectShow p s dt ∧ p.flags.getLsbD
      0 = false) ∧
    (∃ (s : State) (dt : Nat) (p : Packet) (m : Module), m = s.turn dt p ∧ Admitted opFlashSet p s dt ∧ p.flags.getLsbD 0
      = false) ∧
    (∃ (s : State) (dt : Nat) (p : Packet) (m : Module) (due : Nat) (late : Bool) (t : Word16), m = s.turn dt p ∧ Admitted
      opChannelSet p s dt ∧ p.flags.getLsbD 0 = true ∧ m.clk.execAt p = some (due, late) ∧ m.freeSched = some t) ∧
    (∃ (s : State) (dt : Nat) (p : Packet) (m : Module) (due : Nat) (late : Bool) (t : Word16), m = s.turn dt p ∧ Admitted
      opAspectShow p s dt ∧ p.flags.getLsbD 0 = true ∧ m.clk.execAt p = some (due, late) ∧ m.freeSched = some t) ∧
    (∃ (s : State) (dt : Nat) (p : Packet) (m : Module) (due : Nat) (late : Bool) (t : Word16), m = s.turn dt p ∧ Admitted
      opFlashSet p s dt ∧ p.flags.getLsbD 0 = true ∧ m.clk.execAt p = some (due, late) ∧ m.freeSched = some t) :=
  ⟨⟨at_ up, 0, pkt (u16 1 ++ rsv 2 ++ u16 383 ++ u8 4 ++ u8 1 ++ u16 1024 ++ rsv 2), _, rfl, admitted (by decide +kernel),
     by decide +kernel⟩,
   ⟨at_ ({ up with lamps := { up.lamps with aspects := [(7, [(0, ⟨.steady, .zeroCross, 0⟩)])] } }), 0, pkt (u16 1 ++ rsv 2
     ++ u16 7 ++ rsv 2), _, rfl, admitted (by decide +kernel), by decide +kernel⟩,
   ⟨at_ up, 0, pkt (u8 0 ++ rsv 1 ++ u16 2 ++ u16 1 ++ u16 1), _, rfl, admitted (by decide +kernel), by decide +kernel⟩,
   ⟨at_ up, 0,
     { pkt (u16 1 ++ rsv 2 ++ u16 383 ++ u8 4 ++ u8 1 ++ u16 1024 ++ rsv 2) with flags := 1, execCycle := 65537 }, _,
     65537 * 65536, false, 0x2000, rfl, admitted (by decide +kernel), by decide +kernel⟩,
   ⟨at_ ({ up with lamps := { up.lamps with aspects := [(7, [(0, ⟨.steady, .zeroCross, 0⟩)])] } }), 0,
     { pkt (u16 1 ++ rsv 2 ++ u16 7 ++ rsv 2) with flags := 1, execCycle := 65537 }, _, 65537 * 65536, false, 0x2000, rfl,
     admitted (by decide +kernel), by decide +kernel⟩,
   ⟨at_ up, 0, { pkt (u8 0 ++ rsv 1 ++ u16 2 ++ u16 1 ++ u16 1) with flags := 1, execCycle := 65537 }, _, 65537 * 65536,
     false, 0x2000, rfl, admitted (by decide +kernel), by decide +kernel⟩⟩

/-- Each group of hypotheses of `Obligations.AspectAndSettingCommands` is met together. -/
theorem test_aspect_and_setting_commands_met :
    (∃ (s : State) (dt : Nat) (p : Packet) (m : Module), m = s.turn dt p ∧ Admitted opAspectDefine p s dt) ∧
    (∃ (s : State) (dt : Nat) (p : Packet) (m : Module), m = s.turn dt p ∧ Admitted opAspectDelete p s dt ∧ Tbl.wf ([] :
      List (Nat × Shown)) m.lamps.aspects = true) ∧
    (∃ (s : State) (dt : Nat) (p : Packet) (m : Module), m = s.turn dt p ∧ Admitted opSwatchMode p s dt) ∧
    (∃ (s : State) (dt : Nat) (p : Packet) (m : Module) (m' : Module), m = s.turn dt p ∧ Admitted opResponseSet p s dt ∧
      m' = (m.storeItems (p.range.foldl (fun i ch => i.respond (p.field 4 1) (p.field 6 2) ch) m.items)).configChanged
      m.items) ∧
    (∃ (s : State) (dt : Nat) (p : Packet) (m : Module) (m' : Module), m = s.turn dt p ∧ Admitted opLedgerSet p s dt ∧ m'
      = (m.storeItems
      { m.items with capacity := BitVec.ofNat 32 (p.field 0 4), p3Reserve := BitVec.ofNat 32 (p.field 4 4), leanBelow := BitVec.ofNat 32 (p.field 8 4), standbyAfter := BitVec.ofNat 16 (p.field 12 2) }).configChanged
      m.items) ∧
    (∃ (s : State) (dt : Nat) (p : Packet) (m : Module), m = s.turn dt p ∧ Admitted opFaultClear p s dt) :=
  ⟨⟨at_ up, 0, pkt (u16 4095 ++ u16 1 ++ u16 383 ++ u8 4 ++ u8 1 ++ u16 1024 ++ rsv 2), _, rfl, admitted
     (by decide +kernel)⟩,
   ⟨at_ ({ up with lamps := { up.lamps with aspects := [(7, [(0, ⟨.steady, .zeroCross, 0⟩)])] } }), 0, pkt (u32 7), _,
     rfl, admitted (by decide +kernel), by decide +kernel⟩,
   ⟨at_ up, 0, pkt (u16 0 ++ u16 384 ++ u32 1), _, rfl, admitted (by decide +kernel)⟩,
   ⟨at_ up, 0, pkt (u16 0 ++ u16 1 ++ u16 3 ++ u16 0), _, _, rfl, admitted (by decide +kernel), rfl⟩,
   ⟨at_ up, 0, pkt (u32 100 ++ u32 100 ++ u32 100 ++ u32 5), _, _, rfl, admitted (by decide +kernel), rfl⟩,
   ⟨at_ up, 0, pkt (u16 0 ++ u16 384), _, rfl, admitted (by decide +kernel)⟩⟩

/-- Each group of hypotheses of `Obligations.ConfigWrites` is met together. -/
theorem test_config_writes_met :
    (∃ (s : State) (dt : Nat) (p : Packet) (m : Module) (b : List Byte), m = s.turn dt p ∧ Admitted opConfigWrite p s dt ∧
      p.field 14 1 = 0 ∧ b = (if p.field 8 4 = 0 then [] else (match m.staging with | some (_, _, b) => b | none => []))) ∧
    (∃ (s : State) (dt : Nat) (p : Packet) (m : Module) (m' : Module) (b : List Byte) (i : Items), m = s.turn dt p ∧
      Admitted opConfigWrite p s dt ∧ p.field 14 1 = 1 ∧ b = (if p.field 8 4 = 0 then [] else (match m.staging with
      | some (_, _, b) => b | none => [])) ∧ (p.field 0 4 = 0 ∨ p.field 0 4 = m.revision.toNat) ∧ parseImage m.variant
      m.upd.schema m.positionByte (b ++ p.params.drop 16) = some i ∧ m' = ((({ m with staging := none }.storeItems
      i).configChanged m.items).capBackup.judgeLedgerFree).leaveShelf) :=
  ⟨⟨at_ up, 0, pkt (u32 0 ++ u32 16 ++ u32 0 ++ u16 8 ++ u8 0 ++ rsv 1 ++ rsv 8), _, [], rfl, admitted
     (by decide +kernel), by decide +kernel⟩,
   ⟨at_ up, 0, pkt (u32 0 ++ u32 16 ++ u32 0 ++ u16 16 ++ u8 1 ++ rsv 1 ++ img), _, _, [], Items.default, rfl, admitted
     (by decide +kernel), by decide +kernel, by decide +kernel, by decide +kernel, image_parses, rfl⟩⟩

/-- Each group of hypotheses of `Obligations.LongCommands` is met together. -/
theorem test_long_commands_met :
    (∃ (s : State) (dt : Nat) (p : Packet) (m : Module), m = s.turn dt p ∧ Admitted opSwatchLearn p s dt) ∧
    (∃ (s : State) (dt : Nat) (p : Packet) (m : Module), m = s.turn dt p ∧ Admitted opOpenWireTest p s dt) ∧
    (∃ (s : State) (dt : Nat) (p : Packet) (m : Module), m = s.turn dt p ∧ Admitted opBistRun p s dt) ∧
    (∃ (s : State) (dt : Nat) (p : Packet) (m : Module), m = s.turn dt p ∧ Admitted opSwatchRead p s dt ∧ m.sliceRuns
      (p.field 0 2 / 16) = true) ∧
    (∃ (s : State) (dt : Nat) (p : Packet) (m : Module), m = s.turn dt p ∧ Admitted opSwatchRead p s dt ∧ m.sliceRuns
      (p.field 0 2 / 16) = false) :=
  ⟨⟨at_ up, 0, pkt (u16 0 ++ u16 16 ++ u16 16 ++ rsv 2), _, rfl, admitted (by decide +kernel)⟩,
   ⟨at_ up, 0, pkt (u16 0 ++ u16 384), _, rfl, admitted (by decide +kernel)⟩,
   ⟨at_ up, 0, pkt (u8 1 ++ rsv 1 ++ u16 0), _, rfl, admitted (by decide +kernel)⟩,
   ⟨at_ up, 0, pkt (u32 0), _, rfl, admitted (by decide +kernel), by decide +kernel⟩,
   ⟨at_ up, 0, pkt (u32 383), _, rfl, admitted (by decide +kernel), by decide +kernel⟩⟩

/-- Each group of hypotheses of `Obligations.RingCommands` is met together. -/
theorem test_ring_commands_met :
    (∃ (s : State) (dt : Nat) (p : Packet) (m : Module), m = s.turn dt p ∧ Admitted opRingEnumerate p s dt) ∧
    (∃ (s : State) (dt : Nat) (p : Packet) (m : Module) (e : Bool) (w : Bool), m = s.turn dt p ∧ Admitted opEscrowPush p s
      dt ∧ e = (m.configSealed && (m.ring.east.auth == .done && !m.ring.east.broken)) ∧ w = (m.configSealed &&
      (m.ring.west.auth == .done && !m.ring.west.broken))) :=
  ⟨⟨at_
     ({ up with win := { up.win with enumerated := true }, ring := { up.ring with lanes := (0, { LaneSt.down with state := 2 }) :: up.ring.lanes } }),
     0, pkt [], _, rfl, admitted (by decide +kernel)⟩,
   ⟨at_ up, 0, pkt [], _, _, _, rfl, admitted (by decide +kernel), rfl, rfl⟩⟩

/-- Each group of hypotheses of `Obligations.MeterCommands` is met together. -/
theorem test_meter_commands_met :
    (∃ (s : State) (dt : Nat) (p : Packet) (m : Module) (k : Nat), m = s.turn dt p ∧ Admitted opTariffAt p s dt ∧
      m.meter.tariffSlot (p.field 4 5) = some k) ∧
    (∃ (s : State) (dt : Nat) (p : Packet) (m : Module), m = s.turn dt p ∧ Admitted opDemandSet p s dt) :=
  ⟨⟨at_ up, 0, pkt (u8 7 ++ rsv 3 ++ u40 65537 ++ rsv 3), _, 3298, rfl, admitted (by decide +kernel), by decide +kernel⟩,
   ⟨at_ up, 0, pkt (u32 1500 ++ u8 1 ++ u8 2 ++ rsv 2), _, rfl, admitted (by decide +kernel)⟩⟩

/-- Each group of hypotheses of `Obligations.UpdateCommands` is met together. -/
theorem test_update_commands_met :
    (∃ (s : State) (dt : Nat) (p : Packet) (m : Module), m = s.turn dt p ∧ Admitted opUpdateOpen p s dt ∧ m.inRom = false
      ∧ m.entropyReady = true) ∧
    (∃ (s : State) (dt : Nat) (p : Packet) (m : Module), m = s.turn dt p ∧ Admitted opUpdateOpen p s dt ∧ m.inRom = true ∧
      (partsOf (manifestOf p)).any (fun e => e.form != 0) = false) ∧
    (∃ (s : State) (dt : Nat) (p : Packet) (m : Module) (m' : Module) (e : PartEntry) (out : List Byte), m = s.turn dt p ∧
      Admitted opBlockPut p s dt ∧ m.checkBlock (blockOf p) = some (e, out) ∧ m' = (if m.holdsBlock (blockIndex (blockOf
      p)) then m else m.newBlock (blockOf p) e out none)) ∧
    (∃ (s : State) (dt : Nat) (p : Packet) (m : Module) (m' : Module), m = s.turn dt p ∧ Admitted opPrepare p s dt ∧ m' =
      ((m.setSession (fun x =>
      { x with voteClose := some (m.voteInstant p).toNat, votes := [], failure := none, finals := x.finals ++ [m.finalRef 0x0704 p] })).ctlAll
      3 (u16 ((m.voteInstant p).toNat % 65536) ++ rsv 2 ++ u40 ((m.voteInstant p).toNat / 65536) ++ rsv 3)).answer 0x0704
      p 0 stAccepted 0 []) ∧
    (∃ (s : State) (dt : Nat) (p : Packet) (m : Module) (c : Cycle), m = s.turn dt p ∧ Admitted opCommit p s dt ∧ c =
      BitVec.ofInt 40 (m.commitCycleOf p)) ∧
    (∃ (s : State) (dt : Nat) (p : Packet) (m : Module) (m' : Module), m = s.turn dt p ∧ Admitted opConfirm p s dt ∧ m' =
      m.setSession (fun x =>
      { x with confirmSent := true, confirmBy := some (m.au + 1500 * 65536), finals := x.finals ++ [m.finalRef 0x0706 p] })) ∧
    (∃ (s : State) (dt : Nat) (p : Packet) (m : Module), m = s.turn dt p ∧ Admitted opUnwind p s dt) ∧
    (∃ (s : State) (dt : Nat) (p : Packet) (m : Module), m = s.turn dt p ∧ Admitted opUpdateAbort p s dt) ∧
    (∃ (s : State) (dt : Nat) (p : Packet) (m : Module), m = s.turn dt p ∧ Admitted opRecoverActivate p s dt ∧
      m.upd.escrow.allGood = true ∧ m.upd.fuses ≤ secOf m.upd.escrow.manifestBytes ∧ (m.majorDiffers
      m.upd.escrow.manifestBytes = true → m.upd.escrow.clean = true)) :=
  ⟨⟨at_
     ({ up with win := { up.win with enumerated := true }, ring := { up.ring with lanes := (0, { LaneSt.down with state := 2 }) :: up.ring.lanes }, ent := { up.ent with state := 1, drbg := true }, clk := { up.clk with tick := 5 } }),
     0, { pkt (u8 1 ++ rsv 3 ++ u32 672 ++ man0) with target := 0xFF }, _, rfl, admitted (by decide +kernel),
     by decide +kernel⟩,
   ⟨at_ ({ up with stage := .bootRom }), 0, pkt (u8 1 ++ rsv 3 ++ u32 672 ++ man0), _, rfl, admitted (by decide +kernel),
     by decide +kernel⟩,
   ⟨at_
     ({ up with upd := { up.upd with session := { up.upd.session with phase := .receiving, id := 7 }, bank1 := { up.upd.bank1 with manifest := man1 } } }),
     0, pkt (u32 7 ++ u32 0 ++ rsv 8 ++ block1), _, _, partAt man1 0, [1], rfl, admitted (by decide +kernel),
     by decide +kernel, rfl⟩,
   ⟨at_
     ({ up with upd := { up.upd with session := { up.upd.session with id := 7, opener := true, roster := [0, 1, 2, 3], phase := .assembled } } }),
     0, pkt (u32 7 ++ u16 0 ++ rsv 2 ++ u32 65600), _, _, rfl, admitted (by decide +kernel), rfl⟩,
   ⟨at_
     ({ up with upd := { up.upd with session := { up.upd.session with id := 7, opener := true, roster := [0, 1, 2, 3], phase := .prepared } } }),
     0, pkt (u32 7 ++ u32 65600), _, _, rfl, admitted (by decide +kernel), rfl⟩,
   ⟨at_
     ({ up with upd := { up.upd with session := { up.upd.session with id := 7, opener := true, roster := [0, 1, 2, 3], phase := .trial, trials := [(0, 0), (1, 0), (2, 0), (3, 0)] } } }),
     0, pkt (u32 7), _, _, rfl, admitted (by decide +kernel), rfl⟩,
   ⟨at_
     ({ up with upd := { up.upd with session := { up.upd.session with id := 7, opener := true, roster := [0, 1, 2, 3], phase := .trial, trials := [(0, 0), (1, 0), (2, 0), (3, 0)] } } }),
     0, pkt (u32 7), _, rfl, admitted (by decide +kernel)⟩,
   ⟨at_
     ({ up with upd := { up.upd with session := { up.upd.session with id := 7, opener := true, roster := [0, 1, 2, 3], phase := .prepared } } }),
     0, pkt (u32 7), _, rfl, admitted (by decide +kernel)⟩,
   ⟨at_
     ({ up with stage := .bootRom, upd := { up.upd with bank1 := { up.upd.bank1 with session := 7, manifest := man0, clean := true } } }),
     0, pkt (u32 7), _, rfl, admitted (by decide +kernel), by decide +kernel⟩⟩

/-- Each group of hypotheses of `Obligations.EntropyAndPortCommands` is met together. -/
theorem test_entropy_and_port_commands_met :
    (∃ (s : State) (dt : Nat) (p : Packet) (m : Module), m = s.turn dt p ∧ Admitted opRandom p s dt ∧ m.entropyReady =
      true) ∧
    (∃ (s : State) (dt : Nat) (p : Packet) (m : Module), m = s.turn dt p ∧ Admitted opUartSet p s dt ∧ p.path ≠ portPath
      (portOf (p.field 0 1))) ∧
    (∃ (s : State) (dt : Nat) (p : Packet) (m : Module), m = s.turn dt p ∧ Admitted opUartSet p s dt ∧ p.path = portPath
      (portOf (p.field 0 1))) ∧
    (∃ (s : State) (dt : Nat) (p : Packet) (m : Module), m = s.turn dt p ∧ Admitted opUartBreak p s dt) :=
  ⟨⟨at_ ({ up with ent := { up.ent with state := 1, drbg := true }, clk := { up.clk with tick := 5 } }), 0, pkt (u32
     1024), _, rfl, admitted (by decide +kernel), by decide +kernel⟩,
   ⟨at_ up, 0, pkt (u8 1 ++ u8 16 ++ u16 26 ++ u8 1 ++ u8 0 ++ u8 0 ++ u8 0), _, rfl, admitted (by decide +kernel),
     by decide +kernel⟩,
   ⟨at_ up, 0, pkt (u8 0 ++ u8 16 ++ u16 26 ++ u8 0 ++ u8 0 ++ u8 0 ++ u8 0), _, rfl, admitted (by decide +kernel),
     by decide +kernel⟩,
   ⟨at_ up, 0, pkt (u16 0 ++ u16 1), _, rfl, admitted (by decide +kernel)⟩⟩

/-- Each group of hypotheses of `Obligations.RefusedContents` is met together. -/
theorem test_refused_contents_met :
    (∃ (s : State) (dt : Nat) (p : Packet) (m : Module), m = s.turn dt p ∧ Admitted opBlockPut p s dt ∧ m.checkBlock
      (blockOf p) = none) ∧
    (∃ (s : State) (dt : Nat) (p : Packet) (m : Module), m = s.turn dt p ∧ Admitted opRandom p s dt ∧ m.ent.healthy =
      false) ∧
    (∃ (s : State) (dt : Nat) (p : Packet) (m : Module) (b : List Byte), m = s.turn dt p ∧ Admitted opConfigWrite p s dt ∧
      p.field 14 1 = 1 ∧ b = (if p.field 8 4 = 0 then [] else (match m.staging with | some (_, _, b) => b | none => [])) ∧
      (p.field 0 4 = 0 ∨ p.field 0 4 = m.revision.toNat) ∧ parseImage m.variant m.upd.schema m.positionByte (b ++
      p.params.drop 16) = none) :=
  ⟨⟨at_ ({ up with upd := { up.upd with session := { up.upd.session with phase := .receiving, id := 7 } } }), 0, pkt (u32
     7 ++ u32 0 ++ rsv 20 ++ u16 1 ++ rsv 19), _, rfl, admitted (by decide +kernel), by decide +kernel⟩,
   ⟨at_ ({ up with ent := { up.ent with state := 0 } }), 0, pkt (u32 4), _, rfl, admitted (by decide +kernel),
     by decide +kernel⟩,
   ⟨at_ up, 0, pkt (u32 0 ++ u32 16 ++ u32 0 ++ u16 16 ++ u8 1 ++ rsv 1 ++ rsv 16), _, [], rfl, admitted
     (by decide +kernel), by decide +kernel⟩⟩

/-- Each group of hypotheses of `Obligations.PacketsAreJudged` is met together. -/
theorem test_packets_are_judged_met :
    (∃ (s : State) (dt : Nat) (op : Op) (p : Packet) (m : Module) (st : Word16) (d : Word16), m = s.turn dt p ∧ Taken
      op.code p s dt ∧ m.retried op.code p = none ∧ m.aim op p = .here ∧ m.check op p = some (st, d) ∧ st ≠ 0x1001) ∧
    (∃ (s : State) (dt : Nat) (op : Op) (p : Packet) (m : Module) (d : Word16), m = s.turn dt p ∧ Taken op.code p s dt ∧
      m.retried op.code p = none ∧ m.aim op p = .here ∧ m.check op p = some (0x1001, d)) ∧
    (∃ (s : State) (dt : Nat) (op : Op) (p : Packet) (m : Module) (st : Word16) (d : Word16), m = s.turn dt p ∧ Taken
      op.code p s dt ∧ m.retried op.code p = none ∧ m.aim op p = .refused st d) :=
  ⟨⟨at_ up, 0, opTimeRead, pkt (u8 0), _, 0x2001, 0x000C, rfl, taken (by decide +kernel), by decide +kernel⟩,
   ⟨at_ ({ up with pow := { up.pow with ledger := 1 } }), 0, opBistRun, pkt (u8 1 ++ rsv 1 ++ u16 0), _, 0, rfl, taken
     (by decide +kernel), by decide +kernel⟩,
   ⟨at_ up, 0, opDumpRelease, { pkt [] with target := 0xFE }, _, 0x2001, 8, rfl, taken (by decide +kernel),
     by decide +kernel⟩⟩

/-- Each group of hypotheses of `Obligations.ForwardedPackets` is met together. -/
theorem test_forwarded_packets_met :
    (∃ (s : State) (dt : Nat) (op : Op) (p : Packet) (m : Module) (m' : Module) (q : Nat) (t : Word16), m = s.turn dt p ∧
      Taken op.code p s dt ∧ m.retried op.code p = none ∧ m.aim op p = .other q ∧ m.tillOk p = true ∧ m.ringReady = true ∧
      (op.accepts = true → m.ring.watches.length < 4096) ∧ m.freeRing = some t ∧ m' = (m.setTill t (fun _ =>
      { Till.closed with kind := 5, state := 4, epoch := Tbl.get 0 m.ring.epochs q, link := BitVec.ofNat 16 q, tag := p.tag })).ringSend
      2 (BitVec.ofNat 8 q) (Tbl.get 0 m.ring.epochs q) t (p.bytes op.code)) ∧
    (∃ (s : State) (dt : Nat) (op : Op) (p : Packet) (m : Module) (q : Nat), m = s.turn dt p ∧ Taken op.code p s dt ∧
      m.retried op.code p = none ∧ m.aim op p = .other q ∧ m.tillOk p = true ∧ (m.ringReady = false ∨ (op.accepts = true ∧
      4096 ≤ m.ring.watches.length) ∨ m.freeRing = none)) :=
  ⟨⟨at_ up, 0, opTimeRead, { pkt [] with target := 1 }, _, _, 1, 0xC000, rfl, taken (by decide +kernel),
     by decide +kernel, by decide +kernel, by decide +kernel, by decide +kernel, by decide +kernel, by decide +kernel,
     rfl⟩,
   ⟨at_ ({ up with stage := .lamps }), 0, opTimeRead, { pkt [] with target := 1 }, _, 1, rfl, taken (by decide +kernel),
     by decide +kernel⟩⟩

/-- Each group of hypotheses of `Obligations.DoorbellsAndAttachment` is met together. -/
theorem test_doorbells_and_attachment_met :
    (∃ (s : State) (dt : Nat) (till : Word16) (prod : Word16) (epoch : Word16) (m : Module), m = (s.m.elapse
      dt).restartKeepalive ∧ (s.m.elapse dt).coresUp = true ∧ m.win.attached = true ∧ (m.till till).state = 1 ∧ till.toNat
      < 0x2000 ∧ epoch = m.vault.hostEpoch ∧ (prod - (m.till till).cons).toNat ≤ (m.till till).len.toNat ∧ ((m.till
      till).kind = 2 ∨ till = 0) ∧ Tbl.wf Till.closed m.win.tills = true) ∧
    (∃ (s : State) (dt : Nat) (till : Word16) (prod : Word16) (epoch : Word16) (m : Module), m = (s.m.elapse
      dt).restartKeepalive ∧ (s.m.elapse dt).coresUp = true ∧ m.win.attached = true ∧ (m.till till).state = 1 ∧ till.toNat
      < 0x2000 ∧ epoch = m.vault.hostEpoch ∧ (prod - (m.till till).cons).toNat ≤ (m.till till).len.toNat ∧ (m.till
      till).kind ≠ 2 ∧ till ≠ 0 ∧ Tbl.wf Till.closed m.win.tills = true) ∧
    (∃ (s : State) (dt : Nat) (till : Word16) (prod : Word16) (epoch : Word16) (m : Module) (reason : Byte), m =
      (s.m.elapse dt).restartKeepalive ∧ (s.m.elapse dt).coresUp = true ∧ ((m.win.attached = false ∧ reason = 4) ∨
      (m.win.attached = true ∧ ((m.till till).state ≠ 1 ∨ 0x2000 ≤ till.toNat) ∧ reason = 1) ∨ (m.win.attached = true ∧
      (m.till till).state = 1 ∧ till.toNat < 0x2000 ∧ epoch ≠ m.vault.hostEpoch ∧ reason = 2) ∨ (m.win.attached = true ∧
      (m.till till).state = 1 ∧ till.toNat < 0x2000 ∧ epoch = m.vault.hostEpoch ∧ (m.till till).len.toNat < (prod -
      (m.till till).cons).toNat ∧ reason = 3))) ∧
    (∃ (s : State) (dt : Nat) (page : BitVec 14) (m : Module) (e : Word16), m = (s.m.elapse dt).detachHost 1 ∧ (s.m.elapse
      dt).coresUp = true ∧ m.win.code page.toNat = 1 ∧ m.win.code (page.toNat + 1) = 1 ∧ page.toNat + 1 < 16384 ∧ e =
      nextEpoch m.vault.hostEpoch) ∧
    (∃ (s : State) (dt : Nat) (page : BitVec 14) (m : Module), m = (s.m.elapse dt).detachHost 1 ∧ (s.m.elapse dt).coresUp
      = true ∧ (¬(m.win.code page.toNat = 1 ∧ m.win.code (page.toNat + 1) = 1 ∧ page.toNat + 1 < 16384))) ∧
    (∃ (s : State) (dt : Nat) (m : Module), m = s.m.elapse dt ∧ m.coresUp = true ∧ m.win.attached = true) ∧
    (∃ (s : State) (dt : Nat) (d : Nat) (m : Module), m = s.m.elapse dt ∧ m.win.keepDeadline = some d ∧ d <
      m.clk.tick.toNat ∧ m.win.attached = true) ∧
    (∃ (s : State) (dt : Nat) (d : Nat) (m : Module), m = s.m.elapse dt ∧ m.win.keepDeadline = some d ∧ m.clk.tick.toNat ≤
      d) :=
  ⟨⟨at_
     ({ up with win := { up.win with tills := [(0x100, { Till.closed with state := 1, kind := 2, len := 16 })], attached := true } }),
     0, 0x100, 16, 1, _, rfl, by decide +kernel⟩,
   ⟨at_
     ({ up with win := { up.win with tills := [(0x1fff, { Till.closed with state := 1, kind := 3, len := 16 })], attached := true } }),
     0, 0x1fff, 16, 1, _, rfl, by decide +kernel⟩,
   ⟨at_ up, 0, 0x100, 0, 0, _, 4, rfl, by decide +kernel⟩,
   ⟨at_ ({ up with win := { up.win with passbook := [(16382, 1), (16383, 1)] } }), 0, 16382, _, _, rfl, by decide +kernel,
     by decide +kernel, by decide +kernel, by decide +kernel, rfl⟩,
   ⟨at_ ({ up with win := { up.win with passbook := [(16383, 1)] } }), 0, 16383, _, rfl, by decide +kernel⟩,
   ⟨at_ ({ up with win := { up.win with attached := true } }), 0, _, rfl, by decide +kernel⟩,
   ⟨at_ ({ up with win := { up.win with keepDeadline := some 1999999999999, attached := true } }), 0, 1999999999999, _,
     rfl, by decide +kernel⟩,
   ⟨at_ ({ up with win := { up.win with keepDeadline := some 2000000000000 } }), 0, 2000000000000, _, rfl,
     by decide +kernel⟩⟩

/-- Each group of hypotheses of `Obligations.PassbookExchange` is met together. -/
theorem test_passbook_exchange_met :
    (∃ (s : State) (dt : Nat) (first : Word16) (count : Word16) (expect : BitVec 2) (new : BitVec 2) (seq : Word16) (m :
      Module), m = (s.m.elapse dt).nextUnit ∧ m.coresUp = true ∧ Tbl.wf 0 m.win.passbook = true ∧ 2 ≤ first.toNat ∧ 0 <
      count.toNat ∧ first.toNat + count.toNat ≤ 16128 ∧ ((expect = 0 ∧ new = 1) ∨ (expect = 1 ∧ new = 0) ∨ (expect = 1 ∧
      new = 2)) ∧ (∀ k, first.toNat ≤ k → k < first.toNat + count.toNat → m.win.code k = expect) ∧ (∀ k, first.toNat ≤ k →
      k < first.toNat + count.toNat → ∀ b ∈ m.pagesInUse, touches b.1 b.2 k = false)) ∧
    (∃ (s : State) (dt : Nat) (first : Word16) (count : Word16) (expect : BitVec 2) (new : BitVec 2) (seq : Word16) (m :
      Module) (k : Nat), m = (s.m.elapse dt).nextUnit ∧ m.coresUp = true ∧ 2 ≤ first.toNat ∧ first.toNat + count.toNat ≤
      16128 ∧ ((expect = 0 ∧ new = 1) ∨ (expect = 1 ∧ new = 0) ∨ (expect = 1 ∧ new = 2)) ∧ first.toNat ≤ k ∧ k <
      first.toNat + count.toNat ∧ m.win.code k ≠ expect ∧ (∀ j, first.toNat ≤ j → j < k → m.win.code j = expect)) ∧
    (∃ (s : State) (dt : Nat) (first : Word16) (count : Word16) (expect : BitVec 2) (new : BitVec 2) (seq : Word16) (m :
      Module) (k : Nat) (b : Nat × Nat), m = (s.m.elapse dt).nextUnit ∧ m.coresUp = true ∧ 2 ≤ first.toNat ∧ first.toNat +
      count.toNat ≤ 16128 ∧ ((expect = 0 ∧ new = 1) ∨ (expect = 1 ∧ new = 0) ∨ (expect = 1 ∧ new = 2)) ∧ (∀ j, first.toNat
      ≤ j → j < first.toNat + count.toNat → m.win.code j = expect) ∧ first.toNat ≤ k ∧ k < first.toNat + count.toNat ∧ b ∈
      m.pagesInUse ∧ touches b.1 b.2 k = true ∧ (∀ j, first.toNat ≤ j → j < k → ∀ b ∈ m.pagesInUse, touches b.1 b.2 j =
      false)) ∧
    (∃ (s : State) (dt : Nat) (first : Word16) (count : Word16) (expect : BitVec 2) (new : BitVec 2) (seq : Word16) (m :
      Module), m = (s.m.elapse dt).nextUnit ∧ m.coresUp = true ∧ 2 ≤ first.toNat ∧ 0 < count.toNat ∧ first.toNat +
      count.toNat ≤ 16128 ∧ (¬((expect = 0 ∧ new = 1) ∨ (expect = 1 ∧ new = 0) ∨ (expect = 1 ∧ new = 2)))) ∧
    (∃ (s : State) (dt : Nat) (first : Word16) (count : Word16) (expect : BitVec 2) (new : BitVec 2) (seq : Word16) (m :
      Module), m = (s.m.elapse dt).nextUnit ∧ m.coresUp = true ∧ (first.toNat < 2 ∨ count = 0 ∨ 16128 < first.toNat +
      count.toNat)) :=
  ⟨⟨at_ up, 0, 16127, 1, 0, 1, 0, _, rfl, by decide +kernel, by decide +kernel, by decide +kernel, by decide +kernel,
     by decide +kernel, by decide +kernel,
     (fun k h1 h2 => (show 16127 = k from Nat.le_antisymm h1 (Nat.le_of_lt_succ h2)) ▸ (by decide +kernel)),
     by decide +kernel⟩,
   ⟨at_ up, 0, 16127, 1, 1, 2, 0, _, 16127, rfl, by decide +kernel, by decide +kernel, by decide +kernel,
     by decide +kernel, by decide +kernel, by decide +kernel, by decide +kernel,
     (fun j h1 h2 => absurd h2 (Nat.not_lt.mpr h1))⟩,
   ⟨at_
     { up with win := { up.win with passbook := [(16127, 1)], tills := [(0x100, { Till.closed with kind := 2, state := 1, base := 0x3EFF000, len := 16 })] } },
     0, 16127, 1, 1, 2, 0, _, 16127, (0x3EFF000, 256), rfl, by decide +kernel, by decide +kernel, by decide +kernel,
     by decide +kernel,
     (fun k h1 h2 => (show 16127 = k from Nat.le_antisymm h1 (Nat.le_of_lt_succ h2)) ▸ (by decide +kernel)),
     by decide +kernel, by decide +kernel, by decide +kernel, by decide +kernel,
     (fun j h1 h2 => absurd h2 (Nat.not_lt.mpr h1))⟩,
   ⟨at_ up, 0, 16127, 1, 0, 2, 0, _, rfl, by decide +kernel⟩,
   ⟨at_ up, 0, 1, 1, 0, 0, 0, _, rfl, by decide +kernel⟩⟩

/-- Each group of hypotheses of `Obligations.WindowAccess` is met together. -/
theorem test_window_access_met :
    (∃ (s : State) (dt : Nat) (offset : Word32) (data : List Byte) (m : Module), m = (s.m.elapse dt).nextUnit ∧ m.coresUp
      = true ∧ Memory.wf m.win.mem = true ∧ 0 < data.length ∧ offset.toNat % 4096 + data.length ≤ 4096 ∧ offset.toNat +
      data.length ≤ 0x4000000 ∧ 4096 ≤ offset.toNat ∧ m.win.code (offset.toNat / 4096) = 1) ∧
    (∃ (s : State) (dt : Nat) (offset : Word32) (data : List Byte) (m : Module), m = (s.m.elapse dt).nextUnit ∧ m.coresUp
      = true ∧ 0 < data.length ∧ offset.toNat % 4096 + data.length ≤ 4096 ∧ offset.toNat + data.length ≤ 0x4000000 ∧ 4096
      ≤ offset.toNat ∧ m.win.code (offset.toNat / 4096) ≠ 1) ∧
    (∃ (s : State) (dt : Nat) (tag : Nat) (offset : Word32) (len : Word16) (data : List Byte) (m : Module) (t : Module), m
      = s.m.elapse dt ∧ m.coresUp = true ∧ t =
      { m with win := { m.win with badCrc := satInc m.win.badCrc }, out := m.out ++ [.hNotice (satInc m.win.badCrc)] }) ∧
    (∃ (s : State) (dt : Nat) (tag : Nat) (offset : Word32) (len : Word16) (m : Module), m = (s.m.elapse dt).nextUnit ∧
      m.coresUp = true ∧ 0 < len.toNat ∧ offset.toNat % 4096 + len.toNat ≤ 4096 ∧ offset.toNat + len.toNat ≤ 0x4000000 ∧
      8192 ≤ offset.toNat ∧ m.win.code (offset.toNat / 4096) ≠ 3 ∧ (∀ e ∈ m.win.eccWords, offset.toNat + len.toNat ≤ 8 *
      e.1 ∨ 8 * e.1 + 8 ≤ offset.toNat)) ∧
    (∃ (s : State) (dt : Nat) (tag : Nat) (offset : Word32) (len : Word16) (m : Module), m = (s.m.elapse dt).nextUnit ∧
      m.coresUp = true ∧ 0 < len.toNat ∧ offset.toNat % 4096 + len.toNat ≤ 4096 ∧ offset.toNat + len.toNat ≤ 0x4000000 ∧
      m.win.code (offset.toNat / 4096) = 3) ∧
    (∃ (s : State) (dt : Nat) (tag : Nat) (offset : Word32) (len : Word16) (m : Module), m = (s.m.elapse dt).nextUnit ∧
      m.coresUp = true ∧ (len = 0 ∨ 4096 < offset.toNat % 4096 + len.toNat ∨ 0x4000000 < offset.toNat + len.toNat)) ∧
    (∃ (s : State) (dt : Nat) (first : Nat) (data : List Byte) (m : Module), m = s.m.elapse dt ∧ m.coresUp = true ∧ Tbl.wf
      false m.win.pendingBits = true) :=
  ⟨⟨at_ ({ up with win := { up.win with passbook := [(16383, 1)] } }), 0, 0x3FFFFFF, [1], _, rfl, by decide +kernel⟩,
   ⟨at_ up, 0, 4096, [1], _, rfl, by decide +kernel⟩,
   ⟨at_ up, 0, 0, 0, 0, [], _, _, rfl, by decide +kernel, rfl⟩,
   ⟨at_ up, 0, 0, 8192, 4096, _, rfl, by decide +kernel⟩,
   ⟨at_ ({ up with win := { up.win with passbook := [(16383, 3)] } }), 0, 0, 0x3FFFFFF, 1, _, rfl, by decide +kernel⟩,
   ⟨at_ up, 0, 0, 0, 0, _, rfl, by decide +kernel⟩,
   ⟨at_ up, 0, 0, [], _, rfl, by decide +kernel⟩⟩

/-- Each group of hypotheses of `Obligations.WindowReports` is met together. -/
theorem test_window_reports_met :
    (∃ (s : State) (dt : Nat) (till : Word16) (m : Module) (w : Waiting) (d : Desc) (a : Nat), m = s.m.elapse dt ∧
      m.tillTest = false ∧ m.coresUp = true ∧ m.win.attached = true ∧ m.reports till = true ∧ m.win.waiting.find?
      (fun w => w.till == till) = some w ∧ (m.till till).cons ≠ (m.till till).prod ∧ d = m.desc (m.till till) (m.till
      till).cons ∧ d.own = true ∧ w.entry.bytes.length ≤ d.len ∧ m.bufferOk d.addr d.len = true ∧ a = (m.till till).descAt
      (m.till till).cons ∧ w.epoch = m.vault.hostEpoch ∧ till.toNat < 0x1000 ∧ m.win.losses = [] ∧ Tbl.get false
      m.win.stopped till.toNat = false ∧ m.resetDue = none ∧ m.pow.standbyDue = false ∧ m.diag.bist = none) ∧
    (∃ (s : State) (dt : Nat) (source : Byte) (word : Word32) (m : Module), m = s.m.elapse dt ∧ Tbl.get false
      m.win.eccWords (word.toNat / 8) = false) ∧
    (∃ (s : State) (dt : Nat) (source : Byte) (word : Word32) (m : Module), m = s.m.elapse dt ∧ Tbl.get false
      m.win.eccWords (word.toNat / 8) = true) ∧
    (∃ (s : State) (dt : Nat) (opcode : Word16) (p : Packet) (m : Module) (port : Port), m = s.turn dt p ∧ (s.m.elapse
      dt).tillTest = false ∧ (s.m.elapse dt).takes p.path = true ∧ (s.m.elapse dt).atTurn opcode p false = true ∧ p.path =
      portPath port) ∧
    (∃ (s : State) (dt : Nat) (opcode : Word16) (p : Packet) (m : Module) (m' : Module) (t : Word16), m = s.turn dt p ∧
      (s.m.elapse dt).tillTest = false ∧ (s.m.elapse dt).takes p.path = true ∧ (s.m.elapse dt).atTurn opcode p false =
      true ∧ p.path = .laneH t ∧ m' =
      { m with tel := m.tel.setMem p.path (⟨p.path, m.tel.cur.epoch, opcode, p, some (m.mkReply opcode 16 p.tag 0x2003 0 [])⟩ :: m.tel.mem p.path) }) ∧
    (∃ (s : State) (dt : Nat) (opcode : Word16) (p : Packet) (m : Module), m = s.turn dt p ∧ Taken opcode p s dt ∧
      definedOpcodes.contains opcode = false ∧ m.retried opcode p = none) :=
  ⟨⟨at_
     ({ up with win := { up.win with attached := true, tills := [(1, { Till.closed with state := 1, base := 8192, len := 16, prod := 1 })], passbook := [(3, 1)], waiting := [⟨1, reply0, 1⟩], mem := [⟨8193, 0x30⟩, ⟨8197, 0x10⟩, ⟨8204, 1⟩] } }),
     0, 1, _, ⟨1, reply0, 1⟩, _, _, rfl, by decide +kernel, by decide +kernel, by decide +kernel, by decide +kernel,
     by decide +kernel, by decide +kernel, rfl, by decide +kernel, by decide +kernel, by decide +kernel, rfl,
     by decide +kernel⟩,
   ⟨at_ up, 0, 0, 0, _, rfl, by decide +kernel⟩,
   ⟨at_ ({ up with win := { up.win with eccWords := [(1, true)] } }), 0, 0, 15, _, rfl, by decide +kernel⟩,
   ⟨at_ up, 0, 0, pkt [], _, .maint, rfl, by decide +kernel⟩,
   ⟨at_ { up with tel := { up.tel with queue := [⟨0, { pkt [] with path := .laneH 0x100 }, 0, false, ⟨1, false, 0⟩⟩] } },
     0, 0, { pkt [] with path := .laneH 0x100 }, _, _, 0x100, rfl, by decide +kernel, by decide +kernel,
     by decide +kernel, rfl, rfl⟩,
   ⟨at_ up, 0, 0, pkt [], _, rfl, taken (by decide +kernel), by decide +kernel⟩⟩

/-- Each group of hypotheses of `Obligations.StartStages` is met together. -/
theorem test_start_stages_met :
    (∃ (s : State) (dt : Nat), s.m.stage = .unpowered) ∧
    (∃ (s : State) (dt : Nat) (digestsOk : Bool) (m : Module) (t : Module), m = s.m.elapse dt ∧ (m.stage = .rails ∨
      m.stage = .boot) ∧ m.upd.select ≠ 1 ∧ t =
      { m with upd := { m.upd with fwVersion := m.upd.active.versions.1, secVersion := m.upd.active.versions.2.1, schema := m.upd.active.versions.2.2 } }
      ∧ t.bootable digestsOk = true) ∧
    (∃ (s : State) (dt : Nat) (digestsOk : Bool) (m : Module) (t : Module), m = s.m.elapse dt ∧ (m.stage = .rails ∨
      m.stage = .boot) ∧ m.upd.select ≠ 1 ∧ t =
      { m with upd := { m.upd with fwVersion := m.upd.active.versions.1, secVersion := m.upd.active.versions.2.1, schema := m.upd.active.versions.2.2 } }
      ∧ t.bootable digestsOk = false) ∧
    (∃ (s : State) (dt : Nat) (digestsOk : Bool) (m : Module), m = s.m.elapse dt ∧ (m.stage = .rails ∨ m.stage = .boot) ∧
      m.upd.select = 1 ∧ m.upd.bootCount ≠ 0) ∧
    (∃ (s : State) (dt : Nat) (m : Module), m = s.m.elapse dt ∧ m.stage = .vault ∧ m.diag.bist = none ∧ m.halted = false) ∧
    (∃ (s : State) (dt : Nat) (m : Module), m = s.m.elapse dt ∧ m.stage = .lock ∧ steadyTracker m.clk.tracker = true ∧
      m.variant.hasRing = true ∧ m.halted = false) ∧
    (∃ (s : State) (dt : Nat) (m : Module), m = s.m.elapse dt ∧ (m.stage ≠ .lock ∨ steadyTracker m.clk.tracker = false ∨
      m.halted = true)) ∧
    (∃ (s : State) (dt : Nat) (east : Option Escrow) (west : Option Escrow) (m : Module), m = s.m.elapse dt ∧ m.ringUp =
      true ∧ m.stage = .lamps ∧ m.ring.position ≠ none ∧ m.ring.form ≠ .none ∧ m.ring.isRef = true ∧ m.configValid = true
      ∧ m.inUse = true ∧ m.halted = false ∧ east.filter m.copyOk = none ∧ west.filter m.copyOk = none) ∧
    (∃ (s : State) (dt : Nat) (east : Option Escrow) (west : Option Escrow) (m : Module), m = s.m.elapse dt ∧ m.ringUp =
      true ∧ m.stage = .lamps ∧ m.ring.position ≠ none ∧ m.ring.form ≠ .none ∧ m.ring.isRef = true ∧ m.configValid = false
      ∧ m.shelf = false ∧ m.halted = false ∧ east.filter m.copyOk = none ∧ west.filter m.copyOk = none) :=
  ⟨⟨at_ Module.reset, 0, by decide +kernel⟩,
   ⟨at_ ({ up with stage := .boot }), 0, true, _, _, rfl, by decide +kernel, by decide +kernel, rfl, by decide +kernel⟩,
   ⟨at_ ({ up with stage := .rails }), 0, false, _, _, rfl, by decide +kernel, by decide +kernel, rfl, by decide +kernel⟩,
   ⟨at_ ({ up with stage := .boot, upd := { up.upd with select := 1, bootCount := 1 } }), 0, false, _, rfl,
     by decide +kernel⟩,
   ⟨at_ ({ up with stage := .vault, diag := { up.diag with bist := none } }), 0, _, rfl, by decide +kernel⟩,
   ⟨at_ ({ up with stage := .lock, clk := { up.clk with tracker := .locked } }), 0, _, rfl, by decide +kernel⟩,
   ⟨at_ up, 0, _, rfl, by decide +kernel⟩,
   ⟨at_
     ({ up with stage := .lamps, ring := { up.ring with isRef := true }, vault := { up.vault with current := some [1], config := some sealedConfig } }),
     0, none, none, _, rfl, by decide +kernel, by decide +kernel, by decide +kernel, by decide +kernel, by decide +kernel,
     (sealed_valid _ [1] sealedConfig rfl rfl rfl rfl), by decide +kernel⟩,
   ⟨at_ ({ up with stage := .lamps, ring := { up.ring with isRef := true }, shelf := false }), 0, none, none, _, rfl,
     by decide +kernel⟩⟩

/-- Each group of hypotheses of `Obligations.ResetsAndFatalErrors` is met together. -/
theorem test_resets_and_fatal_errors_met :
    (∃ (s : State) (dt : Nat) (cause : ResetCause) (m : Module), m = s.m.elapse dt ∧ Safe m ∧ m.resetDue = some cause ∧
      m.resetReady cause = true ∧ m.fullDdr = false ∧ m.diag.writing = none) ∧
    (∃ (s : State) (dt : Nat) (cause : ResetCause) (m : Module) (r : DumpRec), m = s.m.elapse dt ∧ Safe m ∧ m.resetDue =
      some cause ∧ m.resetReady cause = true ∧ m.fullDdr = false ∧ m.diag.writing = some r) ∧
    (∃ (s : State) (dt : Nat) (cause : ResetCause) (m : Module), m = s.m.elapse dt ∧ (m.resetDue ≠ some cause ∨
      m.resetReady cause = false)) ∧
    (∃ (s : State) (dt : Nat) (m : Module), m = s.m.elapse dt ∧ Safe m ∧ m.keeperUp = true ∧ m.prov.stall = true) ∧
    (∃ (s : State) (dt : Nat) (m : Module), m = s.m.elapse dt ∧ m.keeperUp = true ∧ m.prov.stall = false) ∧
    (∃ (s : State) (dt : Nat) (c : Instr) (code : Nat) (detail : Word32) (cause : ResetCause) (m : Module), m = s.m.elapse
      dt ∧ Safe m ∧ m.keeperUp = true ∧ m.halted = false ∧ ((c = .lockstepTeller dt ∧ code = 2 ∧ detail = 0 ∧ cause =
      .lockstepTeller) ∨ (c = .fatalError dt .firmware ∧ code = 4 ∧ detail = 0 ∧ cause = .fatal) ∨ (c = .fatalError dt
      (.ecc detail) ∧ code = 1 ∧ cause = .fatal) ∨ (∃ temp, c = .hubOvertemp dt temp ∧ 12500 ≤ temp ∧ code = 3 ∧ detail =
      BitVec.ofInt 32 temp ∧ cause = .fatal))) ∧
    (∃ (s : State) (dt : Nat) (m : Module), m = s.m.elapse dt ∧ m.keeperUp = true ∧ m.halted = true) ∧
    (∃ (s : State) (dt : Nat) (temp : Int) (m : Module), m = s.m.elapse dt ∧ m.keeperUp = true ∧ temp < 12500) :=
  ⟨⟨at_ ({ up with resetDue := some .hostWarm, prov := { up.prov with coreFb := true }, stage := .boot }), 0, .hostWarm,
     _, rfl, ⟨by decide +kernel, by decide +kernel, by decide +kernel⟩, by decide +kernel⟩,
   ⟨at_
     { up with resetDue := some .fatal, prov := { up.prov with fatal := true }, diag := { up.diag with writing := some ⟨1, 1, 0, 1, 65536, 0, 0, 0, 0, 0, 0, 0, 0, 0, 0, 0, 0, 0, 0, 0, [], [], [], 1⟩ } },
     0, .fatal, _, ⟨1, 1, 0, 1, 65536, 0, 0, 0, 0, 0, 0, 0, 0, 0, 0, 0, 0, 0, 0, 0, [], [], [], 1⟩, rfl,
     ⟨by decide +kernel, by decide +kernel, by decide +kernel⟩, by decide +kernel⟩,
   ⟨at_ up, 0, .hostWarm, _, rfl, by decide +kernel⟩,
   ⟨at_ ({ up with prov := { up.prov with stall := true } }), 0, _, rfl, ⟨by decide +kernel, by decide +kernel,
     by decide +kernel⟩, by decide +kernel⟩,
   ⟨at_ ({ up with prov := { up.prov with stall := false } }), 0, _, rfl, by decide +kernel⟩,
   ⟨at_ up, 0, .lockstepTeller 0, 2, 0, .lockstepTeller, _, rfl, ⟨by decide +kernel, by decide +kernel,
     by decide +kernel⟩, by decide +kernel, by decide +kernel, (by exact Or.inl ⟨rfl, rfl, rfl, rfl⟩)⟩,
   ⟨at_ { up with prov := { up.prov with fatal := true } }, 0, _, rfl, by decide +kernel⟩,
   ⟨at_ up, 0, 12499, _, rfl, by decide +kernel⟩⟩

/-- Each group of hypotheses of `Obligations.SliceLoads` is met together. -/
theorem test_slice_loads_met :
    (∃ (s : State) (dt : Nat) (n : Nat) (sums : List Int) (m : Module), m = s.m.elapse dt ∧ n < m.variant.slices ∧
      m.coresUp = true ∧ (m.slice n).loaded = false ∧ (m.slice n).failed = false ∧ (m.slice n).awaitHello = none ∧
      (m.slice n).loadStep = 1 ∧ (m.slice n).unacked = []) ∧
    (∃ (s : State) (dt : Nat) (n : Nat) (m : Module), m = s.m.elapse dt ∧ n < m.variant.slices ∧ m.coresUp = true ∧
      (m.slice n).loaded = false ∧ (m.slice n).failed = false ∧ (m.slice n).awaitHello = none ∧ (m.slice n).loadStep = 2 ∧
      (m.slice n).unacked = [] ∧ Tbl.wf HubSlice.reset m.hub = true ∧ Tbl.wf (OwnSlice.reset 1) m.own = true) ∧
    (∃ (s : State) (dt : Nat) (n : Nat) (d : Nat) (m : Module), m = s.m.elapse dt ∧ n < m.variant.slices ∧ (m.slice
      n).awaitHello = some d ∧ d < m.clk.tick.toNat) ∧
    (∃ (s : State) (dt : Nat) (n : Nat) (d : Nat) (cause : Byte) (m : Module), m = s.m.elapse dt ∧ n < m.variant.slices ∧
      m.coresUp = true ∧ (m.slice n).failed = false ∧ (m.slice n).awaitHello = some d ∧ m.clk.tick.toNat ≤ d) ∧
    (∃ (s : State) (dt : Nat) (n : Nat) (cause : Byte) (m : Module), m = s.m.elapse dt ∧ n < m.variant.slices ∧ (m.slice
      n).failed = false ∧ (m.slice n).awaitHello = none ∧ (m.slice n).loaded = true) ∧
    (∃ (s : State) (dt : Nat) (n : Nat) (c : Instr) (cause : Byte) (m : Module), m = s.m.elapse dt ∧ n < m.variant.slices
      ∧ ((c = .sliceSupplyLoss dt n ∧ cause = 1) ∨ (c = .sliceWatchdog dt n ∧ cause = 2) ∨ (c = .linkResetSequence dt n ∧
      cause = 3)) ∧ Tbl.wf (OwnSlice.reset 1) m.own = true ∧ Tbl.wf Chan.reset m.lamps.chans = true) ∧
    (∃ (s : State) (dt : Nat) (n : Nat) (hdr : HubHdr) (block : LoadBlock) (m : Module), m = s.m.elapse dt ∧ n <
      m.variant.slices ∧ hdr.good = true ∧ hdr.epoch = (m.ownOf n).epoch ∧ hdr.epoch ≠ 0 ∧ (m.ownOf n).running = false) ∧
    (∃ (s : State) (dt : Nat) (n : Nat) (hdr : HubHdr) (start : Bool) (block : LoadBlock) (m : Module), m = s.m.elapse dt
      ∧ n < m.variant.slices ∧ hdr.good = false) :=
  ⟨⟨at_ { up with hub := [(23, { HubSlice.reset with epoch := 1, loadStep := 1 })] }, 0, 23, [], _, rfl,
     by decide +kernel⟩,
   ⟨at_ { up with hub := [(23, { HubSlice.reset with epoch := 1, loadStep := 2 })] }, 0, 23, _, rfl, by decide +kernel⟩,
   ⟨at_
     ({ up with hub := [(0, { HubSlice.reset with epoch := 1, loaded := true, awaitHello := some 1999999999999, attempts := 2 })] }),
     0, 0, 1999999999999, _, rfl, by decide +kernel⟩,
   ⟨at_
     ({ up with hub := [(0, { HubSlice.reset with epoch := 1, loaded := true, failed := false, awaitHello := some 2000000000000 })] }),
     0, 0, 2000000000000, 0, _, rfl, by decide +kernel⟩,
   ⟨at_
     ({ up with hub := [(0, { HubSlice.reset with epoch := 1, loaded := true, failed := false, awaitHello := none })] }),
     0, 0, 0, _, rfl, by decide +kernel⟩,
   ⟨at_ up, 0, 0, .sliceSupplyLoss 0 0, 1, _, rfl, by decide +kernel, (.inl ⟨rfl, rfl⟩), by decide +kernel⟩,
   ⟨at_ ({ up with own := [(0, { OwnSlice.reset 1 with epoch := 1, running := false })] }), 0, 0, ⟨true, 1, 1⟩, .firmware,
     _, rfl, by decide +kernel⟩,
   ⟨at_ up, 0, 23, ⟨false, 1, 1⟩, true, .firmware, _, rfl, by decide +kernel⟩⟩

/-- Each group of hypotheses of `Obligations.SliceLinkEnds` is met together. -/
theorem test_slice_link_ends_met :
    (∃ (s : State) (dt : Nat) (n : Nat) (hdr : SliceHdr) (bin : Nat) (steps : List (List Word16)) (ofSeq : Word16) (ans :
      SliceAns) (m : Module) (f : Module), m = s.m.elapse dt ∧ n < m.variant.slices ∧ m.stage ≠ .unpowered ∧ m.stage ≠
      .rails ∧ (m.slice n).failed = false ∧ hdr.good = true ∧ hdr.epoch = (m.slice n).epoch ∧ hdr.epoch ≠ 0 ∧ Tbl.wf
      HubSlice.reset m.hub = true ∧ f = (m.setSlice n (fun h =>
      { h with stale := 0, lastFrame := m.clk.turn, rxSeq := hdr.seq, gaps := if hdr.seq = (m.slice n).rxSeq + 1 then h.gaps else h.gaps + 1 })).setFrames
      n (ackFrames m.clk.tick.toNat hdr.ack (m.slice n).unacked)) ∧
    (∃ (s : State) (dt : Nat) (n : Nat) (hdr : SliceHdr) (bin : Nat) (steps : List (List Word16)) (ofSeq : Word16) (ans :
      SliceAns) (m : Module), m = s.m.elapse dt ∧ n < m.variant.slices ∧ hdr.good = false) ∧
    (∃ (s : State) (dt : Nat) (n : Nat) (hdr : SliceHdr) (bin : Nat) (steps : List (List Word16)) (m : Module), m =
      s.m.elapse dt ∧ n < m.variant.slices ∧ m.stage ≠ .unpowered ∧ m.stage ≠ .rails ∧ (m.slice n).failed = false ∧
      hdr.good = true ∧ hdr.epoch ≠ (m.slice n).epoch) ∧
    (∃ (s : State) (dt : Nat) (n : Nat) (seq : Word16) (u : Unacked) (m : Module), m = s.m.elapse dt ∧ n <
      m.variant.slices ∧ (m.slice n).unacked.find? (fun u => u.seq == seq && u.sends != 0) = some u ∧ m.clk.tick.toNat ≤
      u.deadline) ∧
    (∃ (s : State) (dt : Nat) (n : Nat) (seq : Word16) (u : Unacked) (m : Module), m = s.m.elapse dt ∧ n <
      m.variant.slices ∧ (m.slice n).unacked.find? (fun u => u.seq == seq && u.sends != 0) = some u ∧ u.deadline <
      m.clk.tick.toNat ∧ 3 ≤ u.sends) ∧
    (∃ (s : State) (dt : Nat) (n : Nat) (seq : Word16) (u : Unacked) (m : Module), m = s.m.elapse dt ∧ n <
      m.variant.slices ∧ (m.slice n).unacked.find? (fun u => u.seq == seq && u.sends != 0) = some u ∧ u.deadline <
      m.clk.tick.toNat ∧ u.sends < 3 ∧ Tbl.wf HubSlice.reset m.hub = true) ∧
    (∃ (s : State) (dt : Nat) (n : Nat) (m : Module) (h : Module), m = s.m.elapse dt ∧ n < m.variant.slices ∧ (m.slice
      n).reissue = true ∧ (m.slice n).loaded = true ∧ m.crossPoint n = true ∧ h = m.setSlice n (fun h =>
      { h with reissue := false, stored := false })) ∧
    (∃ (s : State) (dt : Nat) (n : Nat) (m : Module), m = s.m.elapse dt ∧ n < m.variant.slices ∧ ((m.slice n).reissue =
      false ∨ (m.slice n).loaded = false ∨ m.crossPoint n = false)) ∧
    (∃ (s : State) (dt : Nat) (n : Nat) (table : List CalPath) (m : Module), m = s.m.elapse dt ∧ n < m.variant.slices ∧
      m.coresUp = true ∧ (m.slice n).loaded = true ∧ (m.slice n).failed = false ∧ (m.slice n).auxFrom + 16 * 65536 ≤
      m.clk.turn ∧ table = calTable (Tbl.get (0, 0) (m.slice n).aux)) ∧
    (∃ (s : State) (dt : Nat) (m : Module), m = s.m.elapse dt ∧ m.coresUp = true ∧ m.clk.turn / 4096 ≠ m.clk.timeDone) ∧
    (∃ (s : State) (dt : Nat) (n : Nat) (hdr : HubHdr) (body : PlanBody) (req : SliceReq) (m : Module) (h : Module), m =
      s.m.elapse dt ∧ n < m.variant.slices ∧ hdr.good = true ∧ (m.ownOf n).running = true ∧ (m.ownOf n).alone = false ∧
      hdr.epoch = (m.ownOf n).epoch ∧ hdr.epoch ≠ 0 ∧ hdr.seq = (m.ownOf n).lastSeq + 1 ∧ h = m.setOwn n (fun o =>
      { o with lastSeq := hdr.seq, heard := m.clk.turn })) ∧
    (∃ (s : State) (dt : Nat) (n : Nat) (hdr : HubHdr) (body : PlanBody) (req : SliceReq) (m : Module), m = s.m.elapse dt
      ∧ n < m.variant.slices ∧ (hdr.good = false ∨ (m.ownOf n).alone = true ∨ hdr.epoch ≠ (m.ownOf n).epoch ∨ hdr.epoch =
      0) ∧ req ≠ .echo) ∧
    (∃ (s : State) (dt : Nat) (n : Nat) (m : Module), m = s.m.elapse dt ∧ n < m.variant.slices ∧ (m.ownOf n).running =
      true ∧ (m.ownOf n).alone = false ∧ m.clk.pastTurn ((m.ownOf n).heard + 131072) = true ∧ Tbl.wf (OwnSlice.reset 1)
      m.own = true ∧ Tbl.wf HubSlice.reset m.hub = true) ∧
    (∃ (s : State) (dt : Nat) (n : Nat) (m : Module), m = s.m.elapse dt ∧ n < m.variant.slices ∧ ((m.ownOf n).running =
      false ∨ (m.ownOf n).alone = true ∨ m.clk.pastTurn ((m.ownOf n).heard + 131072) = false)) ∧
    (∃ (s : State) (dt : Nat) (n : Nat) (m : Module), m = s.m.elapse dt ∧ n < m.variant.slices ∧ (m.ownOf n).epoch = 0 ∧
      m.alive = true ∧ (m.slice n).failed = false) ∧
    (∃ (s : State) (dt : Nat) (n : Nat) (m : Module), m = s.m.elapse dt ∧ n < m.variant.slices ∧ (m.ownOf n).epoch ≠ 0) ∧
    (∃ (s : State) (dt : Nat) (n : Nat) (m : Module), m = s.m.elapse dt ∧ n < m.variant.slices ∧ ((m.ownOf n).alone = true
      ∨ (m.slice n).stored = true) ∧ (m.slice n).bus.phase.kind ≠ .none ∧ (m.slice n).bus.reversed = false ∧ Tbl.wf
      (OwnSlice.reset 1) m.own = true) ∧
    (∃ (s : State) (dt : Nat) (n : Nat) (m : Module), m = s.m.elapse dt ∧ n < m.variant.slices ∧ ((m.slice
      n).bus.phase.kind = .none ∨ (m.slice n).bus.reversed = true)) :=
  ⟨⟨at_ up, 0, 0, ⟨true, 1, 1, 0⟩, 127, [], 0, .done, _, _, rfl, by decide +kernel, by decide +kernel, by decide +kernel,
     by decide +kernel, by decide +kernel, by decide +kernel, by decide +kernel, by decide +kernel, rfl⟩,
   ⟨at_ up, 0, 23, ⟨false, 1, 1, 0⟩, 127, [], 0, .done, _, rfl, by decide +kernel⟩,
   ⟨at_ up, 0, 23, ⟨true, 1, 1, 0⟩, 0, [], _, rfl, by decide +kernel⟩,
   ⟨at_
     { up with hub := [(0, { HubSlice.reset with epoch := 1, loaded := true, unacked := [⟨0, .request .echo, 1, 2000000000000, none⟩] })] },
     0, 0, 0, ⟨0, .request .echo, 1, 2000000000000, none⟩, _, rfl, by decide +kernel⟩,
   ⟨at_
     { up with hub := [(0, { HubSlice.reset with epoch := 1, loaded := true, unacked := [⟨0, .request .echo, 3, 1999999999999, none⟩] })] },
     0, 0, 0, ⟨0, .request .echo, 3, 1999999999999, none⟩, _, rfl, by decide +kernel⟩,
   ⟨at_
     { up with hub := [(0, { HubSlice.reset with epoch := 1, loaded := true, unacked := [⟨0, .request .echo, 2, 1999999999999, none⟩] })] },
     0, 0, 0, ⟨0, .request .echo, 2, 1999999999999, none⟩, _, rfl, by decide +kernel⟩,
   ⟨at_ { up with hub := [(23, { HubSlice.reset with epoch := 1, loaded := true, reissue := true })] }, 0, 23, _, _, rfl,
     by decide +kernel, by decide +kernel, by decide +kernel, by decide +kernel, rfl⟩,
   ⟨at_ ({ up with hub := [(0, { HubSlice.reset with epoch := 1, loaded := true, reissue := false })] }), 0, 0, _, rfl,
     by decide +kernel⟩,
   ⟨at_ { up with hub := [(23, { HubSlice.reset with epoch := 1, loaded := true })], clk := { up.clk with wraps := 16 } },
     0, 23, _, _, rfl, by decide +kernel, by decide +kernel, by decide +kernel, by decide +kernel, by decide +kernel, rfl⟩,
   ⟨at_ { up with clk := { up.clk with angle := 4096 } }, 0, _, rfl, by decide +kernel⟩,
   ⟨at_ up, 0, 0, ⟨true, 1, 1⟩, .entries [], .echo, _, _, rfl, by decide +kernel, by decide +kernel, by decide +kernel,
     by decide +kernel, by decide +kernel, by decide +kernel, by decide +kernel, rfl⟩,
   ⟨at_ { up with own := [(23, { OwnSlice.reset 1 with epoch := 1, alone := true })] }, 0, 23, ⟨true, 1, 1⟩, .entries [],
     .ramTest, _, rfl, by decide +kernel⟩,
   ⟨at_ { up with clk := { up.clk with wraps := 2, angle := 1 } }, 0, 0, _, rfl, by decide +kernel⟩,
   ⟨at_ ({ up with hub := [(0, { HubSlice.reset with epoch := 1, loaded := true, reissue := false })] }), 0, 0, _, rfl,
     by decide +kernel⟩,
   ⟨at_ ({ up with own := [(0, { OwnSlice.reset 1 with epoch := 0, running := true })] }), 0, 0, _, rfl,
     by decide +kernel⟩,
   ⟨at_ up, 0, 0, _, rfl, by decide +kernel⟩,
   ⟨at_
     ({ up with own := [(0, { OwnSlice.reset 1 with epoch := 1, running := true, alone := true })], hub := [(0, { HubSlice.reset with epoch := 1, loaded := true, bus := { HubSlice.reset.bus with reversed := false, phase := { HubSlice.reset.bus.phase with kind := .ac } } })] }),
     0, 0, _, rfl, by decide +kernel⟩,
   ⟨at_
     ({ up with hub := [(0, { HubSlice.reset with epoch := 1, loaded := true, bus := { HubSlice.reset.bus with phase := { HubSlice.reset.bus.phase with kind := .none } } })] }),
     0, 0, _, rfl, by decide +kernel⟩⟩

/-- Each group of hypotheses of `Obligations.Verdicts` is met together. -/
theorem test_verdicts_met :
    (∃ (s : State) (dt : Nat) (n : Nat) (bin : Nat) (hdr : SliceHdr) (cyc : Word16) (codes : Word32) (m : Module) (f :
      Module) (g : Module), m = s.m.elapse dt ∧ n < m.variant.slices ∧ m.stage ≠ .unpowered ∧ m.stage ≠ .rails ∧ (m.slice
      n).failed = false ∧ hdr.good = true ∧ hdr.epoch = (m.slice n).epoch ∧ hdr.epoch ≠ 0 ∧ Tbl.wf HubSlice.reset m.hub =
      true ∧ f = (m.setSlice n (fun h =>
      { h with stale := 0, lastFrame := m.clk.turn, rxSeq := hdr.seq, gaps := if hdr.seq = (m.slice n).rxSeq + 1 then h.gaps else h.gaps + 1 })).setFrames
      n (ackFrames m.clk.tick.toNat hdr.ack (m.slice n).unacked) ∧ g = (if f.verdictMissed n then f.silent n else f) ∧
      g.clk.byInstant (g.binEnd n bin cyc + 256) = true) ∧
    (∃ (s : State) (dt : Nat) (n : Nat) (bin : Nat) (hdr : SliceHdr) (cyc : Word16) (codes : Word32) (m : Module) (f :
      Module) (g : Module), m = s.m.elapse dt ∧ n < m.variant.slices ∧ m.stage ≠ .unpowered ∧ m.stage ≠ .rails ∧ (m.slice
      n).failed = false ∧ hdr.good = true ∧ hdr.epoch = (m.slice n).epoch ∧ hdr.epoch ≠ 0 ∧ Tbl.wf HubSlice.reset m.hub =
      true ∧ f = (m.setSlice n (fun h =>
      { h with stale := 0, lastFrame := m.clk.turn, rxSeq := hdr.seq, gaps := if hdr.seq = (m.slice n).rxSeq + 1 then h.gaps else h.gaps + 1 })).setFrames
      n (ackFrames m.clk.tick.toNat hdr.ack (m.slice n).unacked) ∧ g = (if f.verdictMissed n then f.silent n else f) ∧
      g.clk.byInstant (g.binEnd n bin cyc + 256) = false) ∧
    (∃ (s : State) (dt : Nat) (n : Nat) (m : Module), m = s.m.elapse dt ∧ n < m.variant.slices ∧ m.verdictMissed n = true
      ∧ Tbl.wf HubSlice.reset m.hub = true ∧ Tbl.wf FaultRec.none m.prov.records = true) ∧
    (∃ (s : State) (dt : Nat) (n : Nat) (m : Module), m = s.m.elapse dt ∧ n < m.variant.slices ∧ m.verdictMissed n =
      false) ∧
    (∃ (s : State) (dt : Nat) (n : Nat) (bin : Nat) (codes : List (List Int)) (m : Module) (h : Module) (o : OwnSlice) (x
      : List (Bool × Nat)), m = s.m.elapse dt ∧ n < m.variant.slices ∧ (m.ownOf n).running = true ∧ (m.ownOf n).alone =
      false ∧ Tbl.wf (OwnSlice.reset 1) m.own = true ∧ o = m.ownOf n ∧ h = m.setOwn n (fun o =>
      { o with tdie := binTdie bin codes o.tdie }) ∧ x = (h.swingOver o.swing (codes.map (fun c => voltageOf o.cal (c.getD
      0 0)))).2) ∧
    (∃ (s : State) (dt : Nat) (n : Nat) (bin : Nat) (codes : List (List Int)) (m : Module), m = s.m.elapse dt ∧ n <
      m.variant.slices ∧ ((m.ownOf n).running = false ∨ (m.ownOf n).alone = true)) ∧
    (∃ (s : State) (dt : Nat) (n : Nat) (pos : Nat) (m : Module), m = s.m.elapse dt ∧ n < m.variant.slices ∧ (m.ownOf
      n).running = true ∧ (m.ownOf n).alone = false ∧ Tbl.get 0 (m.ownOf n).swState pos = 2 ∧ Tbl.get false (m.ownOf
      n).dirty pos = false ∧ m.learning (16 * n + pos) = false ∧ m.cycleOver n = true) :=
  ⟨⟨at_ up, 0, 0, 127, ⟨true, 1, 1, 0⟩, 0, 0, _, _, _, rfl, by decide +kernel, by decide +kernel, by decide +kernel,
     by decide +kernel, by decide +kernel, by decide +kernel, by decide +kernel, by decide +kernel, rfl, rfl,
     by decide +kernel⟩,
   ⟨at_ { up with clk := { up.clk with angle := 1000 } }, 0, 0, 0, ⟨true, 1, 1, 0⟩, 0, 0, _, _, _, rfl, by decide +kernel,
     by decide +kernel, by decide +kernel, by decide +kernel, by decide +kernel, by decide +kernel, by decide +kernel,
     by decide +kernel, rfl, rfl, by decide +kernel⟩,
   ⟨at_ { up with clk := { up.clk with wraps := 1, angle := 0 } }, 0, 0, _, rfl, by decide +kernel⟩,
   ⟨at_ up, 0, 0, _, rfl, by decide +kernel⟩,
   ⟨at_ up, 0, 0, 0, [[1], [2], [3], [4]], _, _, _, _, rfl, by decide +kernel, by decide +kernel, by decide +kernel,
     by decide +kernel, rfl, rfl, rfl⟩,
   ⟨at_ up, 0, 23, 127, [], _, rfl, by decide +kernel⟩,
   ⟨at_ { up with own := [(0, { OwnSlice.reset 1 with epoch := 1, running := true, swState := [(15, 2)] })] }, 0, 0, 15,
     _, rfl, by decide +kernel⟩⟩

/-- Each group of hypotheses of `Obligations.LearningAndWires` is met together. -/
theorem test_learning_and_wires_met :
    (∃ (s : State) (dt : Nat) (ch : Nat) (m : Module), m = s.m.elapse dt ∧ ch < m.variant.channels ∧ m.reported ch =
      .steady ∧ (m.chan ch).settle + m.busAngle (ch / 16) ≤ m.clk.turn ∧ (m.slice (ch / 16)).loaded = true ∧ (m.slice (ch
      / 16)).failed = false ∧ m.busAngle (ch / 16) < 512) ∧
    (∃ (s : State) (dt : Nat) (ch : Nat) (cycles : Nat) (m : Module) (sums : List BinSum) (bins : List SwBin), m =
      s.m.elapse dt ∧ ch < m.variant.channels ∧ m.learnCycles ch = some cycles ∧ (∀ b, b < 128 → (m.gathered ch b).count =
      2 * cycles) ∧ sums = (List.range 128).map (m.gathered ch) ∧ bins = sums.map (learnBin m.free (Tbl.get (20, 10, 0, 0)
      m.live.tolerance ch).1 (Tbl.get (20, 10, 0, 0) m.live.tolerance ch).2.1)) ∧
    (∃ (s : State) (dt : Nat) (ch : Nat) (m : Module), m = s.m.elapse dt ∧ ch < m.variant.channels ∧ (m.learnCycles ch =
      none ∨ ∃ cycles b, m.learnCycles ch = some cycles ∧ b < 128 ∧ (m.gathered ch b).count ≠ 2 * cycles)) ∧
    (∃ (s : State) (dt : Nat) (ch : Nat) (up : Nat × Nat) (down : Nat × Nat) (m : Module), m = s.m.elapse dt ∧ ch <
      m.variant.channels ∧ (m.slice (ch / 16)).wire = some (ch % 16, up, down) ∧ up.1 ≠ 0 ∧ down.1 ≠ 0 ∧ down.2 * up.1 +
      1311 * (up.1 * down.1) < up.2 * down.1) ∧
    (∃ (s : State) (dt : Nat) (ch : Nat) (up : Nat × Nat) (down : Nat × Nat) (m : Module), m = s.m.elapse dt ∧ ch <
      m.variant.channels ∧ (m.slice (ch / 16)).wire = some (ch % 16, up, down) ∧ up.1 ≠ 0 ∧ down.1 ≠ 0 ∧ up.2 * down.1 ≤
      down.2 * up.1 + 1311 * (up.1 * down.1)) ∧
    (∃ (s : State) (dt : Nat) (ch : Nat) (m : Module), m = s.m.elapse dt ∧ ch < m.variant.channels ∧ (∀ p up down,
      (m.slice (ch / 16)).wire = some (p, up, down) → p ≠ ch % 16 ∨ up.1 = 0 ∨ down.1 = 0)) :=
  ⟨⟨at_
     ({ up with hub := [(0, { HubSlice.reset with epoch := 1, loaded := true, failed := false })], lamps := { up.lamps with chans := [(0, { Chan.reset with cmd := some ⟨.steady, .phaseExact, 0⟩ })] } }),
     0, 0, _, rfl, by decide +kernel⟩,
   ⟨at_
     { up with prov := { up.prov with learns := [⟨⟨.maint, 0x0301, 1, 0⟩, 2, [(5, true, none)], false⟩], gather := (List.range 128).map (fun b => (640 + b, ⟨4, 4000, 4000000⟩)) } },
     0, 5, 2, _, _, _, rfl, by decide +kernel, by decide +kernel, (by decide +kernel), rfl, rfl⟩,
   ⟨at_ up, 0, 0, _, rfl, by decide +kernel, .inl (by decide +kernel)⟩,
   ⟨at_ { up with hub := [(0, { HubSlice.reset with epoch := 1, wire := some (5, (4, 5248), (4, 0)) })] }, 0, 5, (4,
     5248), (4, 0), _, rfl, by decide +kernel⟩,
   ⟨at_ { up with hub := [(0, { HubSlice.reset with epoch := 1, wire := some (5, (4, 5244), (4, 0)) })] }, 0, 5, (4,
     5244), (4, 0), _, rfl, by decide +kernel⟩,
   ⟨at_ up, 0, 0, _, rfl, by decide +kernel, (fun p u d h => by cases h)⟩⟩

/-- Each group of hypotheses of `Obligations.PlanEntries` is met together. -/
theorem test_plan_entries_met :
    (∃ (s : State) (dt : Nat) (id : Nat) (m : Module) (e : Plan), m = s.m.elapse dt ∧ m.lamps.plans.find? (fun e => e.id
      == id) = some e ∧ e.sent = false) ∧
    (∃ (s : State) (dt : Nat) (id : Nat) (m : Module), m = s.m.elapse dt ∧ (m.lamps.plans.find? (fun e => e.id == id) =
      none ∨ ∃ e, m.lamps.plans.find? (fun e => e.id == id) = some e ∧ e.sent = true)) ∧
    (∃ (s : State) (dt : Nat) (id : Nat) (m : Module) (e : Plan), m = s.m.elapse dt ∧ m.lamps.plans.find? (fun e => e.id
      == id) = some e ∧ e.flash = none ∧ e.due ≤ m.clk.cycle.toNat * 65536 + m.clk.angle.toNat ∧ (∀ x ∈ m.lamps.plans,
      e.due < x.due ∨ (e.due = x.due ∧ e.id ≤ x.id))) ∧
    (∃ (s : State) (dt : Nat) (id : Nat) (m : Module) (e : Plan), m = s.m.elapse dt ∧ m.lamps.plans.find? (fun e => e.id
      == id) = some e ∧ (m.clk.cycle.toNat * 65536 + m.clk.angle.toNat < e.due ∨ ∃ x ∈ m.lamps.plans, x.due < e.due ∨
      (x.due = e.due ∧ x.id < e.id))) ∧
    (∃ (m : Module) (h : Module) (at_ : Nat) (held : List Nat) (ch : Nat) (x : Shown), h = m.setChan ch (fun c =>
      { c with zc := c.zc.filter (fun z => z.2 != at_) }) ∧ h.waitsCrossing ch x.mode (held.contains (ch / 16)) = true) ∧
    (∃ (m : Module) (h : Module) (at_ : Nat) (held : List Nat) (ch : Nat) (x : Shown), h = m.setChan ch (fun c =>
      { c with zc := c.zc.filter (fun z => z.2 != at_) }) ∧ h.waitsCrossing ch x.mode (held.contains (ch / 16)) = false ∧
      h.fallbackFor ch = 0 ∧ (h.chan ch).fb = 0) ∧
    (∃ (m : Module) (h : Module) (at_ : Nat) (held : List Nat) (ch : Nat) (x : Shown), h = m.setChan ch (fun c =>
      { c with zc := c.zc.filter (fun z => z.2 != at_) }) ∧ h.waitsCrossing ch x.mode (held.contains (ch / 16)) = false ∧
      (h.fallbackFor ch ≠ 0 ∨ (h.chan ch).fb ≠ 0)) ∧
    (∃ (s : State) (dt : Nat) (ch : Nat) (x : Shown) (at_ : Nat) (m : Module), m = s.m.elapse dt ∧ ch < m.variant.channels
      ∧ (m.chan ch).zc = [(x, at_)] ∧ (m.chan ch).edge = [] ∧ Tbl.wf Chan.reset m.lamps.chans = true ∧ at_ + 36864 ≤
      m.clk.turn) ∧
    (∃ (s : State) (dt : Nat) (ch : Nat) (m : Module), m = s.m.elapse dt ∧ ch < m.variant.channels ∧ (∀ z ∈ (m.chan
      ch).zc, m.clk.turn < z.2 + 36864) ∧ (∀ e ∈ (m.chan ch).edge, m.clk.turn < e.1 + 36864) ∧ Tbl.wf Chan.reset
      m.lamps.chans = true) :=
  ⟨⟨at_
     ({ up with lamps := { up.lamps with plans := [⟨0, none, 65536 * 65536, [(0, ⟨.steady, .dc, 0⟩)], none, false, []⟩] } }),
     0, 0, _, ⟨0, none, 65536 * 65536, [(0, ⟨.steady, .dc, 0⟩)], none, false, []⟩, rfl, by decide +kernel⟩,
   ⟨at_ up, 0, 0, _, rfl, (.inl (by decide +kernel))⟩,
   ⟨at_
     ({ up with lamps := { up.lamps with plans := [⟨0, none, 65536 * 65536, [(0, ⟨.steady, .dc, 0⟩)], none, true, []⟩] } }),
     0, 0, _, ⟨0, none, 65536 * 65536, [(0, ⟨.steady, .dc, 0⟩)], none, true, []⟩, rfl, by decide +kernel⟩,
   ⟨at_
     { up with lamps := { up.lamps with plans := [⟨0, none, 65536 * 65536, [(0, ⟨.steady, .dc, 0⟩)], none, false, []⟩, ⟨1, none, 65536 * 65536, [(0, ⟨.steady, .dc, 0⟩)], none, false, []⟩] } },
     0, 1, _, ⟨1, none, 65536 * 65536, [(0, ⟨.steady, .dc, 0⟩)], none, false, []⟩, rfl, by decide +kernel, .inr ⟨⟨0, none,
     65536 * 65536, [(0, ⟨.steady, .dc, 0⟩)], none, false, []⟩, by decide +kernel⟩⟩,
   ⟨{ up with hub := [(23, { HubSlice.reset with epoch := 1, loaded := true, bus := { Bus.reset with phase := ⟨0, 0x8000, .ac, true⟩ } })] },
     _, 0, [], 383, ⟨.steady, .zeroCross, 0⟩, rfl, by decide +kernel⟩,
   ⟨up, _, 0, [], 383, ⟨.steady, .dc, 0⟩, rfl, by decide +kernel⟩,
   ⟨{ up with prov := { up.prov with coreFb := true } }, _, 0, [], 383, ⟨.steady, .dc, 0⟩, rfl, by decide +kernel,
     .inl (by decide +kernel)⟩,
   ⟨at_
     { up with lamps := { up.lamps with chans := [(383, { Chan.reset with zc := [(⟨.steady, .zeroCross, 0⟩, 0)] })] }, clk := { up.clk with angle := 36864 } },
     0, 383, ⟨.steady, .zeroCross, 0⟩, 0, _, rfl, by decide +kernel⟩,
   ⟨at_
     ({ up with lamps := { up.lamps with chans := [(0, { Chan.reset with closed := false, cmd := some ⟨.dim, .phaseExact, 31744⟩ })] }, hub := [(0, { HubSlice.reset with epoch := 1, loaded := true, bus := { HubSlice.reset.bus with phase := ⟨0, 0x8000, .ac, true⟩ } })], clk := { up.clk with angle := 0x8000 - 31744 } }),
     0, 0, _, rfl, by decide +kernel⟩⟩

/-- Each group of hypotheses of `Obligations.LampEdges` is met together. -/
theorem test_lamp_edges_met :
    (∃ (s : State) (dt : Nat) (m : Module), m = s.m.elapse dt ∧ m.clk.half ≠ m.lamps.half) ∧
    (∃ (s : State) (dt : Nat) (m : Module), m = s.m.elapse dt ∧ m.clk.half = m.lamps.half) ∧
    (∃ (s : State) (dt : Nat) (ch : Nat) (m : Module), m = s.m.elapse dt ∧ ch < m.variant.channels ∧ (m.shown
      ch).1.pattern = .dim ∧ m.dimsAsSteady ch = false ∧ m.dimNow ch = true ∧ m.mayClose ch = true ∧ (m.chan ch).closed =
      false ∧ Tbl.wf Chan.reset m.lamps.chans = true) ∧
    (∃ (s : State) (dt : Nat) (ch : Nat) (m : Module), m = s.m.elapse dt ∧ ch < m.variant.channels ∧ (m.shown
      ch).1.pattern = .dim ∧ m.dimsAsSteady ch = false ∧ m.dimNow ch = false ∧ Tbl.wf Chan.reset m.lamps.chans = true) ∧
    (∃ (s : State) (dt : Nat) (ch : Nat) (m : Module), m = s.m.elapse dt ∧ ch < m.variant.channels ∧ (m.shown
      ch).1.pattern ≠ .dim) ∧
    (∃ (s : State) (dt : Nat) (n : Nat) (m : Module), m = s.m.elapse dt ∧ n < m.variant.slices ∧ m.stage ≠ .unpowered ∧
      m.crossPoint n = true ∧ (m.slice n).startDue = false) ∧
    (∃ (s : State) (dt : Nat) (n : Nat) (m : Module), m = s.m.elapse dt ∧ n < m.variant.slices ∧ (m.stage = .unpowered ∨
      m.crossPoint n = false)) ∧
    (∃ (s : State) (dt : Nat) (ch : Nat) (peak : Nat) (m : Module), m = s.m.elapse dt ∧ ch < m.variant.channels ∧ (m.chan
      ch).closed = true ∧ ((∃ t, (m.chan ch).inrush = some t ∧ m.clk.tick.toNat < t + 1000000 ∧ 32000 < peak) ∨ ((∀ t,
      (m.chan ch).inrush = some t → t + 1000000 ≤ m.clk.tick.toNat) ∧ 8000 < peak)) ∧ (m.chan ch).tripRun < 2) ∧
    (∃ (s : State) (dt : Nat) (ch : Nat) (peak : Nat) (m : Module), m = s.m.elapse dt ∧ ch < m.variant.channels ∧ (m.chan
      ch).closed = true ∧ ((∃ t, (m.chan ch).inrush = some t ∧ m.clk.tick.toNat < t + 1000000 ∧ 32000 < peak) ∨ ((∀ t,
      (m.chan ch).inrush = some t → t + 1000000 ≤ m.clk.tick.toNat) ∧ 8000 < peak)) ∧ 2 ≤ (m.chan ch).tripRun) ∧
    (∃ (c : Chan) (now : Nat) (dc : Bool), c.closed = true) ∧
    (∃ (c : Chan) (now : Nat) (dc : Bool), c.closed = false) ∧
    (∃ (s : State) (dt : Nat) (ch : Nat) (peak : Nat) (m : Module), m = s.m.elapse dt ∧ ch < m.variant.channels ∧ ((m.chan
      ch).closed = false ∨ peak ≤ 8000 ∨ ∃ t, (m.chan ch).inrush = some t ∧ m.clk.tick.toNat < t + 1000000 ∧ peak ≤
      32000)) ∧
    (∃ (s : State) (dt : Nat) (ch : Nat) (t0 : Nat) (m : Module), m = s.m.elapse dt ∧ ch < m.variant.channels ∧ (m.chan
      ch).inrush = some t0) ∧
    (∃ (s : State) (dt : Nat) (ch : Nat) (m : Module), m = s.m.elapse dt ∧ ch < m.variant.channels ∧ (m.chan ch).inrush =
      none) ∧
    (∃ (s : State) (dt : Nat) (n : Nat) (m : Module), m = s.m.elapse dt ∧ n < m.variant.slices ∧ Tbl.wf Chan.reset
      m.lamps.chans = true ∧ Tbl.wf (OwnSlice.reset 1) m.own = true) ∧
    (∃ (s : State) (dt : Nat) (n : Nat) (hdr : SliceHdr) (pos : Option Nat) (m : Module), m = s.m.elapse dt ∧ n <
      m.variant.slices ∧ m.stage ≠ .unpowered ∧ m.stage ≠ .rails ∧ (m.slice n).failed = false ∧ hdr.good = true ∧
      hdr.epoch = (m.slice n).epoch ∧ hdr.epoch ≠ 0 ∧ Tbl.wf HubSlice.reset m.hub = true) ∧
    (∃ (s : State) (dt : Nat) (n : Nat) (hdr : SliceHdr) (pos : Option Nat) (m : Module), m = s.m.elapse dt ∧ n <
      m.variant.slices ∧ hdr.good = false) :=
  ⟨⟨at_ ({ up with lamps := { up.lamps with half := 131071 } }), 0, _, rfl, by decide +kernel⟩,
   ⟨at_ up, 0, _, rfl, by decide +kernel⟩,
   ⟨at_
     ({ up with lamps := { up.lamps with chans := [(0, { Chan.reset with closed := false, cmd := some ⟨.dim, .phaseExact, 31744⟩ })] }, hub := [(0, { HubSlice.reset with epoch := 1, loaded := true, bus := { HubSlice.reset.bus with phase := ⟨0, 0x8000, .ac, true⟩ } })], clk := { up.clk with angle := 0x8000 - 31744 } }),
     0, 0, _, rfl, by decide +kernel⟩,
   ⟨at_
     { up with lamps := { up.lamps with chans := [(0, { Chan.reset with closed := false, cmd := some ⟨.dim, .phaseExact, 31744⟩ })] }, hub := [(0, { HubSlice.reset with epoch := 1, loaded := true, bus := { Bus.reset with phase := ⟨0, 0x8000, .ac, true⟩ } })], clk := { up.clk with angle := 0 } },
     0, 0, _, rfl, by decide +kernel⟩,
   ⟨at_ up, 0, 0, _, rfl, by decide +kernel⟩,
   ⟨at_ up, 0, 0, _, rfl, by decide +kernel⟩,
   ⟨at_ { up with clk := { up.clk with angle := 1 } }, 0, 23, _, rfl, by decide +kernel⟩,
   ⟨at_ { up with lamps := { up.lamps with chans := [(383, { Chan.reset with closed := true, tripRun := 1 })] } }, 0, 383,
     8001, _, rfl, by decide +kernel, by decide +kernel, .inr ⟨(fun t h => by cases h), by decide⟩, by decide +kernel⟩,
   ⟨at_
     { up with lamps := { up.lamps with chans := [(383, { Chan.reset with closed := true, tripRun := 2, inrush := some 1999999000001 })] } },
     0, 383, 32001, _, rfl, by decide +kernel, by decide +kernel, .inl ⟨1999999000001, by decide +kernel⟩,
     by decide +kernel⟩,
   ⟨{ Chan.reset with closed := true }, 0, true, by decide +kernel⟩,
   ⟨Chan.reset, 0, true, by decide +kernel⟩,
   ⟨at_
     { up with lamps := { up.lamps with chans := [(383, { Chan.reset with closed := true, inrush := some 1999999000001 })] } },
     0, 383, 32000, _, rfl, by decide +kernel, .inr (.inr ⟨1999999000001, by decide +kernel⟩)⟩,
   ⟨at_ ({ up with lamps := { up.lamps with chans := [(0, { Chan.reset with inrush := some 0 })] } }), 0, 0, 0, _, rfl,
     by decide +kernel⟩,
   ⟨at_ up, 0, 0, _, rfl, by decide +kernel⟩,
   ⟨at_ up, 0, 0, _, rfl, by decide +kernel⟩,
   ⟨at_ up, 0, 0, ⟨true, 1, 1, 0⟩, some 15, _, rfl, by decide +kernel⟩,
   ⟨at_ up, 0, 23, ⟨false, 1, 1, 0⟩, none, _, rfl, by decide +kernel⟩⟩

/-- Each group of hypotheses of `Obligations.VitalOk` is met together. -/
theorem test_vital_ok_met :
    (∃ (s : State) (dt : Nat) (m : Module), m = s.m.elapse dt ∧ m.prov.toggling = false ∧ m.vitalCause = 0 ∧ (m.prov.hold
      = false ∨ m.startMet = true) ∧ m.prov.lastToggle + 500000 ≤ m.clk.tick.toNat ∧ m.coresUp = true ∧ m.crossPoint
      m.clk.ref = true) ∧
    (∃ (s : State) (dt : Nat) (m : Module), m = s.m.elapse dt ∧ m.prov.toggling = false ∧ (m.vitalCause ≠ 0 ∨ (m.prov.hold
      = true ∧ m.startMet = false) ∨ m.clk.tick.toNat < m.prov.lastToggle + 500000 ∨ m.coresUp = false ∨ m.crossPoint
      m.clk.ref = false)) ∧
    (∃ (s : State) (dt : Nat) (m : Module), m = s.m.elapse dt ∧ m.prov.toggling = true ∧ m.vitalFree = false) ∧
    (∃ (m : Module) (ch : Nat) (kind : Nat) (bin : Nat) (c : Cycle) (a : Angle) (v : Int), (m.record ch kind).active =
      false ∧ kind ≠ 4 ∧ m.response ch = 3 ∧ 1 ≤ kind ∧ kind ≤ 3 ∧ Tbl.wf FaultRec.none m.prov.records = true) :=
  ⟨⟨at_ ({ up with prov := { up.prov with toggling := false, hold := false } }), 0, _, rfl, by decide +kernel⟩,
   ⟨at_ ({ up with prov := { up.prov with toggling := false } }), 0, _, rfl, by decide +kernel⟩,
   ⟨at_ ({ up with prov := { up.prov with toggling := true } }), 0, _, rfl, by decide +kernel⟩,
   ⟨{ up with live := { up.live with response := [(0, 3)] } }, 0, 3, 0, 0, 0, 0, by decide +kernel⟩⟩

/-- Each group of hypotheses of `Obligations.Crossings` is met together. -/
theorem test_crossings_met :
    (∃ (s : State) (dt : Nat) (n : Nat) (stamp : Nat) (hdr : SliceHdr) (rising : Bool) (m : Module), m = s.m.elapse dt ∧ n
      < m.variant.slices) ∧
    (∃ (b : Bus) (stamp : Nat) (last : Nat), b.lastPos = some last) ∧
    (∃ (b : Bus) (stamp : Nat) (last : Nat), b.lastNeg = some last) ∧
    (∃ (b : Bus) (stamp : Nat), b.lastPos = none) ∧
    (∃ (b : Bus) (stamp : Nat), b.lastNeg = none) ∧
    (∃ (m : Module) (n : Nat) (delta : Nat) (rising : Bool), n ≠ m.clk.ref ∧ (m.slice n).bus.chained rising
      (m.clk.tick.toNat - delta) = false) ∧
    (∃ (m : Module) (n : Nat) (delta : Nat) (d : Nat), (m.clk.tracker = .free ∨ m.clk.tracker = .synthetic) ∧ m.busKind n
      ≠ 1 ∧ freqOk d = true ∧ m.clk.partsAt delta ≥ 65536 ∧ m.clk.wrapped delta = false ∧ (∀ e ∈ m.lamps.plans, 65536 *
      (m.clk.cycle.toNat + 1) ≤ e.due)) ∧
    (∃ (m : Module) (n : Nat) (delta : Nat) (d : Nat), (m.clk.tracker = .locking ∨ m.clk.tracker = .locked)) ∧
    (∃ (m : Module) (delta : Nat), m.clk.altRef = false) ∧
    (∃ (m : Module) (delta : Nat), m.clk.altRef = true) ∧
    (∃ (err : Int), err.natAbs ≤ 4096) :=
  ⟨⟨at_ up, 0, 23, 0, ⟨true, 1, 1, 0⟩, false, _, rfl, by decide +kernel⟩,
   ⟨{ Bus.reset with lastPos := some 0 }, 0, 0, by decide +kernel⟩,
   ⟨{ Bus.reset with lastNeg := some 0 }, 0, 0, by decide +kernel⟩,
   ⟨Bus.reset, 0, by decide +kernel⟩,
   ⟨Bus.reset, 0, by decide +kernel⟩,
   ⟨up, 23, 0, false, by decide +kernel⟩,
   ⟨{ up with clk := { up.clk with tracker := .free, angle := 2, frac := 0 } }, 0, 1, 1538462, by decide +kernel,
     by decide +kernel, by decide +kernel, by decide +kernel, by decide +kernel, (fun e h => by cases h)⟩,
   ⟨{ up with clk := { up.clk with tracker := .locking } }, 0, 0, 0, by decide +kernel⟩,
   ⟨{ up with clk := { up.clk with altRef := false } }, 0, by decide +kernel⟩,
   ⟨{ up with clk := { up.clk with altRef := true } }, 0, by decide +kernel⟩,
   ⟨0, by decide +kernel⟩⟩

/-- Each group of hypotheses of `Obligations.TrackerMoves` is met together. -/
theorem test_tracker_moves_met :
    (∃ (s : State) (dt : Nat) (m : Module), m = s.m.elapse dt ∧ (m.clk.tracker = .locking ∨ m.clk.tracker = .locked) ∧
      4096 < m.clk.sincePrediction.toNat ∧ (∀ t, m.clk.lastRef = some t → t + m.clk.windowTicks < m.clk.tick.toNat) ∧
      m.clk.measured ≠ 0) ∧
    (∃ (s : State) (dt : Nat) (m : Module), m = s.m.elapse dt ∧ ((m.clk.tracker ≠ .locking ∧ m.clk.tracker ≠ .locked) ∨
      m.clk.sincePrediction.toNat ≤ 4096)) ∧
    (∃ (c : Clock), c.altRef = false) ∧
    (∃ (c : Clock), c.altRef = true) ∧
    (∃ (s : State) (dt : Nat) (m : Module), m = s.m.elapse dt ∧ m.clk.tracker = .flywheel ∧ m.clk.flyFrom + 64 * 65536 ≤
      m.clk.turn ∧ m.items.refAlternate < m.variant.slices ∧ (m.slice m.items.refAlternate).bus.phase.settled = true) ∧
    (∃ (s : State) (dt : Nat) (m : Module), m = s.m.elapse dt ∧ (m.clk.tracker ≠ .flywheel ∨ m.clk.turn < m.clk.flyFrom +
      64 * 65536 ∨ m.variant.slices ≤ m.items.refAlternate ∨ (m.slice m.items.refAlternate).bus.phase.settled = false)) ∧
    (∃ (s : State) (dt : Nat) (stamp : Nat) (m : Module), m = s.m.elapse dt ∧ m.clk.altRef = true ∧ (m.slice
      m.items.refPrimary).bus.phase.settled = true ∧ (m.slice m.items.refPrimary).bus.settledAt + 64 * 65536 ≤ m.clk.turn
      ∧ (m.clk.tracker = .locking ∨ m.clk.tracker = .locked ∨ m.clk.tracker = .flywheel) ∧ freqOk ((m.slice
      m.items.refPrimary).bus.gapAt stamp) = true) ∧
    (∃ (s : State) (dt : Nat) (stamp : Nat) (m : Module), m = s.m.elapse dt ∧ (m.clk.altRef = false ∨ (m.slice
      m.items.refPrimary).bus.phase.settled = false ∨ m.clk.turn < (m.slice m.items.refPrimary).bus.settledAt + 64 * 65536
      ∨ freqOk ((m.slice m.items.refPrimary).bus.gapAt stamp) = false)) ∧
    (∃ (m : Module) (delta : Nat) (d : Nat) (always : Bool) (c : Clock), c =
      { m.clk with tracker := .locking, measured := BitVec.ofNat 32 d, lockRun := 0, fly := [], lastRef := some (m.clk.tick.toNat - delta) }
      ∧ always = false ∧ (m.refErr delta).natAbs ≤ 4096) ∧
    (∃ (m : Module) (delta : Nat) (d : Nat) (always : Bool) (c : Clock), c =
      { m.clk with tracker := .locking, measured := BitVec.ofNat 32 d, lockRun := 0, fly := [], lastRef := some (m.clk.tick.toNat - delta) }
      ∧ (always = true ∨ 4096 < (m.refErr delta).natAbs)) ∧
    (∃ (s : State) (dt : Nat) (m : Module), m = s.m.elapse dt ∧ m.clk.tracker = .domain ∧ 64 ≤ m.clk.headerGap ∧
      m.clk.measured ≠ 0) ∧
    (∃ (s : State) (dt : Nat) (m : Module), m = s.m.elapse dt ∧ (m.clk.tracker ≠ .domain ∨ m.clk.headerGap < 64)) :=
  ⟨⟨at_ ({ up with clk := { up.clk with tracker := .locking, angle := 4097, cycleTicks := 125031 } }), 0, _, rfl,
     by decide +kernel, by decide +kernel, (fun t h => absurd (show none = some t from h) (by simp)), by decide +kernel⟩,
   ⟨at_ up, 0, _, rfl, by decide +kernel⟩,
   ⟨Clock.powerOn 65536, by decide +kernel⟩,
   ⟨{ Clock.powerOn 65536 with altRef := true }, by decide +kernel⟩,
   ⟨at_
     { up with clk := { up.clk with tracker := .flywheel, flyFrom := 65536, wraps := 65 }, vault := { up.vault with config := some ⟨0, 0x0100, 1, { Items.default with refAlternate := 23 }, .unsealed⟩ }, hub := [(23, { HubSlice.reset with epoch := 1, loaded := true, bus := { Bus.reset with phase := ⟨0, 0x8000, .ac, true⟩ } })] },
     0, _, rfl, by decide +kernel⟩,
   ⟨at_ up, 0, _, rfl, by decide +kernel⟩,
   ⟨at_
     { up with clk := { up.clk with altRef := true, tracker := .locking, wraps := 64 }, hub := [(0, { HubSlice.reset with epoch := 1, loaded := true, bus := { Bus.reset with phase := ⟨0, 0x8000, .ac, true⟩, lastPos := some 0 } })] },
     0, 2000000, _, rfl, by decide +kernel⟩,
   ⟨at_ up, 0, 0, _, rfl, by decide +kernel⟩,
   ⟨{ up with clk := { up.clk with angle := 4096 } }, 0, 0, false, _, rfl, by decide +kernel⟩,
   ⟨{ up with clk := { up.clk with angle := 4097 } }, 0, 0, false, _, rfl, by decide +kernel⟩,
   ⟨at_ ({ up with clk := { up.clk with tracker := .domain, headerGap := 64 } }), 0, _, rfl, by decide +kernel⟩,
   ⟨at_ up, 0, _, rfl, by decide +kernel⟩⟩

/-- Each group of hypotheses of `Obligations.CyclesAndBoundaries` is met together. -/
theorem test_cycles_and_boundaries_met :
    (∃ (c : Clock), c.cycleLen ≠ 0) ∧
    (∃ (s : State) (dt : Nat) (m : Module), m = s.m.elapse dt ∧ m.clk.angle = 65535 ∧ m.clk.cycleLen.toNat ≤ m.clk.frac ∧
      m.upd.session.unwindDue = false) ∧
    (∃ (s : State) (dt : Nat) (m : Module), m = s.m.elapse dt ∧ m.clk.angle = 65535 ∧ m.clk.cycleLen.toNat ≤ m.clk.frac ∧
      m.coresUp = false) ∧
    (∃ (s : State) (dt : Nat) (m : Module), m = s.m.elapse dt ∧ (m.clk.angle ≠ 65535 ∨ m.clk.frac < m.clk.cycleLen.toNat)) ∧
    (∃ (s : State) (dt : Nat) (means : List Int) (m : Module), m = s.m.elapse dt ∧ m.stage ≠ .unpowered ∧ m.stage ≠
      .holdup ∧ m.clk.turn / 32768 ≠ m.clk.halfDone ∧ m.diag.bist = none) ∧
    (∃ (s : State) (dt : Nat) (means : List Int) (m : Module), m = s.m.elapse dt ∧ m.diag.bist = none ∧ (m.stage =
      .unpowered ∨ m.stage = .holdup ∨ m.clk.turn / 32768 = m.clk.halfDone)) ∧
    (∃ (b : Bus) (kind : Nat) (ticks : Nat) (turn : Nat) (v : Int), kind = 1 ∧ 770 ≤ v ∧ v ≤ 1400 ∧ (∀ t, b.seen = some t
      → t + 32768 < turn)) ∧
    (∃ (b : Bus) (kind : Nat) (ticks : Nat) (turn : Nat) (v : Int), b.reversed = true ∧ -1400 ≤ v ∧ v ≤ -770) ∧
    (∃ (b : Bus) (kind : Nat) (ticks : Nat) (turn : Nat) (v : Int), (v < -1400 ∨ -770 < v)) ∧
    (∃ (b : Bus) (kind : Nat) (ticks : Nat) (turn : Nat) (v : Int), (∀ t, b.seen = some t → t + 131072 ≤ turn)) ∧
    (∃ (m : Module), (m.clk.tracker = .free ∨ m.clk.tracker = .locking ∨ m.clk.tracker = .locked ∨ m.clk.tracker =
      .flywheel) ∧ m.clk.takePrimary = false ∧ (m.slice m.clk.ref).bus.phase.kind = .dc) :=
  ⟨⟨Clock.powerOn 65536, by decide +kernel⟩,
   ⟨at_
     ({ up with clk := { up.clk with angle := 65535, frac := 2000000 }, upd := { up.upd with session := { up.upd.session with unwindDue := false } } }),
     0, _, rfl, by decide +kernel⟩,
   ⟨at_ ({ up with clk := { up.clk with angle := 65535, frac := 2000000 }, stage := .boot }), 0, _, rfl,
     by decide +kernel⟩,
   ⟨at_ up, 0, _, rfl, by decide +kernel⟩,
   ⟨at_ { up with clk := { up.clk with angle := 32768 } }, 0, [], _, rfl, by decide +kernel⟩,
   ⟨at_ ({ up with stage := .unpowered }), 0, [], _, rfl, by decide +kernel⟩,
   ⟨{ Bus.reset with seen := some 0 }, 1, 1000000, 32769, 770, by decide +kernel, by decide +kernel, by decide +kernel,
     (fun t h => by cases h; decide)⟩,
   ⟨{ Bus.reset with reversed := true }, 0, 1000000, 0, -1400, by decide +kernel⟩,
   ⟨Bus.reset, 0, 1000000, 0, -769, by decide +kernel⟩,
   ⟨{ Bus.reset with seen := some 0 }, 0, 1000000, 131072, 0, (fun t h => by cases h; decide)⟩,
   ⟨{ up with hub := [(0, { HubSlice.reset with epoch := 1, loaded := true, bus := { HubSlice.reset.bus with phase := { HubSlice.reset.bus.phase with kind := .dc } } })] },
     by decide +kernel⟩⟩

/-- Each group of hypotheses of `Obligations.SupplyChanges` is met together. -/
theorem test_supply_changes_met :
    (∃ (s : State) (dt : Nat) (dv : Word16) (m : Module), m = s.m.elapse dt ∧ m.stage ≠ .unpowered ∧ m.stage ≠ .holdup ∧
      m.pow.mains = false) ∧
    (∃ (s : State) (dt : Nat) (dv : Word16) (m : Module), m = s.m.elapse dt ∧ (m.stage = .unpowered ∨ m.stage = .holdup ∨
      m.pow.mains = true)) ∧
    (∃ (s : State) (dt : Nat) (dv : Word16) (m : Module) (x : Module), m = s.m.elapse dt ∧ m.stage ≠ .unpowered ∧ m.stage
      ≠ .holdup ∧ m.pow.mains = true ∧ x = ({ m with pow := { m.pow with mains := false, mainsDv := dv } }).supplyChange
      1) ∧
    (∃ (s : State) (dt : Nat) (dv : Word16) (m : Module), m = s.m.elapse dt ∧ (m.stage = .unpowered ∨ m.stage = .holdup ∨
      m.pow.mains = false)) ∧
    (∃ (s : State) (dt : Nat) (cv : Word16) (m : Module) (x : Module), m = s.m.elapse dt ∧ m.stage ≠ .unpowered ∧ m.stage
      ≠ .holdup ∧ m.pow.backup = false ∧ x =
      ({ m with pow := { m.pow with backup := true, backupCv := cv } }).supplyChange 4) ∧
    (∃ (s : State) (dt : Nat) (cv : Word16) (m : Module) (x : Module), m = s.m.elapse dt ∧ m.stage ≠ .unpowered ∧ m.stage
      ≠ .holdup ∧ m.pow.backup = true ∧ x =
      ({ m with pow := { m.pow with backup := false, backupCv := cv } }).supplyChange 3) ∧
    (∃ (s : State) (dt : Nat) (cv : Word16) (m : Module), m = s.m.elapse dt ∧ (m.stage = .unpowered ∨ m.stage = .holdup)) ∧
    (∃ (s : State) (dt : Nat) (m : Module), m = s.m.elapse dt ∧ m.stage ≠ .unpowered ∧ m.stage ≠ .holdup ∧ m.pow.mains =
      true ∧ m.pow.mainsSince + 200000000 ≤ m.clk.tick.toNat ∧ m.pow.onBackup = true) ∧
    (∃ (s : State) (dt : Nat) (m : Module), m = s.m.elapse dt ∧ (m.pow.mains = false ∨ m.clk.tick.toNat < m.pow.mainsSince
      + 200000000 ∨ m.pow.onBackup = false)) :=
  ⟨⟨at_ ({ up with pow := { up.pow with mains := false } }), 0, 0, _, rfl, by decide +kernel⟩,
   ⟨at_ ({ up with stage := .unpowered }), 0, 0, _, rfl, by decide +kernel⟩,
   ⟨at_ ({ up with pow := { up.pow with mains := true } }), 0, 0, _, _, rfl, by decide +kernel, by decide +kernel,
     by decide +kernel, rfl⟩,
   ⟨at_ ({ up with stage := .unpowered }), 0, 0, _, rfl, by decide +kernel⟩,
   ⟨at_ ({ up with pow := { up.pow with backup := false } }), 0, 0, _, _, rfl, by decide +kernel, by decide +kernel,
     by decide +kernel, rfl⟩,
   ⟨at_ ({ up with pow := { up.pow with backup := true } }), 0, 0, _, _, rfl, by decide +kernel, by decide +kernel,
     by decide +kernel, rfl⟩,
   ⟨at_ ({ up with stage := .unpowered }), 0, 0, _, rfl, by decide +kernel⟩,
   ⟨at_ ({ up with pow := { up.pow with mains := true, onBackup := true } }), 0, _, rfl, by decide +kernel⟩,
   ⟨at_ ({ up with pow := { up.pow with mains := false } }), 0, _, rfl, by decide +kernel⟩⟩

/-- Each group of hypotheses of `Obligations.HoldupAndStandby` is met together. -/
theorem test_holdup_and_standby_met :
    (∃ (s : State) (dt : Nat) (m : Module), m = s.m.elapse dt ∧ m.coresUp = true ∧ m.pow.ledger = 2 ∧ m.pow.countFrom +
      100000000 * m.items.standbyAfter.toNat ≤ m.clk.tick.toNat) ∧
    (∃ (s : State) (dt : Nat) (m : Module), m = s.m.elapse dt ∧ (m.coresUp = false ∨ m.pow.ledger ≠ 2 ∨ m.clk.tick.toNat <
      m.pow.countFrom + 100000000 * m.items.standbyAfter.toNat)) :=
  ⟨⟨at_ ({ up with pow := { up.pow with ledger := 2 } }), 0, _, rfl, by decide +kernel⟩,
   ⟨at_ ({ up with stage := .boot }), 0, _, rfl, by decide +kernel⟩⟩

/-- Each group of hypotheses of `Obligations.AccountsAndHeat` is met together. -/
theorem test_accounts_and_heat_met :
    (∃ (s : State) (dt : Nat) (groats : Word32) (m : Module) (x : Module), m = s.m.elapse dt ∧ m.stage ≠ .unpowered ∧
      m.stage ≠ .holdup ∧ m.pow.onBackup = true ∧ x =
      { m with pow := { m.pow with account := m.pow.account - (if groats.toNat < m.pow.account.toNat then groats else m.pow.account) } }) ∧
    (∃ (s : State) (dt : Nat) (groats : Word32) (m : Module), m = s.m.elapse dt ∧ (m.stage = .unpowered ∨ m.stage =
      .holdup ∨ m.pow.onBackup = false)) ∧
    (∃ (s : State) (dt : Nat) (m : Module), m = s.m.elapse dt ∧ m.stage ≠ .unpowered ∧ m.stage ≠ .holdup ∧ m.pow.mains =
      true ∧ m.pow.onBackup = false ∧ m.pow.mainsSince + 1440000000000 ≤ m.clk.tick.toNat) ∧
    (∃ (s : State) (dt : Nat) (m : Module), m = s.m.elapse dt ∧ (m.pow.mains = false ∨ m.pow.onBackup = true ∨
      m.clk.tick.toNat < m.pow.mainsSince + 1440000000000)) ∧
    (∃ (m : Module), m.ledgerFor ≠ 0) ∧
    (∃ (m : Module) (cause : Nat), m.ledgerFor = m.pow.ledger) ∧
    (∃ (m : Module) (cause : Nat), m.ledgerFor ≠ m.pow.ledger) ∧
    (∃ (s : State) (dt : Nat) (n : Nat) (hub : Int) (m : Module), m = s.m.elapse dt ∧ n < m.variant.slices ∧ m.coresUp =
      true ∧ (m.slice n).loaded = true ∧ (m.slice n).modelAt ≠ m.clk.wraps ∧ Tbl.wf HubSlice.reset m.hub = true) ∧
    (∃ (s : State) (dt : Nat) (n : Nat) (hub : Int) (m : Module), m = s.m.elapse dt ∧ n < m.variant.slices ∧ (m.coresUp =
      false ∨ (m.slice n).loaded = false ∨ (m.slice n).modelAt = m.clk.wraps)) ∧
    (∃ (f : Nat) (head : Int), head < 500) ∧
    (∃ (f : Nat) (head : Int), 500 ≤ head ∧ head < 1000) ∧
    (∃ (f : Nat) (head : Int), 1000 ≤ head ∧ head < 1500) ∧
    (∃ (f : Nat) (head : Int), 1500 ≤ head) :=
  ⟨⟨at_ ({ up with pow := { up.pow with onBackup := true } }), 0, 0, _, _, rfl, by decide +kernel, by decide +kernel,
     by decide +kernel, rfl⟩,
   ⟨at_ ({ up with stage := .unpowered }), 0, 0, _, rfl, by decide +kernel⟩,
   ⟨at_ ({ up with pow := { up.pow with mains := true, onBackup := false } }), 0, _, rfl, by decide +kernel⟩,
   ⟨at_ ({ up with pow := { up.pow with mains := false } }), 0, _, rfl, by decide +kernel⟩,
   ⟨{ up with pow := { up.pow with onBackup := true } }, by decide +kernel⟩,
   ⟨up, 0, by decide +kernel⟩,
   ⟨{ up with pow := { up.pow with onBackup := true } }, 0, by decide +kernel⟩,
   ⟨at_ { up with hub := [(23, { HubSlice.reset with epoch := 1, loaded := true, modelAt := 1 })] }, 0, 23, 0, _, rfl,
     by decide +kernel⟩,
   ⟨at_ up, 0, 23, 0, _, rfl, by decide +kernel⟩,
   ⟨0, 499, by decide +kernel⟩,
   ⟨0, 500, by decide +kernel⟩,
   ⟨0, 1000, by decide +kernel⟩,
   ⟨0, 1500, by decide +kernel⟩⟩

/-- Each group of hypotheses of `Obligations.HalfCycleCommits` is met together. -/
theorem test_half_cycle_commits_met :
    (∃ (s : State) (dt : Nat) (b : Nat) (ticks : Nat) (tariff : Nat) (m : Module), m = s.m.elapse dt ∧ m.coresUp = true ∧
      m.meter.ended = some (b, ticks, tariff) ∧ b + 256 ≤ m.clk.cycle.toNat * 65536 + m.clk.angle.toNat) ∧
    (∃ (s : State) (dt : Nat) (m : Module), m = s.m.elapse dt ∧ (m.coresUp = false ∨ m.meter.ended = none ∨ ∃ b ticks
      tariff, m.meter.ended = some (b, ticks, tariff) ∧ m.clk.cycle.toNat * 65536 + m.clk.angle.toNat < b + 256)) ∧
    (∃ (t : Meter) (k : Nat) (e : Nat) (unit : Nat), ∃ j, 0 < unit ∧ Tbl.wf 0 t.counters = true ∧ Tbl.wf 0 t.rem = true ∧
      t.counter k + (Tbl.get 0 t.rem k + e) / unit < 2 ^ 64 ∧ j ≠ k) ∧
    (∃ (sum : Int) (ticks : Nat), sum ≤ 0) :=
  ⟨⟨at_ ({ up with meter := { up.meter with ended := some ((65536 * 65536 - 256), 0, 0) } }), 0, 65536 * 65536 - 256, 0,
     0, _, rfl, by decide +kernel⟩,
   ⟨at_ ({ up with stage := .boot }), 0, _, rfl, (.inl (by decide +kernel))⟩,
   ⟨up.meter, 0, 5, 3, 1, by decide +kernel⟩,
   ⟨0, 0, by decide +kernel⟩⟩

/-- Each group of hypotheses of `Obligations.PersistencePasses` is met together. -/
theorem test_persistence_passes_met :
    (∃ (s : State) (dt : Nat) (m : Module), m = s.m.elapse dt ∧ m.coresUp = true ∧ (if m.pow.ledger ≠ 0 ∨ m.hubHeat < 0
      then 2048 else 256) ≤ m.meter.sincePass) ∧
    (∃ (s : State) (dt : Nat) (m : Module), m = s.m.elapse dt ∧ (m.coresUp = false ∨ m.meter.sincePass < 256)) ∧
    (∃ (m : Module), ∃ k, m.variant.metering = true ∧ Tbl.wf (0 : Word16) m.vault.cells = true ∧ k ∈ m.meter.changed.map
      (fun e => e.1) ∧ k ≠ 3279) ∧
    (∃ (m : Module), ∃ k, m.variant.metering = true ∧ Tbl.wf (0 : Word16) m.vault.cells = true ∧ k ∉ m.meter.changed.map
      (fun e => e.1) ∧ k ≠ 3279) ∧
    (∃ (m : Module), m.variant.metering = false) :=
  ⟨⟨at_ ({ up with meter := { up.meter with sincePass := 256 } }), 0, _, rfl, by decide +kernel⟩,
   ⟨at_ ({ up with stage := .boot, meter := { up.meter with sincePass := 255 } }), 0, _, rfl, by decide +kernel⟩,
   ⟨{ up with meter := { up.meter with changed := [(0, true)] } }, 0, by decide +kernel⟩,
   ⟨up, 0, by decide +kernel⟩,
   ⟨{ up with variant := .um96s }, by decide +kernel⟩⟩

/-- Each group of hypotheses of `Obligations.DemandAndTariffs` is met together. -/
theorem test_demand_and_tariffs_met :
    (∃ (s : State) (dt : Nat) (m : Module) (t : Meter) (c : Nat) (fl : Byte), m = s.m.elapse dt ∧ m.coresUp = true ∧
      m.variant.metering = true ∧ m.meter.closeInterval (m.meter.committed / 65536) = some (t, c, some fl)) ∧
    (∃ (s : State) (dt : Nat) (m : Module) (t : Meter) (c : Nat), m = s.m.elapse dt ∧ m.coresUp = true ∧
      m.variant.metering = true ∧ m.meter.closeInterval (m.meter.committed / 65536) = some (t, c, none)) ∧
    (∃ (s : State) (dt : Nat) (m : Module), m = s.m.elapse dt ∧ (m.coresUp = false ∨ m.variant.metering = false ∨
      m.meter.closeInterval (m.meter.committed / 65536) = none)) ∧
    (∃ (s : State) (dt : Nat) (m : Module), m = s.m.elapse dt ∧ (m.coresUp = false ∨ m.variant.metering = false ∨ ∀ e ∈
      m.meter.pendingTariffs, m.clk.cycle.toNat < e.2.1)) ∧
    (∃ (s : State) (dt : Nat) (m : Module), m = s.m.elapse dt ∧ m.coresUp = true ∧ m.variant.metering = true ∧ (∃ e ∈
      m.meter.pendingTariffs, e.2.1 ≤ m.clk.cycle.toNat)) :=
  ⟨⟨at_
     ({ up with meter := { up.meter with counters := [(3275, 1), (3276, 2), (3277, 90000), (3295, 45000)], committed := 45000 * 65536 } }),
     0, _, _, _, _, rfl, by decide +kernel, by decide +kernel, rfl⟩,
   ⟨at_ ({ up with meter := { up.meter with committed := 45000 * 65536 } }), 0, _, _, _, rfl, by decide +kernel,
     by decide +kernel, rfl⟩,
   ⟨at_ ({ up with stage := .boot }), 0, _, rfl, by decide +kernel⟩,
   ⟨at_ ({ up with stage := .boot }), 0, _, rfl, by decide +kernel⟩,
   ⟨at_ ({ up with meter := { up.meter with counters := [(3298, 2 ^ 63 + 65536)] } }), 0, _, rfl, by decide +kernel⟩⟩

/-- Each group of hypotheses of `Obligations.LinkFrames` is met together. -/
theorem test_link_frames_met :
    (∃ (s : State) (dt : Nat) (l : Lane) (fec : Bool) (m : Module), m = s.m.elapse dt ∧ m.variant.fits l = true ∧
      m.coresUp = true ∧ (fec = (if l = .h then m.items.hFec else m.items.ringFec)) ∧ (m.lane l).state ≠ 2 ∧ (m.lane
      l).state ≠ 3 ∧ (m.lane l).state ≠ 4 ∧ Tbl.wf LaneSt.down m.ring.lanes = true ∧ l = .h) ∧
    (∃ (s : State) (dt : Nat) (l : Lane) (fec : Bool) (side : Side) (m : Module), m = s.m.elapse dt ∧ m.variant.fits l =
      true ∧ m.coresUp = true ∧ fec = m.items.ringFec ∧ laneSide l = some side ∧ (m.lane l).state ≠ 2 ∧ (m.lane l).state ≠
      3 ∧ (m.lane l).state ≠ 4 ∧ (m.ring.e1w1Idle = false ∨ l = .e0 ∨ l = .w0)) ∧
    (∃ (s : State) (dt : Nat) (l : Lane) (fec : Bool) (side : Side) (m : Module), m = s.m.elapse dt ∧ m.variant.fits l =
      true ∧ m.coresUp = true ∧ fec = m.items.ringFec ∧ laneSide l = some side ∧ (m.lane l).state ≠ 2 ∧ (m.lane l).state ≠
      3 ∧ (m.lane l).state ≠ 4 ∧ m.ring.e1w1Idle = true ∧ (l = .e1 ∨ l = .w1)) ∧
    (∃ (s : State) (dt : Nat) (l : Lane) (fec : Bool) (m : Module), m = s.m.elapse dt ∧ m.variant.fits l = true ∧
      (m.coresUp = false ∨ (fec ≠ if l = .h then m.items.hFec else m.items.ringFec) ∨ (m.lane l).state = 2)) ∧
    (∃ (s : State) (dt : Nat) (l : Lane) (m : Module), m = s.m.elapse dt ∧ m.variant.fits l = true ∧ m.stage ≠ .unpowered
      ∧ m.stage ≠ .holdup ∧ (m.lane l).state ≠ 0 ∧ (m.lane l).state ≠ 4) ∧
    (∃ (s : State) (dt : Nat) (l : Lane) (m : Module), m = s.m.elapse dt ∧ m.variant.fits l = true ∧ ((m.lane l).state = 0
      ∨ (m.lane l).state = 4)) ∧
    (∃ (s : State) (dt : Nat) (side : Side) (other : Side) (m : Module), m = s.m.elapse dt ∧ other ≠ side ∧
      m.variant.hasRing = true ∧ m.stage = .ready ∧ (m.span side).broken = true ∧ m.spanUsable side = true ∧ (m.peerFlags
      side).getLsbD 1 = true ∧ m.clk.angle.toNat % 32768 < 2048) ∧
    (∃ (s : State) (dt : Nat) (side : Side) (m : Module), m = s.m.elapse dt ∧ ((m.span side).broken = false ∨ m.spanUsable
      side = false ∨ 2048 ≤ m.clk.angle.toNat % 32768)) ∧
    (∃ (s : State) (dt : Nat) (l : Lane) (tick : Nat) (m : Module), m = s.m.elapse dt ∧ m.variant.fits l = true ∧ m.ringUp
      = true ∧ (m.lane l).state = 2 ∧ l ≠ .h) ∧
    (∃ (s : State) (dt : Nat) (l : Lane) (side : Side) (tick : Nat) (turn : Nat) (m : Module), m = s.m.elapse dt ∧
      m.variant.fits l = true ∧ m.ringUp = true ∧ (m.lane l).state = 2 ∧ laneSide l = some side ∧ (m.lane l).delay = none
      ∧ (m.lane l).echoes.length < 7) ∧
    (∃ (s : State) (dt : Nat) (l : Lane) (side : Side) (tick : Nat) (turn : Nat) (m : Module), m = s.m.elapse dt ∧
      m.variant.fits l = true ∧ m.ringUp = true ∧ (m.lane l).state = 2 ∧ laneSide l = some side ∧ (m.lane l).delay = none
      ∧ 7 ≤ (m.lane l).echoes.length ∧ median8 (5 * (m.clk.tick.toNat - tick - turn) :: (m.lane l).echoes) ≤ 1000) ∧
    (∃ (s : State) (dt : Nat) (l : Lane) (side : Side) (tick : Nat) (turn : Nat) (m : Module), m = s.m.elapse dt ∧
      m.variant.fits l = true ∧ m.ringUp = true ∧ (m.lane l).state = 2 ∧ laneSide l = some side ∧ (m.lane l).delay = none
      ∧ 7 ≤ (m.lane l).echoes.length ∧ 1000 < median8 (5 * (m.clk.tick.toNat - tick - turn) :: (m.lane l).echoes)) ∧
    (∃ (s : State) (dt : Nat) (hdr : LinkHdr) (weft : Word32) (slot : Byte) (loop : Byte) (side : Side) (m : Module) (f :
      Module), m = s.m.elapse dt ∧ m.ringUp = true ∧ laneSide (farLane hdr.lane) = some side ∧ (m.lane (farLane
      hdr.lane)).state = 2 ∧ f = m.seeEpoch (m.peerPosition side).toNat hdr.srcEpoch ∧ (∀ w, f.ring.lastNotice = some w →
      15 < (weft - w).toNat ∧ 15 < (w - weft).toNat)) ∧
    (∃ (s : State) (dt : Nat) (hdr : LinkHdr) (weft : Word32) (slot : Byte) (loop : Byte) (side : Side) (m : Module) (f :
      Module), ∃ w, m = s.m.elapse dt ∧ m.ringUp = true ∧ laneSide (farLane hdr.lane) = some side ∧ (m.lane (farLane
      hdr.lane)).state = 2 ∧ f = m.seeEpoch (m.peerPosition side).toNat hdr.srcEpoch ∧ f.ring.lastNotice = some w ∧ (weft
      - w).toNat ≤ 15) ∧
    (∃ (s : State) (dt : Nat) (hdr : LinkHdr) (revision : Word32) (side : Side) (m : Module) (f : Module), m = s.m.elapse
      dt ∧ m.ringUp = true ∧ laneSide (farLane hdr.lane) = some side ∧ (m.lane (farLane hdr.lane)).state = 2 ∧ f =
      m.seeEpoch (m.peerPosition side).toNat hdr.srcEpoch ∧ revision ≠ f.revision) ∧
    (∃ (s : State) (dt : Nat) (hdr : LinkHdr) (revision : Word32) (side : Side) (m : Module) (f : Module), m = s.m.elapse
      dt ∧ m.ringUp = true ∧ laneSide (farLane hdr.lane) = some side ∧ (m.lane (farLane hdr.lane)).state = 2 ∧ f =
      m.seeEpoch (m.peerPosition side).toNat hdr.srcEpoch ∧ revision = f.revision) :=
  ⟨⟨at_ up, 0, .h, false, _, rfl, by decide +kernel, by decide +kernel, (by decide +kernel), by decide +kernel,
     by decide +kernel, by decide +kernel, by decide +kernel, rfl⟩,
   ⟨at_ ({ up with ring := { up.ring with lanes := [(1, { LaneSt.down with state := 1 })] } }), 0, .e1, false, .east, _,
     rfl, by decide +kernel⟩,
   ⟨at_ ({ up with ring := { up.ring with lanes := [(1, { LaneSt.down with state := 1 })], e1w1Idle := true } }), 0, .e1,
     false, .east, _, rfl, by decide +kernel⟩,
   ⟨at_ ({ up with stage := .boot }), 0, .e0, false, _, rfl, by decide +kernel⟩,
   ⟨at_ up, 0, .e0, _, rfl, by decide +kernel⟩,
   ⟨at_
     ({ up with ring := { up.ring with lanes := [(1, { LaneSt.down with state := 0 }), (2, { LaneSt.down with state := 2 }), (3, { LaneSt.down with state := 2 }), (4, { LaneSt.down with state := 2 })] } }),
     0, .e0, _, rfl, by decide +kernel⟩,
   ⟨at_
     ({ up with ring := { up.ring with west := { Span.reset with auth := .done, hello := some (1, 1, 1, 2, 0, 0) }, lanes := [(1, { LaneSt.down with state := 2, delay := some 100 }), (2, { LaneSt.down with state := 2, delay := some 100 }), (3, { LaneSt.down with state := 2, delay := some 100 }), (4, { LaneSt.down with state := 2, delay := some 100 })] }, clk := { up.clk with angle := 2047 } }),
     0, .west, .east, _, rfl, by decide +kernel⟩,
   ⟨at_ ({ up with ring := { up.ring with west := { up.ring.west with broken := false } } }), 0, .west, _, rfl,
     by decide +kernel⟩,
   ⟨at_
     ({ up with ring := { up.ring with lanes := [(1, { LaneSt.down with state := 2 }), (2, { LaneSt.down with state := 2 }), (3, { LaneSt.down with state := 2 }), (4, { LaneSt.down with state := 2 })] } }),
     0, .e0, 0, _, rfl, by decide +kernel⟩,
   ⟨at_
     ({ up with ring := { up.ring with lanes := [(1, { LaneSt.down with state := 2, delay := none, echoes := [1, 2, 3, 4, 5, 6] }), (2, { LaneSt.down with state := 2 }), (3, { LaneSt.down with state := 2 }), (4, { LaneSt.down with state := 2 })] } }),
     0, .e0, .east, 2000000000000, 0, _, rfl, by decide +kernel⟩,
   ⟨at_
     ({ up with ring := { up.ring with lanes := [(1, { LaneSt.down with state := 2, delay := none, echoes := [1, 2, 3, 4, 5, 6, 7] }), (2, { LaneSt.down with state := 2 }), (3, { LaneSt.down with state := 2 }), (4, { LaneSt.down with state := 2 })] } }),
     0, .e0, .east, 2000000000000, 0, _, rfl, by decide +kernel⟩,
   ⟨at_
     ({ up with ring := { up.ring with lanes := [(1, { LaneSt.down with state := 2, delay := none, echoes := [1001, 1001, 1001, 1001, 1001, 1001, 1001] }), (2, { LaneSt.down with state := 2 }), (3, { LaneSt.down with state := 2 }), (4, { LaneSt.down with state := 2 })] } }),
     0, .e0, .east, 1999999999600, 0, _, rfl, by decide +kernel⟩,
   ⟨at_ ({ up with ring := { up.ring with lastNotice := some 5 } }), 0, ⟨.e0, 0⟩, 21, 0, 0, .west, _, _, rfl,
     by decide +kernel, by decide +kernel, by decide +kernel, rfl,
     (fun w h => Option.some.inj (show some 5 = some w from h) ▸ (by decide +kernel))⟩,
   ⟨at_ ({ up with ring := { up.ring with lastNotice := some 5 } }), 0, ⟨.e0, 0⟩, 20, 0, 0, .west, _, _, 5, rfl,
     by decide +kernel, by decide +kernel, by decide +kernel, rfl, by decide +kernel⟩,
   ⟨at_ up, 0, ⟨.e0, 0⟩, 1, .west, _, _, rfl, by decide +kernel, by decide +kernel, by decide +kernel, rfl,
     by decide +kernel⟩,
   ⟨at_ up, 0, ⟨.e0, 0⟩, 0, .west, _, _, rfl, by decide +kernel, by decide +kernel, by decide +kernel, rfl,
     by decide +kernel⟩⟩

/-- Each group of hypotheses of `Obligations.Neighbours` is met together. -/
theorem test_neighbours_met :
    (∃ (s : State) (dt : Nat) (hdr : LinkHdr) (position : Byte) (claim : Byte) (variant : Byte) (flags : Byte) (name :
      Byte) (seen : Word16) (side : Side) (m : Module), m = s.m.elapse dt ∧ m.ringUp = true ∧ laneSide (farLane hdr.lane)
      = some side ∧ (m.lane (farLane hdr.lane)).state = 2) ∧
    (∃ (s : State) (dt : Nat) (hdr : LinkHdr) (position : Byte) (claim : Byte) (variant : Byte) (flags : Byte) (name :
      Byte) (seen : Word16) (m : Module), m = s.m.elapse dt ∧ (m.ringUp = false ∨ hdr.lane = .h ∨ (m.lane (farLane
      hdr.lane)).state ≠ 2)) ∧
    (∃ (m : Module) (x : Module) (side : Side) (epoch : Word16) (position : Byte) (claim : Byte) (variant : Byte) (flags :
      Byte) (name : Byte) (seen : Word16), (m.span side).epoch = epoch ∧ unplaced position flags = false ∧ x =
      ((m.seeEpoch position.toNat epoch).seeVariant position variant).setSpan side (fun y =>
      { y with hello := some (position, claim, variant, flags, name, seen), epoch := epoch, helloGap := 0 }) ∧ (x.span
      side).auth ≠ .keyless ∧ x.vault.current.isSome = flags.getLsbD 0) ∧
    (∃ (m : Module) (x : Module) (side : Side) (epoch : Word16) (position : Byte) (claim : Byte) (variant : Byte) (flags :
      Byte) (name : Byte) (seen : Word16), (m.span side).epoch = epoch ∧ unplaced position flags = false ∧ x =
      ((m.seeEpoch position.toNat epoch).seeVariant position variant).setSpan side (fun y =>
      { y with hello := some (position, claim, variant, flags, name, seen), epoch := epoch, helloGap := 0 }) ∧
      x.vault.current.isSome ≠ flags.getLsbD 0 ∧ x.spanUp side = true) ∧
    (∃ (s : State) (dt : Nat) (m : Module), m = s.m.elapse dt ∧ m.ringUp = true ∧ (m.lane .e0).state = 2 ∧ (m.lane
      .w0).state = 2) ∧
    (∃ (m : Module) (side : Side), (m.span side).broken = true) ∧
    (∃ (m : Module) (side : Side), (m.span side).broken = false) :=
  ⟨⟨at_ up, 0, ⟨.e0, 0⟩, 0, 0, 0, 0, 0, 0, .west, _, rfl, by decide +kernel⟩,
   ⟨at_ ({ up with stage := .standby }), 0, ⟨.e0, 0⟩, 0, 0, 0, 0, 0, 0, _, rfl, by decide +kernel⟩,
   ⟨{ up with ring := { up.ring with west := { up.ring.west with epoch := 0 } } }, _, .west, 0, 64, 0, 0, 0, 0, 0,
     by decide +kernel, by decide +kernel, rfl, by decide +kernel⟩,
   ⟨{ up with ring := { up.ring with west := { up.ring.west with epoch := 0 } } }, _, .west, 0, 64, 0, 0, 1, 0, 0,
     by decide +kernel, by decide +kernel, rfl, by decide +kernel⟩,
   ⟨at_ up, 0, _, rfl, by decide +kernel⟩,
   ⟨{ up with ring := { up.ring with west := { up.ring.west with broken := true } } }, .west, by decide +kernel⟩,
   ⟨{ up with ring := { up.ring with west := { up.ring.west with broken := false } } }, .west, by decide +kernel⟩⟩

/-- Each group of hypotheses of `Obligations.Handshake` is met together. -/
theorem test_handshake_met :
    (∃ (s : State) (dt : Nat) (hdr : LinkHdr) (na : List Byte) (m : Module) (f : Module), m = s.m.elapse dt ∧ m.ringUp =
      true ∧ laneSide (farLane hdr.lane) = some .west ∧ (m.lane (farLane hdr.lane)).state = 2 ∧ f = m.seeEpoch
      (m.peerPosition .west).toNat hdr.srcEpoch ∧ f.vault.current.isSome = true ∧ f.spanUp .west = true) ∧
    (∃ (m : Module) (nb : List Byte) (k : List Byte), m.attemptKey m.ring.west.attempt = some k ∧ (m.lane .w0).state = 2) ∧
    (∃ (s : State) (dt : Nat) (hdr : LinkHdr) (nb : List Byte) (mb : List Byte) (k : List Byte) (d : Nat) (m : Module) (f
      : Module), m = s.m.elapse dt ∧ m.ringUp = true ∧ laneSide (farLane hdr.lane) = some .east ∧ (m.lane (farLane
      hdr.lane)).state = 2 ∧ f = m.seeEpoch (m.peerPosition .east).toNat hdr.srcEpoch ∧ (f.span .east).auth = .sentA ∧
      (f.span .east).deadline = some d ∧ f.clk.tick.toNat ≤ d ∧ f.vault.current = some k ∧ hmac k (mbText f.ring.east.na
      nb f.vault.hubEpoch hdr.srcEpoch) = mb) ∧
    (∃ (s : State) (dt : Nat) (hdr : LinkHdr) (nb : List Byte) (mb : List Byte) (k : List Byte) (d : Nat) (m : Module) (f
      : Module), ∃ q, m = s.m.elapse dt ∧ m.ringUp = true ∧ laneSide (farLane hdr.lane) = some .east ∧ (m.lane (farLane
      hdr.lane)).state = 2 ∧ f = m.seeEpoch (m.peerPosition .east).toNat hdr.srcEpoch ∧ (f.span .east).auth = .sentA ∧
      (f.span .east).deadline = some d ∧ f.clk.tick.toNat ≤ d ∧ f.vault.current = some k ∧ hmac k (mbText f.ring.east.na
      nb f.vault.hubEpoch hdr.srcEpoch) ≠ mb ∧ f.previous = some q ∧ hmac q (mbText f.ring.east.na nb f.vault.hubEpoch
      hdr.srcEpoch) = mb) ∧
    (∃ (s : State) (dt : Nat) (hdr : LinkHdr) (nb : List Byte) (mb : List Byte) (k : List Byte) (d : Nat) (m : Module) (f
      : Module), m = s.m.elapse dt ∧ m.ringUp = true ∧ laneSide (farLane hdr.lane) = some .east ∧ (m.lane (farLane
      hdr.lane)).state = 2 ∧ f = m.seeEpoch (m.peerPosition .east).toNat hdr.srcEpoch ∧ (f.span .east).auth = .sentA ∧
      (f.span .east).deadline = some d ∧ f.clk.tick.toNat ≤ d ∧ f.vault.current = some k ∧ hmac k (mbText f.ring.east.na
      nb f.vault.hubEpoch hdr.srcEpoch) ≠ mb ∧ (∀ q, f.previous = some q → hmac q (mbText f.ring.east.na nb
      f.vault.hubEpoch hdr.srcEpoch) ≠ mb)) ∧
    (∃ (s : State) (dt : Nat) (hdr : LinkHdr) (ma : List Byte) (k : List Byte) (d : Nat) (m : Module) (f : Module), m =
      s.m.elapse dt ∧ m.ringUp = true ∧ laneSide (farLane hdr.lane) = some .west ∧ (m.lane (farLane hdr.lane)).state = 2 ∧
      f = m.seeEpoch (m.peerPosition .west).toNat hdr.srcEpoch ∧ (f.span .west).auth = .sentB ∧ (f.span .west).deadline =
      some d ∧ f.clk.tick.toNat ≤ d ∧ f.attemptKey (f.span .west).attempt = some k) ∧
    (∃ (s : State) (dt : Nat) (hdr : LinkHdr) (nb : List Byte) (mb : List Byte) (ma : List Byte) (m : Module) (f : Module)
      (side : Side) (d : Nat), m = s.m.elapse dt ∧ m.ringUp = true ∧ laneSide (farLane hdr.lane) = some side ∧ (m.lane
      (farLane hdr.lane)).state = 2 ∧ f = m.seeEpoch (m.peerPosition side).toNat hdr.srcEpoch ∧ (f.span side).deadline =
      some d ∧ d < f.clk.tick.toNat) ∧
    (∃ (s : State) (dt : Nat) (d : Nat) (side : Side) (m : Module), m = s.m.elapse dt ∧ m.ringUp = true ∧ (m.span
      side).deadline = some d ∧ d < m.clk.tick.toNat) ∧
    (∃ (s : State) (dt : Nat) (d : Nat) (side : Side) (m : Module), m = s.m.elapse dt ∧ (m.span side).deadline = some d ∧
      m.clk.tick.toNat ≤ d) :=
  ⟨⟨at_ ({ up with vault := { up.vault with current := some [1] } }), 0, ⟨.e0, 0⟩, [], _, _, rfl, by decide +kernel,
     by decide +kernel, by decide +kernel, rfl, by decide +kernel⟩,
   ⟨{ up with vault := { up.vault with current := some [1] } }, [], [1], by decide +kernel⟩,
   ⟨at_
     ({ up with ring := { up.ring with east := { up.ring.east with auth := .sentA, deadline := some 2000000000000 } }, vault := { up.vault with current := some [1] } }),
     0, ⟨.w0, 0⟩, [], hmac [1] (mbText [] [] 1 0), [1], 2000000000000, _, _, rfl, by decide +kernel, by decide +kernel,
     by decide +kernel, rfl, by decide +kernel⟩,
   ⟨at_
     ({ up with ring := { up.ring with east := { up.ring.east with auth := .sentA, deadline := some 2000000000000 } }, vault := { up.vault with current := some [1], alternate := some [2] } }),
     0, ⟨.w0, 0⟩, [], hmac [2] (mbText [] [] 1 0), [1], 2000000000000, _, _, [2], rfl, by decide +kernel,
     by decide +kernel, by decide +kernel, rfl, by decide +kernel⟩,
   ⟨at_
     ({ up with ring := { up.ring with east := { up.ring.east with auth := .sentA, deadline := some 2000000000000 } }, vault := { up.vault with current := some [1] } }),
     0, ⟨.w0, 0⟩, [], [], [1], 2000000000000, _, _, rfl, by decide +kernel, by decide +kernel, by decide +kernel, rfl,
     by decide +kernel, by decide +kernel, by decide +kernel, by decide +kernel, by decide +kernel,
     (fun q h => absurd (show none = some q from h) (by simp))⟩,
   ⟨at_
     ({ up with ring := { up.ring with west := { up.ring.west with auth := .sentB, deadline := some 2000000000000, attempt := 1 } }, vault := { up.vault with current := some [1] } }),
     0, ⟨.e0, 0⟩, [], [1], 2000000000000, _, _, rfl, by decide +kernel, by decide +kernel, by decide +kernel, rfl,
     by decide +kernel⟩,
   ⟨at_ ({ up with ring := { up.ring with west := { up.ring.west with deadline := some 1999999999999 } } }), 0, ⟨.e0, 0⟩,
     [], [], [], _, _, .west, 1999999999999, rfl, by decide +kernel, by decide +kernel, by decide +kernel, rfl,
     by decide +kernel⟩,
   ⟨at_ ({ up with ring := { up.ring with west := { up.ring.west with deadline := some 1999999999999 } } }), 0,
     1999999999999, .west, _, rfl, by decide +kernel⟩,
   ⟨at_ ({ up with ring := { up.ring with west := { up.ring.west with deadline := some 2000000000000 } } }), 0,
     2000000000000, .west, _, rfl, by decide +kernel⟩⟩

/-- Each group of hypotheses of `Obligations.Enumeration` is met together. -/
theorem test_enumeration_met :
    (∃ (s : State) (dt : Nat) (m : Module), m = s.m.elapse dt ∧ m.variant.hasRing = true ∧ m.stage = .lamps ∧ 64 ≤
      m.clk.headerGap ∧ m.ring.enum = none ∧ m.ring.form = .none ∧ m.gateway = true ∧ m.claim = some 0) ∧
    (∃ (s : State) (dt : Nat) (m : Module), m = s.m.elapse dt ∧ (m.stage ≠ .lamps ∨ m.clk.headerGap < 64 ∨ m.gateway =
      false ∨ m.claim ≠ some 0)) ∧
    (∃ (s : State) (dt : Nat) (hdr : LinkHdr) (count : Byte) (w : Bool) (all : Bool) (size : Nat) (highest : Nat) (side :
      Side) (m : Module) (f : Module), m = s.m.elapse dt ∧ m.ringUp = true ∧ laneSide (farLane hdr.lane) = some side ∧
      (m.lane (farLane hdr.lane)).state = 2 ∧ f = m.seeEpoch (m.peerPosition side).toNat hdr.srcEpoch ∧ f.ring.enum = none
      ∧ side = .west ∧ w = false ∧ count.toNat < 64) ∧
    (∃ (s : State) (dt : Nat) (hdr : LinkHdr) (count : Byte) (w : Bool) (all : Bool) (size : Nat) (highest : Nat) (side :
      Side) (m : Module) (f : Module), m = s.m.elapse dt ∧ m.ringUp = true ∧ laneSide (farLane hdr.lane) = some side ∧
      (m.lane (farLane hdr.lane)).state = 2 ∧ f = m.seeEpoch (m.peerPosition side).toNat hdr.srcEpoch ∧ f.ring.enum = none
      ∧ side = .west ∧ w = false ∧ 64 ≤ count.toNat) ∧
    (∃ (s : State) (dt : Nat) (hdr : LinkHdr) (count : Byte) (w : Bool) (all : Bool) (size : Nat) (highest : Nat) (side :
      Side) (m : Module) (f : Module), ∃ d, m = s.m.elapse dt ∧ m.ringUp = true ∧ laneSide (farLane hdr.lane) = some side
      ∧ (m.lane (farLane hdr.lane)).state = 2 ∧ f = m.seeEpoch (m.peerPosition side).toNat hdr.srcEpoch ∧ f.ring.enum =
      some (false, d) ∧ side = .west ∧ w = false) ∧
    (∃ (s : State) (dt : Nat) (hdr : LinkHdr) (count : Byte) (w : Bool) (all : Bool) (size : Nat) (highest : Nat) (side :
      Side) (m : Module) (f : Module), m = s.m.elapse dt ∧ m.ringUp = true ∧ laneSide (farLane hdr.lane) = some side ∧
      (m.lane (farLane hdr.lane)).state = 2 ∧ f = m.seeEpoch (m.peerPosition side).toNat hdr.srcEpoch ∧ f.ring.enum = none
      ∧ side = .east ∧ w = true ∧ f.ring.counted = none ∧ f.ring.refusing = false ∧ size ≠ 0 ∧ highest + count.toNat <
      size) ∧
    (∃ (s : State) (dt : Nat) (hdr : LinkHdr) (count : Byte) (w : Bool) (all : Bool) (size : Nat) (highest : Nat) (side :
      Side) (m : Module) (f : Module), m = s.m.elapse dt ∧ m.ringUp = true ∧ laneSide (farLane hdr.lane) = some side ∧
      (m.lane (farLane hdr.lane)).state = 2 ∧ f = m.seeEpoch (m.peerPosition side).toNat hdr.srcEpoch ∧ f.ring.enum = none
      ∧ side = .east ∧ w = true ∧ f.ring.counted = none ∧ f.ring.refusing = false ∧ (size = 0 ∨ size ≤ highest +
      count.toNat)) ∧
    (∃ (s : State) (dt : Nat) (hdr : LinkHdr) (positions : Byte) (form : Form) (refs : List Byte) (side : Side) (m :
      Module) (f : Module), m = s.m.elapse dt ∧ m.ringUp = true ∧ laneSide (farLane hdr.lane) = some side ∧ (m.lane
      (farLane hdr.lane)).state = 2 ∧ f = m.seeEpoch (m.peerPosition side).toNat hdr.srcEpoch ∧ (f.ring.anchor = true ∨
      f.ring.refusing = true)) ∧
    (∃ (s : State) (dt : Nat) (hdr : LinkHdr) (positions : Byte) (form : Form) (refs : List Byte) (side : Side) (m :
      Module) (f : Module), m = s.m.elapse dt ∧ m.ringUp = true ∧ laneSide (farLane hdr.lane) = some side ∧ (m.lane
      (farLane hdr.lane)).state = 2 ∧ f = m.seeEpoch (m.peerPosition side).toNat hdr.srcEpoch ∧ f.ring.anchor = false ∧
      f.ring.refusing = false) ∧
    (∃ (s : State) (dt : Nat) (highest : Nat) (d : Nat) (m : Module), m = s.m.elapse dt ∧ m.ringUp = true ∧ d <
      m.clk.tick.toNat ∧ m.ring.enum = some (true, d)) ∧
    (∃ (s : State) (dt : Nat) (highest : Nat) (d : Nat) (m : Module), m = s.m.elapse dt ∧ m.ringUp = true ∧ d <
      m.clk.tick.toNat ∧ m.ring.enum = some (false, d)) ∧
    (∃ (s : State) (dt : Nat) (highest : Nat) (m : Module), m = s.m.elapse dt ∧ (m.ring.enum = none ∨ ∃ p, m.ring.enum =
      some p ∧ m.clk.tick.toNat ≤ p.2)) :=
  ⟨⟨at_
     ({ up with clk := { up.clk with headerGap := 64 }, ring := { up.ring with lanes := (0, { LaneSt.down with state := 2 }) :: up.ring.lanes, form := .none, east := { up.ring.east with hello := some (1, 1, 1, 0, 0, 0) }, west := { up.ring.west with hello := some (1, 1, 1, 0, 0, 0) } }, win := { up.win with enumerated := true }, stage := .lamps }),
     0, _, rfl, by decide +kernel⟩,
   ⟨at_ up, 0, _, rfl, by decide +kernel⟩,
   ⟨at_ up, 0, ⟨.e0, 0⟩, 63, false, false, 0, 0, .west, _, _, rfl, by decide +kernel, by decide +kernel,
     by decide +kernel, rfl, by decide +kernel⟩,
   ⟨at_ up, 0, ⟨.e0, 0⟩, 64, false, false, 0, 0, .west, _, _, rfl, by decide +kernel, by decide +kernel,
     by decide +kernel, rfl, by decide +kernel⟩,
   ⟨at_ { up with ring := { up.ring with enum := some (false, 5) } }, 0, ⟨.e0, 0⟩, 4, false, false, 0, 0, .west, _, _, 5,
     rfl, by decide +kernel, by decide +kernel, by decide +kernel, rfl, by decide +kernel⟩,
   ⟨at_ up, 0, ⟨.w0, 0⟩, 63, true, false, 65, 1, .east, _, _, rfl, by decide +kernel, by decide +kernel,
     by decide +kernel, rfl, by decide +kernel⟩,
   ⟨at_ up, 0, ⟨.w0, 0⟩, 63, true, false, 64, 1, .east, _, _, rfl, by decide +kernel, by decide +kernel,
     by decide +kernel, rfl, by decide +kernel⟩,
   ⟨at_ ({ up with ring := { up.ring with anchor := true } }), 0, ⟨.e0, 0⟩, 0, .single, [], .west, _, _, rfl,
     by decide +kernel, by decide +kernel, by decide +kernel, rfl, by decide +kernel⟩,
   ⟨at_ up, 0, ⟨.e0, 0⟩, 0, .single, [], .west, _, _, rfl, by decide +kernel, by decide +kernel, by decide +kernel, rfl,
     by decide +kernel⟩,
   ⟨at_ { up with ring := { up.ring with enum := some (true, 1999999999999) } }, 0, 63, 1999999999999, _, rfl,
     by decide +kernel⟩,
   ⟨at_ { up with ring := { up.ring with enum := some (false, 1999999999999) } }, 0, 63, 1999999999999, _, rfl,
     by decide +kernel⟩,
   ⟨at_ { up with ring := { up.ring with enum := some (true, 2000000000000) } }, 0, 63, _, rfl, .inr ⟨(true,
     2000000000000), by decide +kernel⟩⟩⟩

/-- Each group of hypotheses of `Obligations.WeftHeaders` is met together. -/
theorem test_weft_headers_met :
    (∃ (s : State) (dt : Nat) (lane : Lane) (h : WeftHdr) (m : Module) (x : Module) (y : Module), m = s.m.elapse dt ∧
      m.variant.fits lane = true ∧ m.ringUp = true ∧ m.ring.refusing = false ∧ (m.lane lane).state = 2 ∧ m.ring.isRef =
      false ∧ x = (m.readHeader lane h (m.pathOf lane h)).joinBetween h.positions.toNat ∧ (y = (if x.comesRound lane =
      true ∧ (x.clk.tracker = .domain ∨ x.clk.tracker = .domainHold) then (x.adopt h (m.pathOf lane h)).1.judgeMute
      (x.adopt h (m.pathOf lane h)).2 else x))) ∧
    (∃ (m : Module) (lane : Lane) (h : WeftHdr) (d : Nat), (m.lane (m.nextLane lane)).state = 2) ∧
    (∃ (s : State) (dt : Nat) (lane : Lane) (h : WeftHdr) (m : Module), m = s.m.elapse dt ∧ m.variant.fits lane = true ∧
      (m.ringUp = false ∨ m.ring.refusing = true ∨ (m.lane lane).state ≠ 2)) ∧
    (∃ (s : State) (dt : Nat) (lane : Lane) (h : WeftHdr) (m : Module) (f : Module), m = s.m.elapse dt ∧ m.variant.fits
      lane = true ∧ m.ringUp = true ∧ m.ring.refusing = false ∧ (m.lane lane).state = 2 ∧ m.ring.isRef = true ∧ f =
      m.seeEpoch h.reference.toNat h.refEpoch ∧ m.ownPosition h.reference = true) ∧
    (∃ (s : State) (dt : Nat) (lane : Lane) (h : WeftHdr) (m : Module) (f : Module), m = s.m.elapse dt ∧ m.variant.fits
      lane = true ∧ m.ringUp = true ∧ m.ring.refusing = false ∧ (m.lane lane).state = 2 ∧ m.ring.isRef = true ∧ f =
      m.seeEpoch h.reference.toNat h.refEpoch ∧ m.ownPosition h.reference = false ∧ m.yieldsTo h.reference = false) ∧
    (∃ (s : State) (dt : Nat) (lane : Lane) (h : WeftHdr) (m : Module) (f : Module), m = s.m.elapse dt ∧ m.variant.fits
      lane = true ∧ m.ringUp = true ∧ m.ring.refusing = false ∧ (m.lane lane).state = 2 ∧ m.ring.isRef = true ∧ f =
      m.seeEpoch h.reference.toNat h.refEpoch ∧ m.ownPosition h.reference = false ∧ m.yieldsTo h.reference = true) ∧
    (∃ (m : Module) (h : WeftHdr) (d : Nat), h.half = true) ∧
    (∃ (m : Module) (h : WeftHdr) (d : Nat), h.half = false ∧ m.clk.rebaseDue = true) ∧
    (∃ (m : Module) (err : Int), 65536000 < err.natAbs) ∧
    (∃ (m : Module) (err : Int), err.natAbs ≤ 65536000 ∧ m.ring.muted = false) ∧
    (∃ (m : Module) (err : Int), m.ring.muted = true ∧ 32768000 < err.natAbs) ∧
    (∃ (m : Module) (err : Int), m.ring.muted = true ∧ m.ring.muteUntil = none ∧ err.natAbs ≤ 32768000 ∧ 7 ≤
      m.ring.calmRun) ∧
    (∃ (s : State) (dt : Nat) (m : Module), m = s.m.elapse dt ∧ m.ringUp = true ∧ m.ring.isRef = true ∧ m.clk.angle.toNat
      % 32768 < 2048) ∧
    (∃ (s : State) (dt : Nat) (m : Module), m = s.m.elapse dt ∧ (m.ringUp = false ∨ m.ring.isRef = false ∨ 2048 ≤
      m.clk.angle.toNat % 32768)) ∧
    (∃ (s : State) (dt : Nat) (k : Nat) (m : Module), m = s.m.elapse dt ∧ m.ringUp = true ∧ m.ringReady = true ∧
      m.ring.position.isSome = true ∧ m.ring.isRef = false ∧ refIndex m.ring.refList m.positionByte = some k ∧ 64 + 8 * k
      ≤ m.clk.headerGap) ∧
    (∃ (s : State) (dt : Nat) (k : Nat) (m : Module), m = s.m.elapse dt ∧ m.ringUp = true ∧ m.ringReady = true ∧
      m.ring.position.isSome = true ∧ m.ring.isRef = false ∧ refIndex m.ring.refList m.positionByte = some k ∧
      m.clk.headerGap < 64 + 8 * k) :=
  ⟨⟨at_ { up with clk := { up.clk with tracker := .domain } }, 0, .w0, weft0, _, _, _, rfl, by decide +kernel,
     by decide +kernel, by decide +kernel, by decide +kernel, by decide +kernel, rfl, rfl⟩,
   ⟨up, .w0, weft0, 0, by decide +kernel⟩,
   ⟨at_ { up with ring := { up.ring with lanes := [] } }, 0, .w1, weft0, _, rfl, by decide +kernel⟩,
   ⟨at_ { up with ring := { up.ring with isRef := true } }, 0, .w0, { weft0 with reference := 0 }, _, _, rfl,
     by decide +kernel, by decide +kernel, by decide +kernel, by decide +kernel, by decide +kernel, rfl,
     by decide +kernel⟩,
   ⟨at_ { up with ring := { up.ring with isRef := true } }, 0, .w0, weft0, _, _, rfl, by decide +kernel,
     by decide +kernel, by decide +kernel, by decide +kernel, by decide +kernel, rfl, by decide +kernel⟩,
   ⟨at_ { up with ring := { up.ring with isRef := true, refList := [1, 0, 2, 3] } }, 0, .w0, weft0, _, _, rfl,
     by decide +kernel, by decide +kernel, by decide +kernel, by decide +kernel, by decide +kernel, rfl,
     by decide +kernel⟩,
   ⟨up, { weft0 with half := true }, 0, by decide +kernel⟩,
   ⟨{ up with clk := { up.clk with rebaseDue := true } }, weft0, 0, by decide +kernel⟩,
   ⟨up, 65536001, by decide +kernel⟩,
   ⟨up, -65536000, by decide +kernel⟩,
   ⟨{ up with ring := { up.ring with muted := true } }, -32768001, by decide +kernel⟩,
   ⟨{ up with ring := { up.ring with muted := true, calmRun := 7 } }, -32768000, by decide +kernel⟩,
   ⟨at_ ({ up with ring := { up.ring with isRef := true }, clk := { up.clk with angle := 2047 } }), 0, _, rfl,
     by decide +kernel⟩,
   ⟨at_ ({ up with stage := .standby }), 0, _, rfl, by decide +kernel⟩,
   ⟨at_ ({ up with clk := { up.clk with headerGap := 64 } }), 0, 0, _, rfl, by decide +kernel⟩,
   ⟨at_ ({ up with clk := { up.clk with headerGap := 71 }, ring := { up.ring with position := some 1 } }), 0, 1, _, rfl,
     by decide +kernel⟩⟩

/-- Each group of hypotheses of `Obligations.SlotTraffic` is met together. -/
theorem test_slot_traffic_met :
    (∃ (s : State) (dt : Nat) (dur : Nat) (p : Nat) (loop : Nat) (lane : Lane) (m : Module) (f : RingOut) (rest : List
      RingOut), m = s.m.elapse dt ∧ m.ringUp = true ∧ m.ring.position = some p ∧ (m.ringReady = false ∨ m.ring.held = [] ∧
      m.ring.heldLoss = none) ∧ m.ring.pushE = false ∧ m.ring.pushW = false ∧ m.nextFrame p dur m.ring.txq = some (f,
      rest) ∧ loop = m.frameLoop f ∧ lane = m.sendLane loop) ∧
    (∃ (s : State) (dt : Nat) (dur : Nat) (m : Module), m = s.m.elapse dt ∧ (m.ringUp = false ∨ m.ring.position = none)) ∧
    (∃ (m : Module) (f : RingOut) (fs : List RingOut) (p : Nat) (dur : Nat), m.mayInsert f = true ∧ m.busyUntil
      (m.sendLane (m.frameLoop f)) ≤ m.clk.tick.toNat ∧ m.inBody p (m.frameLoop f) dur = true) ∧
    (∃ (s : State) (dt : Nat) (lane : Lane) (ty : Byte) (hdr : RingHdr) (payload : List Byte) (good : Bool) (inserted :
      Bool) (reach : Nat) (m : Module) (f : Module), m = s.m.elapse dt ∧ m.variant.fits lane = true ∧ f = m.seeEpoch
      hdr.src.toNat hdr.srcEpoch ∧ (m.ringUp = false ∨ m.ring.refusing = true ∨ good = false ∨ (m.lane lane).state ≠ 2)) ∧
    (∃ (s : State) (dt : Nat) (lane : Lane) (ty : Byte) (hdr : RingHdr) (payload : List Byte) (good : Bool) (inserted :
      Bool) (reach : Nat) (m : Module) (f : Module), m = s.m.elapse dt ∧ m.variant.fits lane = true ∧ f = m.seeEpoch
      hdr.src.toNat hdr.srcEpoch ∧ m.ringUp = true ∧ m.ring.refusing = false ∧ good = true ∧ (m.lane lane).state = 2 ∧
      inserted = true ∧ 2 ≤ reach) ∧
    (∃ (s : State) (dt : Nat) (lane : Lane) (ty : Byte) (hdr : RingHdr) (payload : List Byte) (good : Bool) (inserted :
      Bool) (reach : Nat) (m : Module) (f : Module), m = s.m.elapse dt ∧ m.variant.fits lane = true ∧ f = m.seeEpoch
      hdr.src.toNat hdr.srcEpoch ∧ m.ringUp = true ∧ m.ring.refusing = false ∧ good = true ∧ (m.lane lane).state = 2 ∧
      (inserted = false ∨ reach < 2) ∧ f.ownPosition hdr.dst = true ∧ 2 ≤ ty.toNat ∧ ty.toNat ≤ 6) ∧
    (∃ (s : State) (dt : Nat) (lane : Lane) (ty : Byte) (hdr : RingHdr) (payload : List Byte) (good : Bool) (inserted :
      Bool) (reach : Nat) (m : Module) (f : Module), m = s.m.elapse dt ∧ m.variant.fits lane = true ∧ f = m.seeEpoch
      hdr.src.toNat hdr.srcEpoch ∧ m.ringUp = true ∧ m.ring.refusing = false ∧ good = true ∧ (m.lane lane).state = 2 ∧
      (inserted = false ∨ reach < 2) ∧ f.ownPosition hdr.src = true ∧ f.comesRound lane = true) ∧
    (∃ (s : State) (dt : Nat) (lane : Lane) (ty : Byte) (hdr : RingHdr) (payload : List Byte) (good : Bool) (inserted :
      Bool) (reach : Nat) (m : Module) (f : Module), m = s.m.elapse dt ∧ m.variant.fits lane = true ∧ f = m.seeEpoch
      hdr.src.toNat hdr.srcEpoch ∧ m.ringUp = true ∧ m.ring.refusing = false ∧ good = true ∧ (m.lane lane).state = 2 ∧
      (inserted = false ∨ reach < 2) ∧ (f.ownPosition hdr.dst = false ∨ ty.toNat < 2 ∨ 6 < ty.toNat) ∧ f.ownPosition
      hdr.src = false ∧ f.comesRound lane = true ∧ f.ring.isRef = true) ∧
    (∃ (s : State) (dt : Nat) (lane : Lane) (ty : Byte) (hdr : RingHdr) (payload : List Byte) (good : Bool) (inserted :
      Bool) (reach : Nat) (m : Module) (f : Module), m = s.m.elapse dt ∧ m.variant.fits lane = true ∧ f = m.seeEpoch
      hdr.src.toNat hdr.srcEpoch ∧ m.ringUp = true ∧ m.ring.refusing = false ∧ good = true ∧ (m.lane lane).state = 2 ∧
      (inserted = false ∨ reach < 2) ∧ (f.ownPosition hdr.dst = false ∨ ty.toNat < 2 ∨ 6 < ty.toNat) ∧ (f.comesRound lane
      = false ∨ (f.ownPosition hdr.src = false ∧ f.ring.isRef = false))) ∧
    (∃ (m : Module) (out : Lane) (f : RingOut), 131072 < m.backlog out + (28 + f.payload.length)) ∧
    (∃ (m : Module) (out : Lane) (f : RingOut), m.backlog out + (28 + f.payload.length) ≤ 131072 ∧ (m.lane out).state = 2) :=
  ⟨⟨at_
     { up with clk := { up.clk with angle := 2200 }, ring := { up.ring with txq := [⟨2, { hdr0 with dst := 63 }, [0]⟩] } },
     0, 100, 0, _, _, _, ⟨2, { hdr0 with dst := 63 }, [0]⟩, [], rfl, by decide +kernel, by decide +kernel,
     by decide +kernel, by decide +kernel, by decide +kernel, by decide +kernel, rfl, rfl⟩,
   ⟨at_ ({ up with stage := .standby }), 0, 0, _, rfl, by decide +kernel⟩,
   ⟨{ up with clk := { up.clk with angle := 2060 } }, ⟨3, hdr0, []⟩, [], 0, 100, by decide +kernel⟩,
   ⟨at_ up, 0, .w0, 2, hdr0, [], false, false, 0, _, _, rfl, by decide +kernel, rfl, by decide +kernel⟩,
   ⟨at_ up, 0, .w0, 2, hdr0, [], true, true, 2, _, _, rfl, by decide +kernel, rfl, by decide +kernel⟩,
   ⟨at_ up, 0, .w0, 6, hdr0, [], true, true, 1, _, _, rfl, by decide +kernel, rfl, by decide +kernel⟩,
   ⟨at_ up, 0, .w0, 2, { hdr0 with src := 0, dst := 2 }, [], true, false, 0, _, _, rfl, by decide +kernel, rfl,
     by decide +kernel⟩,
   ⟨at_ { up with ring := { up.ring with isRef := true } }, 0, .w0, 7, hdr0, [], true, false, 0, _, _, rfl,
     by decide +kernel, rfl, by decide +kernel⟩,
   ⟨at_ up, 0, .w0, 2, { hdr0 with dst := 2 }, [], true, false, 0, _, _, rfl, by decide +kernel, rfl, by decide +kernel⟩,
   ⟨{ up with ring := { up.ring with busyTill := [(1, 2000000010500)] } }, .e0, ⟨2, hdr0, []⟩, by decide +kernel⟩,
   ⟨{ up with ring := { up.ring with busyTill := [(1, 2000000010483)] } }, .e0, ⟨2, hdr0, []⟩, by decide +kernel⟩⟩

/-- Each group of hypotheses of `Obligations.RingFrames` is met together. -/
theorem test_ring_frames_met :
    (∃ (m : Module) (hdr : RingHdr) (g : Module → Module), (m.ringUp = false ∨ m.ring.refusing = true)) ∧
    (∃ (m : Module) (hdr : RingHdr) (g : Module → Module), ∃ f key, f = m.seeEpoch hdr.src.toNat hdr.srcEpoch ∧ key = 256
      * hdr.loop + hdr.src.toNat ∧ m.ringUp = true ∧ m.ring.refusing = false ∧ f.ownPosition hdr.src = true) ∧
    (∃ (m : Module) (hdr : RingHdr) (g : Module → Module), ∃ f key q, f = m.seeEpoch hdr.src.toNat hdr.srcEpoch ∧ key =
      256 * hdr.loop + hdr.src.toNat ∧ m.ringUp = true ∧ m.ring.refusing = false ∧ Tbl.get none f.ring.lastSeq key = some
      q ∧ newerSeq hdr.seq q = false) ∧
    (∃ (m : Module) (hdr : RingHdr) (g : Module → Module), ∃ f key, f = m.seeEpoch hdr.src.toNat hdr.srcEpoch ∧ key = 256
      * hdr.loop + hdr.src.toNat ∧ m.ringUp = true ∧ m.ring.refusing = false ∧ f.ownPosition hdr.src = false ∧ (∀ q,
      Tbl.get none f.ring.lastSeq key = some q → newerSeq hdr.seq q = true)) ∧
    (∃ (s : State) (dt : Nat) (hdr : RingHdr) (op : Word16) (p : Packet) (m : Module), m = s.m.elapse dt) ∧
    (∃ (m : Module) (hdr : RingHdr) (op : Word16) (p : Packet), m.ignores hdr.src = true) ∧
    (∃ (m : Module) (hdr : RingHdr) (op : Word16) (p : Packet), m.ignores hdr.src = false ∧ hdr.dstEpoch ≠ 0 ∧
      hdr.dstEpoch ≠ m.vault.hubEpoch) ∧
    (∃ (m : Module) (hdr : RingHdr) (op : Word16) (p : Packet), m.ignores hdr.src = false ∧ (hdr.dstEpoch = 0 ∨
      hdr.dstEpoch = m.vault.hubEpoch)) ∧
    (∃ (m : Module) (hdr : RingHdr) (r : Reply), (∀ f ∈ m.ring.forwards, f.1 ≠ hdr.rtill)) ∧
    (∃ (m : Module) (hdr : RingHdr) (r : Reply), (m.till hdr.rtill).due ≠ 0 ∧ (m.till hdr.rtill).due < m.clk.tick.toNat) ∧
    (∃ (m : Module) (hdr : RingHdr) (r : Reply), (m.till hdr.rtill).link.toNat ≠ hdr.src.toNat) ∧
    (∃ (m : Module) (hdr : RingHdr) (r : Reply), (m.till hdr.rtill).epoch ≠ 0 ∧ (m.till hdr.rtill).epoch ≠ hdr.srcEpoch) ∧
    (∃ (m : Module) (hdr : RingHdr) (r : Reply), ∃ f, m.ring.forwards.find? (fun f => f.1 == hdr.rtill) = some f ∧ (m.till
      hdr.rtill).link.toNat = hdr.src.toNat ∧ ((m.till hdr.rtill).due = 0 ∨ m.clk.tick.toNat ≤ (m.till hdr.rtill).due) ∧
      ((m.till hdr.rtill).epoch = 0 ∨ (m.till hdr.rtill).epoch = hdr.srcEpoch) ∧ r.status ≠ stAccepted) ∧
    (∃ (m : Module) (side : Side) (position : Byte) (epoch : Word16) (revision : Word32) (bytes : List Byte) (mac : List
      Byte), m.verifies bytes mac = false) ∧
    (∃ (m : Module) (side : Side) (position : Byte) (epoch : Word16) (revision : Word32) (bytes : List Byte) (mac : List
      Byte), m.verifies bytes mac = true) ∧
    (∃ (m : Module) (src : Byte) (cause : Byte) (subject : Byte) (epoch : Word16), (cause = 8 → m.ring.enum = none)) :=
  ⟨⟨{ up with stage := .standby }, hdr0, id, by decide +kernel⟩,
   ⟨{ up with ring := { up.ring with refusing := false } }, { hdr0 with src := 0 }, id, _, _, rfl, rfl, by decide +kernel⟩,
   ⟨{ up with ring := { up.ring with refusing := false, lastSeq := [(1, some 5)] } }, { hdr0 with seq := 5 }, id, _, _, 5,
     rfl, rfl, by decide +kernel⟩,
   ⟨{ up with ring := { up.ring with refusing := false, lastSeq := [(1, some 5)] } }, { hdr0 with seq := 6 }, id, _, _,
     rfl, rfl, by decide +kernel, by decide +kernel, by decide +kernel,
     (fun q h => Option.some.inj (show some 5 = some q from h) ▸ (by decide +kernel))⟩,
   ⟨at_ up, 0, hdr0, 0x0101, pkt [], _, rfl⟩,
   ⟨{ up with vault := { up.vault with current := some [1] }, ring := { up.ring with east := { up.ring.east with auth := .keyless, hello := some (1, 1, 1, 0, 0, 0) } } },
     hdr0, 0, pkt [], by decide +kernel⟩,
   ⟨up, { hdr0 with dstEpoch := 2 }, 0, pkt [], by decide +kernel⟩,
   ⟨up, hdr0, 0, pkt [], by decide +kernel⟩,
   ⟨up, hdr0, reply0, by decide +kernel⟩,
   ⟨{ up with win := { up.win with tills := [(0xC000, { Till.closed with due := 1999999999999 })] } },
     { hdr0 with rtill := 0xC000 }, reply0, by decide +kernel⟩,
   ⟨up, hdr0, reply0, by decide +kernel⟩,
   ⟨{ up with win := { up.win with tills := [(0xC000, { Till.closed with epoch := 1 })] } },
     { hdr0 with rtill := 0xC000, srcEpoch := 2 }, reply0, by decide +kernel⟩,
   ⟨{ up with win := { up.win with tills := [(0xC000, { Till.closed with epoch := 1, link := 1, due := 2000000000000 })] }, ring := { up.ring with forwards := [(0xC000, 0x0103, pkt [])] } },
     { hdr0 with rtill := 0xC000, srcEpoch := 1 }, reply0, _, rfl, by decide +kernel⟩,
   ⟨up, .west, 0, 0, 0, [], [], by decide +kernel⟩,
   ⟨{ up with vault := { up.vault with current := some [1] } }, .west, 0, 0, 0, [], hmac [1] [], by decide +kernel⟩,
   ⟨up, 1, 8, 1, 1, (fun _ => rfl)⟩⟩

/-- Each group of hypotheses of `Obligations.UpdateVotes` is met together. -/
theorem test_update_votes_met :
    (∃ (m : Module) (hdr : RingHdr) (g : Module → Module), hdr.dst = 0xFE) ∧
    (∃ (m : Module) (hdr : RingHdr) (g : Module → Module), hdr.dst ≠ 0xFE) ∧
    (∃ (m : Module) (u : UpdHdr) (clean : Bool) (man : List Byte), m.upd.session.id ≠ u.session ∧
      m.upd.session.phase.isOpen = true) ∧
    (∃ (m : Module) (u : UpdHdr) (clean : Bool) (man : List Byte), m.upd.session.id ≠ u.session ∧
      m.upd.session.phase.isOpen = false ∧ manifestLayout man = false) ∧
    (∃ (m : Module) (u : UpdHdr) (clean : Bool) (man : List Byte), m.upd.session.id ≠ u.session ∧
      m.upd.session.phase.isOpen = false ∧ manifestLayout man = true) ∧
    (∃ (m : Module) (side : Side) (b : Block), m.upd.session.phase ≠ .receiving) ∧
    (∃ (m : Module) (side : Side) (b : Block), ∃ x, m.upd.session.phase = .receiving ∧ x = m.setSession (fun y =>
      { y with lastFrom := some side }) ∧ (x.admits (blockCost b) [] = false ∨ x.checkBlock b = none ∨ x.holdsBlock
      (blockIndex b) = true)) ∧
    (∃ (m : Module) (side : Side) (b : Block), ∃ x e out, m.upd.session.phase = .receiving ∧ x = m.setSession (fun y =>
      { y with lastFrom := some side }) ∧ x.admits (blockCost b) [] = true ∧ x.checkBlock b = some (e, out) ∧ x.holdsBlock
      (blockIndex b) = false) ∧
    (∃ (m : Module) (u : UpdHdr), m.upd.session.id = u.session ∧ m.voteCause = 0) ∧
    (∃ (m : Module) (u : UpdHdr), m.upd.session.id = u.session ∧ m.voteCause ≠ 0) ∧
    (∃ (m : Module) (src : Nat) (c : Nat) (yes : Bool) (cause : Byte), m.upd.session.voteClose = some c ∧
      (m.upd.session.opener = false ∨ m.upd.session.roster.contains src = false ∨ m.upd.session.votes.any (fun v => v.1 ==
      src) = true ∨ m.clk.onTime c = false)) ∧
    (∃ (m : Module) (src : Nat) (c : Nat) (yes : Bool) (cause : Byte), m.upd.session.voteClose = some c ∧
      m.upd.session.opener = true ∧ m.upd.session.roster.contains src = true ∧ m.upd.session.votes.any (fun v => v.1 ==
      src) = false ∧ m.clk.onTime c = true ∧ ({ m.upd.session with votes := m.upd.session.votes ++ [(src, yes, cause)] } :
      Session).allYes = false) ∧
    (∃ (m : Module) (src : Nat) (c : Nat) (yes : Bool) (cause : Byte), m.upd.session.voteClose = some c ∧
      m.upd.session.opener = true ∧ m.upd.session.roster.contains src = true ∧ m.upd.session.votes.any (fun v => v.1 ==
      src) = false ∧ m.clk.onTime c = true ∧ ({ m.upd.session with votes := m.upd.session.votes ++ [(src, yes, cause)] } :
      Session).allYes = true) ∧
    (∃ (s : State) (dt : Nat) (c : Nat) (q : Nat) (cause : Byte) (m : Module), m = s.m.elapse dt ∧ m.coresUp = true ∧
      m.upd.session.opener = true ∧ m.upd.session.voteClose = some c ∧ m.upd.session.lowestNo = some (q, cause)) ∧
    (∃ (s : State) (dt : Nat) (m : Module), m = s.m.elapse dt ∧ m.upd.session.voteClose = none) :=
  ⟨⟨up, { hdr0 with dst := 0xFE }, id, by decide +kernel⟩,
   ⟨{ up with stage := .standby }, hdr0, id, by decide +kernel⟩,
   ⟨{ up with upd := { up.upd with session := { up.upd.session with id := 5, phase := .receiving } } }, ⟨0, 0, false, 7⟩,
     false, [], by decide +kernel⟩,
   ⟨{ up with upd := { up.upd with session := { up.upd.session with id := 5, phase := .aborted } } }, ⟨0, 0, false, 7⟩,
     false, [], by decide +kernel⟩,
   ⟨up, ⟨0, 0, false, 7⟩, true, man0, by decide +kernel⟩,
   ⟨up, .west, [], by decide +kernel⟩,
   ⟨{ up with upd := { up.upd with session := { up.upd.session with id := 7, phase := .receiving } } }, .west, [], _,
     by decide +kernel, rfl, .inr (.inl (by decide +kernel))⟩,
   ⟨{ up with upd := { up.upd with session := { up.upd.session with phase := .receiving, id := 7 }, bank1 := { up.upd.bank1 with manifest := man1 } } },
     .west, block1, _, partAt man1 0, [1], by decide +kernel, rfl, by decide +kernel⟩,
   ⟨{ up with upd := { up.upd with session := { up.upd.session with id := 7, phase := .assembled } } }, ⟨0, 0, false, 7⟩,
     by decide +kernel⟩,
   ⟨{ up with upd := { up.upd with session := { up.upd.session with id := 7 } } }, ⟨0, 0, false, 7⟩, by decide +kernel⟩,
   ⟨{ up with upd := { up.upd with session := { up.upd.session with opener := false, roster := [0, 1], voteClose := some (65536 * 65536), votes := [(0, true, 0)] } } },
     1, 65536 * 65536, false, 0, by decide +kernel⟩,
   ⟨{ up with upd := { up.upd with session := { up.upd.session with opener := true, roster := [0, 1], voteClose := some (65536 * 65536), votes := [(0, true, 0)] } } },
     1, 65536 * 65536, false, 0, by decide +kernel⟩,
   ⟨{ up with upd := { up.upd with session := { up.upd.session with opener := true, roster := [0, 1], voteClose := some (65536 * 65536), votes := [(0, true, 0)] } } },
     1, 65536 * 65536, true, 0, by decide +kernel⟩,
   ⟨at_
     ({ up with upd := { up.upd with session := { up.upd.session with opener := true, roster := [0, 1], voteClose := some (65536 * 65536), votes := [(0, true, 0)] } } }),
     0, 65536 * 65536, 1, 0x0A, _, rfl, by decide +kernel⟩,
   ⟨at_ ({ up with upd := { up.upd with session := { up.upd.session with voteClose := none } } }), 0, _, rfl,
     by decide +kernel⟩⟩

/-- Each group of hypotheses of `Obligations.CommitAndTrial` is met together. -/
theorem test_commit_and_trial_met :
    (∃ (m : Module) (u : UpdHdr) (cycle : Cycle), m.upd.session.id = u.session ∧ m.upd.session.phase = .prepared) ∧
    (∃ (m : Module) (u : UpdHdr) (cycle : Cycle), m.upd.session.id = u.session ∧ (m.upd.session.phase = .committed ∨
      m.upd.session.phase = .trial ∨ m.upd.session.phase = .confirmed ∨ m.upd.session.phase = .unwound)) ∧
    (∃ (m : Module) (u : UpdHdr) (cycle : Cycle), (m.upd.session.id ≠ u.session ∨ m.upd.session.phase = .idle ∨
      m.upd.session.phase = .receiving ∨ m.upd.session.phase = .assembled ∨ m.upd.session.phase = .aborted)) ∧
    (∃ (s : State) (dt : Nat) (c : Nat) (m : Module), m = s.m.elapse dt ∧ m.coresUp = true ∧ m.upd.session.phase =
      .committed ∧ m.upd.session.commitAt = some c ∧ c ≤ m.clk.cycle.toNat * 65536 + m.clk.angle.toNat ∧
      m.upd.session.isCurrent = false) ∧
    (∃ (s : State) (dt : Nat) (c : Nat) (m : Module), m = s.m.elapse dt ∧ m.coresUp = true ∧ m.upd.session.phase =
      .committed ∧ m.upd.session.commitAt = some c ∧ c ≤ m.clk.cycle.toNat * 65536 + m.clk.angle.toNat ∧
      m.upd.session.isCurrent = true) ∧
    (∃ (s : State) (dt : Nat) (c : Nat) (m : Module), m = s.m.elapse dt ∧ m.coresUp = true ∧ m.upd.session.phase =
      .committed ∧ m.upd.session.commitAt = some c ∧ m.clk.cycle.toNat * 65536 + m.clk.angle.toNat < c) ∧
    (∃ (s : State) (dt : Nat) (m : Module), m = s.m.elapse dt ∧ m.upd.session.commitAt = none) ∧
    (∃ (s : State) (dt : Nat) (m : Module), m = s.m.elapse dt ∧ m.upd.session.phase = .committed ∧ m.upd.select = 1 ∧
      m.ringReady = true ∧ m.upd.session.before.any (fun n => (m.slice n).failed) = false ∧ m.upd.session.before.all
      (fun n => (m.slice n).loaded) = true ∧ m.ent.healthy = true) ∧
    (∃ (s : State) (dt : Nat) (m : Module), m = s.m.elapse dt ∧ m.upd.session.phase = .committed ∧ m.upd.select = 1 ∧
      m.ringReady = true ∧ m.upd.session.before.any (fun n => (m.slice n).failed) = true ∧ m.upd.session.cause ≠ 0x0C) ∧
    (∃ (s : State) (dt : Nat) (m : Module), m = s.m.elapse dt ∧ (m.upd.session.phase ≠ .committed ∨ m.upd.select ≠ 1 ∨
      m.ringReady = false)) ∧
    (∃ (m : Module) (d : Bool), ∃ f, m.upd.session.opener = true ∧ m.upd.session.confirmSent = false ∧
      m.upd.session.unwindDue = false ∧ (m.upd.session.phase = .committed ∨ m.upd.session.phase = .trial) ∧
      m.upd.session.lowestFailed d = some f) ∧
    (∃ (m : Module) (d : Bool), m.upd.session.opener = true ∧ m.upd.session.confirmSent = false ∧ m.upd.session.unwindDue
      = false ∧ (m.upd.session.phase = .committed ∨ m.upd.session.phase = .trial) ∧ m.upd.session.lowestFailed d = none ∧
      m.upd.session.allPassed = true) :=
  ⟨⟨{ up with upd := { up.upd with session := { up.upd.session with id := 7, phase := .prepared } } }, ⟨0, 0, false, 7⟩,
     65600, by decide +kernel⟩,
   ⟨{ up with upd := { up.upd with session := { up.upd.session with id := 7, phase := .unwound } } }, ⟨0, 0, false, 7⟩,
     65600, by decide +kernel⟩,
   ⟨{ up with upd := { up.upd with session := { up.upd.session with id := 7, phase := .prepared } } }, ⟨0, 0, false, 6⟩,
     65600, by decide +kernel⟩,
   ⟨at_
     ({ up with upd := { up.upd with session := { up.upd.session with id := 7, phase := .committed, commitAt := some (65536 * 65536) } } }),
     0, 65536 * 65536, _, rfl, by decide +kernel⟩,
   ⟨at_
     ({ up with upd := { up.upd with session := { up.upd.session with id := 7, phase := .committed, commitAt := some (65536 * 65536), isCurrent := true } } }),
     0, 65536 * 65536, _, rfl, by decide +kernel⟩,
   ⟨at_
     ({ up with upd := { up.upd with session := { up.upd.session with id := 7, phase := .committed, commitAt := some (65536 * 65536 + 1) } } }),
     0, 65536 * 65536 + 1, _, rfl, by decide +kernel⟩,
   ⟨at_ ({ up with upd := { up.upd with session := { up.upd.session with commitAt := none } } }), 0, _, rfl,
     by decide +kernel⟩,
   ⟨at_
     ({ up with upd := { up.upd with session := { up.upd.session with phase := .committed }, select := 1 }, ent := { up.ent with state := 1 } }),
     0, _, rfl, by decide +kernel⟩,
   ⟨at_
     ({ up with upd := { up.upd with session := { up.upd.session with id := 7, phase := .committed, before := [0] }, select := 1 }, hub := [(0, { HubSlice.reset with epoch := 1, loaded := true, failed := true })] }),
     0, _, rfl, by decide +kernel⟩,
   ⟨at_ up, 0, _, rfl, by decide +kernel⟩,
   ⟨{ up with upd := { up.upd with session := { up.upd.session with id := 7, opener := true, phase := .committed, roster := [0, 1], trials := [(0, 0)] } } },
     true, (1, 0x0D), by decide +kernel⟩,
   ⟨{ up with upd := { up.upd with session := { up.upd.session with id := 7, opener := true, phase := .trial, roster := [0, 1], trials := [(0, 0), (1, 0)] } } },
     false, by decide +kernel⟩⟩

/-- Each group of hypotheses of `Obligations.ConfirmAndUnwind` is met together. -/
theorem test_confirm_and_unwind_met :
    (∃ (s : State) (dt : Nat) (read : Nat) (hdr : RingHdr) (u : UpdHdr) (m : Module) (g : Module → Module), m = s.m.elapse
      dt ∧ g = (fun f => if f.upd.session.phase = .trial then f.confirmHere read else if f.upd.session.phase = .confirmed
      then f.reportConfirmed else f) ∧ m.upd.session.id ≠ u.session) ∧
    (∃ (s : State) (dt : Nat) (read : Nat) (hdr : RingHdr) (u : UpdHdr) (m : Module) (g : Module → Module), m = s.m.elapse
      dt ∧ g = (fun f => if f.upd.session.phase = .trial then f.confirmHere read else if f.upd.session.phase = .confirmed
      then f.reportConfirmed else f) ∧ m.upd.session.id = u.session ∧ m.upd.session.opener = true) ∧
    (∃ (s : State) (dt : Nat) (read : Nat) (hdr : RingHdr) (u : UpdHdr) (m : Module) (g : Module → Module), m = s.m.elapse
      dt ∧ g = (fun f => if f.upd.session.phase = .trial then f.confirmHere read else if f.upd.session.phase = .confirmed
      then f.reportConfirmed else f) ∧ m.upd.session.id = u.session ∧ m.upd.session.opener = false) ∧
    (∃ (m : Module), (m.upd.session.phase = .committed ∨ m.upd.session.phase = .trial) ∧ m.upd.session.isCurrent = false) :=
  ⟨⟨at_ up, 0, 0, hdr0, ⟨0, 0, false, 7⟩, _, _, rfl, rfl, by decide +kernel⟩,
   ⟨at_ { up with upd := { up.upd with session := { up.upd.session with id := 7, opener := true } } }, 0, 0, hdr0, ⟨0, 0,
     false, 7⟩, _, _, rfl, rfl, by decide +kernel⟩,
   ⟨at_ { up with upd := { up.upd with session := { up.upd.session with id := 7, phase := .trial } } }, 0, 0, hdr0, ⟨0, 0,
     false, 7⟩, _, _, rfl, rfl, by decide +kernel⟩,
   ⟨{ up with upd := { up.upd with session := { up.upd.session with id := 7, phase := .trial } } }, by decide +kernel⟩⟩

/-- Each group of hypotheses of `Obligations.EntropyUnit` is met together. -/
theorem test_entropy_unit_met :
    (∃ (s : State) (dt : Nat) (test : HealthTest) (m : Module), m = s.m.elapse dt ∧ m.coresUp = true ∧ test ≠ .kat ∧
      m.ent.state ≠ 1) ∧
    (∃ (s : State) (dt : Nat) (test : HealthTest) (m : Module), m = s.m.elapse dt ∧ m.coresUp = true ∧ test ≠ .kat ∧
      m.ent.state = 1) ∧
    (∃ (s : State) (dt : Nat) (m : Module), m = s.m.elapse dt ∧ m.coresUp = false) ∧
    (∃ (s : State) (dt : Nat) (t : Nat) (m : Module), m = s.m.elapse dt ∧ m.ent.restartAt = some t) ∧
    (∃ (s : State) (dt : Nat) (m : Module), m = s.m.elapse dt ∧ m.ent.restartAt = none) ∧
    (∃ (s : State) (dt : Nat) (fail : Option HealthTest) (m : Module), m = s.m.elapse dt ∧ (m.coresUp = false ∨
      m.ent.testing = false)) ∧
    (∃ (s : State) (dt : Nat) (fail : Option HealthTest) (m : Module) (e : Entropy), m = s.m.elapse dt ∧ m.coresUp = true
      ∧ m.ent.testing = true ∧ e = (match m.ent.failing, fail with | none, some x => m.ent.countFail x | _, _ => m.ent)) ∧
    (∃ (s : State) (dt : Nat) (m : Module) (e : Entropy), m = s.m.elapse dt ∧ e = m.ent.fill m.clk.tick.toNat) :=
  ⟨⟨at_ up, 0, .rct, _, rfl, by decide +kernel⟩,
   ⟨at_ ({ up with ent := { up.ent with state := 1 } }), 0, .rct, _, rfl, by decide +kernel⟩,
   ⟨at_ { up with stage := .boot }, 0, _, rfl, by decide +kernel⟩,
   ⟨at_ ({ up with ent := { up.ent with restartAt := some 0 } }), 0, 0, _, rfl, by decide +kernel⟩,
   ⟨at_ ({ up with ent := { up.ent with restartAt := none } }), 0, _, rfl, by decide +kernel⟩,
   ⟨at_ ({ up with stage := .boot }), 0, none, _, rfl, by decide +kernel⟩,
   ⟨at_ { up with ent := { up.ent with testing := true } }, 0, some .apt, _, _, rfl, by decide +kernel, by decide +kernel,
     rfl⟩,
   ⟨at_ up, 0, _, _, rfl, rfl⟩⟩

/-- Each group of hypotheses of `Obligations.SerialCharacters` is met together. -/
theorem test_serial_characters_met :
    (∃ (s : State) (dt : Nat) (port : Port) (c : BitVec 9) (startOne : Bool) (stopOne : Bool) (noisy : Bool) (m : Module),
      m = s.m.elapse dt ∧ m.hears port = true) ∧
    (∃ (s : State) (dt : Nat) (port : Port) (c : BitVec 9) (startOne : Bool) (stopOne : Bool) (noisy : Bool) (m : Module),
      m = s.m.elapse dt ∧ m.hears port = false ∧ (port = .maint ∨ m.coresUp = false ∨ m.dropAsleep = false)) ∧
    (∃ (m : Module) (port : Port) (c : BitVec 9) (startOne : Bool) (stopOne : Bool) (noisy : Bool) (u : Uart) (f :
      Module), u = (m.port port).expire m.clk.tick.toNat ∧ f = m.setPort port (fun u => u.expire m.clk.tick.toNat) ∧
      startOne = true) ∧
    (∃ (m : Module) (port : Port) (c : BitVec 9) (startOne : Bool) (stopOne : Bool) (noisy : Bool) (u : Uart) (f :
      Module), u = (m.port port).expire m.clk.tick.toNat ∧ f = m.setPort port (fun u => u.expire m.clk.tick.toNat) ∧
      startOne = false ∧ port = .drop ∧ c.getLsbD 8 = false ∧ u.selected = false ∧ u.loopback = false ∧ u.echo = false) ∧
    (∃ (m : Module) (port : Port) (c : BitVec 9) (startOne : Bool) (stopOne : Bool) (noisy : Bool) (u : Uart) (f :
      Module), u = (m.port port).expire m.clk.tick.toNat ∧ f = m.setPort port (fun u => u.expire m.clk.tick.toNat) ∧
      startOne = false ∧ stopOne = false ∧ charBits port c = 0 ∧ (port = .drop → u.selected = true)) ∧
    (∃ (m : Module) (port : Port) (c : BitVec 9) (startOne : Bool) (stopOne : Bool) (noisy : Bool) (u : Uart) (f :
      Module), u = (m.port port).expire m.clk.tick.toNat ∧ f = m.setPort port (fun u => u.expire m.clk.tick.toNat) ∧
      startOne = false ∧ (port = .drop → u.selected = true) ∧ (¬ (stopOne = false ∧ charBits port c = 0)) ∧ u.echo = false
      ∧ u.loopback = false ∧ (port = .drop → c.getLsbD 8 = false)) ∧
    (∃ (m : Module) (c : BitVec 9) (startOne : Bool) (stopOne : Bool) (noisy : Bool) (u : Uart) (f : Module), u = (m.port
      .drop).expire m.clk.tick.toNat ∧ f = m.setPort .drop (fun u => u.expire m.clk.tick.toNat) ∧ startOne = false ∧
      c.getLsbD 8 = true ∧ u.echo = false ∧ u.loopback = false ∧ u.holding = none) ∧
    (∃ (m : Module) (port : Port) (c : BitVec 9), (m.port port).holding.isSome = true) ∧
    (∃ (m : Module) (port : Port) (c : BitVec 9), (m.port port).holding = none ∧ 2 ≤ (m.port port).full) ∧
    (∃ (m : Module) (port : Port) (c : BitVec 9), (m.port port).holding = none ∧ (m.port port).full < 2) ∧
    (∃ (m : Module) (port : Port) (stamp : Nat) (bs : List Byte), (m.port port).escaped = false ∧ (m.port port).badEscape
      = false ∧ (m.port port).frame = some bs ∧ 1 ≤ bs.length ∧ (bs.length < 32 ∨ 65536 < bs.length)) ∧
    (∃ (m : Module) (port : Port) (stamp : Nat) (bs : List Byte), (m.port port).escaped = false ∧ (m.port port).badEscape
      = false ∧ (m.port port).frame = some bs ∧ 32 ≤ bs.length ∧ bs.length ≤ 65536) ∧
    (∃ (u : Uart) (d : Nat) (now : Nat), u.deadline = some d ∧ now ≤ d) ∧
    (∃ (u : Uart) (d : Nat) (now : Nat), u.deadline = some d ∧ d < now ∧ u.frame.isSome = true) ∧
    (∃ (u : Uart) (d : Nat) (now : Nat), u.deadline = some d ∧ d < now ∧ u.frame = none) :=
  ⟨⟨at_ up, 0, .maint, 0, false, false, false, _, rfl, by decide +kernel⟩,
   ⟨at_ ({ up with stage := .boot }), 0, .maint, 0, false, false, false, _, rfl, by decide +kernel⟩,
   ⟨up, .maint, 0, true, false, false, _, _, rfl, rfl, by decide +kernel⟩,
   ⟨up, .drop, 0, false, false, false, _, _, rfl, rfl, by decide +kernel⟩,
   ⟨up, .maint, 0, false, false, false, _, _, rfl, rfl, by decide +kernel⟩,
   ⟨up, .maint, 0, false, true, false, _, _, rfl, rfl, by decide +kernel⟩,
   ⟨up, 0x1FF, false, false, false, _, _, rfl, rfl, by decide +kernel⟩,
   ⟨{ up with maint := { up.maint with holding := some (0, 0) } }, .maint, 0, by decide +kernel⟩,
   ⟨{ up with maint := { up.maint with holding := none, full := 2 } }, .maint, 0, by decide +kernel⟩,
   ⟨{ up with maint := { up.maint with holding := none, full := 1 } }, .maint, 0, by decide +kernel⟩,
   ⟨{ up with maint := { up.maint with escaped := false, badEscape := false, frame := some (List.replicate 1 0) } },
     .maint, 0, List.replicate 1 0, by decide +kernel⟩,
   ⟨{ up with maint := { up.maint with escaped := false, badEscape := false, frame := some (List.replicate 32 0) } },
     .maint, 0, List.replicate 32 0, by decide +kernel⟩,
   ⟨{ Uart.maintReset with deadline := some 5 }, 5, 5, by decide +kernel⟩,
   ⟨{ Uart.maintReset with deadline := some 5, frame := some [] }, 5, 6, by decide +kernel⟩,
   ⟨{ Uart.maintReset with deadline := some 5 }, 5, 6, by decide +kernel⟩⟩

/-- Each group of hypotheses of `Obligations.PortsAndTests` is met together. -/
theorem test_ports_and_tests_met :
    (∃ (s : State) (dt : Nat) (port : Port) (bits : Nat) (lpo : Nat) (m : Module) (u : Uart), m = s.m.elapse dt ∧ u =
      ((m.port port).expire m.clk.tick.toNat).interrupt ∧ m.hears port = false) ∧
    (∃ (s : State) (dt : Nat) (port : Port) (bits : Nat) (lpo : Nat) (m : Module) (u : Uart), m = s.m.elapse dt ∧ u =
      ((m.port port).expire m.clk.tick.toNat).interrupt ∧ m.hears port = true) ∧
    (∃ (s : State) (dt : Nat) (c : BitVec 9) (stopOne : Bool) (noisy : Bool) (m : Module), m = s.m.elapse dt ∧ (m.stage ≠
      .standby ∨ m.drop.sleep = 0 ∨ (stopOne = false ∧ c = 0))) ∧
    (∃ (s : State) (dt : Nat) (c : BitVec 9) (stopOne : Bool) (noisy : Bool) (m : Module), m = s.m.elapse dt ∧ m.stage =
      .standby ∧ m.drop.sleep ≠ 0 ∧ stopOne = true ∧ noisy = false ∧ m.drop.matches c = true) ∧
    (∃ (s : State) (dt : Nat) (c : BitVec 9) (stopOne : Bool) (noisy : Bool) (m : Module), m = s.m.elapse dt ∧ m.stage =
      .standby ∧ m.drop.sleep ≠ 0 ∧ (stopOne = true ∨ c ≠ 0) ∧ (stopOne = false ∨ noisy = true ∨ m.drop.matches c =
      false)) ∧
    (∃ (s : State) (dt : Nat) (port : Port) (m : Module), m = s.m.elapse dt ∧ (m.portRuns port = false ∨ (m.port
      port).brk.isSome = true ∨ (m.port port).txq = [])) ∧
    (∃ (s : State) (dt : Nat) (port : Port) (m : Module), ∃ r rest, m = s.m.elapse dt ∧ m.portRuns port = true ∧ (m.port
      port).brk = none ∧ (m.port port).txq = r :: rest ∧ (m.port port).loopback = false) ∧
    (∃ (s : State) (dt : Nat) (found : BistFound) (m : Module), m = s.m.elapse dt ∧ m.diag.bist = none) ∧
    (∃ (s : State) (dt : Nat) (found : BistFound) (m : Module), ∃ f target select x, m = s.m.elapse dt ∧ m.diag.bist =
      some (f, target, select) ∧ target ≠ 4 ∧ m.coresUp = true ∧ m.testRan target select = true ∧ x =
      (({ m with diag := { m.diag with bist := none }, free := m.free + 38 * m.variant.slices }).afterTest target
      select).final f stOk 0 (m.bistPayload target select found)) ∧
    (∃ (s : State) (dt : Nat) (found : BistFound) (m : Module), ∃ f target select, m = s.m.elapse dt ∧ m.diag.bist = some
      (f, target, select) ∧ target ≠ 4 ∧ (m.coresUp = false ∨ m.testRan target select = false)) ∧
    (∃ (s : State) (dt : Nat) (found : BistFound) (m : Module), ∃ f select, m = s.m.elapse dt ∧ m.diag.bist = some (f, 4,
      select)) :=
  ⟨⟨at_ ({ up with stage := .boot }), 0, .maint, 0, 0, _, _, rfl, rfl, by decide +kernel⟩,
   ⟨at_ up, 0, .maint, 0, 0, _, _, rfl, rfl, by decide +kernel⟩,
   ⟨at_ up, 0, 0x1FF, true, false, _, rfl, by decide +kernel⟩,
   ⟨at_ ({ up with stage := .standby, drop := { up.drop with address := 0xFF } }), 0, 0x1FF, true, false, _, rfl,
     by decide +kernel⟩,
   ⟨at_ ({ up with stage := .standby }), 0, 0x1FE, true, false, _, rfl, by decide +kernel⟩,
   ⟨at_ ({ up with stage := .boot }), 0, .maint, _, rfl, by decide +kernel⟩,
   ⟨at_ ({ up with maint := { up.maint with brk := none, txq := [reply0], loopback := false } }), 0, .maint, _, reply0,
     [], rfl, by decide +kernel⟩,
   ⟨at_ ({ up with diag := { up.diag with bist := none } }), 0, found0, _, rfl, by decide +kernel⟩,
   ⟨at_
     { up with diag := { up.diag with bist := some (⟨.maint, 0x0A01, 1, 0⟩, 5, 0xFFFF) }, ring := { up.ring with lanes := [0, 1, 2, 3, 4].map (fun k => (k, { LaneSt.down with state := 4 })) } },
     0, found0, _, ⟨.maint, 0x0A01, 1, 0⟩, 5, 0xFFFF, _, rfl, by decide +kernel, by decide +kernel, by decide +kernel,
     by decide +kernel, rfl⟩,
   ⟨at_ { up with diag := { up.diag with bist := some (⟨.maint, 0x0A01, 1, 0⟩, 5, 0xFFFF) } }, 0, found0, _, ⟨.maint,
     0x0A01, 1, 0⟩, 5, 0xFFFF, rfl, by decide +kernel⟩,
   ⟨at_ ({ up with diag := { up.diag with bist := some (⟨.maint, 0x0A01, 1, 0⟩, 4, 0) } }), 0, found0, _, ⟨.maint, 0x0A01,
     1, 0⟩, 0, rfl, by decide +kernel⟩⟩

/-- Each group of hypotheses of `Obligations.RowsAnswer` is met together. -/
theorem test_rows_answer_met :
    (∃ (c : Instr) (s : State) (f : Fault), exec c s = .fault f) ∧
    (∃ (c : Instr) (s : State) (t : State), exec c s = .next t) ∧
    (∃ (c : Instr) (s : State), s.m.variant = .um384 ∧ wellFormed c = true) :=
  ⟨⟨.sliceSilent 0 24, at_ up, .noSuchSlice 24, rfl⟩,
   ⟨.timeFrameSend 0, at_ up, _, rfl⟩,
   ⟨.timeFrameSend 0, at_ up, by decide +kernel⟩⟩

/-- Each group of hypotheses of `Obligations.PacketLayout` is met together. -/
theorem test_packet_layout_met :
    (∃ (code : Word16) (p : Packet), p.params.length ≤ 65504) :=
  ⟨0, pkt [], by decide +kernel⟩

/-- Each group of hypotheses of `Obligations.ReplyLayout` is met together. -/
theorem test_reply_layout_met :
    (∃ (r : Reply), r.payload.length ≤ 4064) :=
  ⟨reply0, by decide +kernel⟩

/-- Each group of hypotheses of `Obligations.ExecuteAt` is met together. -/
theorem test_execute_at_met :
    (∃ (k : Clock) (p : Packet) (due : Int), p.timed = true ∧ due = rebuild k.cycle.toNat p.execCycle * 65536 +
      p.execAngle.toNat ∧ k.onTime (due - 1024) = true) ∧
    (∃ (k : Clock) (p : Packet) (due : Int), p.timed = true ∧ due = rebuild k.cycle.toNat p.execCycle * 65536 +
      p.execAngle.toNat ∧ k.onTime (due - 1024) = false ∧ p.lateOk = false) ∧
    (∃ (k : Clock) (p : Packet) (due : Int), p.timed = true ∧ due = rebuild k.cycle.toNat p.execCycle * 65536 +
      p.execAngle.toNat ∧ k.onTime (due - 1024) = false ∧ p.lateOk = true ∧ k.onTime (due + 65536) = true) ∧
    (∃ (k : Clock) (p : Packet) (due : Int), p.timed = true ∧ due = rebuild k.cycle.toNat p.execCycle * 65536 +
      p.execAngle.toNat ∧ k.onTime (due - 1024) = false ∧ p.lateOk = true ∧ k.onTime (due + 65536) = false) ∧
    (∃ (k : Clock) (p : Packet), p.timed = false) ∧
    (∃ (m : Module) (op : Op) (p : Packet), m.clk.execAt p = none) :=
  ⟨⟨Clock.powerOn 65536, { pkt [] with flags := 1, execCycle := 65536, execAngle := 1024 }, _, by decide +kernel, rfl,
     by decide +kernel⟩,
   ⟨Clock.powerOn 65536, { pkt [] with flags := 1, execCycle := 65536, execAngle := 1023 }, _, by decide +kernel, rfl,
     by decide +kernel⟩,
   ⟨Clock.powerOn 65536, { pkt [] with flags := 3, execCycle := 65535, execAngle := 0 }, _, by decide +kernel, rfl,
     by decide +kernel⟩,
   ⟨Clock.powerOn 65536, { pkt [] with flags := 3, execCycle := 65534, execAngle := 65535 }, _, by decide +kernel, rfl,
     by decide +kernel⟩,
   ⟨Clock.powerOn 65536, pkt [], by decide +kernel⟩,
   ⟨up, opChannelSet, { pkt [] with flags := 1, execCycle := 65536, execAngle := 1023 }, by decide +kernel⟩⟩

/-- Each group of hypotheses of `Obligations.LongBreak` is met together. -/
theorem test_long_break_met :
    (∃ (s : State) (dt : Nat) (bits : Nat) (lpo : Nat) (m : Module), m = s.m.elapse dt ∧ m.hears .maint = true) ∧
    (∃ (s : State) (dt : Nat) (bits : Nat) (lpo : Nat) (m : Module), m = s.m.elapse dt ∧ m.hears .drop = true) :=
  ⟨⟨at_ up, 0, 0, 0, _, rfl, by decide +kernel⟩,
   ⟨at_ up, 0, 0, 0, _, rfl, by decide +kernel⟩⟩

/-- Each group of hypotheses of `Obligations.TablesStayCanonical` is met together. -/
theorem test_tables_stay_canonical_met :
    (∃ (s : State) (t : State), Safe s.m ∧ step s = .next t) :=
  ⟨⟨[.keepalive 0 5], up⟩, _, ⟨by decide +kernel, by decide +kernel, by decide +kernel⟩, rfl⟩

/-- Each group of hypotheses of `Obligations.VitalStaysSafe` is met together. -/
theorem test_vital_stays_safe_met :
    (∃ (s : State) (t : State), VitalSafe s.m ∧ step s = .next t) :=
  ⟨⟨[.keepalive 0 5], { up with prov := { up.prov with toggling := true, hold := false } }⟩, _,
     (fun _ => by decide +kernel), rfl⟩

/-- Each group of hypotheses of `Obligations.CommandsTakeEffect` is met together. -/
theorem test_commands_take_effect_met :
    (∃ (s : State) (dt : Nat) (m : Module) (x : Module) (first : Word16) (count : Word16) (expect : BitVec 2) (new :
      BitVec 2) (seq : Word16), m = s.m.elapse dt ∧ x = m.nextUnit ∧ x.coresUp = true ∧ Tbl.wf 0 x.win.passbook = true ∧ 2
      ≤ first.toNat ∧ 0 < count.toNat ∧ first.toNat + count.toNat ≤ 16128 ∧ ((expect = 0 ∧ new = 1) ∨ (expect = 1 ∧ new =
      0) ∨ (expect = 1 ∧ new = 2)) ∧ (∀ k, first.toNat ≤ k → k < first.toNat + count.toNat → x.win.code k = expect ∧ ∀ b ∈
      x.pagesInUse, touches b.1 b.2 k = false)) ∧
    (∃ (s : State) (dt : Nat) (m : Module) (first : Nat) (data : List Byte), m = s.m.elapse dt ∧ m.coresUp = true ∧ Tbl.wf
      false m.win.pendingBits = true) ∧
    (∃ (s : State) (dt : Nat) (m : Module) (x : Module) (offset : Word32) (data : List Byte), m = s.m.elapse dt ∧ x =
      m.nextUnit ∧ x.coresUp = true ∧ Memory.wf x.win.mem = true ∧ 0 < data.length ∧ offset.toNat % 4096 + data.length ≤
      4096 ∧ offset.toNat + data.length ≤ 0x4000000 ∧ 4096 ≤ offset.toNat ∧ x.win.code (offset.toNat / 4096) = 1) ∧
    (∃ (s : State) (dt : Nat) (m : Module) (x : Module) (tag : Nat) (offset : Word32) (len : Word16), m = s.m.elapse dt ∧
      x = m.nextUnit ∧ x.coresUp = true ∧ 0 < len.toNat ∧ offset.toNat % 4096 + len.toNat ≤ 4096 ∧ offset.toNat +
      len.toNat ≤ 0x4000000 ∧ 8192 ≤ offset.toNat ∧ x.win.code (offset.toNat / 4096) ≠ 3 ∧ (∀ e ∈ x.win.eccWords,
      offset.toNat + len.toNat ≤ 8 * e.1 ∨ 8 * e.1 + 8 ≤ offset.toNat)) ∧
    (∃ (s : State) (dt : Nat) (m : Module) (n : Nat) (stamp : Nat) (hdr : SliceHdr) (rising : Bool) (pos : Option Nat) (x
      : Module), m = s.m.elapse dt ∧ n < m.variant.slices ∧ m.stage ≠ .unpowered ∧ m.stage ≠ .rails ∧ (m.slice n).failed =
      false ∧ hdr.good = true ∧ hdr.epoch = (m.slice n).epoch ∧ hdr.epoch ≠ 0 ∧ Tbl.wf HubSlice.reset m.hub = true ∧ x =
      (m.setSlice n (fun h =>
      { h with stale := 0, lastFrame := m.clk.turn, rxSeq := hdr.seq, gaps := if hdr.seq = (m.slice n).rxSeq + 1 then h.gaps else h.gaps + 1 })).setFrames
      n (ackFrames m.clk.tick.toNat hdr.ack (m.slice n).unacked) ∧ n ≠ m.clk.ref ∧ (x.slice n).bus.chained rising
      (m.clk.tick.toNat - (m.clk.tick.toNat - stamp)) = false) ∧
    (∃ (s : State) (dt : Nat) (m : Module) (id : Nat) (e : Plan), m = s.m.elapse dt ∧ m.lamps.plans.find? (fun e => e.id
      == id) = some e ∧ e.sent = false) ∧
    (∃ (s : State) (dt : Nat) (m : Module) (id : Nat) (e : Plan), m = s.m.elapse dt ∧ m.lamps.plans.find? (fun e => e.id
      == id) = some e ∧ e.flash = none ∧ e.till = none ∧ e.due ≤ m.clk.cycle.toNat * 65536 + m.clk.angle.toNat ∧ (∀ x ∈
      m.lamps.plans, e.due < x.due ∨ (e.due = x.due ∧ e.id ≤ x.id))) ∧
    (∃ (s : State) (dt : Nat) (m : Module) (ch : Nat) (x : Shown) (from_ : Nat), m = s.m.elapse dt ∧ ch <
      m.variant.channels ∧ (m.chan ch).zc = [(x, from_)] ∧ (m.chan ch).edge = [] ∧ Tbl.wf Chan.reset m.lamps.chans = true
      ∧ from_ + 36864 ≤ m.clk.turn ∧ m.fallbackFor ch = 0 ∧ (m.chan ch).fb = 0) ∧
    (∃ (s : State) (dt : Nat) (m : Module), m = s.m.elapse dt ∧ m.clk.half ≠ m.lamps.half) ∧
    (∃ (s : State) (dt : Nat) (m : Module), ∃ ch, m = s.m.elapse dt ∧ ch < m.variant.channels ∧ (m.shown ch).1.pattern =
      .dim ∧ m.dimsAsSteady ch = false ∧ m.dimNow ch = true ∧ m.mayClose ch = true ∧ Tbl.wf Chan.reset m.lamps.chans =
      true) ∧
    (∃ (s : State) (dt : Nat) (m : Module), ∃ n, m = s.m.elapse dt ∧ n < m.variant.slices ∧ m.stage ≠ .unpowered ∧
      m.crossPoint n = true ∧ (m.slice n).startDue = false) ∧
    (∃ (s : State) (dt : Nat) (m : Module), m = s.m.elapse dt ∧ m.prov.toggling = false ∧ m.vitalCause = 0 ∧ (m.prov.hold
      = false ∨ m.startMet = true) ∧ m.prov.lastToggle + 500000 ≤ m.clk.tick.toNat ∧ m.coresUp = true ∧ m.crossPoint
      m.clk.ref = true) ∧
    (∃ (s : State) (dt : Nat) (m : Module), ∃ ch peak, m = s.m.elapse dt ∧ ch < m.variant.channels ∧ (m.chan ch).closed =
      true ∧ (m.chan ch).inrush = none ∧ 8000 < peak ∧ (m.chan ch).tripRun < 2 ∧ Tbl.wf Chan.reset m.lamps.chans = true) ∧
    (∃ (s : State) (dt : Nat) (m : Module), ∃ n ch, m = s.m.elapse dt ∧ n < m.variant.slices ∧ ch / 16 = n ∧ Tbl.wf
      Chan.reset m.lamps.chans = true ∧ Tbl.wf (OwnSlice.reset 1) m.own = true) ∧
    (∃ (s : State) (dt : Nat) (m : Module), ∃ ch t0, m = s.m.elapse dt ∧ ch < m.variant.channels ∧ (m.chan ch).inrush =
      some t0 ∧ t0 + 1000000 ≤ m.clk.tick.toNat) ∧
    (∃ (s : State) (dt : Nat) (m : Module), ∃ ch, m = s.m.elapse dt ∧ ch < m.variant.channels ∧ m.reported ch = .steady ∧
      (m.chan ch).settle + m.busAngle (ch / 16) ≤ m.clk.turn ∧ (m.slice (ch / 16)).loaded = true ∧ (m.slice (ch /
      16)).failed = false ∧ m.busAngle (ch / 16) < 512) ∧
    (∃ (s : State) (dt : Nat) (m : Module) (ch : Nat) (cycles : Nat) (sums : List BinSum) (bins : List SwBin), m =
      s.m.elapse dt ∧ ch < m.variant.channels ∧ m.learnCycles ch = some cycles ∧ (∀ b, b < 128 → (m.gathered ch b).count =
      2 * cycles) ∧ sums = (List.range 128).map (m.gathered ch) ∧ bins = sums.map (learnBin m.free (Tbl.get (20, 10, 0, 0)
      m.live.tolerance ch).1 (Tbl.get (20, 10, 0, 0) m.live.tolerance ch).2.1) ∧ m.learnResult ch sums bins = 0) ∧
    (∃ (s : State) (dt : Nat) (m : Module) (ch : Nat) (up : Nat × Nat) (down : Nat × Nat), m = s.m.elapse dt ∧ ch <
      m.variant.channels ∧ (m.slice (ch / 16)).wire = some (ch % 16, up, down) ∧ up.1 ≠ 0 ∧ down.1 ≠ 0 ∧ up.2 * down.1 ≤
      down.2 * up.1 + 1311 * (up.1 * down.1)) ∧
    (∃ (s : State) (dt : Nat) (m : Module), m = s.m.elapse dt ∧ (m.clk.tracker = .locking ∨ m.clk.tracker = .locked) ∧
      4096 < m.clk.sincePrediction.toNat ∧ m.clk.lastRef = none) ∧
    (∃ (s : State) (dt : Nat) (m : Module), m = s.m.elapse dt ∧ m.clk.tracker = .flywheel ∧ m.clk.flyFrom + 64 * 65536 ≤
      m.clk.turn ∧ m.items.refAlternate < m.variant.slices ∧ (m.slice m.items.refAlternate).bus.phase.settled = true) ∧
    (∃ (s : State) (dt : Nat) (m : Module), ∃ stamp, m = s.m.elapse dt ∧ m.clk.altRef = true ∧ (m.slice
      m.items.refPrimary).bus.phase.settled = true ∧ (m.slice m.items.refPrimary).bus.settledAt + 64 * 65536 ≤ m.clk.turn
      ∧ (m.clk.tracker = .locking ∨ m.clk.tracker = .locked ∨ m.clk.tracker = .flywheel) ∧ freqOk ((m.slice
      m.items.refPrimary).bus.gapAt stamp) = true) ∧
    (∃ (s : State) (dt : Nat) (m : Module), m = s.m.elapse dt ∧ m.clk.tracker = .domain ∧ 64 ≤ m.clk.headerGap) ∧
    (∃ (s : State) (dt : Nat) (m : Module), m = s.m.elapse dt ∧ m.clk.angle = 65535 ∧ m.clk.cycleLen.toNat ≤ m.clk.frac ∧
      m.upd.session.unwindDue = false) ∧
    (∃ (s : State) (dt : Nat) (m : Module) (means : List Int), m = s.m.elapse dt ∧ m.stage ≠ .unpowered ∧ m.stage ≠
      .holdup ∧ m.clk.turn / 32768 ≠ m.clk.halfDone ∧ m.diag.bist = none) ∧
    (∃ (s : State) (dt : Nat) (m : Module) (dv : Word16), m = s.m.elapse dt ∧ m.stage ≠ .unpowered ∧ m.stage ≠ .holdup ∧
      m.stage ≠ .standby ∧ m.pow.mains = false) ∧
    (∃ (s : State) (dt : Nat) (m : Module) (dv : Word16), m = s.m.elapse dt ∧ m.stage ≠ .unpowered ∧ m.stage ≠ .holdup ∧
      m.pow.mains = true ∧ m.pow.backup = true) ∧
    (∃ (s : State) (dt : Nat) (m : Module) (cv : Word16), m = s.m.elapse dt ∧ m.stage ≠ .unpowered ∧ m.stage ≠ .holdup ∧
      m.pow.backup = false ∧ m.pow.mains = true ∧ m.pow.mainsSince + 200000000 ≤ m.clk.tick.toNat) ∧
    (∃ (s : State) (dt : Nat) (m : Module), m = s.m.elapse dt ∧ m.stage ≠ .unpowered ∧ m.stage ≠ .holdup ∧ m.pow.mains =
      true ∧ m.pow.mainsSince + 200000000 ≤ m.clk.tick.toNat ∧ m.pow.onBackup = true) ∧
    (∃ (s : State) (dt : Nat) (m : Module) (groats : Word32), m = s.m.elapse dt ∧ m.stage ≠ .unpowered ∧ m.stage ≠ .holdup
      ∧ m.pow.onBackup = true ∧ groats.toNat < m.pow.account.toNat ∧ m.coresUp = true) ∧
    (∃ (s : State) (dt : Nat) (m : Module), m = s.m.elapse dt ∧ m.stage ≠ .unpowered ∧ m.stage ≠ .holdup ∧ m.pow.mains =
      true ∧ m.pow.onBackup = false ∧ m.pow.mainsSince + 1440000000000 ≤ m.clk.tick.toNat) ∧
    (∃ (s : State) (dt : Nat) (m : Module) (n : Nat) (hub : Int), m = s.m.elapse dt ∧ n < m.variant.slices ∧ m.coresUp =
      true ∧ (m.slice n).loaded = true ∧ (m.slice n).modelAt ≠ m.clk.wraps ∧ Tbl.wf HubSlice.reset m.hub = true) ∧
    (∃ (s : State) (dt : Nat) (m : Module), m = s.m.elapse dt ∧ m.coresUp = true ∧ m.pow.ledger = 2 ∧ m.pow.countFrom +
      100000000 * m.items.standbyAfter.toNat ≤ m.clk.tick.toNat ∧ m.pow.onBackup = true ∧ m.pow.mains = false) ∧
    (∃ (s : State) (dt : Nat) (m : Module), m = s.m.elapse dt ∧ m.coresUp = true ∧ m.pow.ledger = 2 ∧ m.pow.countFrom +
      100000000 * m.items.standbyAfter.toNat ≤ m.clk.tick.toNat ∧ (m.pow.onBackup = false ∨ m.pow.mains = true)) ∧
    (∃ (s : State) (dt : Nat) (m : Module), m = s.m.elapse dt ∧ m.stage = .standby) ∧
    (∃ (s : State) (dt : Nat) (m : Module), ∃ b ticks tariff, m = s.m.elapse dt ∧ m.coresUp = true ∧ m.meter.ended = some
      (b, ticks, tariff) ∧ b + 256 ≤ m.clk.cycle.toNat * 65536 + m.clk.angle.toNat) ∧
    (∃ (s : State) (dt : Nat) (m : Module), m = s.m.elapse dt ∧ m.coresUp = true ∧ (if m.pow.ledger ≠ 0 ∨ m.hubHeat < 0
      then 2048 else 256) ≤ m.meter.sincePass) ∧
    (∃ (s : State) (dt : Nat) (m : Module) (t : Meter) (c : Nat) (fl : Byte), m = s.m.elapse dt ∧ m.coresUp = true ∧
      m.variant.metering = true ∧ m.meter.closeInterval (m.meter.committed / 65536) = some (t, c, some fl)) ∧
    (∃ (s : State) (dt : Nat) (m : Module) (t : Meter) (c : Nat) (x : Nat), m = s.m.elapse dt ∧ m.coresUp = true ∧
      m.variant.metering = true ∧ m.meter.applyTariffs m.clk.cycle.toNat = some (t, c, x)) ∧
    (∃ (s : State) (dt : Nat) (m : Module) (l : Lane) (fec : Bool) (side : Side), m = s.m.elapse dt ∧ m.variant.fits l =
      true ∧ m.coresUp = true ∧ fec = m.items.ringFec ∧ laneSide l = some side ∧ (m.lane l).state ≠ 2 ∧ (m.lane l).state ≠
      3 ∧ (m.lane l).state ≠ 4 ∧ m.ring.e1w1Idle = false) ∧
    (∃ (s : State) (dt : Nat) (m : Module) (l : Lane), m = s.m.elapse dt ∧ m.variant.fits l = true ∧ m.stage ≠ .unpowered
      ∧ m.stage ≠ .holdup ∧ (m.lane l).state ≠ 0 ∧ (m.lane l).state ≠ 4) ∧
    (∃ (s : State) (dt : Nat) (m : Module) (side : Side), m = s.m.elapse dt ∧ m.variant.hasRing = true ∧ m.stage = .ready
      ∧ (m.span side).broken = true ∧ m.spanUsable side = true ∧ (m.peerFlags side).getLsbD 1 = true ∧ m.clk.angle.toNat %
      32768 < 2048) ∧
    (∃ (s : State) (dt : Nat) (m : Module) (l : Lane) (tick : Nat), m = s.m.elapse dt ∧ m.variant.fits l = true ∧ m.ringUp
      = true ∧ (m.lane l).state = 2 ∧ l ≠ .h) ∧
    (∃ (s : State) (dt : Nat) (m : Module) (l : Lane) (side : Side) (tick : Nat) (turn : Nat), m = s.m.elapse dt ∧
      m.variant.fits l = true ∧ m.ringUp = true ∧ (m.lane l).state = 2 ∧ laneSide l = some side ∧ (m.lane l).delay = none
      ∧ 7 ≤ (m.lane l).echoes.length ∧ median8 (5 * (m.clk.tick.toNat - tick - turn) :: (m.lane l).echoes) ≤ 1000) ∧
    (∃ (s : State) (dt : Nat) (m : Module) (hdr : LinkHdr) (side : Side) (f : Module) (weft : Word32) (slot : Byte) (loop
      : Byte), m = s.m.elapse dt ∧ m.ringUp = true ∧ laneSide (farLane hdr.lane) = some side ∧ (m.lane (farLane
      hdr.lane)).state = 2 ∧ f = m.seeEpoch (m.peerPosition side).toNat hdr.srcEpoch ∧ f.ring.lastNotice = none) :=
  ⟨⟨at_ up, 0, _, _, 16127, 1, 0, 1, 0, rfl, rfl, by decide +kernel, by decide +kernel, by decide +kernel,
     by decide +kernel, by decide +kernel, by decide +kernel,
     (fun k h1 h2 => (show 16127 = k from Nat.le_antisymm h1 (Nat.le_of_lt_succ h2)) ▸ (by decide +kernel))⟩,
   ⟨at_ up, 0, _, 0, [], rfl, by decide +kernel⟩,
   ⟨at_ { up with win := { up.win with passbook := [(16383, 1)] } }, 0, _, _, 0x3FFFFFF, [1], rfl, rfl, by decide +kernel⟩,
   ⟨at_ up, 0, _, _, 0, 8192, 4096, rfl, rfl, by decide +kernel⟩,
   ⟨at_ { up with hub := [(1, { HubSlice.reset with epoch := 1, loaded := true })] }, 0, _, 1, 0, ⟨true, 1, 1, 0⟩, true,
     none, _, rfl, by decide +kernel, by decide +kernel, by decide +kernel, by decide +kernel, by decide +kernel,
     by decide +kernel, by decide +kernel, by decide +kernel, rfl, by decide +kernel⟩,
   ⟨at_
     ({ up with lamps := { up.lamps with plans := [⟨0, none, 65536 * 65536, [(0, ⟨.steady, .dc, 0⟩)], none, false, []⟩] } }),
     0, _, 0, ⟨0, none, 65536 * 65536, [(0, ⟨.steady, .dc, 0⟩)], none, false, []⟩, rfl, by decide +kernel⟩,
   ⟨at_
     ({ up with lamps := { up.lamps with plans := [⟨0, none, 65536 * 65536, [(0, ⟨.steady, .dc, 0⟩)], none, true, []⟩] } }),
     0, _, 0, ⟨0, none, 65536 * 65536, [(0, ⟨.steady, .dc, 0⟩)], none, true, []⟩, rfl, by decide +kernel⟩,
   ⟨at_
     { up with lamps := { up.lamps with chans := [(383, { Chan.reset with zc := [(⟨.steady, .zeroCross, 0⟩, 0)] })] }, clk := { up.clk with angle := 36864 } },
     0, _, 383, ⟨.steady, .zeroCross, 0⟩, 0, rfl, by decide +kernel⟩,
   ⟨at_ ({ up with lamps := { up.lamps with half := 131071 } }), 0, _, rfl, by decide +kernel⟩,
   ⟨at_
     ({ up with lamps := { up.lamps with chans := [(0, { Chan.reset with closed := false, cmd := some ⟨.dim, .phaseExact, 31744⟩ })] }, hub := [(0, { HubSlice.reset with epoch := 1, loaded := true, bus := { HubSlice.reset.bus with phase := ⟨0, 0x8000, .ac, true⟩ } })], clk := { up.clk with angle := 0x8000 - 31744 } }),
     0, _, 0, rfl, by decide +kernel⟩,
   ⟨at_ up, 0, _, 0, rfl, by decide +kernel⟩,
   ⟨at_ ({ up with prov := { up.prov with toggling := false, hold := false } }), 0, _, rfl, by decide +kernel⟩,
   ⟨at_ { up with lamps := { up.lamps with chans := [(383, { Chan.reset with closed := true, tripRun := 1 })] } }, 0, _,
     383, 8001, rfl, by decide +kernel⟩,
   ⟨at_ up, 0, _, 23, 383, rfl, by decide +kernel⟩,
   ⟨at_ ({ up with lamps := { up.lamps with chans := [(0, { Chan.reset with inrush := some 0 })] } }), 0, _, 0, 0, rfl,
     by decide +kernel⟩,
   ⟨at_
     ({ up with hub := [(0, { HubSlice.reset with epoch := 1, loaded := true, failed := false })], lamps := { up.lamps with chans := [(0, { Chan.reset with cmd := some ⟨.steady, .phaseExact, 0⟩ })] } }),
     0, _, 0, rfl, by decide +kernel⟩,
   ⟨at_
     { up with prov := { up.prov with learns := [⟨⟨.maint, 0x0301, 1, 0⟩, 2, [(5, true, none)], false⟩], gather := (List.range 128).map (fun b => (640 + b, ⟨4, 4000, 4000000⟩)) } },
     0, _, 5, 2, _, _, rfl, by decide +kernel, by decide +kernel, (by decide +kernel), rfl, rfl, by decide +kernel⟩,
   ⟨at_ { up with hub := [(0, { HubSlice.reset with epoch := 1, wire := some (5, (4, 5244), (4, 0)) })] }, 0, _, 5, (4,
     5244), (4, 0), rfl, by decide +kernel⟩,
   ⟨at_ ({ up with clk := { up.clk with tracker := .locking, angle := 4097, cycleTicks := 125031 } }), 0, _, rfl,
     by decide +kernel⟩,
   ⟨at_
     { up with clk := { up.clk with tracker := .flywheel, flyFrom := 65536, wraps := 65 }, vault := { up.vault with config := some ⟨0, 0x0100, 1, { Items.default with refAlternate := 23 }, .unsealed⟩ }, hub := [(23, { HubSlice.reset with epoch := 1, loaded := true, bus := { Bus.reset with phase := ⟨0, 0x8000, .ac, true⟩ } })] },
     0, _, rfl, by decide +kernel⟩,
   ⟨at_
     { up with clk := { up.clk with altRef := true, tracker := .locking, wraps := 64 }, hub := [(0, { HubSlice.reset with epoch := 1, loaded := true, bus := { Bus.reset with phase := ⟨0, 0x8000, .ac, true⟩, lastPos := some 0 } })] },
     0, _, 2000000, rfl, by decide +kernel⟩,
   ⟨at_ ({ up with clk := { up.clk with tracker := .domain, headerGap := 64 } }), 0, _, rfl, by decide +kernel⟩,
   ⟨at_
     ({ up with clk := { up.clk with angle := 65535, frac := 2000000 }, upd := { up.upd with session := { up.upd.session with unwindDue := false } } }),
     0, _, rfl, by decide +kernel⟩,
   ⟨at_ { up with clk := { up.clk with angle := 32768 } }, 0, _, [], rfl, by decide +kernel⟩,
   ⟨at_ ({ up with pow := { up.pow with mains := false } }), 0, _, 0, rfl, by decide +kernel⟩,
   ⟨at_ { up with pow := { up.pow with mains := true, backup := true } }, 0, _, 0, rfl, by decide +kernel⟩,
   ⟨at_ { up with pow := { up.pow with mains := true, mainsSince := 1999800000000 } }, 0, _, 0, rfl, by decide +kernel⟩,
   ⟨at_ ({ up with pow := { up.pow with mains := true, onBackup := true } }), 0, _, rfl, by decide +kernel⟩,
   ⟨at_ { up with pow := { up.pow with onBackup := true, account := 100 } }, 0, _, 99, rfl, by decide +kernel⟩,
   ⟨at_ ({ up with pow := { up.pow with mains := true, onBackup := false } }), 0, _, rfl, by decide +kernel⟩,
   ⟨at_ { up with hub := [(23, { HubSlice.reset with epoch := 1, loaded := true, modelAt := 1 })] }, 0, _, 23, 0, rfl,
     by decide +kernel⟩,
   ⟨at_ { up with pow := { up.pow with ledger := 2, onBackup := true } }, 0, _, rfl, by decide +kernel⟩,
   ⟨at_ ({ up with pow := { up.pow with ledger := 2 } }), 0, _, rfl, by decide +kernel⟩,
   ⟨at_ { up with stage := .standby }, 0, _, rfl, by decide +kernel⟩,
   ⟨at_ ({ up with meter := { up.meter with ended := some ((65536 * 65536 - 256), 0, 0) } }), 0, _, 65536 * 65536 - 256,
     0, 0, rfl, by decide +kernel⟩,
   ⟨at_ { up with meter := { up.meter with sincePass := 256 } }, 0, _, rfl, by decide +kernel⟩,
   ⟨at_
     ({ up with meter := { up.meter with counters := [(3275, 1), (3276, 2), (3277, 90000), (3295, 45000)], committed := 45000 * 65536 } }),
     0, _, _, _, _, rfl, by decide +kernel, by decide +kernel, rfl⟩,
   ⟨at_ { up with meter := { up.meter with counters := [(3298, BitVec.ofNat 64 (pendingWord 65536 3))] } }, 0, _, _,
     65536, 3, rfl, by decide +kernel, by decide +kernel, rfl⟩,
   ⟨at_ ({ up with ring := { up.ring with lanes := [(1, { LaneSt.down with state := 1 })] } }), 0, _, .e1, false, .east,
     rfl, by decide +kernel⟩,
   ⟨at_ up, 0, _, .e0, rfl, by decide +kernel⟩,
   ⟨at_
     ({ up with ring := { up.ring with west := { Span.reset with auth := .done, hello := some (1, 1, 1, 2, 0, 0) }, lanes := [(1, { LaneSt.down with state := 2, delay := some 100 }), (2, { LaneSt.down with state := 2, delay := some 100 }), (3, { LaneSt.down with state := 2, delay := some 100 }), (4, { LaneSt.down with state := 2, delay := some 100 })] }, clk := { up.clk with angle := 2047 } }),
     0, _, .west, rfl, by decide +kernel⟩,
   ⟨at_
     ({ up with ring := { up.ring with lanes := [(1, { LaneSt.down with state := 2 }), (2, { LaneSt.down with state := 2 }), (3, { LaneSt.down with state := 2 }), (4, { LaneSt.down with state := 2 })] } }),
     0, _, .e0, 0, rfl, by decide +kernel⟩,
   ⟨at_
     ({ up with ring := { up.ring with lanes := [(1, { LaneSt.down with state := 2, delay := none, echoes := [1, 2, 3, 4, 5, 6, 7] }), (2, { LaneSt.down with state := 2 }), (3, { LaneSt.down with state := 2 }), (4, { LaneSt.down with state := 2 })] } }),
     0, _, .e0, .east, 2000000000000, 0, rfl, by decide +kernel⟩,
   ⟨at_ up, 0, _, ⟨.e0, 0⟩, .west, _, 21, 0, 0, rfl, by decide +kernel, by decide +kernel, by decide +kernel, rfl,
     by decide +kernel⟩⟩

/-! ### Ill-formed commands are refused -/

/-- A packet whose forwarding source is no position: forwarded packets come from positions 0 to 63. -/
def badPkt : Packet := { pkt [] with path := .ring 64 0 }
/-- Every packet command refuses a packet that no header can carry. -/
theorem test_ill_formed_packet :
    ([.capabilityRead 0 badPkt, .statusRead 0 badPkt, .timeRead 0 badPkt, .tillOpen 0 badPkt, .tillClose 0 badPkt,
      .tillRead 0 badPkt, .scheduleCancel 0 badPkt, .tagQuery 0 badPkt, .reset 0 badPkt, .configWrite 0 badPkt,
      .configRead 0 badPkt, .channelSet 0 badPkt, .aspectDefine 0 badPkt, .aspectShow 0 badPkt, .aspectDelete 0
      badPkt, .flashSet 0 badPkt, .channelRead 0 badPkt, .swatchLearn 0 badPkt, .swatchRead 0 badPkt, .swatchMode 0
      badPkt, .responseSet 0 badPkt, .faultRead 0 badPkt, .faultClear 0 badPkt, .openWireTest 0 badPkt, .ringStatus 0
      badPkt, .laneStatus 0 badPkt, .ringEnumerate 0 badPkt, .escrowPush 0 badPkt, .ledgerRead 0 badPkt, .ledgerSet 0
      badPkt, .standbyEnter 0 badPkt, .energyRead 0 badPkt, .tariffAt 0 badPkt, .demandSet 0 badPkt, .demandRead 0
      badPkt, .boundaryRead 0 badPkt, .updateOpen 0 badPkt, .blockPut 0 badPkt, .updateStatus 0 badPkt, .prepare 0
      badPkt, .commit 0 badPkt, .confirm 0 badPkt, .unwind 0 badPkt, .updateAbort 0 badPkt, .recoverActivate 0 badPkt,
      .random 0 badPkt, .entropyStatus 0 badPkt, .domainKeyWrite 0 badPkt, .cosignKeySet 0 badPkt, .uartSet 0 badPkt,
      .uartStatus 0 badPkt, .uartBreak 0 badPkt, .bistRun 0 badPkt, .dumpSummary 0 badPkt, .dumpRelease 0 badPkt,
      .notWellFormedPacket 0 0x0101 badPkt, .undefinedOpcode 0 0x0B01 badPkt, .request 0 hdr0 0x0101 badPkt] : List
      Instr).all (fun i => !wellFormed i) = true := by decide +kernel
/-- A packet carries at most 65,504 parameter bytes. -/
theorem test_ill_formed_length (l : List Byte) : (pkt l).wf = true ↔ l.length ≤ 65504 := by
  simp only [Packet.wf, pkt, Bool.and_true]; exact decide_eq_true_iff
/-- An opcode of the tables is no undefined opcode. -/
theorem test_ill_formed_opcode : wellFormed (.undefinedOpcode 0 0x0101 (pkt [])) = false ∧ wellFormed (.undefinedOpcode 0 0x010B (pkt [])) = false ∧
    wellFormed (.undefinedOpcode 0 0x010C (pkt [])) = true := by decide +kernel
/-- Conversions of one bin at the four steps. -/
def steps0 : List (List Word16) := [[0, 0], List.replicate 17 0, [0, 0], List.replicate 17 0]
/-- Codes of one bin at the four steps. -/
def codes0 : List (List Int) := [[0, 0], List.replicate 17 0, [0, 0], List.replicate 17 0]
def sh0 : SliceHdr := ⟨true, 1, 1, 0⟩
def hh0 : HubHdr := ⟨true, 1, 1⟩
/-- Slices are 0 to 23. -/
theorem test_ill_formed_slice :
    ([.helloWaitExpiry 0 24, .sliceSilent 0 24, .sliceLinkSilence 0 24, .sliceReissue 0 24, .linkResetSequence 0 24,
      .sliceHubSilence 0 24, .sliceHelloTimer 0 24, .storedFallbackHalfCycle 0 24, .thermalCut 0 24,
      .fallbackApply 0 24, .sliceWatchdog 0 24, .sliceSupplyLoss 0 24, .sliceReload 0 24 .failed, .verdict 0 24 sh0 0 0 0,
      .samples 0 24 sh0 0 steps0, .xing 0 24 sh0 true 0, .sliceReply 0 24 sh0 0 .done, .trip 0 24 sh0 none,
      .sliceHello 0 24 true 0, .sliceLinkDeadline 0 24 0, .calibrationUpdate 0 24, .load 0 24 hh0 true .firmware,
      .plan 0 24 hh0 (.entries []), .timeFrame 0 24 hh0 TimeBody.zero, .sliceRequest 0 24 hh0 .echo,
      .sliceBinEnd 0 24 0 codes0, .swatchTrack 0 24 0, .thermalModel 0 24 0] : List Instr).all
      (fun i => !wellFormed i) = true := by decide +kernel
/-- Channels are 0 to 383. -/
theorem test_ill_formed_channel :
    ([.overcurrentTrip 0 384 0, .swatchLearnBegin 0 384, .zeroCrossTimeout 0 384, .dimFiring 0 384, .inrushWindowEnd 0 384,
      .openWireChannelTest 0 384, .swatchLearnDone 0 384] : List Instr).all (fun i => !wellFormed i) = true := by
  decide +kernel
/-- Page codes, host writes and reads, and the words of the window. -/
theorem test_ill_formed_window :
    ([.pendingClear 0 0 [], .pendingClear 0 512 [1], .wr 0 0 [] true, .rd 0 65536 0 0 true, .pageEcc 0 4 0, .pageEcc 0
      3 0x4000000, .pageEcc 0 3 7] : List Instr).all (fun i => !wellFormed i) = true := by decide +kernel
/-- Bins, positions, stamps and the numbers of values. -/
theorem test_ill_formed_slice_frame :
    ([.verdict 0 0 sh0 128 0 0, .samples 0 0 sh0 128 steps0, .samples 0 0 sh0 0 [], .samples 0 0 sh0 0 (steps0.drop 1),
      .samples 0 0 sh0 0 [[0], List.replicate 17 0, [0, 0], List.replicate 17 0],
      .samples 0 0 sh0 0 [[0, 0], List.replicate 16 0, [0, 0], List.replicate 17 0], .xing 0 0 sh0 true (2 ^ 64),
      .trip 0 0 sh0 (some 16), .sliceBinEnd 0 0 128 codes0, .sliceBinEnd 0 0 0 (codes0.take 3), .swatchTrack 0 0 16,
      .halfCycleBoundary 0 (List.replicate 25 0), .sliceReload 0 0 (.measured (List.replicate 37 0)),
      .load 0 0 hh0 true (.calibration [] 0), .load 0 0 hh0 true (.swatch 16 Swatch.none),
      .load 0 0 hh0 true (.swatch 0 ⟨.ac, []⟩), .load 0 0 hh0 true (.fallback []), .load 0 0 hh0 true (.startPattern []),
      .plan 0 0 hh0 (.entries (List.replicate 33 ⟨0, ⟨.off, .dc, 0⟩, 0⟩)), .plan 0 0 hh0 (.entries [⟨16, ⟨.off, .dc, 0⟩, 0⟩]),
      .plan 0 0 hh0 (.calibration []), .plan 0 0 hh0 (.fallback []), .plan 0 0 hh0 (.flash 2 100 50 0),
      .plan 0 0 hh0 (.values 16 0 0 0 0), .plan 0 0 hh0 (.swatch 16 Swatch.none)] : List Instr).all
      (fun i => !wellFormed i) = true := by decide +kernel
/-- The fixed part of an UPDATE_CTL frame of session 7. -/
def u0 : UpdHdr := ⟨0, 0, false, 7⟩
/-- Slot-frame headers: loop 2, source 64, destination 64. -/
def badHdrs : List RingHdr := [⟨2, false, 1, 0, 0, 0, 0, 0, 0⟩, ⟨0, false, 64, 0, 0, 0, 0, 0, 0⟩, ⟨0, false, 1, 64, 0, 0, 0, 0, 0⟩]
theorem test_ill_formed_ring :
    badHdrs.all (fun h => ([.ringFrameForward 0 .w0 0 h [] true true 0, .request 0 h 0x0101 (pkt []), .ringReply 0 h reply0,
      .block 0 .east h [], .escrow 0 .east h 0 0 0 0 0 [] (rsv 32), .presence 0 h 0 0 0, .change 0 h 0 0 0,
      .event 0 h reply0, .updOpen 0 h u0 false [], .need 0 .east h u0 0 0, .voteCall 0 h u0 0 0, .vote 0 h u0 true,
      .voteRelease 0 h u0, .updateCtlCommit 0 h u0 0, .trial 0 h u0 0, .updateCtlConfirm 0 h u0 0, .confirmed 0 h u0,
      .updateCtlUnwind 0 h u0, .unwound 0 h u0, .updAbort 0 h u0] : List Instr).all (fun i => !wellFormed i)) = true := by
  decide +kernel
/-- Link-control frames come on a ring lane, with whole proofs and nonces. -/
theorem test_ill_formed_link :
    ([.hello 0 ⟨.h, 0⟩ 0 0 0 0 0 0, .echo 0 .h 0, .echoReply 0 .h 0 0, .authA 0 ⟨.h, 0⟩ (rsv 16),
      .authB 0 ⟨.h, 0⟩ (rsv 16) (rsv 32), .authC 0 ⟨.h, 0⟩ (rsv 32), .enumerate 0 ⟨.h, 0⟩ 0 true true 4 3,
      .enumDone 0 ⟨.h, 0⟩ 0 .none (rsv 4), .enumRefuse 0 ⟨.h, 0⟩ 0, .slotNotice 0 ⟨.h, 0⟩ 0 0 0, .escrowAck 0 ⟨.h, 0⟩ 0,
      .authA 0 ⟨.e0, 0⟩ (rsv 15), .authB 0 ⟨.e0, 0⟩ (rsv 15) (rsv 32), .authB 0 ⟨.e0, 0⟩ (rsv 16) (rsv 31),
      .authC 0 ⟨.e0, 0⟩ (rsv 31), .enumDone 0 ⟨.e0, 0⟩ 0 .none (rsv 3), .enumerate 0 ⟨.e0, 0⟩ 0 true true 65 0,
      .enumerate 0 ⟨.e0, 0⟩ 0 true true 4 256, .enumTimeout 0 256, .weftHeader 0 .h weft0,
      .weftHeader 0 .w0 { weft0 with loop := 2 }, .ringFrameForward 0 .h 0 hdr0 [] true true 0,
      .ringReady 0 (some ⟨0, 0, 0, [], rsv 31⟩) none, .ringReady 0 none (some ⟨0, 0, 0, [], rsv 31⟩),
      .escrow 0 .east hdr0 0 0 0 0 0 [] (rsv 31), .presence 0 hdr0 64 0 0] : List Instr).all (fun i => !wellFormed i) = true := by
  decide +kernel
/-- A payload is no longer than its carrier. -/
theorem test_ill_formed_payload (l : List Byte) :
    (wellFormed (.wr 0 0 l true) = true → l.length ≤ 65536) ∧
      (wellFormed (.ringReply 0 hdr0 { reply0 with payload := l }) = true → l.length ≤ 4064) ∧
      (wellFormed (.event 0 hdr0 { reply0 with payload := l }) = true → l.length ≤ 4064) ∧
      (wellFormed (.ringFrameForward 0 .w0 0 hdr0 l true true 0) = true → l.length ≤ 65536) ∧
      (wellFormed (.block 0 .east hdr0 l) = true → l.length ≤ 65536) ∧
      ((⟨0, 0, 0, l, rsv 32⟩ : Escrow).wf = true → l.length ≤ 196608) := by
  have k : ∀ (a : Bool) (n b : Nat), (a && decide (n ≤ b)) = true → n ≤ b := fun a n b h => by simp at h; exact h.2
  exact ⟨k _ _ _, k hdr0.wf l.length 4064, k hdr0.wf l.length 4064, k hdr0.wf l.length 65536, k hdr0.wf l.length 65536, fun h => k true _ _ (by rw [Escrow.wf] at h; simp at h ⊢; exact h.1)⟩
/-- A fuse count of one byte, and what a test may have found. -/
theorem test_ill_formed_update :
    ([.updateCtlConfirm 0 hdr0 u0 256, .bistDone 0 { found0 with lanes := List.replicate 6 (none, 0) },
      .bistDone 0 { found0 with paths := [[]] }] : List Instr).all (fun i => !wellFormed i) = true := by decide +kernel
/-- Sound commands are well formed. -/
theorem test_well_formed :
    ([.capabilityRead 0 (pkt []), .sliceSilent 0 23, .zeroCrossTimeout 0 383, .pendingClear 0 511 [1], .rd 0 65535 0 0 true,
      .samples 0 23 sh0 127 steps0, .sliceBinEnd 0 23 127 codes0, .request 0 hdr0 0x0101 (pkt []), .authA 0 ⟨.e0, 0⟩ (rsv 16),
      .sliceReload 0 23 (.measured (List.replicate 38 0)), .weftHeader 0 .w0 weft0, .vote 0 hdr0 u0 true] : List Instr).all
      wellFormed = true := by decide +kernel

/-! ### The spec's worked examples, and single steps -/

/-- The clock at C:A, 50 Hz. -/
def clockAt (c : Cycle) (a : Angle) : Clock := { Clock.powerOn c with angle := a }

/-- spec/03, worked example: TIME_READ at 48213:21845, LOCKED, tick 5,000,000,000. -/
theorem test_time_read_example :
    ({ Module.reset with clk := { clockAt 48213 21845 with tracker := .locked, tick := 5000000000 } }.timePayload).take 24 =
      [0x55, 0xBC, 0, 0, 0, 0x55, 0x55, 0x02, 0x00, 0xF2, 0x05, 0x2A, 1, 0, 0, 0, 0x80, 0x84, 0x1E, 0, 0, 0, 0, 0] := by
  decide +kernel
/-- spec/03, worked example: a stamp equal to the deadline is on time, one tick later has expired (R97, R98). -/
theorem test_deadline_inclusive :
    ({ up with clk := { up.clk with tick := 5000006100 } }.expired 5000006100) = false ∧
      ({ up with clk := { up.clk with tick := 5000006101 } }.expired 5000006100) = true := by decide +kernel
/-- spec/04, worked example: pages 2 to 17 are claimed, PX_CODE 0. -/
theorem test_px_example :
    (match exec (.pxRequest 0 2 16 0 1 1) (at_ up) with
     | .next t => decide (t.m.win.pxCode = 0) && decide (t.m.win.pxSeqEcho = 1) &&
         (List.range 20).all (fun k => decide (t.m.win.code k = if 2 ≤ k ∧ k < 18 then 1 else 0))
     | _ => false) = true := by decide +kernel
/-- spec/04, worked example: ATTACH with the stored host epoch 0x0041 makes it 0x0042. -/
theorem test_attach_example :
    (match exec (.attach 0 2) (at_ { up with
         vault := { up.vault with hostEpoch := 0x41 }, win := { up.win with passbook := [(2, 1), (3, 1)] } }) with
     | .next t => decide (t.m.vault.hostEpoch = 0x42) && t.m.win.attached
     | _ => false) = true := by decide +kernel
/-- spec/06, worked example: TILL_OPEN of command till 0x0100, 256 descriptors on page 4, replying to till 0x1000. -/
theorem test_till_open_example :
    (match exec (.tillOpen 0 (pkt [0x00, 0x01, 0x02, 0, 0, 0x40, 0, 0, 0x00, 0x01, 0x00, 0x10])) (at_ { up with win := { up.win with
         attached := true, passbook := [(4, 1)], tills := [(0x1000, { Till.closed with kind := 3, state := 1 })] } }) with
     | .next t => decide (t.m.till 0x100 = { Till.closed with
         kind := 2, state := 1, epoch := 1, link := 0x1000, base := 0x4000, len := 256 })
     | _ => false) = true := by decide +kernel
/-- spec/05, worked example: the header of a CAPABILITY_READ for position 3, tag 0x00C02A17. -/
theorem test_packet_header_example :
    ((({ pkt [] with tag := 0x00C02A17, target := 3 } : Packet).bytes 0x0101).take 24) =
      [1, 1, 0, 0, 0x17, 0x2A, 0xC0, 0, 3, 0, 0, 0, 0, 0, 0, 0, 0, 0, 0, 0, 0, 0, 0, 0] := by decide +kernel
/-- spec/06, worked example: the CHANNEL_SET block names channel 37 STEADY and channel 38 DIM at 16,384 au. -/
theorem test_channel_set_example :
    actsOf (entriesOf (pkt [2, 0, 0, 0, 0x25, 0, 1, 0, 0, 0, 0, 0, 0x26, 0, 4, 1, 0, 0x40, 0, 0]) 4 2) =
      [(37, ⟨.steady, .zeroCross, 0⟩), (38, ⟨.dim, .phaseExact, 16384⟩)] := by decide +kernel
/-- spec/06, worked example: the record of channel 37 in FAULT_READ over channels 32 to 47. -/
theorem test_fault_read_example :
    ({ up with prov := { up.prov with records := [(recKey 37 1, ⟨true, true, 1, 48214, 0⟩)] } }.faultPage (List.range' 32 16) 507) =
      ([[0x25, 0, 1, 3, 0x56, 0xBC, 0, 0]], 0xFFFF) := by decide +kernel
/-- spec/06, worked example: LANE_STATUS for W1 sent to a UM-192 is UNIT_ABSENT. -/
theorem test_lane_status_absent :
    ({ up with variant := .um192 } : Module).check opLaneStatus (pkt [4, 0, 0, 0]) = some (stUnitAbsent, 0) := by decide +kernel
/-- spec/06, worked example: a UM-96S on battery in LEAN. -/
theorem test_ledger_read_example :
    ({ up with
        variant := .um96s
        vault := { up.vault with config := some ⟨0, 0x0100, 1, { Items.default with capacity := 720000000 }, .unsealed⟩ }
        pow := { up.pow with account := 1800000, holdup := 24000, ledger := 1, backup := true, onBackup := true, hubTemp := 8150,
                             deferred := 12 } }.ledgerPayload).take 16 =
      [0x40, 0x77, 0x1B, 0, 0xC0, 0x5D, 0, 0, 1, 6, 0x2E, 9, 0x0C, 0, 0, 0] := by decide +kernel
/-- spec/06, worked example: the PREPARE block closes the vote at 48300:0. -/
theorem test_prepare_example :
    ({ up with clk := clockAt 48213 0 }.voteInstant (pkt [0x51, 0x3A, 0, 0, 0, 0, 0, 0, 0xAC, 0xBC, 0, 0])) = 48300 * 65536 := by
  decide +kernel
/-- spec/07, worked example: at h = 96,426 generator A is on and B, with PHASE 50, is off; at 96,450 the other way round. -/
theorem test_flash_example :
    (⟨100, 50, 0⟩ : Gen).onPart 96426 = true ∧ (⟨100, 50, 50⟩ : Gen).onPart 96426 = false ∧
      (⟨100, 50, 0⟩ : Gen).onPart 96450 = false ∧ (⟨100, 50, 50⟩ : Gen).onPart 96450 = true := by decide +kernel
/-- spec/08, worked example: the LAMP_FAULT payload of channel 37 at 48400:21504, bin 41, 50 mA. -/
theorem test_lamp_fault_example :
    ((up.detect 37 1 48400 21504 41 50).tel.log.head?.map (fun r => (r.opcode, r.payload))) =
      some (0x8301, [0x25, 0, 1, 1, 0x10, 0xBD, 0, 0, 0, 0, 0x54, 0x29, 0x32, 0, 0, 0]) := by decide +kernel
/-- spec/10, worked example: position 5's window on ring 0 opens at 1,358.35 µs and closes at 1,504.83 µs. -/
theorem test_window_example :
    ({ up with ring := { up.ring with delay0 := 925 } }.windowNs 5 0) = (1358346, 1504831) := by decide +kernel
/-- spec/11, worked example: with 720,000,000 groats and a reserve of 72,000,000 a push of 400 is admitted. -/
theorem test_escrow_push_admitted :
    ({ up with
        vault := { up.vault with config := some ⟨0, 0x0100, 1, { Items.default with capacity := 720000000, p3Reserve := 72000000 }, .unsealed⟩ }
        pow := { up.pow with onBackup := true, account := 720000000 } }.admits 400 []) = true ∧
    ({ up with
        vault := { up.vault with config := some ⟨0, 0x0100, 1, { Items.default with capacity := 720000000, p3Reserve := 72000000 }, .unsealed⟩ }
        pow := { up.pow with onBackup := true, account := 72000399 } }.admits 400 []) = false := by decide +kernel
/-- spec/12, worked example: the first 40 bytes of the record. -/
theorem test_boundary_example :
    (({ seq := 8000, cycle := 4320000, angle := 0, events := 0x0F, oldTariff := 1, newTariff := 3, supplies := [1, 7], demandFlags := 0,
        demandTariff := 1, demandW := 1800, maxW := 2450, maxCycle := 3600000, moduleE := [], sliceE := [], gaps := [], backup := 0,
        hubEpoch := 0 } : Boundary).bytes).take 40 =
      [0x40, 0x1F, 0, 0, 0, 0xEB, 0x41, 0, 0, 0, 0, 0x0F, 1, 3, 2, 0, 1, 7, 0, 0, 0, 1, 0, 0, 8, 7, 0, 0, 0x92, 9, 0, 0,
       0x80, 0xEE, 0x36, 0, 0, 0, 0, 0] := by decide +kernel
/-- spec/13, R360's example: COPY of 2,048 bytes, ADD of three and FILL of sixteen. -/
theorem test_delta_example :
    (deltaOut (fun _ n => List.replicate n 7) 0x2000 21
      [1, 0, 0x10, 0, 0, 0, 8, 0, 0, 2, 3, 0, 0xAA, 0xBB, 0xCC, 3, 0xFF, 0x10, 0, 0, 0]) =
      some (List.replicate 2048 7 ++ [0xAA, 0xBB, 0xCC] ++ List.replicate 16 0xFF) := by decide +kernel
/-- spec/13, worked example: COMMIT at cycle 60300 and position 9's late TRIAL at cycle 60520. -/
theorem test_update_ctl_example :
    ctlPayload 6 0 0 false 0x7D410B26 (commitBody 60300) = [6, 0, 0, 0, 0x26, 0x0B, 0x41, 0x7D, 0x8C, 0xEB, 0, 0, 0, 0, 0, 0] ∧
      ctlPayload 7 0 0 true 0x7D410B26 (commitBody 60520) = [7, 0, 0, 1, 0x26, 0x0B, 0x41, 0x7D, 0x68, 0xEC, 0, 0, 0, 0, 0, 0] := by
  decide +kernel
/-- spec/14, worked example: the RCT fails with two requests waiting. -/
theorem test_health_fail_example :
    (match exec (.healthTestFail 0 .rct) (at_ { up with
         clk := clockAt 70000 12000
         ent := { up.ent with state := 1, drbg := true, waiting := [⟨0, 0, 3, 32, some (0x0801, pkt [32, 0, 0, 0])⟩, ⟨0, 0, 1, 16, none⟩] } }) with
     | .next t => t.m.tel.log.any (fun r => r.opcode == 0x8801 &&
         r.payload == [2, 1, 0, 0, 2, 0, 0, 0, 0x70, 0x11, 1, 0, 0, 0xE0, 0x2E, 0]) && decide (t.m.ent.state = 2)
     | _ => false) = true := by decide +kernel
/-- spec/15, worked example: the address character 0x10C matches ADDRESS 0x0C, MASK 0xFF. -/
theorem test_drop_address_example :
    ({ Uart.dropReset 12 with mask := 0xFF } : Uart).matches 0x10C = true ∧ ({ Uart.dropReset 12 with mask := 0xFF } : Uart).matches 0x00C = false ∧
      ({ Uart.dropReset 12 with mask := 0xFF } : Uart).matches 0x10D = false := by decide +kernel
/-- spec/16, worked example: the dump header of a UM-192 at 48500:10000, and DETAIL. -/
theorem test_dump_header_example :
    ((dumpHeader (DumpRec.mk 7 1 1 0x0213 48500 10000 0 0 0 0 2 4 0 0 0x0A312C40 0 0 0 0 0 [] [] [] 0)).take 24,
      ((dumpHeader (DumpRec.mk 7 1 1 0x0213 48500 10000 0 0 0 0 2 4 0 0 0x0A312C40 0 0 0 0 0 [] [] [] 0)).drop 0x2C).take 4) =
      ([0x44, 0x55, 0x4D, 0x50, 1, 0, 0, 2, 7, 0, 0, 0, 1, 1, 0x13, 2, 0x74, 0xBD, 0, 0, 0, 0x10, 0x27, 0],
       [0x40, 0x2C, 0x31, 0x0A]) := by decide +kernel
/-- The CRC-32C of the digits 1 to 9, the published check value of the parameters of R133, and SHA-256 of no bytes. -/
theorem test_digests :
    crc32c [0x31, 0x32, 0x33, 0x34, 0x35, 0x36, 0x37, 0x38, 0x39] = 0xE3069283 ∧
      (sha256 []).take 4 = [0xE3, 0xB0, 0xC4, 0x42] := by decide +kernel
/-- R136: a stored low word rebuilds to the full cycle within 2^31 of the present one, either side of a wrap. -/
theorem test_rebuild : rebuild 0xFFFFFFFF 0 = 0x100000000 ∧ rebuild 0x100000000 0xFFFFFFFF = 0xFFFFFFFF := by decide

theorem test_reset_queue_empty : State.reset.pending = [] := by decide

end Sys2Proof.Tests
end

section
/-! PROOFS. The execute-at instant of a packet and its judging (R136, R137), up to `Obligations.ExecuteAt`. -/

namespace Sys2Proof.Machine
open Sys2Proof

/-- The rebuilt cycle has the given low 32 bits (R136). -/
theorem rebuild_emod (now : Nat) (x : Word32) : rebuild now x % 4294967296 = x.toNat := by
  have hx : x.toNat < 4294967296 := x.isLt
  dsimp only [rebuild]
  omega

/-- The rebuilt cycle lies in the range around the current cycle (R136). -/
theorem rebuild_mem_range (now : Nat) (x : Word32) :
    (now : Int) - 2147483648 ≤ rebuild now x ∧ rebuild now x ≤ (now : Int) + 2147483647 := by
  dsimp only [rebuild]
  omega

/-- R136's range is 2^32 cycles long, so no other value in it has these low 32 bits. -/
theorem eq_rebuild_iff (now : Nat) (x : Word32) (c : Int) : c = rebuild now x ↔
    c % 4294967296 = x.toNat ∧ (now : Int) - 2147483648 ≤ c ∧ c ≤ (now : Int) + 2147483647 := by
  have hmod := rebuild_emod now x
  obtain ⟨hlo, hhi⟩ := rebuild_mem_range now x
  constructor
  · rintro rfl
    exact ⟨hmod, hlo, hhi⟩
  · rintro ⟨hc, hcl, hch⟩
    omega

section Timed
variable {k : Clock} {p : Packet} {due : Int} (ht : p.timed = true)
  (hdue : due = rebuild k.cycle.toNat p.execCycle * 65536 + p.execAngle.toNat)
include ht hdue

/-- A timed packet that is in time keeps the instant it names (R137). -/
theorem execAt_of_inTime (h : k.onTime (due - 1024) = true) : k.execAt p = some (due.toNat, false) := by
  subst hdue
  simp [Clock.execAt, ht, h]

/-- A timed packet that is not in time is carried out late, or refused, as LATE_OK and the 65,536 au say (R137). -/
theorem execAt_of_not_inTime (h : k.onTime (due - 1024) = false) :
    k.execAt p = if p.lateOk && k.onTime (due + 65536) then some (k.soon, true) else none := by
  subst hdue
  simp [Clock.execAt, ht, h]

end Timed

/-- When the first failing check of a list is none, no check of it fails. -/
theorem eq_none_of_firstOf_eq_none {ds : List Deny} (h : firstOf ds = none) : ∀ d ∈ ds, d = none := by
  induction ds with
  | nil => simp
  | cons d ds ih =>
    obtain ⟨hd, hds⟩ := firstOf_none_head h
    exact List.forall_mem_cons.mpr ⟨hd, ih hds⟩

/-- A packet that passes step 7 of R139 has an instant to be carried out at (R137). -/
theorem execAt_ne_none_of_headerCheck {m : Module} {op : Op} {p : Packet} (h : m.headerCheck op p = none) :
    m.clk.execAt p ≠ none := by
  intro hn
  have hlate := eq_none_of_firstOf_eq_none h (if (m.clk.execAt p).isNone then some (stLate, 0) else none) (by simp)
  simp [hn] at hlate

/-- Settles O55: uniqueness of the rebuilt cycle in R136's range, then the branches of R137. -/
theorem executeAt : Obligations.ExecuteAt := by
  unfold Obligations.ExecuteAt
  refine ⟨eq_rebuild_iff, ?timed, fun k p hu => execAt_untimed hu,
    fun m op p hn hc => execAt_ne_none_of_headerCheck hc hn⟩
  case timed =>
    intro k p due ht hdue
    refine ⟨execAt_of_inTime ht hdue, fun h hl => ?refused, fun h hl ho => ?late, fun h hl ho => ?tooLate⟩
    case refused => simp [execAt_of_not_inTime ht hdue h, hl]
    case late => simp [execAt_of_not_inTime ht hdue h, hl, ho, Clock.soon, Clock.au]
    case tooLate => simp [execAt_of_not_inTime ht hdue h, ho]

end Sys2Proof.Machine
end

section
/-! PROOFS. The admission of P3 work by the ledger (R318), up to `Obligations.P3Admission`. -/

namespace Sys2Proof.Machine
open Sys2Proof

/-- The energy condition of R318: it asks something ON_BACKUP only, and always holds ON_MAINS. -/
theorem energySuffices_iff (m : Module) (cost : Nat) :
    (!m.pow.onBackup || decide (cost + m.items.p3Reserve.toNat ≤ m.pow.account.toNat)) = true ↔
      (m.pow.onBackup = true → cost + m.items.p3Reserve.toNat ≤ m.pow.account.toNat) := by
  cases m.pow.onBackup with
  | false => simp
  | true => simp

/-- A unit is admitted exactly when each of the four conditions of R318 holds. -/
theorem admits_iff (m : Module) (cost : Nat) (slices : List Nat) : m.admits cost slices = true ↔
    m.pow.ledger = 0 ∧ (m.pow.onBackup = true → cost + m.items.p3Reserve.toNat ≤ m.pow.account.toNat) ∧
      1000 ≤ m.hubHeat ∧ ∀ n ∈ slices, 1000 ≤ m.sliceHeat n := by
  simp only [Module.admits, Bool.and_eq_true, energySuffices_iff, beq_iff_eq, decide_eq_true_eq, List.all_eq_true,
    and_assoc]

/-- Settles O56: the four conditions of R318, with the headrooms of the hub and of the slices as R309 gives them. -/
theorem p3Admission : Obligations.P3Admission := by
  unfold Obligations.P3Admission
  intro m cost slices
  simpa only [Module.hubHeat, Module.sliceHeat] using admits_iff m cost slices

end Sys2Proof.Machine
end

section
/-! PROOFS. A received break on a port: what it records (R426) and when it restores MAINT's settings (R427), up to
`Obligations.LongBreak`. -/

namespace Sys2Proof.Machine
open Sys2Proof

/-! ### The settings of a port (R414) -/

/-- The settings of R414, in its order: what a UART_SET writes, and none of the port's counters or buffers. -/
def Uart.settings (u : Uart) : Nat × Nat × Bool × Bool × Bool × Byte × Byte × Nat :=
  (u.oversample, u.divider, u.addr9, u.loopback, u.echo, u.address, u.mask, u.sleep)

/-- Two ports have the same settings exactly when they agree setting by setting. -/
theorem settings_eq_iff {u v : Uart} : u.settings = v.settings ↔
    u.oversample = v.oversample ∧ u.divider = v.divider ∧ u.addr9 = v.addr9 ∧ u.loopback = v.loopback ∧
      u.echo = v.echo ∧ u.address = v.address ∧ u.mask = v.mask ∧ u.sleep = v.sleep := by
  simp only [Uart.settings, Prod.mk.injEq]

@[simp] theorem settings_interrupt (u : Uart) : u.interrupt.settings = u.settings := by
  unfold Uart.interrupt
  split <;> rfl

@[simp] theorem lastLpo_interrupt (u : Uart) : u.interrupt.lastLpo = u.lastLpo := by
  unfold Uart.interrupt
  split <;> rfl

@[simp] theorem settings_expire (u : Uart) (now : Nat) : (u.expire now).settings = u.settings := by
  unfold Uart.expire
  split
  · split
    · exact settings_interrupt u
    · rfl
  · rfl

@[simp] theorem settings_change (u : Uart) (oversample divider mode : Nat) (address mask : Byte) (sleep : Nat) :
    (u.change oversample divider mode address mask sleep).settings =
      (oversample, divider, mode % 2 == 1, mode / 2 % 2 == 1, mode / 4 % 2 == 1, address, mask, sleep) := rfl

@[simp] theorem lastLpo_change (u : Uart) (oversample divider mode : Nat) (address mask : Byte) (sleep : Nat) :
    (u.change oversample divider mode address mask sleep).lastLpo = u.lastLpo := lastLpo_interrupt u

/-! ### What a break records (R426) -/

/-- LAST_BREAK_LPO of a break of `lpo` ticks of the LPO (R426). -/
def breakLpo (lpo : Nat) : Word32 := BitVec.ofNat 32 (min lpo 4294967295)

/-- The port once a break that ended at tick `now` is counted and measured (R426). -/
def Uart.countBreak (u : Uart) (now bits lpo : Nat) : Uart :=
  { (u.expire now).interrupt with
    selected := false, breaks := satInc u.breaks, lastBits := BitVec.ofNat 16 (min bits 65535), lastLpo := breakLpo lpo }

@[simp] theorem lastLpo_countBreak (u : Uart) (now bits lpo : Nat) :
    (u.countBreak now bits lpo).lastLpo = breakLpo lpo := rfl

@[simp] theorem settings_countBreak (u : Uart) (now bits lpo : Nat) :
    (u.countBreak now bits lpo).settings = u.settings := by
  calc (u.countBreak now bits lpo).settings
      _ = (u.expire now).interrupt.settings := rfl
      _ = u.settings := by simp

/-- LAST_BREAK_LPO saturates far above R427's limit, so a break is long by its record exactly when it is long. -/
theorem long_breakLpo_iff (lpo : Nat) : 7680 ≤ (breakLpo lpo).toNat ↔ 7680 ≤ lpo := by
  have hsat : min lpo 4294967295 < 2 ^ 32 := by omega
  rw [breakLpo, BitVec.toNat_ofNat, Nat.mod_eq_of_lt hsat]
  omega

/-! ### The row (R426, R427) -/

/-- The row BREAK answers a next state, the break heard at its own instant. -/
theorem exec_serialBreak (dt : Nat) (port : Port) (bits lpo : Nat) (s : State) :
    exec (.serialBreak dt port bits lpo) s = .next { s with m := (s.m.elapse dt).breakHeard port bits lpo } := rfl

section Heard
variable {m : Module} {bits lpo : Nat}

/-- A break heard on DROP is counted and measured, and that is all. -/
theorem breakHeard_drop (h : m.hears .drop = true) :
    m.breakHeard .drop bits lpo = { m with drop := m.drop.countBreak m.now bits lpo } := by
  simp only [Module.breakHeard, h, if_true]
  rfl

/-- A break heard on MAINT is counted and measured, and a long one then changes the settings. -/
theorem breakHeard_maint (h : m.hears .maint = true) :
    m.breakHeard .maint bits lpo = { m with
      maint := if 7680 ≤ lpo then (m.maint.countBreak m.now bits lpo).change 16 26 0 0 0 0
        else m.maint.countBreak m.now bits lpo } := by
  simp only [Module.breakHeard, h, if_true]
  by_cases hl : 7680 ≤ lpo
  · simp only [hl, if_true]
    rfl
  · simp only [hl, if_false]
    rfl

theorem lastLpo_breakHeard_maint (h : m.hears .maint = true) :
    (m.breakHeard .maint bits lpo).maint.lastLpo = breakLpo lpo := by
  rw [breakHeard_maint h]
  by_cases hl : 7680 ≤ lpo
  · simp [hl]
  · simp [hl]

/-- R427: MAINT's settings after a break are those of R414 or the ones before, as LAST_BREAK_LPO says. -/
theorem settings_breakHeard_maint (h : m.hears .maint = true) :
    (m.breakHeard .maint bits lpo).maint.settings =
      if 7680 ≤ (m.breakHeard .maint bits lpo).maint.lastLpo.toNat then Uart.maintReset.settings
      else m.maint.settings := by
  rw [lastLpo_breakHeard_maint h, breakHeard_maint h]
  by_cases hl : 7680 ≤ lpo
  · simp only [long_breakLpo_iff, hl, if_true]
    rfl
  · simp only [long_breakLpo_iff, hl, if_false, settings_countBreak]

end Heard

/-- Settles O57: MAINT's settings after a heard break by its LAST_BREAK_LPO (R427), DROP's unchanged, and neither port
touched by a break on the other. -/
theorem longBreak : Obligations.LongBreak := by
  unfold Obligations.LongBreak
  rintro s dt bits lpo m rfl
  refine ⟨fun h => ⟨_, exec_serialBreak dt .maint bits lpo s, lastLpo_breakHeard_maint h, ?long, ?short, ?other⟩,
    fun h => ⟨_, exec_serialBreak dt .drop bits lpo s, ?drop⟩⟩
  case long =>
    intro hl
    exact settings_eq_iff.mp ((settings_breakHeard_maint h).trans (if_pos hl))
  case short =>
    intro hl
    exact settings_eq_iff.mp ((settings_breakHeard_maint h).trans (if_neg (by omega)))
  case other => rw [breakHeard_maint h]
  case drop =>
    rw [breakHeard_drop h]
    have hkept := settings_eq_iff.mp (settings_countBreak (s.m.elapse dt).drop (s.m.elapse dt).now bits lpo)
    simpa only [and_true, and_assoc] using hkept

end Sys2Proof.Machine
end

section
/-! PROOFS. What every row of the command table keeps and answers, and the step that runs it: up to the two invariants
(`Obligations.TablesStayCanonical`, `Obligations.VitalStaysSafe`) and `Obligations.RowsAnswer`. -/

namespace Sys2Proof.Machine
open Sys2Proof

/-! ### The invariants -/

/-- Every row of the table keeps the window's tables canonical, VITAL-OK safe and the queue. -/
theorem rowKeeps_exec (c : Instr) (s : State) : RowKeeps s (exec c s) :=
  match c with
  | .capabilityRead dt p => rowKeeps_capabilityRead dt p s
  | .statusRead dt p => rowKeeps_statusRead dt p s
  | .timeRead dt p => rowKeeps_timeRead dt p s
  | .tillOpen dt p => rowKeeps_tillOpen dt p s
  | .tillClose dt p => rowKeeps_tillClose dt p s
  | .tillRead dt p => rowKeeps_tillRead dt p s
  | .scheduleCancel dt p => rowKeeps_scheduleCancel dt p s
  | .tagQuery dt p => rowKeeps_tagQuery dt p s
  | .reset dt p => rowKeeps_reset dt p s
  | .configWrite dt p => rowKeeps_configWrite dt p s
  | .configRead dt p => rowKeeps_configRead dt p s
  | .channelSet dt p => rowKeeps_channelSet dt p s
  | .aspectDefine dt p => rowKeeps_aspectDefine dt p s
  | .aspectShow dt p => rowKeeps_aspectShow dt p s
  | .aspectDelete dt p => rowKeeps_aspectDelete dt p s
  | .flashSet dt p => rowKeeps_flashSet dt p s
  | .channelRead dt p => rowKeeps_channelRead dt p s
  | .swatchLearn dt p => rowKeeps_swatchLearn dt p s
  | .swatchRead dt p => rowKeeps_swatchRead dt p s
  | .swatchMode dt p => rowKeeps_swatchMode dt p s
  | .responseSet dt p => rowKeeps_responseSet dt p s
  | .faultRead dt p => rowKeeps_faultRead dt p s
  | .faultClear dt p => rowKeeps_faultClear dt p s
  | .openWireTest dt p => rowKeeps_openWireTest dt p s
  | .ringStatus dt p => rowKeeps_ringStatus dt p s
  | .laneStatus dt p => rowKeeps_laneStatus dt p s
  | .ringEnumerate dt p => rowKeeps_ringEnumerate dt p s
  | .escrowPush dt p => rowKeeps_escrowPush dt p s
  | .ledgerRead dt p => rowKeeps_ledgerRead dt p s
  | .ledgerSet dt p => rowKeeps_ledgerSet dt p s
  | .standbyEnter dt p => rowKeeps_standbyEnter dt p s
  | .energyRead dt p => rowKeeps_energyRead dt p s
  | .tariffAt dt p => rowKeeps_tariffAt dt p s
  | .demandSet dt p => rowKeeps_demandSet dt p s
  | .demandRead dt p => rowKeeps_demandRead dt p s
  | .boundaryRead dt p => rowKeeps_boundaryRead dt p s
  | .updateOpen dt p => rowKeeps_updateOpen dt p s
  | .blockPut dt p => rowKeeps_blockPut dt p s
  | .updateStatus dt p => rowKeeps_updateStatus dt p s
  | .prepare dt p => rowKeeps_prepare dt p s
  | .commit dt p => rowKeeps_commit dt p s
  | .confirm dt p => rowKeeps_confirm dt p s
  | .unwind dt p => rowKeeps_unwind dt p s
  | .updateAbort dt p => rowKeeps_updateAbort dt p s
  | .recoverActivate dt p => rowKeeps_recoverActivate dt p s
  | .random dt p => rowKeeps_random dt p s
  | .entropyStatus dt p => rowKeeps_entropyStatus dt p s
  | .domainKeyWrite dt p => rowKeeps_domainKeyWrite dt p s
  | .cosignKeySet dt p => rowKeeps_cosignKeySet dt p s
  | .uartSet dt p => rowKeeps_uartSet dt p s
  | .uartStatus dt p => rowKeeps_uartStatus dt p s
  | .uartBreak dt p => rowKeeps_uartBreak dt p s
  | .bistRun dt p => rowKeeps_bistRun dt p s
  | .dumpSummary dt p => rowKeeps_dumpSummary dt p s
  | .dumpRelease dt p => rowKeeps_dumpRelease dt p s
  | .doorbell dt till prod epoch => rowKeeps_doorbell dt till prod epoch s
  | .attach dt sysPage => rowKeeps_attach dt sysPage s
  | .detach dt => rowKeeps_detach dt s
  | .keepalive dt ms => rowKeeps_keepalive dt ms s
  | .pxRequest dt first count expect new seq => rowKeeps_pxRequest dt first count expect new seq s
  | .pendingClear dt first data => rowKeeps_pendingClear dt first data s
  | .wr dt offset data good => rowKeeps_wr dt offset data good s
  | .rd dt tag offset len good => rowKeeps_rd dt tag offset len good s
  | .hostHello dt good => rowKeeps_hostHello dt good s
  | .keepaliveExpiry dt => rowKeeps_keepaliveExpiry dt s
  | .reportEntryPlace dt till => rowKeeps_reportEntryPlace dt till s
  | .pageEcc dt source word => rowKeeps_pageEcc dt source word s
  | .powerOn dt supply => rowKeeps_powerOn dt supply s
  | .bootCheck dt digestsOk => rowKeeps_bootCheck dt digestsOk s
  | .vaultStage dt => rowKeeps_vaultStage dt s
  | .sliceReload dt slice outcome => rowKeeps_sliceReload dt slice outcome s
  | .helloWaitExpiry dt slice => rowKeeps_helloWaitExpiry dt slice s
  | .firstLampControl dt => rowKeeps_firstLampControl dt s
  | .ringReady dt east west => rowKeeps_ringReady dt east west s
  | .hubWarmReset dt cause => rowKeeps_hubWarmReset dt cause s
  | .lockstepTeller dt => rowKeeps_lockstepTeller dt s
  | .lockstepKeeper dt => rowKeeps_lockstepKeeper dt s
  | .keeperStall dt => rowKeeps_keeperStall dt s
  | .keeperHeartbeatReturn dt => rowKeeps_keeperHeartbeatReturn dt s
  | .hubWatchdog dt => rowKeeps_hubWatchdog dt s
  | .fatalError dt cause => rowKeeps_fatalError dt cause s
  | .hubOvertemp dt temp => rowKeeps_hubOvertemp dt temp s
  | .verdict dt slice hdr bin cyc codes => rowKeeps_verdict dt slice hdr bin cyc codes s
  | .sliceSilent dt slice => rowKeeps_sliceSilent dt slice s
  | .samples dt slice hdr bin steps => rowKeeps_samples dt slice hdr bin steps s
  | .xing dt slice hdr rising stamp => rowKeeps_xing dt slice hdr rising stamp s
  | .sliceReply dt slice hdr ofSeq ans => rowKeeps_sliceReply dt slice hdr ofSeq ans s
  | .trip dt slice hdr pos => rowKeeps_trip dt slice hdr pos s
  | .sliceHello dt slice good cause => rowKeeps_sliceHello dt slice good cause s
  | .sliceLinkDeadline dt slice seq => rowKeeps_sliceLinkDeadline dt slice seq s
  | .sliceLinkSilence dt slice => rowKeeps_sliceLinkSilence dt slice s
  | .sliceReissue dt slice => rowKeeps_sliceReissue dt slice s
  | .calibrationUpdate dt slice => rowKeeps_calibrationUpdate dt slice s
  | .timeFrameSend dt => rowKeeps_timeFrameSend dt s
  | .planDispatch dt id => rowKeeps_planDispatch dt id s
  | .load dt slice hdr start block => rowKeeps_load dt slice hdr start block s
  | .plan dt slice hdr body => rowKeeps_plan dt slice hdr body s
  | .timeFrame dt slice hdr body => rowKeeps_timeFrame dt slice hdr body s
  | .sliceRequest dt slice hdr req => rowKeeps_sliceRequest dt slice hdr req s
  | .linkResetSequence dt slice => rowKeeps_linkResetSequence dt slice s
  | .sliceHubSilence dt slice => rowKeeps_sliceHubSilence dt slice s
  | .sliceHelloTimer dt slice => rowKeeps_sliceHelloTimer dt slice s
  | .storedFallbackHalfCycle dt slice => rowKeeps_storedFallbackHalfCycle dt slice s
  | .sliceBinEnd dt slice bin codes => rowKeeps_sliceBinEnd dt slice bin codes s
  | .swatchTrack dt slice pos => rowKeeps_swatchTrack dt slice pos s
  | .overcurrentTrip dt channel peak => rowKeeps_overcurrentTrip dt channel peak s
  | .thermalCut dt slice => rowKeeps_thermalCut dt slice s
  | .openWireChannelTest dt channel => rowKeeps_openWireChannelTest dt channel s
  | .swatchLearnBegin dt channel => rowKeeps_swatchLearnBegin dt channel s
  | .swatchLearnDone dt channel => rowKeeps_swatchLearnDone dt channel s
  | .flywheelEntry dt => rowKeeps_flywheelEntry dt s
  | .alternateTakeover dt => rowKeeps_alternateTakeover dt s
  | .primaryReturn dt stamp => rowKeeps_primaryReturn dt stamp s
  | .domainHoldEntry dt => rowKeeps_domainHoldEntry dt s
  | .cycleStart dt => rowKeeps_cycleStart dt s
  | .cycleCheckpoint dt => rowKeeps_cycleCheckpoint dt s
  | .halfCycleBoundary dt means => rowKeeps_halfCycleBoundary dt means s
  | .planEntryAction dt id => rowKeeps_planEntryAction dt id s
  | .zeroCrossTimeout dt channel => rowKeeps_zeroCrossTimeout dt channel s
  | .flashBoundary dt => rowKeeps_flashBoundary dt s
  | .dimFiring dt channel => rowKeeps_dimFiring dt channel s
  | .fallbackApply dt slice => rowKeeps_fallbackApply dt slice s
  | .vitalOkResume dt => rowKeeps_vitalOkResume dt s
  | .mainsValid dt dv => rowKeeps_mainsValid dt dv s
  | .mainsInvalid dt dv => rowKeeps_mainsInvalid dt dv s
  | .backupValid dt cv => rowKeeps_backupValid dt cv s
  | .backupInvalid dt cv => rowKeeps_backupInvalid dt cv s
  | .toMains dt => rowKeeps_toMains dt s
  | .backupIntegrate dt groats => rowKeeps_backupIntegrate dt groats s
  | .backupCheckpoint dt => rowKeeps_backupCheckpoint dt s
  | .backupRefill dt => rowKeeps_backupRefill dt s
  | .thermalModel dt slice hub => rowKeeps_thermalModel dt slice hub s
  | .standbyCountdown dt => rowKeeps_standbyCountdown dt s
  | .standbyCheckpoint dt => rowKeeps_standbyCheckpoint dt s
  | .halfCycleCommit dt => rowKeeps_halfCycleCommit dt s
  | .persistencePass dt => rowKeeps_persistencePass dt s
  | .demandClose dt => rowKeeps_demandClose dt s
  | .tariffChange dt => rowKeeps_tariffChange dt s
  | .linkUp dt lane fec => rowKeeps_linkUp dt lane fec s
  | .laneLockLoss dt lane => rowKeeps_laneLockLoss dt lane s
  | .unwrap dt side => rowKeeps_unwrap dt side s
  | .hello dt hdr position claim variant flags name epochSeen => rowKeeps_hello dt hdr position claim variant flags name epochSeen s
  | .helloSend dt => rowKeeps_helloSend dt s
  | .helloTimeout dt side => rowKeeps_helloTimeout dt side s
  | .echo dt lane tickSent => rowKeeps_echo dt lane tickSent s
  | .echoReply dt lane tickSent turn => rowKeeps_echoReply dt lane tickSent turn s
  | .authA dt hdr na => rowKeeps_authA dt hdr na s
  | .authB dt hdr nb mb => rowKeeps_authB dt hdr nb mb s
  | .authC dt hdr ma => rowKeeps_authC dt hdr ma s
  | .authRetry dt side => rowKeeps_authRetry dt side s
  | .domainJoin dt => rowKeeps_domainJoin dt s
  | .enumerate dt hdr count wWard all384 ringSize highest => rowKeeps_enumerate dt hdr count wWard all384 ringSize highest s
  | .enumDone dt hdr positions form refList => rowKeeps_enumDone dt hdr positions form refList s
  | .enumRefuse dt hdr cause => rowKeeps_enumRefuse dt hdr cause s
  | .enumTimeout dt highest => rowKeeps_enumTimeout dt highest s
  | .slotNotice dt hdr weft slot loop => rowKeeps_slotNotice dt hdr weft slot loop s
  | .escrowAck dt hdr revision => rowKeeps_escrowAck dt hdr revision s
  | .weftHeader dt lane h => rowKeeps_weftHeader dt lane h s
  | .weftHeaderSend dt => rowKeeps_weftHeaderSend dt s
  | .referenceTakeover dt => rowKeeps_referenceTakeover dt s
  | .insertion dt duration => rowKeeps_insertion dt duration s
  | .ringFrameForward dt lane ty hdr payload good inserted reach => rowKeeps_ringFrameForward dt lane ty hdr payload good inserted reach s
  | .request dt hdr opcode p => rowKeeps_request dt hdr opcode p s
  | .ringReply dt hdr r => rowKeeps_ringReply dt hdr r s
  | .ringReplyTimeout dt till => rowKeeps_ringReplyTimeout dt till s
  | .block dt side hdr b => rowKeeps_block dt side hdr b s
  | .escrow dt side hdr position epoch revision total offset data mac => rowKeeps_escrow dt side hdr position epoch revision total offset data mac s
  | .presence dt hdr position variant epoch => rowKeeps_presence dt hdr position variant epoch s
  | .change dt hdr cause subject epoch => rowKeeps_change dt hdr cause subject epoch s
  | .event dt hdr r => rowKeeps_event dt hdr r s
  | .updOpen dt hdr u clean manifest => rowKeeps_updOpen dt hdr u clean manifest s
  | .need dt side hdr u first count => rowKeeps_need dt side hdr u first count s
  | .blockStall dt => rowKeeps_blockStall dt s
  | .voteCall dt hdr u angle cycle => rowKeeps_voteCall dt hdr u angle cycle s
  | .vote dt hdr u yes => rowKeeps_vote dt hdr u yes s
  | .voteClose dt => rowKeeps_voteClose dt s
  | .voteRelease dt hdr u => rowKeeps_voteRelease dt hdr u s
  | .updateCtlCommit dt hdr u cycle => rowKeeps_updateCtlCommit dt hdr u cycle s
  | .commitInstant dt => rowKeeps_commitInstant dt s
  | .trialPass dt => rowKeeps_trialPass dt s
  | .trialResend dt => rowKeeps_trialResend dt s
  | .trial dt hdr u cycle => rowKeeps_trial dt hdr u cycle s
  | .trialDeadline dt => rowKeeps_trialDeadline dt s
  | .updateCtlConfirm dt hdr u readBurnt => rowKeeps_updateCtlConfirm dt hdr u readBurnt s
  | .confirmed dt hdr u => rowKeeps_confirmed dt hdr u s
  | .confirmDeadline dt => rowKeeps_confirmDeadline dt s
  | .updateCtlUnwind dt hdr u => rowKeeps_updateCtlUnwind dt hdr u s
  | .unwound dt hdr u => rowKeeps_unwound dt hdr u s
  | .updAbort dt hdr u => rowKeeps_updAbort dt hdr u s
  | .healthTestFail dt test => rowKeeps_healthTestFail dt test s
  | .entropyRestart dt => rowKeeps_entropyRestart dt s
  | .startupTestDone dt failure => rowKeeps_startupTestDone dt failure s
  | .reseed dt => rowKeeps_reseed dt s
  | .entropyRequestDeadline dt => rowKeeps_entropyRequestDeadline dt s
  | .character dt port c startOne stopOne noisy => rowKeeps_character dt port c startOne stopOne noisy s
  | .receiveTimeout dt port => rowKeeps_receiveTimeout dt port s
  | .serialBreak dt port bits lpo => rowKeeps_serialBreak dt port bits lpo s
  | .dropWake dt c stopOne noisy => rowKeeps_dropWake dt c stopOne noisy s
  | .dropResume dt => rowKeeps_dropResume dt s
  | .bistDone dt found => rowKeeps_bistDone dt found s
  | .notWellFormedPacket dt opcode p => rowKeeps_notWellFormedPacket dt opcode p s
  | .undefinedOpcode dt opcode p => rowKeeps_undefinedOpcode dt opcode p s
  | .reserveArmed dt groats => rowKeeps_reserveArmed dt groats s
  | .sliceWatchdog dt slice => rowKeeps_sliceWatchdog dt slice s
  | .sliceSupplyLoss dt slice => rowKeeps_sliceSupplyLoss dt slice s
  | .enumRefuseSend dt => rowKeeps_enumRefuseSend dt s
  | .replySentInFull dt port => rowKeeps_replySentInFull dt port s
  | .uartBreakEnd dt port => rowKeeps_uartBreakEnd dt port s
  | .vaultScrub dt => rowKeeps_vaultScrub dt s
  | .inrushWindowEnd dt channel => rowKeeps_inrushWindowEnd dt channel s

/-- A step that answers a next state keeps both: an idle one changes nothing, any other is its front row. -/
theorem keeps_step {s t : State} (h : step s = .next t) : Keeps s.m t.m := by
  obtain ⟨pending, m⟩ := s
  cases pending with
  | nil =>
    obtain rfl : State.mk [] m = t := by injection h
    exact Keeps.refl m
  | cons c rest => exact (rowKeeps_exec c ⟨rest, m⟩ t h).1

/-- Settles O58: every row keeps the canonical form of the window's tables. -/
theorem tablesStayCanonical : Obligations.TablesStayCanonical := by
  unfold Obligations.TablesStayCanonical
  intro s t hs h
  exact (keeps_step h).safe hs

/-- Settles O59: every row keeps VITAL-OK safe. -/
theorem vitalStaysSafe : Obligations.VitalStaysSafe := by
  unfold Obligations.VitalStaysSafe
  intro s t hs h
  exact (keeps_step h).vital hs

/-- Settles O50: `step` by the two cases of its queue. -/
theorem stepRunsFront : Obligations.StepRunsFront := by
  unfold Obligations.StepRunsFront
  exact ⟨fun _ _ _ => rfl, fun _ => rfl⟩

/-! ### What a row answers -/

/-- The part of the module that a physical command names (log 11). -/
inductive NamedPart where
  | slice (n : Nat)
  | channel (n : Nat)
  | lane (l : Lane)

/-- Has the variant this part (R3, R17)? -/
def NamedPart.fitted (v : Variant) : NamedPart → Bool
  | .slice n => decide (n < v.slices)
  | .channel n => decide (n < v.channels)
  | .lane l => v.fits l

/-- The fault of a command that names this part where it is absent (log 11). -/
def NamedPart.absent : NamedPart → Fault
  | .slice n => .noSuchSlice n
  | .channel n => .noSuchChannel n
  | .lane l => .noSuchLane l

/-- The part that a row names, where it names one. -/
def namedPart : Instr → Option NamedPart
  | .sliceReload _ slice _ => some (.slice slice)
  | .helloWaitExpiry _ slice => some (.slice slice)
  | .verdict _ slice _ _ _ _ => some (.slice slice)
  | .sliceSilent _ slice => some (.slice slice)
  | .samples _ slice _ _ _ => some (.slice slice)
  | .xing _ slice _ _ _ => some (.slice slice)
  | .sliceReply _ slice _ _ _ => some (.slice slice)
  | .trip _ slice _ _ => some (.slice slice)
  | .sliceHello _ slice _ _ => some (.slice slice)
  | .sliceLinkDeadline _ slice _ => some (.slice slice)
  | .sliceLinkSilence _ slice => some (.slice slice)
  | .sliceReissue _ slice => some (.slice slice)
  | .calibrationUpdate _ slice => some (.slice slice)
  | .load _ slice _ _ _ => some (.slice slice)
  | .plan _ slice _ _ => some (.slice slice)
  | .timeFrame _ slice _ _ => some (.slice slice)
  | .sliceRequest _ slice _ _ => some (.slice slice)
  | .linkResetSequence _ slice => some (.slice slice)
  | .sliceHubSilence _ slice => some (.slice slice)
  | .sliceHelloTimer _ slice => some (.slice slice)
  | .storedFallbackHalfCycle _ slice => some (.slice slice)
  | .sliceBinEnd _ slice _ _ => some (.slice slice)
  | .swatchTrack _ slice _ => some (.slice slice)
  | .overcurrentTrip _ channel _ => some (.channel channel)
  | .thermalCut _ slice => some (.slice slice)
  | .openWireChannelTest _ channel => some (.channel channel)
  | .swatchLearnBegin _ channel => some (.channel channel)
  | .swatchLearnDone _ channel => some (.channel channel)
  | .zeroCrossTimeout _ channel => some (.channel channel)
  | .dimFiring _ channel => some (.channel channel)
  | .fallbackApply _ slice => some (.slice slice)
  | .thermalModel _ slice _ => some (.slice slice)
  | .linkUp _ lane _ => some (.lane lane)
  | .laneLockLoss _ lane => some (.lane lane)
  | .echo _ lane _ => some (.lane lane)
  | .echoReply _ lane _ _ => some (.lane lane)
  | .weftHeader _ lane _ => some (.lane lane)
  | .ringFrameForward _ lane _ _ _ _ _ _ => some (.lane lane)
  | .sliceWatchdog _ slice => some (.slice slice)
  | .sliceSupplyLoss _ slice => some (.slice slice)
  | .inrushWindowEnd _ channel => some (.channel channel)
  | _ => none

/-- What a row that names `part` can answer: a next state, or the fault where that part is absent (log 11). -/
inductive Answers (s : State) : Option NamedPart → Result → Prop where
  | whole (t : State) : Answers s none (.next t)
  | fitted {p : NamedPart} (h : p.fitted s.m.variant = true) (t : State) : Answers s (some p) (.next t)
  | absent {p : NamedPart} (h : p.fitted s.m.variant = false) : Answers s (some p) (.fault p.absent)

theorem answers_onSlice (s : State) (dt n : Nat) (f : Module → Module) :
    Answers s (some (.slice n)) (s.onSlice dt n f) := by
  unfold State.onSlice
  split
  next h => exact .fitted (p := .slice n) (decide_eq_true h) _
  next h => exact .absent (p := .slice n) (decide_eq_false h)

theorem answers_onChannel (s : State) (dt n : Nat) (f : Module → Module) :
    Answers s (some (.channel n)) (s.onChannel dt n f) := by
  unfold State.onChannel
  split
  next h => exact .fitted (p := .channel n) (decide_eq_true h) _
  next h => exact .absent (p := .channel n) (decide_eq_false h)

theorem answers_onLane (s : State) (dt : Nat) (l : Lane) (f : Module → Module) :
    Answers s (some (.lane l)) (s.onLane dt l f) := by
  unfold State.onLane
  split
  next h => exact .fitted (p := .lane l) h _
  next h => exact .absent (p := .lane l) (Bool.eq_false_iff.mpr h)

/-- Every row answers as the part it names says. -/
theorem answers_exec (c : Instr) (s : State) : Answers s (namedPart c) (exec c s) := by
  cases c
  all_goals first
    | exact .whole _
    | exact answers_onSlice _ _ _ _
    | exact answers_onChannel _ _ _ _
    | exact answers_onLane _ _ _ _

theorem fitted_slice (n : Nat) : NamedPart.fitted .um384 (.slice n) = sliceOk n := rfl
theorem fitted_channel (n : Nat) : NamedPart.fitted .um384 (.channel n) = channelOk n := rfl
theorem fitted_lane (l : Lane) : NamedPart.fitted .um384 (.lane l) = true := by
  cases l <;> rfl

/-- A well-formed row names a part of the largest variant, or none. -/
theorem fitted_of_wellFormed {c : Instr} (h : wellFormed c = true) {p : NamedPart} (hp : namedPart c = some p) :
    p.fitted .um384 = true := by
  cases c
  all_goals simp only [namedPart, reduceCtorEq, Option.some.injEq] at hp
  all_goals
    subst hp
    simp only [wellFormed, Bool.and_eq_true] at h
    simp only [fitted_slice, fitted_channel, fitted_lane, h]

/-- Settles O51: each row by the part it names, an absent one being the only way to a fault. -/
theorem rowsAnswer : Obligations.RowsAnswer := by
  unfold Obligations.RowsAnswer
  refine ⟨fun c s r h => ?refused, fun c s f h => ?fault, fun c s t h => (rowKeeps_exec c s t h).2,
    fun c s hv hw => ?answers⟩
  case refused =>
    have ha := answers_exec c s
    rw [h] at ha
    generalize namedPart c = part at ha
    cases ha
  case fault =>
    have ha := answers_exec c s
    rw [h] at ha
    generalize namedPart c = part at ha
    cases ha with
    | @absent p hp =>
      cases p with
      | slice n => exact .inl ⟨n, rfl, Nat.le_of_not_lt (of_decide_eq_false hp)⟩
      | channel ch => exact .inr (.inl ⟨ch, rfl, Nat.le_of_not_lt (of_decide_eq_false hp)⟩)
      | lane l => exact .inr (.inr ⟨l, rfl, hp⟩)
  case answers =>
    have ha := answers_exec c s
    have hfit := @fitted_of_wellFormed c hw
    generalize namedPart c = part at ha hfit
    generalize exec c s = r at ha
    cases ha with
    | whole t => exact ⟨t, rfl⟩
    | fitted _ t => exact ⟨t, rfl⟩
    | absent hp =>
      rw [hv, hfit rfl] at hp
      exact absurd hp (by decide)

/-- Settles O52: the reset state's fields as its definition gives them. -/
theorem resetState : Obligations.ResetState := by
  unfold Obligations.ResetState
  refine ⟨rfl, rfl, ⟨rfl, rfl, rfl⟩, (fun h => nomatch h), rfl, rfl, rfl, fun _ => ⟨rfl, rfl⟩, fun _ => rfl, fun _ => ite_self _,
    fun _ => rfl, rfl, rfl, rfl, rfl, fun _ => ⟨rfl, rfl⟩, fun _ => rfl, rfl, rfl, rfl, rfl⟩

end Sys2Proof.Machine
end

section
/-! PROOFS. The layout of packets and replies: a header is a row of little-endian fields, read back one by one, up to
`Obligations.PacketLayout` and `Obligations.ReplyLayout`. -/

namespace Sys2Proof.Machine
open Sys2Proof

/-! ### Rows of fields -/

/-- A field past the first of a row is a field of the rest. -/
theorem fieldAt_after {k x o n : Nat} {b : List Byte} (h : k ≤ o) :
    fieldAt (leBytes k x ++ b) o n = fieldAt b (o - k) n := by
  conv_lhs => rw [← Nat.add_sub_of_le h]
  exact fieldAt_skip (length_leBytes k x)

theorem rsv_eq_leBytes (n : Nat) : rsv n = leBytes n 0 := by
  induction n with
  | zero => rfl
  | succ n ih =>
    rw [leBytes, Nat.zero_div, ← ih]
    rfl

/-- A CRC field of 0 behind 24 or 28 bytes: the bytes before it and behind it stand as they are. -/
theorem take_zeros_drop {a b : List Byte} {n x : Nat} (h : a.length = n) :
    (a ++ (leBytes 4 x ++ b)).take n ++ [0, 0, 0, 0] ++ (a ++ (leBytes 4 x ++ b)).drop (n + 4) = a ++ (leBytes 4 0 ++ b) := by
  subst h
  rw [List.take_left, List.drop_length_add_append, List.drop_left' (length_leBytes 4 x), List.append_assoc]
  rfl

theorem fieldAt_lt {x n : Nat} {b : List Byte} (h : x < 256 ^ n) : fieldAt (leBytes n x ++ b) 0 n = x :=
  fieldAt_here.trans (Nat.mod_eq_of_lt h)

/-! ### A packet (R132, R133) -/

/-- The 24 header bytes of a packet before its CRC (R132). -/
def packetFront (p : Packet) (opcode : Word16) : List Byte :=
  leBytes 2 opcode.toNat ++ (leBytes 2 p.flags.toNat ++ (leBytes 4 p.tag.toNat ++ (leBytes 1 p.target.toNat ++
    (leBytes 1 0 ++ (leBytes 2 p.till.toNat ++ (leBytes 4 p.params.length ++ (leBytes 2 p.execAngle.toNat ++
    (leBytes 4 p.execCycle.toNat ++ leBytes 2 0))))))))

/-- A packet's bytes: the front, the CRC over the whole with a zero in its place, four reserved bytes, the parameters. -/
theorem packet_bytes_eq (p : Packet) (opcode : Word16) : ∃ crc : Word32,
    p.bytes opcode = packetFront p opcode ++ (leBytes 4 crc.toNat ++ (leBytes 4 0 ++ p.params)) ∧
      crc = crc32c (packetFront p opcode ++ (leBytes 4 0 ++ (leBytes 4 0 ++ p.params))) := by
  refine ⟨_, ?_, rfl⟩
  simp only [Packet.bytes, packetFront, u8, u16, u32, rsv_eq_leBytes, List.append_assoc]

theorem length_packetFront (p : Packet) (opcode : Word16) : (packetFront p opcode).length = 24 := by
  simp only [packetFront, List.length_append, length_leBytes]

/-- Settles O53: the header read field by field, and the CRC found over the bytes it was computed from. -/
theorem packetLayout : Obligations.PacketLayout := by
  unfold Obligations.PacketLayout
  intro code p hlen
  obtain ⟨crc, hb, hcrc⟩ := packet_bytes_eq p code
  have hlength : (p.bytes code).length = 32 + p.params.length := by
    rw [hb]
    simp only [List.length_append, length_leBytes, length_packetFront]
    omega
  have hparams : (p.bytes code).drop 32 = p.params := by
    rw [hb, ← List.append_assoc, ← List.append_assoc]
    exact List.drop_left' (by simp only [List.length_append, length_leBytes, length_packetFront])
  have hover : (p.bytes code).take 0x18 ++ [0, 0, 0, 0] ++ (p.bytes code).drop 0x1C =
      packetFront p code ++ (leBytes 4 0 ++ (leBytes 4 0 ++ p.params)) := by
    rw [hb]
    exact take_zeros_drop (length_packetFront p code)
  have hfield : fieldAt (p.bytes code) 0 2 = code.toNat ∧ fieldAt (p.bytes code) 2 2 = p.flags.toNat ∧
      fieldAt (p.bytes code) 4 4 = p.tag.toNat ∧ fieldAt (p.bytes code) 8 1 = p.target.toNat ∧
      fieldAt (p.bytes code) 9 1 = 0 ∧ fieldAt (p.bytes code) 0xA 2 = p.till.toNat ∧
      fieldAt (p.bytes code) 0xC 4 = p.params.length ∧ fieldAt (p.bytes code) 0x10 2 = p.execAngle.toNat ∧
      fieldAt (p.bytes code) 0x12 4 = p.execCycle.toNat ∧ fieldAt (p.bytes code) 0x16 2 = 0 ∧
      fieldAt (p.bytes code) 0x18 4 = crc.toNat ∧ fieldAt (p.bytes code) 0x1C 4 = 0 := by
    rw [hb]
    have hlen4 : p.params.length < 4294967296 := by omega
    simp [packetFront, fieldAt_after, fieldAt_bitVec, fieldAt_lt, hlen4]
  rw [← hover] at hcrc
  obtain ⟨hcode, hflags, htag, htarget, hrsv9, htill, hlenField, hangle, hcycle, hrsv16, hcrcField, hrsv1C⟩ := hfield
  have hcheck := hcrcField.trans (congrArg BitVec.toNat hcrc)
  refine ⟨hcode, hflags, htag, htarget, hrsv9, htill, hlenField, hangle, hcycle, hrsv16, hcheck, hrsv1C, hparams,
    hlength, ?wellFormed, ?read⟩
  case wellFormed =>
    simp only [wellFormedBytes, hlength, hlenField, hcheck, beq_self_eq_true, Bool.true_and, beq_iff_eq]
    rfl
  case read =>
    simp only [readPacket, hcode, hflags, htag, htarget, htill, hangle, hcycle, hparams, BitVec.ofNat_toNat,
      BitVec.setWidth_eq]

/-! ### A reply (R140) -/

/-- The 28 header bytes of a reply before its CRC (R140). -/
def replyFront (r : Reply) : List Byte :=
  leBytes 2 r.opcode.toNat ++ (leBytes 2 r.rflags.toNat ++ (leBytes 4 r.tag.toNat ++ (leBytes 1 r.position.toNat ++
    (leBytes 1 0 ++ (leBytes 2 r.status.toNat ++ (leBytes 4 r.payload.length ++ (leBytes 2 r.hubEpoch.toNat ++
    (leBytes 2 r.detail.toNat ++ (leBytes 5 r.cycle.toNat ++ (leBytes 2 r.angle.toNat ++ leBytes 1 0))))))))))

/-- A reply's bytes: the front, the CRC over the whole with a zero in its place, the payload. -/
theorem reply_bytes_eq (r : Reply) : ∃ crc : Word32,
    r.bytes = replyFront r ++ (leBytes 4 crc.toNat ++ r.payload) ∧
      crc = crc32c (replyFront r ++ (leBytes 4 0 ++ r.payload)) := by
  have hheader (crc : Nat) : r.header crc ++ r.payload = replyFront r ++ (leBytes 4 crc ++ r.payload) := by
    simp only [Reply.header, replyFront, u8, u16, u32, u40, rsv_eq_leBytes, List.append_assoc]
  exact ⟨_, hheader _, congrArg crc32c (hheader 0)⟩

theorem length_replyFront (r : Reply) : (replyFront r).length = 28 := by
  simp only [replyFront, List.length_append, length_leBytes]

/-- Settles O54: the header read field by field, and the CRC found over the bytes it was computed from. -/
theorem replyLayout : Obligations.ReplyLayout := by
  unfold Obligations.ReplyLayout
  intro r hlen
  obtain ⟨crc, hb, hcrc⟩ := reply_bytes_eq r
  have hlength : r.bytes.length = 32 + r.payload.length := by
    rw [hb]
    simp only [List.length_append, length_leBytes, length_replyFront]
    omega
  have hpayload : r.bytes.drop 32 = r.payload := by
    rw [hb, ← List.append_assoc]
    exact List.drop_left' (by simp only [List.length_append, length_leBytes, length_replyFront])
  have hover : r.bytes.take 0x1C ++ [0, 0, 0, 0] ++ r.bytes.drop 0x20 = replyFront r ++ (leBytes 4 0 ++ r.payload) := by
    rw [hb]
    exact take_zeros_drop (length_replyFront r)
  rw [hover, ← hcrc]
  have hlen4 : r.payload.length < 4294967296 := by omega
  refine ⟨?_, ?_, ?_, ?_, ?_, ?_, ?_, ?_, ?_, ?_, ?_, ?_, ?_, hpayload, hlength⟩
  all_goals
    rw [hb]
    simp [replyFront, fieldAt_after, fieldAt_bitVec, fieldAt_lt, hlen4]

end Sys2Proof.Machine
end

section
/-! PROOFS. The opcodes that only read (`Obligations.Reads`): each is an admitted packet that is answered at once. -/

namespace Sys2Proof.Machine
open Sys2Proof

/-- An admitted packet of an opcode that is not marked T, answered at once. -/
theorem serve_untimed {op : Op} {p : Packet} {s : State} {dt : Nat} {m m' : Module} {a : Ans} (hm : m = s.turn dt p)
    (h : Admitted op p s dt) (ht : op.timed = false) (ha : op.act m p ⟨m.clk.soon, none, false⟩ = (m', some a)) :
    s.serve dt op p = .next { s with m := op.after (m'.answer op.code p a.rflags a.status a.detail a.payload) p } := by
  subst hm
  exact serve_now h (admitted_untimed h ht) ha

/-- The same where nothing follows the answer. -/
theorem serve_answer {op : Op} {p : Packet} {s : State} {dt : Nat} {m m' : Module} {fl st d : Word16} {pl : List Byte}
    (hm : m = s.turn dt p) (h : Admitted op p s dt) (ht : op.timed = false) (hafter : ∀ m p, op.after m p = m)
    (ha : op.act m p ⟨m.clk.soon, none, false⟩ = (m', some ⟨fl, st, d, pl⟩)) :
    s.serve dt op p = .next { s with m := m'.answer op.code p fl st d pl } :=
  (serve_untimed hm h ht ha).trans (by rw [hafter])

theorem act_opStatusRead (m : Module) (p : Packet) (w : When) : opStatusRead.act m p w =
    (if p.field 0 1 = 0 then { m with firstCause := 0, latestCause := 0, unread := 0 } else m,
      some (.ok m.statusPayload)) := rfl

theorem act_opLaneStatus {m : Module} {p : Packet} {l : Lane} (w : When) (h : laneOf (p.field 0 1) = some l) :
    opLaneStatus.act m p w = (m, some (.ok (lanePayload (m.lane l) m.now))) := by
  simp only [opLaneStatus, h, Option.getD_some]

theorem act_opBoundaryRead {m : Module} {p : Packet} {b : Boundary} (w : When)
    (h : m.vault.records[p.field 0 2]? = some b) : opBoundaryRead.act m p w = (m, some (.ok b.bytes)) := by
  simp only [opBoundaryRead, h]

/-- Settles O1: every read by its answer, the state changed only where CLEAR, STEPPED or RESET_MAX say so. -/
theorem reads : Obligations.Reads := by
  unfold Obligations.Reads
  refine ⟨⟨?capability, ?statusClearing, ?statusKeeping, ?time, ?till, ?tag, ?config⟩, ?channel, ?fault, ?ring, ?lane,
    ?ledger, ?energy, ?demand, ?boundary, ?update, ?entropy, ?uart, ?dump⟩
  case statusClearing =>
    intro s dt p m hm h hclear
    exact serve_answer hm h rfl (fun _ _ => rfl) (by rw [act_opStatusRead, if_pos hclear]; rfl)
  case statusKeeping =>
    intro s dt p m hm h hclear
    exact serve_answer hm h rfl (fun _ _ => rfl) (by rw [act_opStatusRead, if_neg (by omega)]; rfl)
  case lane =>
    intro s dt p m l hm h hl
    exact serve_answer hm h rfl (fun _ _ => rfl) (act_opLaneStatus _ hl)
  case boundary =>
    intro s dt p m b hm h hb
    exact serve_answer hm h rfl (fun _ _ => rfl) (act_opBoundaryRead _ hb)
  all_goals
    intro s dt p m hm h
    exact serve_answer hm h rfl (fun _ _ => rfl) rfl

end Sys2Proof.Machine
end

section
/-! PROOFS. The opcodes of tills, of resets and keys, of lamps and of settings (`Obligations.TillCommands`,
`Obligations.ControlCommands`, `Obligations.LampCommands`, `Obligations.AspectAndSettingCommands`,
`Obligations.ConfigWrites`). -/

namespace Sys2Proof.Machine
open Sys2Proof

/-! ### Tills (R116, R130, R160, R163) -/

/-- A closed till is not listed (R114). -/
theorem setTill_closed (m : Module) (t : Word16) : m.setTill t (fun _ => Till.closed) =
    { m with win := { m.win with tills := Tbl.erase m.win.tills t.toNat } } := by
  simp only [Module.setTill, Tbl.modify, Tbl.set, if_true]

/-- The module without what waits for till `id`: entries, losses, and what its doorbells noted (R130). -/
def Module.discardTill (m : Module) (id : Word16) : Module :=
  { m with win := { m.win with
    waiting := m.win.waiting.filter (fun w => w.till != id), losses := Tbl.erase m.win.losses id.toNat
    rung := Tbl.erase m.win.rung id.toNat, stopped := Tbl.erase m.win.stopped id.toNat } }

theorem closeTill_report {m : Module} (p : Packet) {id : Word16} (hk : (m.till id).kind = 3)
    (hs : (m.till id).state = 1) :
    m.closeTill p id = ((m.discardTill id).setTill id (fun _ => Till.closed)).overflows := by
  simp only [Module.closeTill, hk, hs]
  rfl

theorem closeTill_command {m : Module} (p : Packet) {id : Word16} (hk : (m.till id).kind = 2)
    (hs : (m.till id).state = 1) :
    m.closeTill p id = (if p.path = .laneH id then (m.discardTill id).setTill id (fun t => { t with state := 2 })
      else ((m.discardTill id).setTill id (fun t => { t with state := 2 })).settleClosing id).overflows := by
  simp only [Module.closeTill, hk, hs]
  rfl

/-- Settles O2: the fields of TILL_OPEN's till, the two ways a till closes, and a schedule till freed. -/
theorem tillCommands : Obligations.TillCommands := by
  unfold Obligations.TillCommands
  refine ⟨?opens, ?closesReport, ?closesCommand, ?cancels⟩
  case opens =>
    intro s dt p m hm h
    exact serve_answer hm h rfl (fun _ _ => rfl) rfl
  case closesReport =>
    rintro s dt p m id hm rfl h hk hs
    refine serve_answer hm h rfl (fun _ _ => rfl) ?_
    simp only [opTillClose, closeTill_report p hk hs, setTill_closed]
    rfl
  case closesCommand =>
    rintro s dt p m id hm rfl h hk hs
    refine serve_answer hm h rfl (fun _ _ => rfl) ?_
    simp only [opTillClose, closeTill_command p hk hs]
    rfl
  case cancels =>
    rintro s dt p m id hm rfl h
    refine serve_answer hm h rfl (fun _ _ => rfl) ?_
    simp only [opScheduleCancel, Module.freeSchedule, setTill_closed]
    rfl

/-! ### Resets, standby, the dump and the keys (R164, R179, R324, R404, R411, R451) -/

theorem writeKey_first {m : Module} (key : List Byte) (h : m.vault.current = none) : m.writeKey key = m.firstKey key := by
  simp only [Module.writeKey, h]

theorem writeKey_same {m : Module} {key : List Byte} (h : m.vault.current = some key) : m.writeKey key =
    if m.vault.altPending then { m with vault := { m.vault with alternate := none, altPending := false } } else m := by
  simp only [Module.writeKey, h, if_true]

theorem writeKey_other {m : Module} {k key : List Byte} (h : m.vault.current = some k) (hne : k ≠ key) :
    m.writeKey key = { m with vault := { m.vault with alternate := some key, altPending := true } } := by
  simp only [Module.writeKey, h, hne, if_false]

/-- COSIGN_KEY_SET by whether its signature verifies (R179). -/
theorem act_opCosignKeySet (m : Module) (p : Packet) (w : When) : opCosignKeySet.act m p w =
    if m.cosignOk ((p.params.drop 4).take 32) (p.params.drop 36) then
      ({ m with vault := { m.vault with
        cosign := if allZero ((p.params.drop 4).take 32) then none else some ((p.params.drop 4).take 32) } }, some (.ok []))
    else (m, some ⟨0, stSignatureBad, 0, []⟩) := rfl

/-- Settles O3: what follows the answers of RESET and STANDBY_ENTER, the dump freed, and the slots of the two keys. -/
theorem controlCommands : Obligations.ControlCommands := by
  unfold Obligations.ControlCommands
  refine ⟨?reset, ?standby, ?dump, ?keyNext, ?keySame, ?cosignFirst, ?cosignNext⟩
  case reset =>
    intro s dt p m hm h
    exact serve_untimed (a := .ok []) hm h rfl rfl
  case standby =>
    intro s dt p m hm h
    exact serve_untimed (a := .ok []) hm h rfl rfl
  case dump =>
    intro s dt p m hm h
    exact serve_answer hm h rfl (fun _ _ => rfl) rfl
  case keyNext =>
    intro s dt p m k hm h hk hne
    exact serve_answer hm h rfl (fun _ _ => rfl) (congrArg (·, _) (writeKey_other hk hne))
  case keySame =>
    intro s dt p m hm h
    refine ⟨fun hk => ?_, fun hk => ?_⟩
    · exact serve_answer hm h rfl (fun _ _ => rfl) (congrArg (·, _) (writeKey_same hk))
    · exact serve_answer hm h rfl (fun _ _ => rfl) (congrArg (·, _) (writeKey_first _ hk))
  case cosignFirst =>
    intro s dt p m hm h hempty hsig hkey
    refine serve_answer hm h rfl (fun _ _ => rfl) ?_
    simp only [act_opCosignKeySet, Module.cosignOk, hempty, hsig, hkey, if_true]
    rfl
  case cosignNext =>
    intro s dt p m k hm h hk
    have hok : m.cosignOk ((p.params.drop 4).take 32) (p.params.drop 36) =
        Config.ed25519Verify k ((p.params.drop 4).take 32) (p.params.drop 36) := by
      simp only [Module.cosignOk, hk]
    split
    next hv => exact serve_answer hm h rfl (fun _ _ => rfl) (by rw [act_opCosignKeySet, hok, if_pos hv]; rfl)
    next hv => exact serve_answer hm h rfl (fun _ _ => rfl) (by rw [act_opCosignKeySet, hok, if_neg hv]; rfl)

/-! ### Lamp commands, at once and timed (R113, R137, R138, R168, R199) -/

/-- An admitted packet without TIMED acts 1,024 au from now and holds no schedule till (R137). -/
theorem serve_atOnce {op : Op} {p : Packet} {s : State} {dt : Nat} {m m' : Module} {pl : List Byte}
    (hm : m = s.turn dt p) (h : Admitted op p s dt) (hu : p.flags.getLsbD 0 = false) (hafter : ∀ m p, op.after m p = m)
    (ha : op.act m p ⟨m.clk.soon, none, false⟩ = (m', some (.ok pl))) :
    s.serve dt op p = .next { s with m := m'.answer op.code p 0 stOk 0 pl } := by
  subst hm
  rw [serve_now h hu ha, hafter]
  rfl

/-- An admitted packet with TIMED takes a schedule till, which its reply names (R113, R138). -/
theorem serve_scheduled {op : Op} {p : Packet} {s : State} {dt : Nat} {m m' : Module} {pl : List Byte} {due : Nat}
    {late : Bool} {t : Word16} (hm : m = s.turn dt p) (h : Admitted op p s dt) (ht : p.flags.getLsbD 0 = true)
    (hx : m.clk.execAt p = some (due, late)) (hf : m.freeSched = some t) (hafter : ∀ m p, op.after m p = m)
    (ha : op.act (m.schedule p t due) p ⟨due, some t, late⟩ = (m', some (.ok pl))) :
    s.serve dt op p = .next { s with m := m'.answer op.code p (if late then 8 else 0) stOk t pl } := by
  subst hm
  rw [serve_timed h ht hx hf ha, hafter]
  cases late with
  | false => rfl
  | true => simp [Ans.ok, rfLate]

/-- Settles O4: each lamp command makes its plan entry, at once or in the schedule till that was free. -/
theorem lampCommands : Obligations.LampCommands := by
  unfold Obligations.LampCommands
  refine ⟨⟨?_, ?_, ?_⟩, ?_, ?_, ?_⟩
  iterate 3
    · intro s dt p m hm h hu
      exact serve_atOnce hm h hu (fun _ _ => rfl) rfl
  iterate 3
    · intro s dt p m due late t hm h ht hx hf
      exact serve_scheduled hm h ht hx hf (fun _ _ => rfl) rfl

/-! ### Aspects and settings (R167, R170, R198, R216, R228, R310) -/

/-- An admitted packet has passed its opcode's own checks (R139). -/
theorem judge_of_admitted {op : Op} {p : Packet} {s : State} {dt : Nat} {m : Module} (hm : m = s.turn dt p)
    (h : Admitted op p s dt) : op.judge m p = none := by
  subst hm
  obtain ⟨_, _, _, hcheck⟩ := h
  exact eq_none_of_firstOf_eq_none hcheck _ (by simp)

theorem of_need {c : Bool} {o : Nat} (h : need c o = none) : c = true := by
  cases c with
  | true => rfl
  | false => simp [need, badAt] at h

/-- A count that is checked is at least 1 (R153). -/
theorem pos_of_countCheck {p : Packet} {o max : Nat} (h : countCheck p o max = none) : 1 ≤ p.field o 2 := by
  have hn := of_need (eq_none_of_firstOf_eq_none h (need (decide (1 ≤ p.field o 2) && decide (p.field o 2 ≤ max)) o) (by simp))
  simp only [Bool.and_eq_true, decide_eq_true_eq] at hn
  exact hn.1

theorem actsOf_ne_nil {p : Packet} {o n : Nat} (h : 1 ≤ n) : actsOf (entriesOf p o n) ≠ [] := by
  intro hnil
  have hlen := congrArg List.length hnil
  simp only [actsOf, entriesOf, List.length_map, List.length_range, List.length_nil] at hlen
  omega

/-- Setting an entry to something other than the default reads back so, whatever the table (a canonical one or not). -/
theorem get_set_of_ne {α : Type} [DecidableEq α] {d v : α} (t : Tbl α) (k k' : Nat) (hv : v ≠ d) :
    Tbl.get d (Tbl.set d t k v) k' = if k' = k then v else Tbl.get d t k' := by
  rw [Tbl.set, if_neg hv]
  exact Tbl.get_insert d t k k' v

/-- Settles O5: one aspect replaced or emptied, the settings stored, the cleared records counted. -/
theorem aspectAndSettingCommands : Obligations.AspectAndSettingCommands := by
  unfold Obligations.AspectAndSettingCommands
  refine ⟨⟨?define, ?delete⟩, ?swatchMode, ?response, ?ledger, ?faults⟩
  case define =>
    intro s dt p m hm h
    have hcount := eq_none_of_firstOf_eq_none (judge_of_admitted hm h) (countCheck p 2 64) (by simp)
    exact ⟨_, serve_answer hm h rfl (fun _ _ => rfl) rfl,
      fun k => get_set_of_ne _ _ k (actsOf_ne_nil (pos_of_countCheck hcount))⟩
  case delete =>
    intro s dt p m hm h hwf
    exact ⟨_, serve_answer hm h rfl (fun _ _ => rfl) rfl, fun k => Tbl.get_erase hwf _ k⟩
  case swatchMode =>
    intro s dt p m hm h
    exact serve_answer hm h rfl (fun _ _ => rfl) rfl
  case response =>
    rintro s dt p m m' hm h rfl
    exact serve_answer hm h rfl (fun _ _ => rfl) rfl
  case ledger =>
    rintro s dt p m m' hm h rfl
    exact serve_answer hm h rfl (fun _ _ => rfl) rfl
  case faults =>
    intro s dt p m hm h
    exact serve_answer hm h rfl (fun _ _ => rfl) rfl

/-! ### CONFIG_WRITE (R165) -/

/-- The bytes staged once a chunk has come: a chunk at offset 0 begins afresh. -/
def stagedBytes (m : Module) (p : Packet) : List Byte :=
  (if p.field 8 4 = 0 then [] else (match m.staging with | some (_, _, b) => b | none => [])) ++ p.params.drop 16

theorem act_opConfigWrite_chunk {m : Module} {p : Packet} (w : When) (h : p.field 14 1 = 0) :
    opConfigWrite.act m p w =
      ({ m with staging := some (BitVec.ofNat 32 (p.field 0 4), p.field 4 4, stagedBytes m p) },
        some (.ok (u32 m.revision.toNat ++ u8 m.escrowBits ++ rsv 3))) := by
  simp only [opConfigWrite, h]
  rfl

theorem act_opConfigWrite_last {m : Module} {p : Packet} (w : When) (h : p.field 14 1 = 1) :
    opConfigWrite.act m p w = m.storeImage p (stagedBytes m p) := by
  simp only [opConfigWrite, h]
  rfl

/-- Settles O6: a chunk is staged behind those before it; the last one stores an image that parses. -/
theorem configWrites : Obligations.ConfigWrites := by
  unfold Obligations.ConfigWrites
  refine ⟨?chunk, ?last⟩
  case chunk =>
    rintro s dt p m b hm h hlast rfl
    exact serve_answer hm h rfl (fun _ _ => rfl) (act_opConfigWrite_chunk _ hlast)
  case last =>
    rintro s dt p m m' b i hm h hlast rfl hexpect hparse rfl
    exact serve_answer hm h rfl (fun _ _ => rfl)
      ((act_opConfigWrite_last _ hlast).trans (storeImage_stores m p _ i hexpect hparse))

end Sys2Proof.Machine
end

section
/-! PROOFS. The opcodes that start a job, and those of the ring, the metering, updates, entropy and the ports, up to
`Obligations.RefusedContents`; the pipeline of R139 (`Obligations.PacketsAreJudged`, `Obligations.ForwardedPackets`). -/

namespace Sys2Proof.Machine
open Sys2Proof

/-! ### Commands that leave a job (R143, R170, R213, R233, R433, R472) -/

theorem act_opSwatchRead_runs {m : Module} {p : Packet} (w : When) (h : m.sliceRuns (p.field 0 2 / 16) = true) :
    opSwatchRead.act m p w =
      (m.sendSlice (p.field 0 2 / 16) (.request (.readSwatch (p.field 0 2 % 16))) (some (0x0302, p)), none) := by
  simp only [opSwatchRead, h, if_true]

theorem act_opSwatchRead_stopped {m : Module} {p : Packet} (w : When) (h : m.sliceRuns (p.field 0 2 / 16) = false) :
    opSwatchRead.act m p w = (m, some ⟨0, stSliceRestarted, BitVec.ofNat 16 (p.field 0 2 / 16), []⟩) := by
  simp only [opSwatchRead, h, Bool.false_eq_true, if_false]

/-- An admitted packet of an opcode that is not marked T, whose answer comes later. -/
theorem serve_untimed_later {op : Op} {p : Packet} {s : State} {dt : Nat} {m m' : Module} (hm : m = s.turn dt p)
    (h : Admitted op p s dt) (ht : op.timed = false) (ha : op.act m p ⟨m.clk.soon, none, false⟩ = (m', none)) :
    s.serve dt op p = .next { s with m := m'.noteTaken op.code p } := by
  subst hm
  exact serve_later h (admitted_untimed h ht) ha

/-- Settles O7: the jobs left behind, and SWATCH_READ by whether its slice runs. -/
theorem longCommands : Obligations.LongCommands := by
  unfold Obligations.LongCommands
  refine ⟨?learn, ?wire, ?bist, ?readRuns, ?readStopped⟩
  case readRuns =>
    intro s dt p m hm h hr
    exact serve_untimed_later hm h rfl (act_opSwatchRead_runs _ hr)
  case readStopped =>
    intro s dt p m hm h hr
    exact serve_answer hm h rfl (fun _ _ => rfl) (act_opSwatchRead_stopped _ hr)
  all_goals
    intro s dt p m hm h
    exact serve_untimed (a := .accepted) hm h rfl rfl

/-- Settles O8: the count begun, and the sides marked for the configuration. -/
theorem ringCommands : Obligations.RingCommands := by
  unfold Obligations.RingCommands
  refine ⟨?enumerate, ?push⟩
  case enumerate =>
    intro s dt p m hm h
    exact serve_answer hm h rfl (fun _ _ => rfl) rfl
  case push =>
    rintro s dt p m e w hm h rfl rfl
    exact serve_untimed (a := .accepted) hm h rfl rfl

/-! ### Metering (R334, R336, R340) -/

theorem act_opTariffAt {m : Module} {p : Packet} {k : Nat} (w : When) (h : m.meter.tariffSlot (p.field 4 5) = some k) :
    opTariffAt.act m p w =
      ({ m with meter := m.meter.setCounter k (2 ^ 63 + p.field 0 1 * 2 ^ 40 + p.field 4 5) }.pass,
        some (.ok (u8 (m.meter.setCounter k (2 ^ 63 + p.field 0 1 * 2 ^ 40 + p.field 4 5)).pendingTariffs.length ++
          rsv 3))) := by
  simp only [opTariffAt, h]
  rfl

/-- Settles O9: the change in its slot, the configuration at its counter, each with its pass. -/
theorem meterCommands : Obligations.MeterCommands := by
  unfold Obligations.MeterCommands
  refine ⟨?tariff, ?demand⟩
  case tariff =>
    intro s dt p m k hm h hk
    exact serve_answer hm h rfl (fun _ _ => rfl) (act_opTariffAt _ hk)
  case demand =>
    intro s dt p m hm h
    exact serve_answer hm h rfl (fun _ _ => rfl) rfl

/-! ### Updates (R357, R361, R375, R380, R386, R387, R389, R391) -/

theorem act_opUpdateOpen_refused {m : Module} {p : Packet} {st : Word16} {cause : Byte} (w : When)
    (h : m.manifestCause (manifestOf p) (p.field 0 1 == 1) = some (st, cause)) : opUpdateOpen.act m p w =
      (m, some ⟨0, st, if st = 0x4002 then BitVec.ofNat 16 cause.toNat else 0, []⟩) := by
  simp only [opUpdateOpen, Module.openHere, h]
  rfl

theorem act_opUpdateOpen {m : Module} {p : Packet} (w : When)
    (h : m.manifestCause (manifestOf p) (p.field 0 1 == 1) = none) (hrom : m.inRom = false)
    (hready : m.entropyReady = true) : opUpdateOpen.act m p w =
      (((m.draw 4).1.openSession (sessionNumber (m.draw 4).2) (p.field 0 1 == 1) (manifestOf p) m.positionByte
          true m.newRoster).ctlAll 1 (u8 (p.field 0 1) ++ rsv 3 ++ u32 (manifestOf p).length ++ manifestOf p),
        some (.ok (u32 (sessionNumber (m.draw 4).2).toNat))) := by
  have hrom' : (m.draw 4).1.inRom = false := hrom
  simp only [opUpdateOpen, Module.openHere, Module.openAt, h, hrom, hready, hrom', Bool.false_eq_true, if_false, if_true]
  rfl

theorem act_opUpdateOpen_rom {m : Module} {p : Packet} (w : When)
    (h : m.manifestCause (manifestOf p) (p.field 0 1 == 1) = none) (hrom : m.inRom = true)
    (hform : (partsOf (manifestOf p)).any (fun e => e.form != 0) = false) : opUpdateOpen.act m p w =
      ({ m with free := m.free + 1 }.openSession (sessionNumber (Config.randomBytes m.free 4))
          (p.field 0 1 == 1) (manifestOf p) m.positionByte true [],
        some (.ok (u32 (sessionNumber (Config.randomBytes m.free 4)).toNat))) := by
  have hrom' : ({ m with free := m.free + 1 } : Module).inRom = true := hrom
  simp only [opUpdateOpen, Module.openHere, Module.openAt, h, hrom, hform, hrom', Bool.false_eq_true, if_false, if_true]
  rfl

theorem act_opBlockPut {m : Module} {p : Packet} {e : PartEntry} {out : List Byte} (w : When)
    (h : m.checkBlock (blockOf p) = some (e, out)) : opBlockPut.act m p w =
      (if m.holdsBlock (blockIndex (blockOf p)) then m else m.newBlock (blockOf p) e out none,
        some (.ok (u32 (if m.holdsBlock (blockIndex (blockOf p)) then m
          else m.newBlock (blockOf p) e out none).blocksHeld))) := by
  simp only [opBlockPut, h]

theorem act_opBlockPut_bad {m : Module} {p : Packet} (w : When) (h : m.checkBlock (blockOf p) = none) :
    opBlockPut.act m p w = (m, some ⟨0, stBlockBad, 0, []⟩) := by
  simp only [opBlockPut, h]

/-- RECOVER_ACTIVATE where the images are complete and of a version and schema that may be activated (R391). -/
theorem recover_by_signature {m : Module} (hgood : m.upd.escrow.allGood = true)
    (hsec : m.upd.fuses ≤ secOf m.upd.escrow.manifestBytes)
    (hmajor : m.majorDiffers m.upd.escrow.manifestBytes = true → m.upd.escrow.clean = true) :
    m.recover = if m.signaturesOk m.upd.escrow.manifestBytes then
        ({ m with
          upd := { m.upd with swapped := !m.upd.swapped, select := 0, bootCount := 0 }
          vault := { m.vault with config := if m.upd.escrow.clean then m.clearedConfig else m.vault.config }
          resetDue := some .hostCold }, some (.ok []))
      else (m, some ⟨0, stSignatureBad, 0, []⟩) := by
  have hmajor' : ¬(m.majorDiffers m.upd.escrow.manifestBytes && !m.upd.escrow.clean) = true := by
    simpa using hmajor
  unfold Module.recover
  dsimp only
  rw [hgood, if_neg (by simp : ¬(!true) = true), if_neg (Nat.not_lt.mpr hsec), if_neg hmajor']
  cases m.signaturesOk m.upd.escrow.manifestBytes <;> rfl

/-- UNWIND as it is taken: its FINAL is owed, and the unwinding begins where it has not (R387). -/
theorem beginUnwind_withFinal (m : Module) (p : Packet) :
    (m.setSession (fun s => { s with finals := s.finals ++ [m.finalRef 0x0707 p] })).beginUnwind =
      if m.session.unwindDue then m.setSession (fun x => { x with finals := x.finals ++ [m.finalRef 0x0707 p] })
      else (m.setSession (fun x => { x with
        finals := x.finals ++ [m.finalRef 0x0707 p], unwindDue := true })).ctlAll 0x0A [] := rfl

/-- Settles O10: each update opcode by what its own operation does. -/
theorem updateCommands : Obligations.UpdateCommands := by
  unfold Obligations.UpdateCommands
  refine ⟨?opens, ?opensRom, ?block, ?prepare, ?commit, ?confirm, ?unwind, ?abort, ?recover⟩
  case opens =>
    intro s dt p m hm h hrom hready
    cases hc : m.manifestCause (manifestOf p) (p.field 0 1 == 1) with
    | some c => exact serve_answer hm h rfl (fun _ _ => rfl) (act_opUpdateOpen_refused _ hc)
    | none => exact serve_answer hm h rfl (fun _ _ => rfl) (act_opUpdateOpen _ hc hrom hready)
  case opensRom =>
    intro s dt p m hm h hrom hform
    cases hc : m.manifestCause (manifestOf p) (p.field 0 1 == 1) with
    | some c => exact serve_answer hm h rfl (fun _ _ => rfl) (act_opUpdateOpen_refused _ hc)
    | none => exact serve_answer hm h rfl (fun _ _ => rfl) (act_opUpdateOpen_rom _ hc hrom hform)
  case block =>
    rintro s dt p m m' e out hm h hb rfl
    exact serve_answer hm h rfl (fun _ _ => rfl) (act_opBlockPut _ hb)
  case prepare =>
    rintro s dt p m m' hm h rfl
    exact serve_untimed (a := .accepted) hm h rfl rfl
  case commit =>
    rintro s dt p m c hm h rfl
    exact serve_answer hm h rfl (fun _ _ => rfl) rfl
  case confirm =>
    rintro s dt p m m' hm h rfl
    exact serve_answer hm h rfl (fun _ _ => rfl) rfl
  case unwind =>
    intro s dt p m hm h
    exact serve_answer hm h rfl (fun _ _ => rfl) (congrArg (·, _) (beginUnwind_withFinal m p))
  case abort =>
    rintro s dt p m hm h
    exact serve_answer hm h rfl (fun _ _ => rfl) rfl
  case recover =>
    intro s dt p m hm h hgood hsec hmajor
    have hact : opRecoverActivate.act m p ⟨m.clk.soon, none, false⟩ = m.recover := rfl
    rw [recover_by_signature hgood hsec hmajor] at hact
    split
    next hv => exact serve_untimed (a := .ok []) hm h rfl (hact.trans (if_pos hv))
    next hv => exact serve_untimed (a := ⟨0, stSignatureBad, 0, []⟩) hm h rfl (hact.trans (if_neg hv))

/-! ### Entropy and the ports (R178, R181, R402, R425), and the refused contents (R165, R361, R402) -/

theorem act_opRandom_ready {m : Module} {p : Packet} (w : When) (h : m.entropyReady = true) :
    opRandom.act m p w = ((m.draw (p.field 0 2)).1, some (.ok (Config.randomBytes m.free (p.field 0 2)))) := by
  simp only [opRandom, h, if_true]
  rfl

theorem act_opRandom_stopped {m : Module} {p : Packet} (w : When) (h : m.ent.healthy = false) :
    opRandom.act m p w = (m, some ⟨0, stEntropyFault, 3, []⟩) := by
  have hready : m.entropyReady = false := by simp only [Module.entropyReady, h, Bool.false_and]
  simp only [opRandom, h, hready, Bool.false_eq_true, if_false]

theorem uartSet_now {m : Module} {p : Packet} (h : p.path ≠ portPath (portOf (p.field 0 1))) : m.uartSet p =
    m.setPort (portOf (p.field 0 1)) (fun u => u.change (p.field 1 1) (p.field 2 2) (p.field 4 1)
      (BitVec.ofNat 8 (p.field 5 1)) (BitVec.ofNat 8 (p.field 6 1)) (p.field 7 1)) := if_neg h

theorem uartSet_later {m : Module} {p : Packet} (h : p.path = portPath (portOf (p.field 0 1))) : m.uartSet p =
    m.addJob (portOf (p.field 0 1)) (.set (p.field 1 1) (p.field 2 2) (p.field 4 1) (BitVec.ofNat 8 (p.field 5 1))
      (BitVec.ofNat 8 (p.field 6 1)) (p.field 7 1)) := if_pos h

/-- Settles O11: one generate call, and what follows the replies of the two port opcodes. -/
theorem entropyAndPortCommands : Obligations.EntropyAndPortCommands := by
  unfold Obligations.EntropyAndPortCommands
  refine ⟨?random, ?setNow, ?setLater, ?brk⟩
  case random =>
    intro s dt p m hm h hready
    exact serve_answer hm h rfl (fun _ _ => rfl) (act_opRandom_ready _ hready)
  case setNow =>
    intro s dt p m hm h hpath
    rw [← uartSet_now hpath]
    exact serve_untimed (a := .ok []) hm h rfl rfl
  case setLater =>
    intro s dt p m hm h hpath
    rw [← uartSet_later hpath]
    exact serve_untimed (a := .ok []) hm h rfl rfl
  case brk =>
    intro s dt p m hm h
    exact serve_untimed (a := .ok []) hm h rfl rfl

/-- An image that does not parse is refused and its staging dropped (R165). -/
theorem storeImage_refuses (m : Module) (p : Packet) (bytes : List Byte)
    (hexpect : p.field 0 4 = 0 ∨ p.field 0 4 = m.revision.toNat)
    (hparse : parseImage m.variant m.upd.schema m.positionByte bytes = none) :
    m.storeImage p bytes = ({ m with staging := none }, some ⟨0, stBadParam, 0x30, []⟩) := by
  have hok : ¬(p.field 0 4 ≠ 0 ∧ p.field 0 4 ≠ ({ m with staging := none } : Module).revision.toNat) := by
    rintro ⟨h0, hr⟩
    exact hexpect.elim h0 hr
  have hparse' : parseImage ({ m with staging := none } : Module).variant ({ m with staging := none } : Module).upd.schema
      ({ m with staging := none } : Module).positionByte bytes = none := hparse
  simp only [Module.storeImage, hok, if_false, hparse']

/-- Settles O12: the last check of each content fails, and only the answer follows. -/
theorem refusedContents : Obligations.RefusedContents := by
  unfold Obligations.RefusedContents
  refine ⟨?block, ?random, ?image⟩
  case block =>
    intro s dt p m hm h hb
    exact serve_answer hm h rfl (fun _ _ => rfl) (act_opBlockPut_bad _ hb)
  case random =>
    intro s dt p m hm h hh
    exact serve_answer hm h rfl (fun _ _ => rfl) (act_opRandom_stopped _ hh)
  case image =>
    rintro s dt p m b hm h hlast rfl hexpect hparse
    exact serve_answer hm h rfl (fun _ _ => rfl)
      ((act_opConfigWrite_last _ hlast).trans (storeImage_refuses m p _ hexpect hparse))

/-! ### The pipeline (R139, R145, R290) -/

/-- A packet that is taken is judged (R39, R139). -/
theorem serve_taken {op : Op} {p : Packet} {s : State} {dt : Nat} {m : Module} (hm : m = s.turn dt p)
    (h : Taken op.code p s dt) : s.serve dt op p = .next { s with m := m.judge op p } := by
  subst hm
  obtain ⟨htest, htakes, hturn⟩ := h
  have hserve : (s.m.elapse dt).serve op p = (s.turn dt p).judge op p := turn_taken _ htest htakes hturn
  rw [← hserve]
  rfl

section Judged
variable {m : Module} {op : Op} {p : Packet} (hnew : m.retried op.code p = none)
include hnew

theorem judge_here (h : m.aim op p = .here) : m.judge op p = m.serveHere op p := by
  simp only [Module.judge, hnew, h]

theorem judge_refused {st d : Word16} (h : m.aim op p = .refused st d) :
    m.judge op p = m.answer op.code p 0 st d [] := by
  simp only [Module.judge, hnew, h]

theorem judge_other {q : Nat} (h : m.aim op p = .other q) (htill : m.tillOk p = true) :
    m.judge op p = m.forward op p q := by
  simp only [Module.judge, hnew, h, htill, if_true]

end Judged

/-- A packet refused by a check is answered with it; only LEDGER_DEFERRED is counted (R139, R319). -/
theorem serveHere_refused {m : Module} {op : Op} {p : Packet} {st d : Word16} (h : m.check op p = some (st, d)) :
    m.serveHere op p = (if st = stDeferred then { m with pow := { m.pow with deferred := satInc m.pow.deferred } }
      else m).answer op.code p 0 st d [] := by
  simp only [Module.serveHere, h]

/-- Settles O13: the first failing check answered, and the row of each opcode. -/
theorem packetsAreJudged : Obligations.PacketsAreJudged := by
  unfold Obligations.PacketsAreJudged
  refine ⟨⟨?checked, ?deferred, ?aimed⟩, ?rows⟩
  case checked =>
    intro s dt op p m st d hm h hnew haim hcheck hst
    rw [serve_taken hm h, judge_here hnew haim, serveHere_refused hcheck, if_neg (show ¬st = stDeferred from hst)]
  case deferred =>
    intro s dt op p m d hm h hnew haim hcheck
    rw [serve_taken hm h, judge_here hnew haim, serveHere_refused hcheck]
    rfl
  case aimed =>
    intro s dt op p m st d hm h hnew haim
    rw [serve_taken hm h, judge_refused hnew haim]
  case rows =>
    intro s dt p
    iterate 54 refine ⟨rfl, ?_⟩
    rfl

/-- A packet is forwarded only while the ring is ready, with room for a watch record where one may be needed, and in a free
ring till; otherwise it is answered BUSY (R145, R293). -/
theorem forward_busy {m : Module} {op : Op} {p : Packet} {q : Nat}
    (h : m.ringReady = false ∨ (op.accepts = true ∧ 4096 ≤ m.ring.watches.length) ∨ m.freeRing = none) :
    m.forward op p q = m.answer op.code p 0 stBusy 0 [] := by
  rcases h with h | ⟨ha, hw⟩ | h
  · simp [Module.forward, h]
  · simp [Module.forward, ha, hw]
  · simp [Module.forward, h]

theorem forward_in_ringTill {m : Module} {op : Op} {p : Packet} {q : Nat} {t : Word16} (hready : m.ringReady = true)
    (hroom : op.accepts = true → m.ring.watches.length < 4096) (ht : m.freeRing = some t) : m.forward op p q =
      let m' := (m.setTill t (fun _ => { Till.closed with
          kind := 5, state := 4, epoch := Tbl.get 0 m.ring.epochs q, link := BitVec.ofNat 16 q, tag := p.tag })).ringSend 2
        (BitVec.ofNat 8 q) (Tbl.get 0 m.ring.epochs q) t (p.bytes op.code)
      { m' with ring := { m'.ring with forwards := m'.ring.forwards ++ [(t, op.code, p)] } }.noteTaken op.code p := by
  have hok : (m.ringReady && !(op.accepts && decide (4096 ≤ m.ring.watches.length))) = true := by
    cases ha : op.accepts with
    | false => simp [hready]
    | true => simp [hready, hroom ha]
  simp only [Module.forward, hok, if_true, ht]

/-- Settles O14: the packet leaves in a ring till, or is answered BUSY. -/
theorem forwardedPackets : Obligations.ForwardedPackets := by
  unfold Obligations.ForwardedPackets
  refine ⟨?forwarded, ?busy⟩
  case forwarded =>
    rintro s dt op p m m' q t hm h hnew haim htill hready hroom ht rfl
    rw [serve_taken hm h, judge_other hnew haim htill, forward_in_ringTill hready hroom ht]
  case busy =>
    intro s dt op p m q hm h hnew haim htill hbusy
    rw [serve_taken hm h, judge_other hnew haim htill, forward_busy hbusy]
    rfl

end Sys2Proof.Machine
end

section
/-! PROOFS. The host window: doorbells and attachment, page exchanges, reads and writes on lane H, entries placed and bad
words and packets (`Obligations.DoorbellsAndAttachment` to `Obligations.WindowReports`). -/

namespace Sys2Proof.Machine
open Sys2Proof

/-- A row that answers its effect after the time that passed. -/
theorem on_next {s : State} {dt : Nat} {f : Module → Module} {t : Module} (h : f (s.m.elapse dt) = t) :
    s.on dt f = .next { s with m := t } := by
  subst h; rfl

/-! ### Doorbells (R119, R120, R122, R123) -/

/-- A doorbell that is refused is counted, and does nothing else (R122). -/
theorem doorbell_refused {m : Module} {till prod epoch : Word16} {n : Nat} (hup : m.coresUp = true)
    (hr : m.restartKeepalive.doorbellReason till prod epoch = n + 1) :
    m.doorbell till prod epoch = m.restartKeepalive.refuseDoorbell till (n + 1) := by
  simp only [Module.doorbell, hup, if_true, hr]

/-- A doorbell that is not refused: PROD is written and the till served by its kind (R119). -/
theorem doorbell_accepted {m : Module} {till prod epoch : Word16} (hup : m.coresUp = true)
    (hr : m.restartKeepalive.doorbellReason till prod epoch = 0) : m.doorbell till prod epoch =
      let x := m.restartKeepalive.setTill till (fun t => { t with prod := prod })
      let rung := Tbl.get [] x.win.rung till.toNat ++ [(prod, x.now)]
      if (x.till till).kind = 2 || till = 0 then
        ((x.keepRung till rung).takeDescs till (prod - (x.till till).cons).toNat).keepRung till rung
      else { x with win := { x.win with stopped := Tbl.erase x.win.stopped till.toNat } } := by
  simp only [Module.doorbell, hup, if_true, hr]

/-- The reasons of R122's table, in its order. -/
theorem doorbellReason_open {m : Module} {till prod epoch : Word16} (ha : m.win.attached = true)
    (ho : (m.till till).state = 1) (hh : till.toNat < 0x2000) : m.doorbellReason till prod epoch =
      if epoch ≠ m.vault.hostEpoch then 2
      else if (m.till till).len.toNat < (prod - (m.till till).cons).toNat then 3 else 0 := by
  simp [Module.doorbellReason, ha, ho, Nat.not_le.mpr hh]

/-! ### Attach and detach (R127-R130) -/

theorem attachHost_granted {m : Module} {page : Nat} (hup : m.coresUp = true)
    (h : (m.detachHost 1).win.code page = 1 ∧ (m.detachHost 1).win.code (page + 1) = 1 ∧ page + 1 < 16384) :
    m.attachHost page =
      let x := m.detachHost 1
      let e := nextEpoch x.vault.hostEpoch
      (({ x with
          vault := { x.vault with hostEpoch := e }
          win := { x.win with
            tills := dropStale x.win.tills, attached := true, detachCause := 0, applied := 0 } }.setTill 0 (fun _ =>
        sysTill e 1 page)).setTill 1 (fun _ => sysTill e 0 (page + 1))).restartKeepalive.dumpReady := by
  simp only [Module.attachHost, hup, if_true, if_pos h]

theorem attachHost_refused {m : Module} {page : Nat} (hup : m.coresUp = true)
    (h : ¬((m.detachHost 1).win.code page = 1 ∧ (m.detachHost 1).win.code (page + 1) = 1 ∧ page + 1 < 16384)) :
    m.attachHost page =
      let x := m.detachHost 1
      { x with win := { x.win with
        dbErrors := satInc x.win.dbErrors, dbLastTill := 0, dbLastReason := 5, detachCause := 5 } } := by
  simp only [Module.attachHost, hup, if_true, if_neg h]
  rfl

/-- A host that is attached is detached: its open tills become STALE (R129). -/
theorem detachHost_attached {m : Module} (cause : Byte) (h : m.win.attached = true) : m.detachHost cause =
    { m with win := { m.win with
      attached := false, detachCause := cause, keepDeadline := none, rung := [], stopped := []
      tills := m.win.tills.map (fun e =>
        if e.1 < 0x2000 && e.2.state != 0 then (e.1, { e.2 with state := 3 }) else e) } } := by
  simp only [Module.detachHost, h, if_true]
  rfl

/-- Settles O15: a doorbell by the reason of R122, then the attachment and the keep-alive. -/
theorem doorbellsAndAttachment : Obligations.DoorbellsAndAttachment := by
  unfold Obligations.DoorbellsAndAttachment
  refine ⟨⟨?command, ?report, ?refused⟩, ?attach, ?attachRefused, ?detach, ?keepalive, ?expired, ?running⟩
  case command =>
    rintro s dt till prod epoch m rfl hup ha ho hh he hp hk hw
    refine on_next ((doorbell_accepted hup ?_).trans ?_)
    · rw [doorbellReason_open ha ho hh, if_neg (by simpa using he), if_neg (Nat.not_lt.mpr hp)]
    · dsimp only
      rw [till_setTill _ _ hw, if_pos (by simpa using hk)]
      rfl
  case report =>
    rintro s dt till prod epoch m rfl hup ha ho hh he hp hk h0 hw
    refine on_next ((doorbell_accepted hup ?_).trans ?_)
    · rw [doorbellReason_open ha ho hh, if_neg (by simpa using he), if_neg (Nat.not_lt.mpr hp)]
    · dsimp only
      rw [till_setTill _ _ hw, if_neg (by simpa using ⟨hk, h0⟩)]
      rfl
  case refused =>
    rintro s dt till prod epoch m reason rfl hup h
    rcases h with ⟨ha, rfl⟩ | ⟨ha, hno, rfl⟩ | ⟨ha, ho, hh, he, rfl⟩ | ⟨ha, ho, hh, he, hp, rfl⟩
    · exact on_next (doorbell_refused (n := 3) hup (by simp [Module.doorbellReason, ha]))
    · refine on_next (doorbell_refused (n := 0) hup ?_)
      simp only [Module.doorbellReason, ha]
      rw [if_neg (by simp), if_pos (by simpa using hno)]
    · exact on_next (doorbell_refused (n := 1) hup (by rw [doorbellReason_open ha ho hh, if_pos he]))
    · exact on_next (doorbell_refused (n := 2) hup
        (by rw [doorbellReason_open ha ho hh, if_neg (by simpa using he), if_pos hp]))
  case attach =>
    rintro s dt page m e rfl hup h0 h1 hlt rfl
    exact on_next (attachHost_granted hup ⟨h0, h1, hlt⟩)
  case attachRefused =>
    rintro s dt page m rfl hup h
    exact on_next (attachHost_refused hup h)
  case detach =>
    rintro s dt m rfl hup ha
    exact on_next ((if_pos hup).trans (detachHost_attached 1 ha))
  case keepalive =>
    rintro s dt ms m rfl hup
    exact on_next (if_pos hup)
  case expired =>
    rintro s dt d m rfl hd hlt ha
    refine on_next (Eq.trans ?_ (detachHost_attached 3 ha))
    have he : (s.m.elapse dt).expired d = true := decide_eq_true hlt
    simp only [Module.keepaliveExpiry, hd, he, if_true]
  case running =>
    rintro s dt d m rfl hd hle
    refine on_next ?_
    have he : (s.m.elapse dt).expired d = false := decide_eq_false (Nat.not_lt.mpr hle)
    simp only [Module.keepaliveExpiry, hd, he, Bool.false_eq_true, if_false]

/-! ### Page exchanges (R104, R109) -/

/-- The pages of a range. -/
theorem mem_pages {first count k : Nat} :
    k ∈ (List.range count).map (fun i => first + i) ↔ first ≤ k ∧ k < first + count := by
  simp only [List.mem_map, List.mem_range]
  exact ⟨fun ⟨i, hi, e⟩ => by omega, fun h => ⟨k - first, by omega, by omega⟩⟩

/-- No page of a range has a property that none has. -/
theorem find_pages_none {first count : Nat} {p : Nat → Bool} (h : ∀ j, first ≤ j → j < first + count → p j = false) :
    ((List.range count).map (fun i => first + i)).find? p = none := by
  rw [List.find?_eq_none]
  intro k hk
  obtain ⟨h1, h2⟩ := mem_pages.mp hk
  simp [h k h1 h2]

/-- The first page of a range that has a property. -/
theorem find_pages_some {first count k : Nat} {p : Nat → Bool} (h1 : first ≤ k) (h2 : k < first + count) (hp : p k = true)
    (h : ∀ j, first ≤ j → j < k → p j = false) : ((List.range count).map (fun i => first + i)).find? p = some k := by
  have hsplit : List.range count = List.range (k - first) ++ (List.range (count - (k - first))).map (k - first + ·) := by
    rw [← List.range_add, Nat.add_sub_cancel' (by omega)]
  have hhead : (List.range (count - (k - first))).map (k - first + ·) =
      (k - first) :: (List.range (count - (k - first) - 1)).map (fun i => k - first + (i + 1)) := by
    rw [show count - (k - first) = (count - (k - first) - 1) + 1 by omega, List.range_succ_eq_map]
    simp [Function.comp_def]
  rw [hsplit, hhead, List.map_append, List.find?_append,
    find_pages_none (count := k - first) (fun j hj hlt => h j hj (by omega))]
  simp [Nat.add_sub_cancel' h1, hp]

section
variable {m : Module} {first count : Nat} {expect new : BitVec 2}

theorem pxOutcome_badRange (h : first < 2 ∨ count = 0 ∨ 16128 < first + count) :
    m.pxOutcome first count expect new = (4, none) := by
  have hb : (decide (first < 2) || decide (count = 0) || decide (dumpFirst < first + count)) = true := by
    rw [Bool.or_eq_true, Bool.or_eq_true, decide_eq_true_eq, decide_eq_true_eq, decide_eq_true_eq, or_assoc]
    exact h
  simp only [Module.pxOutcome, hb, if_true]

variable (hf : 2 ≤ first) (hc : 0 < count) (hd : first + count ≤ 16128)
include hf hc hd

theorem goodRange : (decide (first < 2) || decide (count = 0) || decide (dumpFirst < first + count)) = false := by
  rw [Bool.or_eq_false_iff, Bool.or_eq_false_iff, decide_eq_false_iff_not, decide_eq_false_iff_not,
    decide_eq_false_iff_not]
  exact ⟨⟨by omega, by omega⟩, Nat.not_lt.mpr hd⟩

theorem pxOutcome_badTransition (ht : hostTransition expect new = false) :
    m.pxOutcome first count expect new = (2, none) := by
  simp only [Module.pxOutcome, goodRange hf hc hd, ht, Bool.not_false, Bool.false_eq_true, if_false, if_true]

variable (ht : hostTransition expect new = true)
include ht

theorem pxOutcome_wrongCode {k : Nat} (h1 : first ≤ k) (h2 : k < first + count) (hk : m.win.code k ≠ expect)
    (h : ∀ j, first ≤ j → j < k → m.win.code j = expect) : m.pxOutcome first count expect new = (1, some k) := by
  have hfind := find_pages_some (p := fun k => m.win.code k != expect) h1 h2 (by simpa using hk)
    (fun j hj hlt => by simp [h j hj hlt])
  simp only [Module.pxOutcome, goodRange hf hc hd, ht, Bool.not_true, Bool.false_eq_true, if_false, hfind]

variable (hall : ∀ j, first ≤ j → j < first + count → m.win.code j = expect)
include hall

theorem pxOutcome_inUse {k : Nat} {b : Nat × Nat} (h1 : first ≤ k) (h2 : k < first + count) (hb : b ∈ m.pagesInUse)
    (hk : touches b.1 b.2 k = true) (h : ∀ j, first ≤ j → j < k → ∀ b ∈ m.pagesInUse, touches b.1 b.2 j = false) :
    m.pxOutcome first count expect new = (3, some k) := by
  have hne : m.pagesInUse.isEmpty = false := by
    simpa using List.ne_nil_of_mem hb
  have hcode := find_pages_none (first := first) (count := count) (p := fun k => m.win.code k != expect)
    (fun j hj hlt => by simp [hall j hj hlt])
  have hfind := find_pages_some (p := fun k => m.pagesInUse.any (fun b => touches b.1 b.2 k)) h1 h2
    (List.any_eq_true.mpr ⟨b, hb, hk⟩) (fun j hj hlt => by simpa using h j hj hlt)
  simp only [Module.pxOutcome, goodRange hf hc hd, ht, Bool.not_true, Bool.false_eq_true, if_false, hcode, hne, hfind]

theorem pxOutcome_granted (h : ∀ j, first ≤ j → j < first + count → ∀ b ∈ m.pagesInUse, touches b.1 b.2 j = false) :
    m.pxOutcome first count expect new = (0, none) := by
  have hcode := find_pages_none (first := first) (count := count) (p := fun k => m.win.code k != expect)
    (fun j hj hlt => by simp [hall j hj hlt])
  have hfind := find_pages_none (first := first) (count := count)
    (p := fun k => m.pagesInUse.any (fun b => touches b.1 b.2 k))
    (fun j hj hlt => by simpa using h j hj hlt)
  simp only [Module.pxOutcome, goodRange hf hc hd, ht, Bool.not_true, Bool.false_eq_true, if_false, hcode, hfind,
    ite_self]

end

/-- An exchange refused before a page fails (R109). -/
theorem exchange_refused {m : Module} {first count : Nat} {expect new : BitVec 2} {seq : Word16} {c : Nat}
    (h : m.nextUnit.pxOutcome first count expect new = (c, none)) (h0 : c ≠ 0) : m.exchange first count expect new seq =
      { m.nextUnit with win := { m.nextUnit.win with pxSeqEcho := seq, pxCode := BitVec.ofNat 8 c } } := by
  simp only [Module.exchange, h, if_neg h0]

/-- An exchange refused at a page (R109). -/
theorem exchange_refusedAt {m : Module} {first count : Nat} {expect new : BitVec 2} {seq : Word16} {c k : Nat}
    (h : m.nextUnit.pxOutcome first count expect new = (c, some k)) (h0 : c ≠ 0) : m.exchange first count expect new seq =
      { m.nextUnit with win := { m.nextUnit.win with
        pxSeqEcho := seq, pxCode := BitVec.ofNat 8 c, failPage := BitVec.ofNat 16 k } } := by
  simp only [Module.exchange, h, if_neg h0]

/-- An exchange granted (R109). -/
theorem exchange_granted {m : Module} {first count : Nat} {expect new : BitVec 2} {seq : Word16}
    (h : m.nextUnit.pxOutcome first count expect new = (0, none)) : m.exchange first count expect new seq =
      let w := (List.range count).foldl (fun w i => w.setCode (first + i) new) m.nextUnit.win
      { m.nextUnit with win := { w with pxSeqEcho := seq, pxCode := 0 } } := by
  simp only [Module.exchange, h, if_true]
  rfl

/-- The cores stay up or down while units are tested. -/
theorem coresUp_nextUnit (m : Module) : m.nextUnit.coresUp = m.coresUp := by
  have hend : m.endUnit.stage = m.stage := by
    unfold Module.endUnit; split <;> rfl
  have h : m.nextUnit.stage = m.stage := by
    unfold Module.nextUnit
    split
    · dsimp only
      split
      · exact hend
      · exact hend
    · rfl
  simp only [Module.coresUp, h]

/-- Settles O16: an exchange by its outcome, the granted one page by page. -/
theorem passbookExchange : Obligations.PassbookExchange := by
  unfold Obligations.PassbookExchange
  refine ⟨?granted, ?wrongCode, ?inUse, ?badTransition, ?badRange⟩
  case granted =>
    rintro s dt first count expect new seq m rfl hup hw hf hc hd ht hall huse
    rw [coresUp_nextUnit] at hup
    obtain ⟨-, hwin, hcode⟩ := setCode_range (s.m.elapse dt).nextUnit.win first.toNat new hf count.toNat hw
    exact ⟨_, on_next ((if_pos hup).trans
      (exchange_granted (pxOutcome_granted hf hc hd ((hostTransition_iff _ _).mpr ht) hall huse))), hwin, hcode⟩
  case wrongCode =>
    rintro s dt first count expect new seq m k rfl hup hf hd ht h1 h2 hk h
    rw [coresUp_nextUnit] at hup
    exact on_next ((if_pos hup).trans (exchange_refusedAt
      (pxOutcome_wrongCode hf (by omega) hd ((hostTransition_iff _ _).mpr ht) h1 h2 hk h) (by decide)))
  case inUse =>
    rintro s dt first count expect new seq m k b rfl hup hf hd ht hall h1 h2 hb hk h
    rw [coresUp_nextUnit] at hup
    exact on_next ((if_pos hup).trans (exchange_refusedAt
      (pxOutcome_inUse hf (by omega) hd ((hostTransition_iff _ _).mpr ht) hall h1 h2 hb hk h) (by decide)))
  case badTransition =>
    rintro s dt first count expect new seq m rfl hup hf hc hd ht
    rw [coresUp_nextUnit] at hup
    exact on_next ((if_pos hup).trans (exchange_refused
      (pxOutcome_badTransition hf hc hd (Bool.eq_false_iff.mpr (fun h => ht ((hostTransition_iff _ _).mp h)))) (by decide)))
  case badRange =>
    rintro s dt first count expect new seq m rfl hup h
    rw [coresUp_nextUnit] at hup
    exact on_next ((if_pos hup).trans (exchange_refused
      (pxOutcome_badRange (by simpa [BitVec.toNat_eq] using h)) (by decide)))

/-! ### Reads and writes on lane H (R103, R106, R111, R296, R297) -/

/-- A range that lies within one page and the window (R297). -/
theorem withinPage {o : Nat} {data : List Byte} (h0 : 0 < data.length) (hp : o % 4096 + data.length ≤ 4096)
    (hw : o + data.length ≤ 0x4000000) :
    (decide (windowSize < o + data.length) || decide (4096 < o % 4096 + data.length) || data.isEmpty) = false := by
  rw [Bool.or_eq_false_iff, Bool.or_eq_false_iff, decide_eq_false_iff_not, decide_eq_false_iff_not]
  exact ⟨⟨Nat.not_lt.mpr hw, Nat.not_lt.mpr hp⟩, by simpa using List.ne_nil_of_length_pos h0⟩

/-- A write within a page beyond page 0, by the page's owner (R103). -/
theorem write_page {m : Module} {o : Nat} {data : List Byte} (h0 : 0 < data.length) (hp : o % 4096 + data.length ≤ 4096)
    (hw : o + data.length ≤ 0x4000000) (hpage : 4096 ≤ o) : m.write o data =
      if m.nextUnit.win.code (o / 4096) = 1 then
        let x := m.nextUnit.poke o data
        { x with win := { x.win with applied := x.win.applied + 1 } }
      else m.nextUnit.violate (o / 4096) := by
  have hne : o / 4096 ≠ 0 := by omega
  simp only [Module.write, withinPage h0 hp hw, Bool.false_eq_true, if_false, pageOf, hne]
  rfl

theorem readStatus_range {m : Module} {o n : Nat} (h : n = 0 ∨ 4096 < o % 4096 + n ∨ 0x4000000 < o + n) :
    m.readStatus o n = 3 := by
  refine if_pos ?_
  rw [Bool.or_eq_true, Bool.or_eq_true, Bool.or_eq_true, decide_eq_true_eq, decide_eq_true_eq, decide_eq_true_eq,
    decide_eq_true_eq]
  rcases h with h | h | h
  · exact .inl (.inl (.inl h))
  · exact .inr h
  · exact .inl (.inr h)

theorem readStatus_inRange {m : Module} {o n : Nat} (h0 : 0 < n) (hp : o % 4096 + n ≤ 4096) (hw : o + n ≤ 0x4000000) :
    m.readStatus o n = if m.win.code (o / 4096) = 3 then 1 else if m.poisoned o n then 2 else 0 := by
  refine if_neg ?_
  rw [Bool.or_eq_true, Bool.or_eq_true, Bool.or_eq_true, decide_eq_true_eq, decide_eq_true_eq, decide_eq_true_eq,
    decide_eq_true_eq]
  have hs : ¬ windowSize < o + n := Nat.not_lt.mpr hw
  omega

theorem poisoned_eq_false {m : Module} {o n : Nat} (h : ∀ e ∈ m.win.eccWords, o + n ≤ 8 * e.1 ∨ 8 * e.1 + 8 ≤ o) :
    m.poisoned o n = false := by
  rw [Module.poisoned, List.any_eq_false]
  intro e he
  have := h e he
  simp
  omega

/-- A page beyond the passbook reads the window's bytes (R103). -/
theorem readBytes_mem {m : Module} {o : Nat} (n : Nat) (h : 8192 ≤ o) : m.readBytes o n = Memory.reads m.win.mem o n := by
  obtain ⟨k, hk⟩ : ∃ k, pageOf o = k + 2 := ⟨o / 4096 - 2, by simp only [pageOf]; omega⟩
  simp only [Module.readBytes, hk]

/-- Settles O17: a write by the page's owner, a read by its status, the rest by what the cores do. -/
theorem windowAccess : Obligations.WindowAccess := by
  unfold Obligations.WindowAccess
  refine ⟨⟨?owned, ?other, ?damaged⟩, ?read, ?locked, ?range, ?hello, ?pending⟩
  case owned =>
    rintro s dt offset data m rfl hup hmem h0 hp hw hpage hcode
    rw [coresUp_nextUnit] at hup
    refine ⟨_, on_next ((if_pos hup).trans ((if_pos rfl).trans ((write_page h0 hp hw hpage).trans (if_pos hcode)))), rfl, ?_⟩
    intro a
    exact Memory.read_writes hmem _ _ _
  case other =>
    rintro s dt offset data m rfl hup h0 hp hw hpage hcode
    rw [coresUp_nextUnit] at hup
    exact on_next ((if_pos hup).trans ((if_pos rfl).trans ((write_page h0 hp hw hpage).trans (if_neg hcode))))
  case damaged =>
    rintro s dt tag offset len data m t rfl hup rfl
    exact ⟨on_next (if_pos hup), on_next (if_pos hup), on_next (if_pos hup)⟩
  case read =>
    rintro s dt tag offset len m rfl hup h0 hp hw hpage hcode hecc
    rw [coresUp_nextUnit] at hup
    refine on_next ((if_pos hup).trans ((if_pos rfl).trans ?_))
    have hst := readStatus_inRange (m := (s.m.elapse dt).nextUnit) h0 hp hw
    rw [if_neg hcode, poisoned_eq_false hecc] at hst
    simp only [Module.readReq, hst, Bool.false_eq_true, if_false, if_true, readBytes_mem _ hpage]
    rfl
  case locked =>
    rintro s dt tag offset len m rfl hup h0 hp hw hcode
    rw [coresUp_nextUnit] at hup
    refine on_next ((if_pos hup).trans ((if_pos rfl).trans ?_))
    have hst := readStatus_inRange (m := (s.m.elapse dt).nextUnit) h0 hp hw
    rw [if_pos hcode] at hst
    simp only [Module.readReq, hst]
    rfl
  case range =>
    rintro s dt tag offset len m rfl hup h
    rw [coresUp_nextUnit] at hup
    refine on_next ((if_pos hup).trans ((if_pos rfl).trans ?_))
    have hst : (s.m.elapse dt).nextUnit.readStatus offset.toNat len.toNat = 3 :=
      readStatus_range (by simpa [BitVec.toNat_eq] using h)
    simp only [Module.readReq, hst]
    rfl
  case hello =>
    rintro s dt m rfl hup
    exact on_next (if_pos hup)
  case pending =>
    rintro s dt first data m rfl hup hw
    exact ⟨_, on_next (if_pos hup), get_clearPending data first _ hw⟩

/-! ### Entries placed, bad words and bad packets (R107, R121, R125, R133, R156) -/

/-- Without losses no OVERFLOW entry waits for room (R125). -/
theorem overflows_idle {m : Module} (h : m.win.losses = []) : m.overflows = m := by
  unfold Module.overflows; rw [h]; rfl

/-- Writing into a buffer and its descriptor changes the window's bytes and bad words only. -/
theorem pokes_change (m : Module) (a b : Nat) (x y z w : List Byte) : ∃ mem ecc,
    (((m.poke a x).poke (b + 4) y).poke (b + 8) z).poke (b + 12) w =
      { m with win := { m.win with mem := mem, eccWords := ecc } } := ⟨_, _, rfl⟩

/-- An entry that fits the next posted buffer of a host's report till is written there (R121). -/
theorem placeIn_fits {m : Module} {w : Waiting} {n : Nat} (hne : (m.till w.till).cons ≠ (m.till w.till).prod)
    (hstop : Tbl.get false m.win.stopped w.till.toNat = false)
    (hown : (m.desc (m.till w.till) (m.till w.till).cons).own = true)
    (hlen : w.entry.bytes.length ≤ (m.desc (m.till w.till) (m.till w.till).cons).len)
    (hbuf : m.bufferOk (m.desc (m.till w.till) (m.till w.till).cons).addr
      (m.desc (m.till w.till) (m.till w.till).cons).len = true)
    (hep : w.epoch = m.vault.hostEpoch) (hhost : w.till.toNat < 0x1000) (hloss : m.win.losses = []) :
    m.placeIn w (n + 1) =
      let d := m.desc (m.till w.till) (m.till w.till).cons
      let a := (m.till w.till).descAt (m.till w.till).cons
      { m with win := { ((((m.poke d.addr w.entry.bytes).poke (a + 4) (u32 w.entry.bytes.length)).poke (a + 8)
          (u16 w.epoch.toNat)).poke (a + 12) (u32 0)).win with
        tills := Tbl.modify Till.closed m.win.tills w.till.toNat (fun t => { t with cons := t.cons + 1, count := t.count + 1 })
        waiting := m.win.waiting.erase w
        noticeSeq := m.win.noticeSeq + 1 } } := by
  have hbad : (decide ((m.desc (m.till w.till) (m.till w.till).cons).len < w.entry.bytes.length) ||
      !m.bufferOk (m.desc (m.till w.till) (m.till w.till).cons).addr
        (m.desc (m.till w.till) (m.till w.till).cons).len) = false := by
    rw [hbuf, Bool.or_eq_false_iff]
    exact ⟨decide_eq_false (Nat.not_lt.mpr hlen), rfl⟩
  have hgo : ¬ (decide ((m.till w.till).cons = (m.till w.till).prod) ||
      Tbl.get false m.win.stopped w.till.toNat) = true := by simp [hne, hstop]
  rw [Module.placeIn]
  dsimp only
  rw [if_neg hgo, hown, if_neg (by decide), if_neg (ne_true_of_eq_false hbad), if_neg (Nat.not_le.mpr hhost), if_pos hep]
  obtain ⟨x, y, e⟩ := pokes_change m (m.desc (m.till w.till) (m.till w.till).cons).addr
    ((m.till w.till).descAt (m.till w.till).cons) w.entry.bytes (u32 w.entry.bytes.length) (u16 w.epoch.toNat) (u32 0)
  rw [e]
  exact overflows_idle hloss

/-- Settles O18: the entry placed, the word reported once, the packets refused at their turn. -/
theorem windowReports : Obligations.WindowReports := by
  unfold Obligations.WindowReports
  refine ⟨?placed, ?ecc, ?eccAgain, ?badPort, ?badLaneH, ?undefinedOpcode⟩
  case placed =>
    rintro s dt till m w d a rfl htest hup hatt hrep hfind hne rfl hown hlen hbuf rfl hep hhost hloss hstop hd1 hd2 hd3
    obtain rfl : w.till = till := by simpa using List.find?_some hfind
    obtain ⟨n, hn⟩ : ∃ n, (((s.m.elapse dt).till w.till).prod - ((s.m.elapse dt).till w.till).cons).toNat = n + 1 :=
      Nat.exists_eq_succ_of_ne_zero (fun h0 => hne (by bv_omega))
    have hplace : (s.m.elapse dt).placeEntry w.till = (s.m.elapse dt).placeIn w (n + 1) := by
      simp only [Module.placeEntry, hup, hatt, hrep, Bool.and_self, if_true, hfind, hn]
    change execReportEntryPlace dt w.till s = _
    refine on_next ?_
    rw [htest, if_neg (by decide), hplace, placeIn_fits hne hstop hown hlen hbuf hep hhost hloss]
    exact resetStep_idle _ hd1 hd2 hd3
  case ecc =>
    rintro s dt source word m rfl h
    change execPageEcc dt source word s = _
    exact on_next (if_neg (by simpa using h))
  case eccAgain =>
    rintro s dt source word m rfl h
    change execPageEcc dt source word s = _
    exact on_next (if_pos h)
  case badPort =>
    rintro s dt opcode p m port rfl ⟨h1, h2, h3⟩ hp
    change execNotWellFormedPacket dt opcode p s = _
    refine on_next ((turn_taken _ h1 h2 h3).trans ?_)
    cases port <;> simp only [Module.refuseBad, Module.emit, onDefaultTill, hp, portPath] <;> rfl
  case badLaneH =>
    rintro s dt opcode p m m' t rfl ⟨h1, h2, h3⟩ hp rfl
    change execNotWellFormedPacket dt opcode p s = _
    refine on_next ((turn_taken _ h1 h2 h3).trans ?_)
    simp only [Module.refuseBad, Module.emit, onDefaultTill, hp]
    rfl
  case undefinedOpcode =>
    rintro s dt opcode p m rfl ⟨h1, h2, h3⟩ hno hnew
    change execUndefinedOpcode dt opcode p s = _
    refine on_next ((if_neg (by simpa using hno)).trans ((turn_taken _ h1 h2 h3).trans ?_))
    simp only [Module.undefinedOp]
    rw [show ((s.m.elapse dt).dequeue p).retried opcode p = none from hnew]
    rfl

end Sys2Proof.Machine
end

section
/-! PROOFS. Start-up, resets and fatal errors (`Obligations.StartStages`, `Obligations.ResetsAndFatalErrors`). -/

namespace Sys2Proof.Machine
open Sys2Proof

/-! ### What the lamp drive and the slices' links leave alone -/

/-- `t` is `m` but for the channels, the slices, the proving and what replies and events change. -/
structure Serves (m t : Module) : Prop where
  same : t = { m with
    tel := t.tel
    win := { m.win with waiting := t.win.waiting, losses := t.win.losses, tills := t.win.tills }
    ring := { m.ring with txq := t.ring.txq, held := t.ring.held, heldLoss := t.ring.heldLoss }
    maint := { m.maint with txq := t.maint.txq }
    drop := { m.drop with txq := t.drop.txq }
    lamps := { m.lamps with chans := t.lamps.chans }
    hub := t.hub
    own := t.own
    out := t.out
    diag := { m.diag with bist := t.diag.bist }
    prov := t.prov }
  bist : m.diag.bist = none → t.diag.bist = none

namespace Serves
variable {m t u : Module}
theorem refl (m : Module) : Serves m m := ⟨rfl, id⟩
theorem trans (h : Serves m t) (h' : Serves t u) : Serves m u := by
  refine ⟨?_, fun hb => h'.bist (h.bist hb)⟩
  rw [h'.same, h.same]
theorem ofTalk (h : Talk m t) : Serves m t := by
  refine ⟨?_, fun hb => by rw [h.diag, hb]⟩
  rw [h.same]
theorem foldl {α : Type} (f : Module → α → Module) (h : ∀ m a, Serves m (f m a)) :
    ∀ (l : List α) (m : Module), Serves m (l.foldl f m)
  | [], m => refl m
  | a :: l, m => (h m a).trans (foldl f h l _)
theorem each (f : Nat → Module → Module) (h : ∀ n m, Serves m (f n m)) (l : List Nat) (m : Module) :
    Serves m (m.each l f) := foldl _ (fun m n => h n m) l m
theorem ite {c : Prop} [Decidable c] (h : Serves m t) (h' : Serves m u) : Serves m (if c then t else u) := by
  split
  · exact h
  · exact h'
theorem stage (h : Serves m t) : t.stage = m.stage := by rw [h.same]
theorem vault (h : Serves m t) : t.vault = m.vault := by rw [h.same]
theorem upd (h : Serves m t) : t.upd = m.upd := by rw [h.same]
theorem ent (h : Serves m t) : t.ent = m.ent := by rw [h.same]
theorem shelf (h : Serves m t) : t.shelf = m.shelf := by rw [h.same]
theorem latestCause (h : Serves m t) : t.latestCause = m.latestCause := by rw [h.same]
theorem oversample (h : Serves m t) : t.maint.oversample = m.maint.oversample := by rw [h.same]
theorem divider (h : Serves m t) : t.maint.divider = m.maint.divider := by rw [h.same]
end Serves

theorem serves_setSlice (m : Module) (n : Nat) (f : HubSlice → HubSlice) : Serves m (m.setSlice n f) := ⟨rfl, id⟩
theorem serves_prov (m : Module) (x : Proving) : Serves m { m with prov := x } := ⟨rfl, id⟩
theorem serves_own (m : Module) (x : Tbl OwnSlice) : Serves m { m with own := x } := ⟨rfl, id⟩
theorem serves_setChan (m : Module) (ch : Nat) (f : Chan → Chan) : Serves m (m.setChan ch f) := ⟨rfl, id⟩

theorem serves_openAll (m : Module) (n : Nat) (f : Chan → Chan) : Serves m (m.openAll n f) :=
  Serves.each _ (fun ch m => serves_setChan m ch _) _ m

theorem serves_setFrames (m : Module) (n : Nat) (l : List Unacked) : Serves m (m.setFrames n l) := by
  refine (serves_setSlice m n _).trans (Serves.foldl _ ?_ _ _)
  intro m e
  split
  · exact ⟨rfl, id⟩
  · exact Serves.refl m

theorem serves_sendSlice (m : Module) (n : Nat) (msg : HubMsg) (serves : Option (Word16 × Packet)) :
    Serves m (m.sendSlice n msg serves) := (serves_setSlice m n _).trans (serves_setFrames _ _ _)

theorem serves_settleLearns (m : Module) : Serves m m.settleLearns := by
  unfold Module.settleLearns
  exact (serves_prov m _).trans (Serves.foldl _ (fun _ _ => .ofTalk (talk_final _ _ _ _ _)) _ _)

theorem serves_settleWires (m : Module) : Serves m m.settleWires := by
  unfold Module.settleWires
  exact (serves_prov m _).trans (Serves.foldl _ (fun _ _ => .ofTalk (talk_final _ _ _ _ _)) _ _)

theorem serves_stopLearning (m : Module) (p : Nat → Bool) (r : Nat) (b : Bool) : Serves m (m.stopLearning p r b) := by
  unfold Module.stopLearning Module.dropSamples
  exact (serves_prov m _).trans (serves_settleLearns _)

theorem serves_stopWires (m : Module) (p : Nat → Bool) (b : Bool) : Serves m (m.stopWires p b) := by
  unfold Module.stopWires
  exact (serves_prov m _).trans (serves_settleWires _)

theorem serves_beginLoad (m : Module) (n : Nat) : Serves m (m.beginLoad n) := by
  unfold Module.beginLoad
  exact (serves_setSlice m n _).trans ((serves_sendSlice _ _ _ _).trans (serves_sendSlice _ _ _ _))

theorem serves_failBist (m : Module) (n : Nat) : Serves m (m.failBist n) := by
  unfold Module.failBist
  split
  · split
    · exact Serves.trans ⟨rfl, fun _ => rfl⟩ (.ofTalk (talk_final _ _ _ _ _))
    · exact Serves.refl m
  · exact Serves.refl m

theorem serves_sliceRestart (m : Module) (n : Nat) (cause : Byte) : Serves m (m.sliceRestart n cause) := by
  unfold Module.sliceRestart
  exact (serves_openAll m n _).trans ((serves_setSlice _ n _).trans (serves_own _ _))

theorem serves_slicesOff (m : Module) : Serves m m.slicesOff :=
  Serves.each _ (fun n m => serves_sliceRestart m n 3) _ m

theorem serves_endFault (m : Module) (ch kind how : Nat) : Serves m (m.endFault ch kind how) := by
  unfold Module.endFault
  exact Serves.ite ((serves_prov m _).trans (.ofTalk (talk_event _ _ _))) (Serves.refl m)

theorem serves_patternChanged (m : Module) (ch : Nat) (old : Pattern) : Serves m (m.patternChanged ch old) := by
  unfold Module.patternChanged
  dsimp only
  split
  · exact Serves.refl m
  · have hwire : ∀ x : Module, Serves x (if ((x.slice (ch / 16)).wire.map (fun w => w.1)) = some (ch % 16) then
        ((x.setOwn (ch / 16) (fun o => { o with wire := none })).setSlice (ch / 16) (fun h => { h with wire := none })).stopWires
          (fun x => x == ch) false
      else x) := fun x => ((serves_own x _).trans ((serves_setSlice _ _ _).trans (serves_stopWires _ _ _))).ite (Serves.refl x)
    refine Serves.ite (Serves.trans ?_ (serves_endFault _ ch 1 1)) (Serves.trans ?_ (serves_endFault _ ch 2 1)) <;>
      exact ((serves_setChan m ch _).trans (serves_stopLearning _ _ _ _)).trans (hwire _)

theorem serves_moveSwitch (m : Module) (ch : Nat) (want : Bool) : Serves m (m.moveSwitch ch want) := by
  unfold Module.moveSwitch
  dsimp only
  refine Serves.trans (Serves.ite ?_ ?_) (serves_setChan _ ch _)
  · exact (serves_setChan m ch _).trans (serves_setSlice _ (ch / 16) _)
  · exact serves_setChan m ch _

theorem serves_takeEffect (m : Module) (ch : Nat) (f : Chan → Chan) : Serves m (m.takeEffect ch f) := by
  unfold Module.takeEffect Module.refresh
  dsimp only
  refine Serves.ite (Serves.trans ?_ (serves_moveSwitch _ ch _)) (Serves.trans ?_ (serves_moveSwitch _ ch _)) <;>
    exact ((serves_setChan m ch _).trans (serves_patternChanged _ ch _)).trans (serves_setChan _ ch _)

theorem serves_busBack (m : Module) (n : Nat) : Serves m (m.busBack n) := by
  refine Serves.each _ (fun ch m => ?_) _ m
  exact Serves.ite (serves_setChan m ch _) (Serves.refl m)

theorem serves_kindChanged (m : Module) (n : Nat) (old : BusKind) : Serves m (m.kindChanged n old) := by
  unfold Module.kindChanged
  dsimp only
  refine Serves.ite (Serves.refl m) (Serves.ite (Serves.trans ?_ (serves_busBack _ n)) ?_) <;>
    exact serves_stopLearning m _ _ _

theorem serves_newKind (m : Module) (n : Nat) (old : Items) : Serves m (m.newKind n old) := by
  unfold Module.newKind
  exact Serves.ite (Serves.refl m) ((serves_setSlice m n _).trans (serves_kindChanged _ n _))

theorem serves_sendItems (m : Module) (n : Nat) (old : Items) : Serves m (m.sendItems n old) := by
  unfold Module.sendItems
  refine Serves.ite (Serves.refl m) (Serves.trans (Serves.ite (Serves.refl m) (serves_sendSlice m n _ _))
    (Serves.each _ (fun ch m => ?_) _ _))
  refine Serves.ite ?_ (Serves.trans ?_ (serves_sendSlice _ n _ _)) <;>
    exact (Serves.refl m).ite (serves_sendSlice m n _ _)

/-- Items that come into force at a cycle start: nothing but them and what the slices are sent (R473). -/
theorem serves_takeItems (m : Module) : ∃ i, Serves { m with live := i } m.takeItems := by
  unfold Module.takeItems
  dsimp only
  split
  · exact ⟨m.live, Serves.refl m⟩
  · exact ⟨_, Serves.each _ (fun n m => (serves_newKind m n _).trans (serves_sendItems _ n _)) _ _⟩

theorem serves_vitalStop (m : Module) : Serves m m.vitalStop :=
  (Serves.ite (serves_prov m _) (Serves.refl m)).trans (.ofTalk (talk_vitalStop m))

/-! ### Start-up (R46, R47, R50, R52, R53, R59, R62, R384, R471) -/

theorem elapse_unpowered {m : Module} (dt : Nat) (h : m.stage = .unpowered) : m.elapse dt = m := by
  simp only [Module.elapse, h]

/-- Every slice's HELLO is awaited from one and the same tick. -/
theorem each_awaitHello (k : Nat) : ∀ (l : List Nat) (m : Module),
    m.each l (fun n m => m.setSlice n (fun h => { h with awaitHello := some (m.now + k) })) =
      m.each l (fun n c => c.setSlice n (fun h => { h with awaitHello := some (m.clk.tick.toNat + k) }))
  | [], _ => rfl
  | n :: l, m => each_awaitHello k l (m.setSlice n (fun h => { h with awaitHello := some (m.now + k) }))

theorem powerOn_mains {m : Module} (h : m.stage = .unpowered) : m.powerOn .mains =
    { m with
        stage := .rails
        pow := { m.pow with
          mains := true, mainsSince := m.clk.tick.toNat, backup := false, onBackup := false, ledger := 0
          countFrom := m.clk.tick.toNat } }.each (List.range m.variant.slices) (fun n c =>
      c.setSlice n (fun h => { h with awaitHello := some (m.clk.tick.toNat + 12000000) })) := by
  rw [Module.powerOn, if_pos h]
  exact each_awaitHello _ _ _

theorem powerOn_backup {m : Module} (h : m.stage = .unpowered) : m.powerOn .backup =
    { m with
        stage := .rails
        pow := { m.pow with
          mains := false, mainsSince := m.clk.tick.toNat, backup := true, onBackup := true
          ledger := if m.items.capacity = 0 ∨ m.pow.account.toNat < m.items.leanBelow.toNat then
            (if m.items.standbyAfter = 0 then 1 else 2) else 0
          countFrom := m.clk.tick.toNat } }.each (List.range m.variant.slices) (fun n c =>
      c.setSlice n (fun h => { h with awaitHello := some (m.clk.tick.toNat + 12000000) })) := by
  have hl : ({ m with stage := .rails, pow := { m.pow with
      mains := false, mainsSince := m.now, backup := true, onBackup := true } } : Module).ledgerFor =
      if m.items.capacity = 0 ∨ m.pow.account.toNat < m.items.leanBelow.toNat then
        (if m.items.standbyAfter = 0 then 1 else 2) else 0 := by
    unfold Module.ledgerFor
    dsimp only
    have hi : ∀ x : Power, ({ m with stage := .rails, pow := x } : Module).items = m.items := fun _ => rfl
    simp [hi]
  rw [Module.powerOn, if_pos h]
  refine (each_awaitHello _ _ _).trans ?_
  rw [← hl]
  rfl

/-- The boot ROM where no trial boot was cut short (R50). -/
theorem boot_untried {m : Module} (digestsOk : Bool) (hst : m.stage = .rails ∨ m.stage = .boot) (hs : m.upd.select ≠ 1) :
    m.boot digestsOk =
      let t := { m with upd := { m.upd with
        fwVersion := m.upd.active.versions.1, secVersion := m.upd.active.versions.2.1
        schema := m.upd.active.versions.2.2 } }
      if t.bootable digestsOk then { t with stage := .vault }
      else { t with stage := .bootRom, maint := Uart.maintReset }.slicesOff := by
  rw [Module.boot, if_pos hst, if_neg hs]

/-- A trial boot that was cut short: the banks are back before the ACTIVE one is checked (R384). -/
theorem boot_again {m : Module} (digestsOk : Bool) (hst : m.stage = .rails ∨ m.stage = .boot) (hs : m.upd.select = 1)
    (hc : m.upd.bootCount ≠ 0) : (m.boot digestsOk).upd.swapped = m.bootBack.upd.swapped ∧
      (m.boot digestsOk).upd.select = m.bootBack.upd.select ∧
      (m.boot digestsOk).upd.bootCount = m.bootBack.upd.bootCount ∧
      (m.boot digestsOk).latestCause = m.bootBack.latestCause ∧
      (m.boot digestsOk).upd.session = m.bootBack.upd.session := by
  rw [Module.boot, if_pos hst, if_pos hs, if_neg hc]
  dsimp only
  split
  · exact ⟨rfl, rfl, rfl, rfl, rfl⟩
  · rw [(serves_slicesOff _).upd, (serves_slicesOff _).latestCause]
    exact ⟨rfl, rfl, rfl, rfl, rfl⟩

/-- A reload begins at its stage with the configuration in force; the rest is the slices' (R56, R62). -/
theorem serves_reloadAll (m : Module) :
    Serves { m with
      stage := .reload, shelf := false, live := m.effective
      lamps := { m.lamps with
        genFA := m.effective.fa, genFB := m.effective.fb, genNext := Tbl.erase (Tbl.erase m.lamps.genNext 2) 3 } }
      m.reloadAll := by
  unfold Module.reloadAll
  dsimp only
  refine Serves.trans ?_ (Serves.each _ ?_ _ _)
  · refine Serves.trans ?_ ((serves_stopLearning _ _ _ _).trans (serves_stopWires _ _ _))
    refine Serves.trans ?_ (Serves.foldl _ (fun m s => .ofTalk (talk_complete m _ _ _ _ _ _)) _ _)
    exact ⟨rfl, id⟩
  · intro n m
    refine Serves.trans ?_ (serves_failBist _ n)
    split
    · exact Serves.refl m
    · exact serves_beginLoad m n

/-- Lanes that begin to train change the lanes only. -/
theorem trainLanes_keeps (m : Module) : m.trainLanes.stage = m.stage ∧ m.trainLanes.vault = m.vault ∧
    m.trainLanes.maint = m.maint ∧ m.trainLanes.ent = m.ent := by
  have h := foldl_keeps (fun m => (m.stage, m.vault, m.maint, m.ent)) (fun m l => m.trainLane l) (by
    intro m l
    unfold Module.trainLane
    split <;> rfl) [Lane.h, .e0, .e1, .w0, .w1] m
  simp only [Prod.mk.injEq] at h
  exact h

/-- An entropy unit that is not LATCHED starts its test anew (R393, R396). -/
theorem begin_state (e : Entropy) (now : Nat) : (e.begin now).state = if e.state = 3 then 3 else 0 := by
  unfold Entropy.begin
  split <;> simp_all

/-- Stage 3 at its end (R47, R52, R68, R393, R414). -/
theorem vaultStage_ends {m : Module} (hst : m.stage = .vault) (hb : m.diag.bist = none) (hh : m.halted = false) :
    m.vaultStage.stage = .reload ∧ m.vaultStage.vault.hubEpoch = nextEpoch m.vault.hubEpoch ∧
      m.vaultStage.vault.checkpoint = (if (m.slice 0).epoch = 0 then some (m.vault.checkpoint.getD 0 + 65536)
        else m.vault.checkpoint) ∧
      m.vaultStage.maint.oversample = 16 ∧ m.vaultStage.maint.divider = 26 ∧
      m.vaultStage.ent.state = (if m.ent.state = 3 then 3 else 0) := by
  have hgo : (decide (m.stage = .vault) && m.diag.bist.isNone && !m.halted) = true := by rw [hst, hb, hh]; rfl
  unfold Module.vaultStage
  rw [if_pos hgo]
  dsimp only
  generalize hx : ({ m with vault := { m.vault with
      hubEpoch := nextEpoch m.vault.hubEpoch
      checkpoint := if ((m.slice 0).epoch == 0) = true then some (m.vault.checkpoint.getD 0 + 65536)
        else m.vault.checkpoint } } : Module) = x
  obtain ⟨he, hc, hent⟩ := meterStart_keeps x ((m.slice 0).epoch == 0)
  obtain ⟨he', hc', hent'⟩ := promoteKey_keeps (x.meterStart ((m.slice 0).epoch == 0))
  generalize hy : (x.meterStart ((m.slice 0).epoch == 0)).promoteKey = y at *
  generalize hz : ({ y.loadConfig with
      clk := y.loadConfig.clk.nameRef y.loadConfig.effective.refPrimary
      ent := y.loadConfig.ent.begin y.loadConfig.now
      maint := Uart.maintReset
      drop := Uart.dropReset (if y.loadConfig.variant.hasRing = true then BitVec.ofNat 8 (posByte y.loadConfig.ownClaim)
        else 0) } : Module) = z
  have hs : ∀ b : Bool, Serves { z with
        stage := .reload, shelf := false, live := z.effective
        lamps := { z.lamps with
          genFA := z.effective.fa, genFB := z.effective.fb, genNext := Tbl.erase (Tbl.erase z.lamps.genNext 2) 3 } }
      (if b = true then z.reloadAll.entropyEvent 5 0 else z.reloadAll) := by
    intro b
    split
    · exact (serves_reloadAll z).trans (.ofTalk (talk_event _ _ _))
    · exact serves_reloadAll z
  obtain ⟨k1, k2, k3, k4⟩ := trainLanes_keeps (if (z.reloadAll.latestCause == ResetCause.hostWarm.code ||
    z.reloadAll.latestCause == ResetCause.hostCold.code) = true then z.reloadAll.entropyEvent 5 0 else z.reloadAll)
  rw [k1, k2, k3, k4, (hs _).stage, (hs _).vault, (hs _).oversample, (hs _).divider, (hs _).ent]
  subst hz
  refine ⟨rfl, ?_, ?_, rfl, rfl, ?_⟩
  · exact he'.trans (he.trans (by rw [← hx]))
  · refine hc'.trans (hc.trans ?_)
    rw [← hx]
    simp
  · refine (begin_state _ _).trans ?_
    have : y.loadConfig.ent = m.ent := hent'.trans (hent.trans (by rw [← hx]))
    rw [this]

theorem firstLamp_ring {m : Module} (hst : m.stage = .lock) (ht : steadyTracker m.clk.tracker = true)
    (hr : m.variant.hasRing = true) (hh : m.halted = false) :
    m.firstLamp = ({ m with stage := .lamps, clk := { m.clk with headerGap := 0 } }).startsDue := by
  have hgo : (decide (m.stage = .lock) && steadyTracker m.clk.tracker && !m.halted) = true := by rw [hst, ht, hh]; rfl
  have hv : ∀ x : Module, x.startsDue.variant = x.variant := fun x =>
    foldl_keeps (fun m => m.variant) (fun m n => m.setSlice n (fun h => { h with startDue := true })) (fun _ _ => rfl) _ _
  unfold Module.firstLamp
  rw [if_pos hgo]
  exact if_pos (by rw [hv]; exact hr)

theorem firstLamp_waits {m : Module}
    (h : m.stage ≠ .lock ∨ steadyTracker m.clk.tracker = false ∨ m.halted = true) : m.firstLamp = m := by
  refine if_neg ?_
  rcases h with h | h | h <;> simp [h]

/-- Without a copy that is valid, a valid configuration that is in force is kept, and is to be pushed to both sides (R59). -/
theorem settleConfig_own {m : Module} {east west : Option Escrow} (hv : m.configValid = true) (hu : m.inUse = true)
    (he : east.filter m.copyOk = none) (hw : west.filter m.copyOk = none) : m.settleConfig east west =
      ({ m with stage := .ready, shelf := false, ring := { m.ring with
        pushE := true, pushW := true, escrowE := false, escrowW := false } }).storeSize := by
  simp only [Module.settleConfig, hv, hu, he, hw, bestCopy, Module.keepOwn, Bool.or_true, if_true]
  rfl

/-- Without a valid configuration or copy the module enters the shelf state (R59, R62). -/
theorem settleConfig_shelf {m : Module} {east west : Option Escrow} (hv : m.configValid = false) (hs : m.shelf = false)
    (he : east.filter m.copyOk = none) (hw : west.filter m.copyOk = none) :
    m.settleConfig east west = m.dropOldPlace.enterShelf := by
  simp only [Module.settleConfig, hv, hs, he, hw, bestCopy, Bool.false_and, Bool.false_eq_true, if_false]

/-- Storing the ring's size leaves the stage and the shelf state. -/
theorem storeSize_keeps (m : Module) : m.storeSize.stage = m.stage ∧ m.storeSize.shelf = m.shelf := by
  unfold Module.storeSize
  split
  · split
    · dsimp only
      split <;> exact ⟨rfl, rfl⟩
    · exact ⟨rfl, rfl⟩
  · exact ⟨rfl, rfl⟩

/-- Stage 7 where the ring is numbered and this module its reference (R59). -/
theorem stage7_reference {m : Module} {east west : Option Escrow} (hr : m.ringUp = true) (hst : m.stage = .lamps)
    (hp : m.ring.position ≠ none) (hf : m.ring.form ≠ .none) (href : m.ring.isRef = true) (hh : m.halted = false) :
    m.stage7 east west = if (m.settleConfig east west).ringReady then (m.settleConfig east west).joinRing
      else m.settleConfig east west := by
  have hsome : m.ring.position.isSome = true := Option.isSome_iff_ne_none.mpr hp
  have hform : (m.ring.form != .none) = true := by simpa using hf
  simp only [Module.stage7, hr, hst, hsome, hform, href, hh, beq_self_eq_true, Bool.true_or, Bool.or_true, Bool.and_self,
    Bool.not_false, if_true]

/-- In the shelf state the module is not ready for the ring (R62). -/
theorem ringReady_enterShelf (m : Module) : m.enterShelf.ringReady = false := by
  have hs : m.enterShelf.shelf = true := by
    unfold Module.enterShelf
    dsimp only
    rw [(serves_vitalStop _).shelf, (Serves.each _ (fun ch m => serves_takeEffect m ch _) _ _).shelf,
      (Serves.each _ (fun n m => serves_setSlice m n _) _ _).shelf]
    exact (serves_takeItems _).choose_spec.shelf
  simp only [Module.ringReady, hs, Bool.not_true, Bool.and_false]

/-- Settles O19: the stages one by one, each by what its own row does. -/
theorem startStages : Obligations.StartStages := by
  unfold Obligations.StartStages
  refine ⟨?powerOn, ?boot, ?bootBack, ?vault, ?firstLamp, ?firstLampWaits, ?own, ?shelf⟩
  case powerOn =>
    intro s dt h
    have he := elapse_unpowered dt h
    refine ⟨on_next ?_, on_next ?_⟩
    · rw [he]
      exact powerOn_mains h
    · rw [he]
      exact powerOn_backup h
  case boot =>
    rintro s dt digestsOk m t rfl hst hs rfl
    refine ⟨fun h => on_next ?_, fun h => on_next ?_, rfl⟩
    · exact (boot_untried digestsOk hst hs).trans (if_pos h)
    · exact (boot_untried digestsOk hst hs).trans (if_neg (ne_true_of_eq_false h))
  case bootBack =>
    rintro s dt digestsOk m rfl hst hs hc
    obtain ⟨h1, h2, h3, h4, h5⟩ := boot_again digestsOk hst hs hc
    refine ⟨_, rfl, h1, h2, h3, h4, ?_, ?_⟩
    · exact congrArg Session.phase h5
    · exact congrArg Session.cause h5
  case vault =>
    rintro s dt m rfl hst hb hh
    obtain ⟨h1, h2, h3, h4, h5, h6⟩ := vaultStage_ends hst hb hh
    exact ⟨_, on_next rfl, h1, h2, h2 ▸ nextEpoch_ne_zero _, h3, h4, h5, h6⟩
  case firstLamp =>
    rintro s dt m rfl hst ht hr hh
    exact on_next (firstLamp_ring hst ht hr hh)
  case firstLampWaits =>
    rintro s dt m rfl h
    exact on_next (firstLamp_waits h)
  case own =>
    rintro s dt east west m rfl hr hst hp hf href hv hu hh he hw
    have hs := settleConfig_own hv hu he hw
    obtain ⟨k1, k2⟩ := storeSize_keeps { s.m.elapse dt with stage := .ready, shelf := false, ring := { (s.m.elapse dt).ring with
      pushE := true, pushW := true, escrowE := false, escrowW := false } }
    refine ⟨_, ?_, rfl, k1, k2⟩
    change execRingReady dt east west s = _
    refine on_next ?_
    rw [stage7_reference hr hst hp hf href hh, hs, if_pos (by simp only [Module.ringReady, k1, k2]; rfl)]
  case shelf =>
    rintro s dt east west m rfl hr hst hp hf href hv hs hh he hw
    change execRingReady dt east west s = _
    refine on_next ?_
    rw [stage7_reference hr hst hp hf href hh, settleConfig_shelf hv hs he hw, ringReady_enterShelf]
    rfl

end Sys2Proof.Machine
end

section
/-! PROOFS. The hub's resets and fatal errors (`Obligations.ResetsAndFatalErrors`). -/

namespace Sys2Proof.Machine
open Sys2Proof

/-! ### The hub reset (R54, R63-R66) -/

/-- A channel keeps no command and no start pattern through a hub reset (R54). -/
theorem get_chansAfterReset (m : Module) (c : Nat) : (Tbl.get Chan.reset m.chansAfterReset c).cmd = none ∧
    (Tbl.get Chan.reset m.chansAfterReset c).start = none := by
  unfold Module.chansAfterReset
  generalize List.range m.variant.channels = l
  induction l with
  | nil => exact ⟨rfl, rfl⟩
  | cons a l ih =>
    simp only [List.map_cons, Tbl.get]
    split
    · exact ⟨rfl, rfl⟩
    · exact ih

/-- After a warm reset the host's pages are the host's, and no others (R64). -/
theorem code_afterWarm {w : Window} (hw : Tbl.wf 0 w.passbook = true) (dump : Bool) (k : Nat) :
    ({ w.afterReset false dump with passbook := w.afterWarm dump } : Window).code k = 1 ↔ w.code k = 1 := by
  unfold Window.code
  by_cases hk : k < 2
  · rw [if_pos hk, if_pos hk]
  · rw [if_neg hk, if_neg hk]
    show Tbl.get 0 (w.afterWarm dump) k = 1 ↔ _
    unfold Window.afterWarm
    rw [get_filter 0 _ w.passbook 0 hw]
    constructor
    · intro h
      split at h
      · exact h
      · exact absurd h (by decide)
    · intro h
      rw [h]
      rfl

/-- The hub reset keeps what R64 keeps. -/
theorem hubReset_keeps {m : Module} (hs : Safe m) (cause : ResetCause) : HubReset m (m.hubReset cause) cause := by
  have hb : Books m (m.closeRecords id) := books_closeRecords m id (fun m => Books.refl m)
  unfold Module.hubReset
  generalize m.closeRecords id = x at hb
  dsimp only
  refine { stage := rfl, latest := rfl, tel := rfl, ring := rfl, plans := rfl, aspects := rfl, tills := rfl, attached := rfl
           first := ?_, unread := ?_, clk := hb.clk, mem := ?_, pages := ?_, prov := ?_, chans := ?_, banks := ?_
           config := hb.config, epoch := hb.hubEpoch }
  · show (if x.firstCause = 0 then _ else _) = _
    rw [hb.firstCause]
  · show (if x.unread < 255 then _ else _) = _
    rw [hb.unread]
  · intro a
    by_cases hc : cause = .hostCold
    · subst hc
      rfl
    · have he : (cause == .hostCold) = false := by simpa using hc
      simp only [he, Window.afterReset, Bool.false_eq_true, if_false, if_neg hc, hb.mem]
  · intro k
    by_cases hc : cause = .hostCold
    · subst hc
      have h0 : (({ x.win.afterReset true false with passbook := [] } : Window).code k) = 0 := by
        unfold Window.code
        split <;> rfl
      constructor
      · intro h
        exact absurd (h0.symm.trans h) (by decide)
      · rintro ⟨-, h⟩
        exact absurd rfl h
    · have he : (cause == .hostCold) = false := by simpa using hc
      have hx : Tbl.wf 0 x.win.passbook = true := by rw [hb.passbook]; exact hs.2.1
      have hcode : x.win.code k = m.win.code k := by unfold Window.code; rw [hb.passbook]
      simp only [he]
      rw [← hcode]
      exact (code_afterWarm hx _ k).trans ⟨fun h => ⟨h, hc⟩, fun h => h.1⟩
  · show ({ Proving.reset with
        coreFb := true, lastToggle := if x.prov.toggling then x.now else x.prov.lastToggle } : Proving) = _
    rw [Module.now, hb.prov, hb.clk]
  · intro c
    exact get_chansAfterReset x c
  · rw [hb.upd]
    exact ⟨rfl, rfl, rfl⟩

/-- The hub reset ends what was due (R64). -/
theorem hubReset_resetDue (m : Module) (cause : ResetCause) : (m.hubReset cause).resetDue = none := rfl

/-- The dump that the hub reset leaves held (R64). -/
theorem hubReset_dump (m : Module) (cause : ResetCause) :
    (m.hubReset cause).diag.dump = if cause = .hostCold then none else m.diag.dump := by
  have hb : Books m (m.closeRecords id) := books_closeRecords m id (fun m => Books.refl m)
  show (if ((m.closeRecords id).diag.dump.isSome && !(cause == .hostCold)) = true then
    (m.closeRecords id).diag.dump else none) = _
  rw [hb.diag]
  by_cases hc : cause = .hostCold
  · subst hc
    cases m.diag.dump <;> rfl
  · have he : (cause == .hostCold) = false := by simpa using hc
    rw [he, if_neg hc]
    cases m.diag.dump <;> rfl

theorem poke_diag (m : Module) (a : Nat) (b : List Byte) : (m.poke a b).diag = m.diag := rfl

theorem finishDump_idle {m : Module} (h : m.diag.writing = none) : m.finishDump = m := by
  simp only [Module.finishDump, h]

theorem finishDump_writes {m : Module} {r : DumpRec} (h : m.diag.writing = some r) : m.finishDump =
    { m.poke (4096 * dumpFirst) (dumpHeader r) with diag := { m.diag with dump := some r.seq, writing := none } } := by
  have hd := poke_diag m (4096 * dumpFirst) (dumpHeader r)
  unfold Module.finishDump
  generalize m.poke (4096 * dumpFirst) = x at *
  rw [h, ← hd]

/-- What a write into the window leaves canonical. -/
theorem safe_poke {m : Module} (hs : Safe m) (a : Nat) (b : List Byte) : Safe (m.poke a b) :=
  ⟨Memory.wf_writes hs.1 a b, hs.2.1, hs.2.2⟩

theorem safe_withDiag {m : Module} (hs : Safe m) (d : Diag) : Safe { m with diag := d } := hs

/-- The window's bytes after a write into it. -/
theorem read_poke {m : Module} (hs : Safe m) (a : Nat) (b : List Byte) (i : Nat) : Memory.read (m.poke a b).win.mem i =
    if a ≤ i ∧ i < a + b.length then b.getD (i - a) 0 else Memory.read m.win.mem i := Memory.read_writes hs.1 a i b

/-- A dump that is completed leaves the self-test. -/
theorem finishDump_bist (m : Module) : m.finishDump.diag.bist = m.diag.bist := by
  cases h : m.diag.writing with
  | none => rw [finishDump_idle h]
  | some r => rw [finishDump_writes h]

theorem warmReset_due {m : Module} {cause : ResetCause} (hd : m.resetDue = some cause) (hr : m.resetReady cause = true)
    (hf : m.fullDdr = false) : m.warmReset cause = m.finishDump.hubReset cause := by
  have hgo : (decide (m.resetDue = some cause) && m.resetReady cause) = true := by rw [hd, hr]; simp
  have hf' : m.finishDump.fullDdr = false := by
    unfold Module.fullDdr
    rw [finishDump_bist]
    exact hf
  unfold Module.warmReset
  rw [if_pos hgo]
  dsimp only
  rw [hf', if_neg (by simp)]

theorem warmReset_waits {m : Module} {cause : ResetCause} (h : m.resetDue ≠ some cause ∨ m.resetReady cause = false) :
    m.warmReset cause = m := by
  refine if_neg ?_
  rcases h with h | h <;> simp [h]

/-! ### Fatal errors (R20, R21, R315, R443-R449) -/

/-- A core in lockstep or fatal error: the module fallback is in force, and VITAL-OK is open (R20, R225). -/
theorem vitalStop_halted {m : Module} (h : m.prov.lockstep = true ∨ m.prov.fatal = true ∨ m.prov.stall = true) :
    m.vitalStop.prov.toggling = false ∧ m.vitalStop.moduleFallback = true ∧
      m.vitalStop.prov.lockstep = m.prov.lockstep ∧ m.vitalStop.prov.stall = m.prov.stall := by
  have hc : m.vitalCause ≠ 0 := by
    unfold Module.vitalCause
    rcases h with h | h | h <;> simp only [h, if_true] <;> (try split_ifs) <;> simp
  have hkeep : m.vitalStop.prov.lockstep = m.prov.lockstep ∧ m.vitalStop.prov.fatal = m.prov.fatal ∧
      m.vitalStop.prov.stall = m.prov.stall := by
    rw [vitalStop_prov]
    split <;> exact ⟨rfl, rfl, rfl⟩
  obtain ⟨h1, h2, h3⟩ := hkeep
  refine ⟨(vitalStop_open hc).1, ?_, h1, h3⟩
  unfold Module.moduleFallback
  rw [h1, h2, h3]
  rcases h with h | h | h <;> simp [h]

/-- Ending the unit under test leaves the module but for its page and itself. -/
theorem endUnit_keeps (m : Module) : m.endUnit.diag = { m.diag with unit := none } ∧ m.endUnit.prov = m.prov ∧
    m.endUnit.stage = m.stage ∧ m.endUnit.win.mem = m.win.mem ∧ m.endUnit.moduleFallback = m.moduleFallback := by
  unfold Module.endUnit
  split
  · refine ⟨rfl, rfl, rfl, ?_, rfl⟩
    dsimp only
    split
    · unfold Window.setCode
      split <;> rfl
    · rfl
  · rename_i h
    refine ⟨?_, rfl, rfl, rfl, rfl⟩
    cases hd : m.diag with
    | mk => rw [hd] at h; subst h; rfl

/-- Where the unit under test is no dump page, ending it leaves the dump's pages the module's. -/
theorem endUnit_code {m : Module} (hw : Tbl.wf 0 m.win.passbook = true) {k : Nat} (hk : m.win.code k = 2) :
    m.endUnit.win.code k = 2 := by
  unfold Module.endUnit
  split
  · dsimp only
    split
    · rename_i j _ _
      unfold Window.setCode
      split
      · exact hk
      · unfold Window.code at hk ⊢
        dsimp only
        rw [Tbl.get_set hw]
        by_cases hj : k = j
        · rw [if_pos hj]
          split
          · rename_i h2
            rw [if_pos h2] at hk
            exact hk
          · rfl
        · rw [if_neg hj]
          exact hk
    · exact hk
  · exact hk

/-- A fault in a hub that is not halted: fallback and VITAL-OK, then what is written, then the reset that is due (R20, R444). -/
theorem faulted_writes {m : Module} (hh : m.halted = false) (f : Proving → Proving) (code : Nat) (detail : Word32)
    (cause : ResetCause) : m.faulted f (some (code, detail)) cause =
      { (({ m with prov := f m.prov }).vitalStop.writeFault code detail).endUnit with resetDue := some cause } := by
  unfold Module.faulted
  rw [hh]
  rfl

theorem faulted_silently {m : Module} (hh : m.halted = false) (f : Proving → Proving) (cause : ResetCause) :
    m.faulted f none cause =
      { ({ m with prov := f m.prov }).vitalStop.endUnit with resetDue := some cause } := by
  unfold Module.faulted
  rw [hh]
  rfl

theorem faulted_again {m : Module} (hh : m.halted = true) (f : Proving → Proving) (dump : Option (Nat × Word32))
    (cause : ResetCause) : m.faulted f dump cause = { m with diag := { m.diag with writing := none } } := by
  unfold Module.faulted
  rw [if_pos hh]

/-- The record that a fault of code `code` with `detail` makes of the module `m` (R446, R448). -/
structure RecordOf (m : Module) (code : Nat) (detail : Word32) (r : DumpRec) : Prop where
  seq : r.seq = m.diag.seq + 1
  cause : r.cause = BitVec.ofNat 8 code
  detail : r.detail = detail
  cycle : r.cycle = m.clk.cycle
  angle : r.angle = m.clk.angle
  tick : r.tick = m.clk.tick
  hubEpoch : r.hubEpoch = m.vault.hubEpoch
  fw : r.fw = m.upd.fwVersion
  variant : r.variant = m.variant.code

theorem recordOf_faultRec (m : Module) (code : Nat) (detail : Word32) (sections bytes : Nat) (flags : Byte)
    (log : List Byte) : RecordOf m code detail (m.faultRec code detail sections bytes flags log) :=
  ⟨rfl, rfl, rfl, rfl, rfl, rfl, rfl, rfl, rfl⟩

/-- What a dump's writing claims and begins (R105, R444). -/
theorem writeDump_keeps (m : Module) (r : DumpRec) (secs : List (Nat × Bool × List Byte)) :
    ∃ mem ecc, m.writeDump r secs = { m with
      win := { m.win with
        mem := mem, eccWords := ecc
        passbook := Tbl.setRange (0 : BitVec 2) m.win.passbook dumpFirst (List.replicate 256 2) }
      diag := { m.diag with writing := some r } } := by
  unfold Module.writeDump Module.poke
  exact ⟨_, _, rfl⟩

/-- The dump's pages are the module's once it is being written (R105). -/
theorem code_dumpPages {w : Window} {p : Tbl (BitVec 2)} (hw : Tbl.wf 0 p = true)
    (hp : w.passbook = Tbl.setRange (0 : BitVec 2) p dumpFirst (List.replicate 256 2)) {k : Nat} (h1 : 16128 ≤ k)
    (h2 : k < 16384) : w.code k = 2 := by
  unfold Window.code
  rw [if_neg (by omega), hp]
  unfold dumpFirst
  rw [Tbl.get_setRange hw, if_pos ⟨h1, by rw [List.length_replicate]; omega⟩,
    List.getD_eq_getElem?_getD, List.getElem?_replicate, if_pos (by omega)]
  rfl

/-- Where no dump is held, a fault writes summary and dump up to its header (R444, R449). -/
theorem writeFault_first {m : Module} (code : Nat) (detail : Word32) (hd : m.diag.dump = none) :
    ∃ (r : DumpRec) (mem : List Host.Cell) (ecc : Tbl Bool), RecordOf m code detail r ∧ m.writeFault code detail = { m with
      win := { m.win with
        mem := mem, eccWords := ecc
        passbook := Tbl.setRange (0 : BitVec 2) m.win.passbook dumpFirst (List.replicate 256 2) }
      diag := { m.diag with
        seq := r.seq, faults := satInc m.diag.faults, last := some r, first := some r, writing := some r }
      free := m.free + 5 } := by
  have hn : m.diag.dump.isNone = true := by rw [hd]; rfl
  unfold Module.writeFault
  dsimp only
  rw [hn, if_pos rfl, if_pos rfl]
  generalize hr : m.faultRec code detail 7 _ _ _ = r
  obtain ⟨mem, ecc, h⟩ := writeDump_keeps { m with diag := m.diag.note r true } r m.dumpSections
  refine ⟨r, mem, ecc, hr ▸ recordOf_faultRec m code detail _ _ _ _, ?_⟩
  rw [h]
  rfl

/-- Where a dump is held, a fault writes the summary only (R445, R449). -/
theorem writeFault_held {m : Module} (code : Nat) (detail : Word32) {d : Word32} (hd : m.diag.dump = some d) :
    ∃ r : DumpRec, RecordOf m code detail r ∧ m.writeFault code detail = { m with
      diag := { m.diag with
        seq := r.seq, faults := satInc m.diag.faults, last := some r
        first := match m.diag.first with | some f => some f | none => some r }
      free := m.free + 5 } := by
  have hn : m.diag.dump.isNone = false := by rw [hd]; rfl
  unfold Module.writeFault
  dsimp only
  rw [hn, if_neg (by simp), if_neg (by simp)]
  generalize hr : m.faultRec code detail _ _ _ _ = r
  exact ⟨r, hr ▸ recordOf_faultRec m code detail _ _ _ _, rfl⟩

/-- Where writing a fault and ending the unit under test have brought the module from `x`. -/
structure FaultWritten (x t : Module) (code : Nat) (detail : Word32) (r : DumpRec) : Prop where
  record : RecordOf x code detail r
  prov : t.prov = x.prov
  stage : t.stage = x.stage
  fallback : t.moduleFallback = x.moduleFallback
  last : t.diag.last = some r
  seq : t.diag.seq = x.diag.seq + 1
  dumpBegun : x.diag.dump = none → t.diag.writing = some r ∧ t.diag.first = some r ∧
    ∀ k, 16128 ≤ k → k < 16384 → t.win.code k = 2
  summaryOnly : ∀ d, x.diag.dump = some d → t.diag.dump = some d ∧
    t.diag.first = (match x.diag.first with | some f => some f | none => some r) ∧ t.win.mem = x.win.mem

theorem writeFault_endUnit {x : Module} (hs : Safe x) (code : Nat) (detail : Word32) :
    ∃ r, FaultWritten x (x.writeFault code detail).endUnit code detail r := by
  obtain ⟨e1, e2, e3, e4, e5⟩ := endUnit_keeps (x.writeFault code detail)
  cases hd : x.diag.dump with
  | none =>
    obtain ⟨r, mem, ecc, hr, h⟩ := writeFault_first code detail hd
    have hcode : ∀ k, 16128 ≤ k → k < 16384 → (x.writeFault code detail).endUnit.win.code k = 2 := by
      intro k h1 h2
      have hp : (x.writeFault code detail).win.passbook =
          Tbl.setRange (0 : BitVec 2) x.win.passbook dumpFirst (List.replicate 256 2) := by rw [h]
      exact endUnit_code (hp ▸ Tbl.wf_setRange hs.2.1 _ _) (code_dumpPages hs.2.1 hp h1 h2)
    rw [h] at e1 e2 e3 e5 hcode ⊢
    refine ⟨r, hr, e2, e3, e5, ?_, ?_, fun _ => ⟨?_, ?_, hcode⟩,
      fun d hd' => by rw [hd] at hd'; cases hd'⟩
    all_goals rw [e1]
    exact hr.seq
  | some d =>
    obtain ⟨r, hr, h⟩ := writeFault_held code detail hd
    rw [h] at e1 e2 e3 e4 e5 ⊢
    refine ⟨r, hr, e2, e3, e5, ?_, ?_, (fun h0 => by rw [hd] at h0; cases h0), fun d' hd' => ⟨?_, ?_, e4⟩⟩
    all_goals rw [e1]
    · exact hr.seq
    · exact hd'

/-- A fault that writes: in the tick of its decision the module fallback and VITAL-OK, and its record (R20, R225, R444). -/
theorem faulted_written {m : Module} (hs : Safe m) (hh : m.halted = false) (f : Proving → Proving) (code : Nat)
    (detail : Word32) (cause : ResetCause) (hf : (f m.prov).lockstep = true ∨ (f m.prov).fatal = true) :
    ∃ r, FaultWritten ({ m with prov := f m.prov } : Module).vitalStop (m.faulted f (some (code, detail)) cause) code detail r ∧
      (m.faulted f (some (code, detail)) cause).resetDue = some cause ∧
      (m.faulted f (some (code, detail)) cause).prov.toggling = false ∧
      (m.faulted f (some (code, detail)) cause).moduleFallback = true := by
  obtain ⟨h1, h2, -, -⟩ := vitalStop_halted (m := { m with prov := f m.prov }) (hf.imp id .inl)
  have hs' : Safe ({ m with prov := f m.prov } : Module).vitalStop := (drives_vitalStop _).safe hs
  obtain ⟨r, hw⟩ := writeFault_endUnit hs' code detail
  have hfb : ∀ (t : Module) c, ({ t with resetDue := c } : Module).moduleFallback = t.moduleFallback := fun _ _ => rfl
  rw [faulted_writes hh]
  exact ⟨r, ⟨hw.record, hw.prov, hw.stage, hw.fallback, hw.last, hw.seq, hw.dumpBegun, hw.summaryOnly⟩, rfl,
    (congrArg Proving.toggling hw.prov).trans h1, (hfb _ _).trans (hw.fallback.trans h2)⟩

theorem vitalStop_diag (m : Module) : m.vitalStop.diag = m.diag := by
  rw [(talk_vitalStop m).diag]
  split <;> rfl

/-- What a fault that resets the hub has done by the end of its tick, whatever was measured with it (R20, R225, R443-R449). -/
theorem fault_outcome {m : Module} (hs : Safe m) (hh : m.halted = false) (pow : Power) (f : Proving → Proving) (code : Nat)
    (detail : Word32) (cause : ResetCause) (hf : (f m.prov).lockstep = true ∨ (f m.prov).fatal = true) :
    ∃ r : DumpRec, let t := ({ m with pow := pow } : Module).faulted f (some (code, detail)) cause
      t.stage = m.stage ∧ t.resetDue = some cause ∧
       t.prov.toggling = false ∧ t.moduleFallback = true ∧ t.diag.last = some r ∧ t.diag.seq = m.diag.seq + 1 ∧
       r.seq = m.diag.seq + 1 ∧ r.cause = BitVec.ofNat 8 code ∧ r.detail = detail ∧ r.cycle = m.clk.cycle ∧
       r.angle = m.clk.angle ∧ r.tick = m.clk.tick ∧ r.hubEpoch = m.vault.hubEpoch ∧ r.fw = m.upd.fwVersion ∧
       r.variant = m.variant.code ∧
       (m.diag.dump = none → t.diag.writing = some r ∧ t.diag.first = some r ∧
         ∀ k, 16128 ≤ k → k < 16384 → t.win.code k = 2) ∧
       (∀ d, m.diag.dump = some d → t.diag.dump = some d ∧
         t.diag.first = (match m.diag.first with | some f => some f | none => some r) ∧
         ∀ a, Memory.read t.win.mem a = Memory.read m.win.mem a) := by
  obtain ⟨r, hw, hdue, htog, hfb⟩ := faulted_written (m := { m with pow := pow }) hs hh f code detail cause hf
  have hd := drives_vitalStop { m with pow := pow, prov := f m.prov }
  have hdiag := vitalStop_diag { m with pow := pow, prov := f m.prov }
  generalize ({ m with pow := pow, prov := f m.prov } : Module).vitalStop = x at hw hd hdiag
  refine ⟨r, hw.stage.trans hd.stage, hdue, htog, hfb, hw.last, hw.seq.trans (by rw [hdiag]),
    hw.record.seq.trans (by rw [hdiag]), hw.record.cause, hw.record.detail, hw.record.cycle.trans (by rw [hd.clk]),
    hw.record.angle.trans (by rw [hd.clk]), hw.record.tick.trans (by rw [hd.clk]), hw.record.hubEpoch.trans (by rw [hd.vault]),
    hw.record.fw.trans (by rw [hd.upd]), hw.record.variant.trans (by rw [hd.variant]), ?_, ?_⟩
  · intro h
    exact hw.dumpBegun (by rw [hdiag]; exact h)
  · intro d h
    obtain ⟨k1, k2, k3⟩ := hw.summaryOnly d (by rw [hdiag]; exact h)
    refine ⟨k1, ?_, fun a => ?_⟩
    · rw [k2, hdiag]
    · rw [k3, hd.mem]

/-- Settles O20: the resets by what a hub reset keeps, the faults by what each writes before its reset is due. -/
theorem resetsAndFatalErrors : Obligations.ResetsAndFatalErrors := by
  unfold Obligations.ResetsAndFatalErrors
  refine ⟨⟨?warm, ?warmDump, ?waits, ?watchdog, ?heartbeat, ?noStall, ?keeper, ?stall⟩, ?fatal, ?again, ?cool⟩
  case warm =>
    rintro s dt cause m rfl hs hd hr hf hw
    refine ⟨_, on_next (warmReset_due hd hr hf), ?_, hubReset_resetDue _ _⟩
    rw [finishDump_idle hw]
    exact hubReset_keeps hs cause
  case warmDump =>
    rintro s dt cause m r rfl hs hd hr hf hw
    have hk := hubReset_keeps (safe_withDiag (safe_poke hs (4096 * dumpFirst) (dumpHeader r))
      { (s.m.elapse dt).diag with dump := some r.seq, writing := none }) cause
    have hw' := finishDump_writes hw
    refine ⟨_, on_next ((warmReset_due hd hr hf).trans (by rw [hw'])), hk.stage, hubReset_resetDue _ _, ?_, ?_⟩
    · exact hubReset_dump _ _
    · intro a
      rw [hk.mem]
      have hread := read_poke hs (4096 * dumpFirst) (dumpHeader r) a
      unfold dumpFirst at hread ⊢
      rw [hread]
  case waits =>
    rintro s dt cause m rfl h
    exact on_next (warmReset_waits h)
  case watchdog =>
    rintro s dt m rfl hs hup
    exact ⟨_, on_next (if_pos hup), hubReset_keeps hs _⟩
  case heartbeat =>
    rintro s dt m rfl hs hup hst
    exact ⟨_, on_next (if_pos (by rw [hup, hst]; rfl)), hubReset_keeps hs _⟩
  case noStall =>
    rintro s dt m rfl hup hst
    exact on_next (if_neg (by rw [hup, hst]; decide))
  case keeper =>
    rintro s dt m rfl hup hh
    obtain ⟨h1, h2, h3, -⟩ := vitalStop_halted
      (m := { s.m.elapse dt with prov := { (s.m.elapse dt).prov with lockstep := true } }) (.inl rfl)
    have hd := serves_vitalStop { s.m.elapse dt with prov := { (s.m.elapse dt).prov with lockstep := true } }
    obtain ⟨k1, k2, k3, -, k5⟩ := endUnit_keeps
      ({ s.m.elapse dt with prov := { (s.m.elapse dt).prov with lockstep := true } } : Module).vitalStop
    refine ⟨_, on_next ((if_pos hup).trans (faulted_silently hh _ _)), rfl, ?_, ?_, ?_, ?_, ?_⟩
    · exact (congrArg Proving.lockstep k2).trans h3
    · exact (congrArg Proving.toggling k2).trans h1
    · exact k5.trans h2
    · exact k3.trans hd.stage
    · refine k1.trans ?_
      rw [(talk_vitalStop _).diag]
      split <;> rfl
  case stall =>
    rintro s dt m rfl hup
    obtain ⟨h1, h2, -, h3⟩ := vitalStop_halted
      (m := { s.m.elapse dt with prov := { (s.m.elapse dt).prov with stall := true } }) (.inr (.inr rfl))
    exact ⟨_, on_next (if_pos hup), h3, h1, h2, (serves_vitalStop _).stage⟩
  case fatal =>
    rintro s dt c code detail cause m rfl hs hup hh h
    rcases h with ⟨rfl, rfl, rfl, rfl⟩ | ⟨rfl, rfl, rfl, rfl⟩ | ⟨rfl, rfl, rfl⟩ | ⟨temp, rfl, ht, rfl, rfl, rfl⟩
    · obtain ⟨r, h⟩ := fault_outcome hs hh (s.m.elapse dt).pow (fun p => { p with lockstep := true }) 2 0 .lockstepTeller
        (.inl rfl)
      exact ⟨_, r, on_next (if_pos hup), h⟩
    · obtain ⟨r, h⟩ := fault_outcome hs hh (s.m.elapse dt).pow (fun p => { p with fatal := true }) 4 0 .fatal (.inr rfl)
      exact ⟨_, r, on_next (if_pos hup), h⟩
    · obtain ⟨r, h⟩ := fault_outcome hs hh (s.m.elapse dt).pow (fun p => { p with fatal := true }) 1 detail .fatal
        (.inr rfl)
      exact ⟨_, r, on_next (if_pos hup), h⟩
    · obtain ⟨r, h⟩ := fault_outcome hs hh { (s.m.elapse dt).pow with hubTemp := temp } (fun p => { p with fatal := true }) 3
        (BitVec.ofInt 32 temp) .fatal (.inr rfl)
      exact ⟨_, r, on_next ((if_pos hup).trans (if_pos ht)), h⟩
  case again =>
    rintro s dt m rfl hup hh
    exact ⟨on_next ((if_pos hup).trans (faulted_again hh _ _ _)), on_next ((if_pos hup).trans (faulted_again hh _ _ _)),
      on_next ((if_pos hup).trans (faulted_again hh _ _ _))⟩
  case cool =>
    rintro s dt temp m rfl hup ht
    exact on_next ((if_pos hup).trans (if_neg (Int.not_le.mpr ht)))

end Sys2Proof.Machine
end

section
/-! PROOFS. The loads of the slices (`Obligations.SliceLoads`). -/

namespace Sys2Proof.Machine
open Sys2Proof

/-- A row of a slice that the variant has, by what its effect comes to. -/
theorem onSlice_to {s : State} {dt n : Nat} {f : Module → Module} {t : Module}
    (hn : n < (s.m.elapse dt).variant.slices) (h : f (s.m.elapse dt) = t) :
    s.onSlice dt n f = .next { s with m := t } := by
  rw [onSlice_next hn, h]

theorem wf_setSlice {m : Module} (hw : Tbl.wf HubSlice.reset m.hub = true) (n : Nat) (f : HubSlice → HubSlice) :
    Tbl.wf HubSlice.reset (m.setSlice n f).hub = true := Tbl.wf_modify hw n f

theorem wf_setOwn {m : Module} (hw : Tbl.wf (OwnSlice.reset 1) m.own = true) (n : Nat) (f : OwnSlice → OwnSlice) :
    Tbl.wf (OwnSlice.reset 1) (m.setOwn n f).own = true := Tbl.wf_modify hw n f

/-! ### Frames sent to a slice (R230, R232) -/

/-- Starting frames changes no content. -/
theorem startFrames_msgs (now : Nat) : ∀ (l : List Unacked) (active : Nat),
    (startFrames now active l).map (fun u => u.msg) = l.map (fun u => u.msg)
  | [], _ => rfl
  | u :: us, active => by
    simp only [startFrames]
    split
    · split <;> simp [startFrames_msgs now us]
    · simp [startFrames_msgs now us]

/-- From `m` to `t` the frames `msgs` go to slice `n`, in their order, and nothing else happens. -/
structure Sends (n : Nat) (m t : Module) (msgs : List HubMsg) : Prop where
  same : t = { m with hub := t.hub, out := t.out }
  wf : Tbl.wf HubSlice.reset m.hub = true → Tbl.wf HubSlice.reset t.hub = true
  slice : Tbl.wf HubSlice.reset m.hub = true →
    ∃ q l, t.slice n = { m.slice n with seq := q, unacked := l } ∧
      l.map (fun u => u.msg) = (m.slice n).unacked.map (fun u => u.msg) ++ msgs
  others : Tbl.wf HubSlice.reset m.hub = true → ∀ k, k ≠ n → t.slice k = m.slice k

namespace Sends
variable {n : Nat} {m t u : Module} {l l' : List HubMsg}

theorem refl (n : Nat) (m : Module) : Sends n m m [] :=
  ⟨rfl, id, fun _ => ⟨(m.slice n).seq, (m.slice n).unacked, rfl, (List.append_nil _).symm⟩, fun _ _ _ => rfl⟩

theorem trans (h : Sends n m t l) (h' : Sends n t u l') : Sends n m u (l ++ l') where
  same := by rw [h'.same, h.same]
  wf hw := h'.wf (h.wf hw)
  slice hw := by
    obtain ⟨q, r, e1, e2⟩ := h.slice hw
    obtain ⟨q', r', e1', e2'⟩ := h'.slice (h.wf hw)
    refine ⟨q', r', ?_, ?_⟩
    · rw [e1', e1]
    · rw [e2', e1, e2, List.append_assoc]
  others hw k hk := (h'.others (h.wf hw) k hk).trans (h.others hw k hk)

theorem foldl {α : Type} (g : α → HubMsg) (f : Module → α → Module) (h : ∀ m a, Sends n m (f m a) [g a]) :
    ∀ (as : List α) (m : Module), Sends n m (as.foldl f m) (as.map g)
  | [], m => refl n m
  | a :: as, m => (h m a).trans (foldl g f h as _)

end Sends

theorem sends_putFrame (n : Nat) (m : Module) (u : Unacked) : Sends n m (m.putFrame n u) [] :=
  ⟨rfl, id, fun _ => ⟨(m.slice n).seq, (m.slice n).unacked, rfl, (List.append_nil _).symm⟩, fun _ _ _ => rfl⟩

theorem sends_putFrames (n : Nat) (p : Unacked × Unacked → Bool) : ∀ (l : List (Unacked × Unacked)) (m : Module),
    Sends n m (l.foldl (fun m e => if p e then m.putFrame n e.2 else m) m) []
  | [], m => Sends.refl n m
  | e :: l, m => by
    refine Sends.trans (l := []) ?_ (sends_putFrames n p l _)
    dsimp only
    split
    · exact sends_putFrame n m e.2
    · exact Sends.refl n m

/-- A frame for a slice joins those that are on their way (R232). -/
theorem sends_sendSlice (n : Nat) (m : Module) (msg : HubMsg) (serves : Option (Word16 × Packet)) :
    Sends n m (m.sendSlice n msg serves) [msg] := by
  unfold Module.sendSlice Module.setFrames
  dsimp only
  generalize hl : startFrames _ 0 _ = l
  refine Sends.trans (l := [msg]) (t := (m.setSlice n (fun h => { h with seq := (m.slice n).seq + 1 })).setSlice n
    (fun h => { h with unacked := l })) ⟨rfl, ?_, ?_, ?_⟩ (sends_putFrames n _ _ _)
  · intro hw
    exact wf_setSlice (wf_setSlice hw _ _) _ _
  · intro hw
    have hw' := wf_setSlice hw n (fun h => { h with seq := (m.slice n).seq + 1 })
    refine ⟨(m.slice n).seq + 1, l, ?_, ?_⟩
    · rw [slice_setSlice hw', if_pos rfl, slice_setSlice hw, if_pos rfl]
    · rw [← hl, startFrames_msgs, slice_setSlice hw, if_pos rfl]
      simp
  · intro hw k hk
    have hw' := wf_setSlice hw n (fun h => { h with seq := (m.slice n).seq + 1 })
    rw [slice_setSlice hw', if_neg hk, slice_setSlice hw, if_neg hk]

/-! ### Loads (R56, R58, R231, R244) -/

/-- Stage 4 does not end while a slice is neither loaded nor held failed (R47, R58). -/
theorem reloadEnds_waits {m : Module} {n : Nat} (hn : n < m.variant.slices) (hl : (m.slice n).loaded = false)
    (hf : (m.slice n).failed = false) : m.reloadEnds = m := by
  refine if_neg ?_
  rw [Bool.and_eq_true, List.all_eq_true]
  rintro ⟨-, h⟩
  have := h n (List.mem_range.mpr hn)
  rw [hl, hf] at this
  exact absurd this (by decide)

theorem loadEnds_open {m : Module} {n : Nat} (hup : m.coresUp = true)
    (hl : (m.slice n).loaded = false) (hf : (m.slice n).failed = false) (ha : (m.slice n).awaitHello = none) :
    (!m.coresUp || (m.slice n).loaded || (m.slice n).failed || (m.slice n).awaitHello.isSome) = false := by
  rw [hup, hl, hf, ha]
  rfl

theorem hub_loadItems (m : Module) (n : Nat) : (m.loadItems n).hub = m.hub := rfl
theorem slice_loadItems (m : Module) (n k : Nat) : (m.loadItems n).slice k = m.slice k := rfl

theorem Sends.live {n : Nat} {m t : Module} {l : List HubMsg} (h : Sends n m t l) : t.live = m.live := by rw [h.same]

/-- A start pattern is read from the items in force and the bus of its channel. -/
theorem startShown_congr {m t : Module} (he : t.effective = m.effective)
    (hb : ∀ k, (t.slice k).bus = (m.slice k).bus) : t.startShown = m.startShown := by
  funext ch
  simp only [Module.startShown, Module.autoMode, Module.busOf, he, hb]

theorem Sends.startShown {n : Nat} {m t : Module} {l : List HubMsg} (h : Sends n m t l)
    (hw : Tbl.wf HubSlice.reset m.hub = true) : t.startShown = m.startShown := by
  refine startShown_congr (by rw [h.same]; rfl) (fun k => ?_)
  by_cases hk : k = n
  · obtain ⟨q, r, e, -⟩ := h.slice hw
    rw [hk, e]
  · rw [h.others hw k hk]

/-- The learned swatches of a slice's positions go out as blocks, one for each (R56). -/
theorem sends_swatches (n : Nat) : ∀ (l : List Nat) (m : Module),
    Sends n m (l.foldl (fun m ch => m.sendSlice n (.load false (.swatch (ch % 16) (m.swatchFor ch).1)) none) m)
      (l.map (fun ch => .load false (.swatch (ch % 16) (Tbl.get Swatch.none m.live.swatch ch))))
  | [], m => Sends.refl n m
  | ch :: l, m => by
    have h := sends_sendSlice n m (.load false (.swatch (ch % 16) (m.swatchFor ch).1)) none
    have ht := sends_swatches n l (m.sendSlice n (.load false (.swatch (ch % 16) (m.swatchFor ch).1)) none)
    rw [h.live] at ht
    exact h.trans ht

/-- The paths as the hub has measured them go out with the blocks after them (R56, R231). -/
theorem loadMeasured_sends {m : Module} {n : Nat} {sums : List Int} (hw : Tbl.wf HubSlice.reset m.hub = true)
    (hok : (loadTable sums).all CalPath_ok = true) :
    Sends n ((m.setSlice n (fun h => { h with cal := loadTable sums, calNext := none, loadStep := 2 })).loadItems n)
      (m.loadMeasured n sums)
      (.load false (.calibration (loadTable sums) (m.slice n).delay) ::
        (sliceChans n).map (fun ch => .load false (.swatch (ch % 16) (Tbl.get Swatch.none m.live.swatch ch))) ++
        [.load false (.fallback ((sliceChans n).map (fun ch => Tbl.get .off m.live.fallback ch))),
          .load false (.startPattern ((sliceChans n).map m.startShown))]) := by
  unfold Module.loadMeasured
  dsimp only
  rw [if_pos hok]
  have hd : (((m.setSlice n (fun h => { h with cal := loadTable sums, calNext := none, loadStep := 2 })).loadItems
      n).slice n).delay = (m.slice n).delay := by
    rw [slice_loadItems, slice_setSlice hw, if_pos rfl]
  rw [hd]
  generalize hx : (m.setSlice n (fun h => { h with cal := loadTable sums, calNext := none, loadStep := 2 })).loadItems n = x
  have h1 := sends_sendSlice n x (.load false (.calibration (loadTable sums) (m.slice n).delay)) none
  have hl : x.live.swatch = m.live.swatch ∧ x.live.fallback = m.live.fallback ∧ x.startShown = m.startShown := by
    refine ⟨by rw [← hx]; rfl, by rw [← hx]; rfl, startShown_congr (by rw [← hx]; rfl) (fun k => ?_)⟩
    rw [← hx, slice_loadItems, slice_setSlice hw]
    split
    · rename_i hk
      rw [hk]
    · rfl
  have hwx : Tbl.wf HubSlice.reset x.hub = true := by
    rw [← hx, hub_loadItems]
    exact wf_setSlice hw _ _
  generalize x.sendSlice n (.load false (.calibration (loadTable sums) (m.slice n).delay)) none = y at h1 ⊢
  have h2 := h1.trans (sends_swatches n (sliceChans n) y)
  generalize (sliceChans n).foldl _ y = z at h2 ⊢
  have h3 := h2.trans (sends_sendSlice n z (.load false (.fallback ((sliceChans n).map
    (fun ch => Tbl.get .off z.live.fallback ch)))) none)
  generalize z.sendSlice n (.load false (.fallback ((sliceChans n).map (fun ch => Tbl.get .off z.live.fallback ch)))) none = v
    at h3 ⊢
  have h4 := h3.trans (sends_sendSlice n v (.load false (.startPattern ((sliceChans n).map v.startShown))) none)
  obtain ⟨hl1, hl2, hl3⟩ := hl
  rw [h3.startShown hwx, h2.live, h1.live, hl1, hl2, hl3] at h4
  rw [h3.startShown hwx, hl3]
  rw [List.append_assoc, List.append_assoc] at h4
  exact h4

/-- Every block is acknowledged: what the hub and the slice then hold, and nothing of another slice (R56). -/
theorem loadDone_leaves {m : Module} {n : Nat} (hw : Tbl.wf HubSlice.reset m.hub = true)
    (ho : Tbl.wf (OwnSlice.reset 1) m.own = true) :
    let t := m.loadDone n
    (t.slice n).loaded = true ∧
       (t.slice n).attempts = 0 ∧ (t.slice n).cal = (m.slice n).cal ∧ (t.ownOf n).epoch = (m.slice n).epoch ∧
       (t.ownOf n).cal = (m.slice n).cal ∧ (t.ownOf n).running = true ∧ (t.ownOf n).alone = false ∧
       (t.ownOf n).stored = (sliceChans n).map (fun ch => Tbl.get .off m.live.fallback ch) ∧
       (t.ownOf n).fa = m.effective.fa ∧ (t.ownOf n).fb = m.effective.fb ∧
       (∀ k, k ≠ n → t.slice k = m.slice k ∧ t.ownOf k = m.ownOf k) ∧
       t = { m with hub := t.hub, own := t.own } := by
  unfold Module.loadDone Module.loadOwn
  dsimp only
  generalize hx : m.setSlice n _ = x
  have hs : x.slice n = { m.slice n with
      loaded := true, attempts := 0, loadStep := 0, lastFrame := m.clk.turn, stale := 0, reloaded := true
      bus := { (m.slice n).bus with lastPos := none, lastNeg := none, posGap := 0 }
      judged := m.binEndAfter n m.clk.turn, aux := [], auxFrom := m.clk.turn, carry := none
      reissue := (m.stage == .lamps || m.stage == .ready) && !(m.slice n).startDue } := by
    rw [← hx, slice_setSlice hw, if_pos rfl]
  have hk : ∀ k, k ≠ n → x.slice k = m.slice k := by
    intro k hk
    rw [← hx, slice_setSlice hw, if_neg hk]
  have hsame : x = { m with hub := x.hub } := by rw [← hx]; rfl
  have hox : Tbl.wf (OwnSlice.reset 1) x.own = true := by rw [hsame]; exact ho
  have hlive : x.live = m.live := by rw [hsame]
  have heff : x.effective = m.effective := by rw [hsame]; rfl
  have hown : x.ownOf = m.ownOf := by rw [hsame]; rfl
  have hcal : (x.slice n).cal = (m.slice n).cal := by rw [hs]
  have hepoch : (x.slice n).epoch = (m.slice n).epoch := by rw [hs]
  refine ⟨?_, ?_, hcal, ?_, ?_, ?_, ?_, ?_, ?_, ?_, fun k hne => ⟨hk k hne, ?_⟩, ?_⟩
  · exact congrArg HubSlice.loaded hs
  · exact congrArg HubSlice.attempts hs
  · rw [ownOf_setOwn hox, if_pos rfl]
    exact hepoch
  · rw [ownOf_setOwn hox, if_pos rfl]
    exact hcal
  · rw [ownOf_setOwn hox, if_pos rfl]
  · rw [ownOf_setOwn hox, if_pos rfl]
    rfl
  · rw [ownOf_setOwn hox, if_pos rfl, ← hlive]
  · rw [ownOf_setOwn hox, if_pos rfl, ← heff]
  · rw [ownOf_setOwn hox, if_pos rfl, ← heff]
  · rw [ownOf_setOwn hox, if_neg hne, hown]
  · rw [hsame]
    rfl

theorem loadFailed_eq (m : Module) (n : Nat) : m.loadFailed n =
    if 3 ≤ (m.slice n).attempts then m.holdFailed n
    else (m.setSlice n (fun h => { h with
      attempts := (m.slice n).attempts + 1, epoch := nextEpoch h.epoch })).beginLoad n :=
  if_congr (by omega) rfl rfl

/-! ### A slice restarts (R23, R64, R236) -/

/-- Every switch of a slice opens, in one and the same tick. -/
theorem openAll_eq (n : Nat) (f : Chan → Chan) (m : Module) : m.openAll n f =
    m.each (sliceChans n) (fun ch c => c.setChan ch (fun c => f (c.openAt m.now false))) := by
  have h : ∀ (l : List Nat) (x : Module), x.now = m.now →
      x.each l (fun ch m => m.setChan ch (fun c => f (c.openAt m.now false))) =
        x.each l (fun ch c => c.setChan ch (fun c => f (c.openAt m.now false))) := by
    intro l
    induction l with
    | nil => intro x _; rfl
    | cons ch l ih =>
      intro x hx
      show Module.each (x.setChan ch (fun c => f (c.openAt x.now false))) l _ =
        Module.each (x.setChan ch (fun c => f (c.openAt m.now false))) l _
      rw [hx]
      exact ih _ hx
  exact h (sliceChans n) m rfl

theorem openAt_closed (c : Chan) (now : Nat) (dc : Bool) : (c.openAt now dc).closed = false := by
  unfold Chan.openAt
  split
  · rfl
  · rename_i h
    simpa using h

/-- A slice restarts: its switches are open, its own state is lost, and nothing else changes (R23, R64, R236). -/
theorem sliceRestart_leaves {m : Module} {n : Nat} (cause : Byte) (ho : Tbl.wf (OwnSlice.reset 1) m.own = true)
    (hc : Tbl.wf Chan.reset m.lamps.chans = true) :
    let t := m.sliceRestart n cause
    t.ownOf n = OwnSlice.reset cause ∧ (∀ ch, ch / 16 = n → (t.chan ch).closed = false) ∧
      (∀ ch, ch / 16 ≠ n → t.chan ch = m.chan ch) ∧ (∀ k, k ≠ n → t.ownOf k = m.ownOf k) ∧
      t = { m with own := t.own, hub := t.hub, lamps := t.lamps } := by
  unfold Module.sliceRestart
  dsimp only
  rw [openAll_eq]
  obtain ⟨-, h1, h2, -⟩ := each_setChan (fun c => { c.openAt m.now false with lit := false })
    (fun c => openAt_closed c _ _) (sliceChans n) m hc
  have h3 : ∃ l, m.each (sliceChans n) (fun ch c => c.setChan ch (fun c => { c.openAt m.now false with lit := false })) =
      { m with lamps := l } := foldl_lamps _ (fun _ _ => ⟨_, rfl⟩) (sliceChans n) m
  generalize m.each (sliceChans n) _ = x at h1 h2 h3 ⊢
  obtain ⟨l, rfl⟩ := h3
  refine ⟨?_, fun ch hch => h1 ch ((mem_sliceChans n ch).mpr hch), fun ch hch => h2 ch (fun h => hch ((mem_sliceChans n ch).mp h)),
    fun k hk => ?_, rfl⟩
  · exact (Tbl.get_set ho n n _).trans (if_pos rfl)
  · exact (Tbl.get_set ho n k _).trans (if_neg hk)

/-- A wait for HELLO that has ended without one (R58, R471). -/
theorem helloExpired_late {m : Module} {n d : Nat} (ha : (m.slice n).awaitHello = some d) (hd : d < m.clk.tick.toNat) :
    m.helloExpired n = if 3 ≤ (m.slice n).attempts then (m.holdFailed n).reloadEnds
      else { (m.setSlice n (fun h => { h with
        attempts := (m.slice n).attempts + 1, awaitHello := some (m.clk.tick.toNat + 2000000) })) with
        out := m.out ++ [.linkReset n] } := by
  have he : m.expired d = true := decide_eq_true hd
  simp only [Module.helloExpired, ha, he, if_true]
  exact if_congr (by omega) rfl rfl

theorem helloExpired_early {m : Module} {n d : Nat} (ha : (m.slice n).awaitHello = some d) (hd : m.clk.tick.toNat ≤ d) :
    m.helloExpired n = m := by
  have he : m.expired d = false := decide_eq_false (Nat.not_lt.mpr hd)
  simp only [Module.helloExpired, ha, he, Bool.false_eq_true, if_false]

/-- An awaited HELLO lets the load begin (R47, R58). -/
theorem sliceHello_awaited {m : Module} {n d : Nat} (hup : m.coresUp = true) (hf : (m.slice n).failed = false)
    (ha : (m.slice n).awaitHello = some d) (hd : m.clk.tick.toNat ≤ d) : m.sliceHello n =
      (m.setSlice n (fun h => { h with awaitHello := none, lastFrame := m.clk.turn, stored := false })).beginLoad n := by
  have he : m.expired d = false := decide_eq_false (Nat.not_lt.mpr hd)
  have hup' : ∀ f, (m.setSlice n f).coresUp = true := fun _ => hup
  simp only [Module.sliceHello, hf, ha, he, hup', Bool.false_eq_true, if_false, if_true]

theorem sliceHello_loaded {m : Module} {n : Nat} (hf : (m.slice n).failed = false) (ha : (m.slice n).awaitHello = none)
    (hl : (m.slice n).loaded = true) : m.sliceHello n = m.sliceReset n false := by
  simp only [Module.sliceHello, hf, ha, hl, Bool.false_eq_true, if_false, if_true]

/-- The first block of a load brings the new epoch (R56). -/
theorem takeLoad_start {m : Module} {n : Nat} {hdr : HubHdr} (block : LoadBlock) (hg : hdr.good = true) :
    m.takeLoad n hdr true block = (m.setOwn n (fun o => { o with
      epoch := hdr.epoch, lastSeq := hdr.seq, blocks := 0, running := false, heard := m.clk.turn })).takeBlock n block := by
  simp only [Module.takeLoad, hg, Bool.and_self, if_true]

/-- The blocks after the first are taken in sequence (R232). -/
theorem takeLoad_next {m : Module} {n : Nat} {hdr : HubHdr} (block : LoadBlock) (hg : hdr.good = true)
    (he : hdr.epoch = (m.ownOf n).epoch) (h0 : hdr.epoch ≠ 0) (hr : (m.ownOf n).running = false) :
    m.takeLoad n hdr false block = if hdr.seq = (m.ownOf n).lastSeq + 1 then
        (m.setOwn n (fun o => { o with lastSeq := hdr.seq, heard := m.clk.turn })).takeBlock n block
      else m.setOwn n (fun o => { o with heard := m.clk.turn }) := by
  have hin : (m.ownOf n).inLoad hdr = true := by
    simpa [OwnSlice.inLoad, hg, hr, ← he] using h0
  simp only [Module.takeLoad, hin, Bool.false_and, Bool.false_eq_true, if_false, if_true, Module.inSequence]

theorem takeLoad_damaged {m : Module} {n : Nat} {hdr : HubHdr} (start : Bool) (block : LoadBlock) (hg : hdr.good = false) :
    m.takeLoad n hdr start block = m := by
  simp only [Module.takeLoad, OwnSlice.inLoad, hg, Bool.and_false, Bool.false_and, Bool.false_eq_true, if_false]

/-- Settles O21: a load by its outcome, HELLO by what is awaited, a block by its header. -/
theorem sliceLoads : Obligations.SliceLoads := by
  unfold Obligations.SliceLoads
  refine ⟨⟨?measured, ?done, ?failed⟩, ⟨?waitOver, ?waitOn, ?hello, ?helloLoaded, ?helloBad, ?restart⟩,
    ?start, ?next, ?damaged⟩
  case measured =>
    rintro s dt n sums m rfl hn hup hl hf ha h1 hu
    have hopen := loadEnds_open hup hl hf ha
    have hmeas : (s.m.elapse dt).loadEnds n (.measured sums) = ((s.m.elapse dt).loadMeasured n sums).reloadEnds := by
      simp only [Module.loadEnds, hopen, h1, hu, List.isEmpty_nil, and_self, Bool.false_eq_true, if_false, if_true]
    by_cases hok : (loadTable sums).all CalPath_ok = true
    · rw [if_pos ((cal_ok _).mp hok)]
      intro hw
      have hs := loadMeasured_sends (n := n) hw hok
      have hx := slice_setSlice hw n n (fun h => { h with cal := loadTable sums, calNext := none, loadStep := 2 })
      rw [if_pos rfl] at hx
      obtain ⟨q, l, e1, e2⟩ := hs.slice (by rw [hub_loadItems]; exact wf_setSlice hw _ _)
      rw [slice_loadItems, hx] at e1 e2
      have hwait : ((s.m.elapse dt).loadMeasured n sums).reloadEnds = (s.m.elapse dt).loadMeasured n sums :=
        reloadEnds_waits (n := n) (by rw [hs.same]; exact hn) (by rw [e1]; exact hl) (by rw [e1]; exact hf)
      refine ⟨_, onSlice_to hn (hmeas.trans hwait), ?_, ?_, ?_, ?_⟩
      · rw [e1]
      · rw [e1]
      · rw [e1, e2, hu]
        rfl
      · rw [hs.same]
        rfl
    · rw [if_neg (fun h => hok ((cal_ok _).mpr h))]
      refine onSlice_to hn (hmeas.trans ?_)
      simp only [Module.loadMeasured, hok, Bool.false_eq_true, if_false]
  case done =>
    rintro s dt n m rfl hn hup hl hf ha h2 hu hw ho
    have hopen := loadEnds_open hup hl hf ha
    have hdone : (s.m.elapse dt).loadEnds n .done = ((s.m.elapse dt).loadDone n).reloadEnds := by
      simp only [Module.loadEnds, hopen, h2, hu, List.isEmpty_nil, and_self, Bool.false_eq_true, if_false, if_true]
    obtain ⟨k1, k2, k3, k4, k5, k6, k7, k8, k9, k10, k11, k12⟩ := loadDone_leaves (n := n) hw ho
    refine ⟨_, onSlice_to hn hdone, ?_⟩
    obtain ⟨x, hx⟩ := reloadEnds_eq ((s.m.elapse dt).loadDone n)
    rw [hx]
    generalize (s.m.elapse dt).loadDone n = y at k1 k2 k3 k4 k5 k6 k7 k8 k9 k10 k11 k12 ⊢
    refine ⟨k1, k2, k3, k4, k5, k6, k7, k8, k9, k10, k11, ?_⟩
    rw [k12]
  case failed =>
    rintro s dt n m rfl hn hup hl hf ha
    have hopen := loadEnds_open hup hl hf ha
    refine onSlice_to hn ?_
    simp only [Module.loadEnds, hopen, Bool.false_eq_true, if_false, loadFailed_eq]
  case waitOver =>
    rintro s dt n d m rfl hn ha hd
    exact onSlice_to hn (helloExpired_late ha hd)
  case waitOn =>
    rintro s dt n d m rfl hn ha hd
    exact onSlice_to hn (helloExpired_early ha hd)
  case hello =>
    rintro s dt n d cause m rfl hn hup hf ha hd
    exact onSlice_to hn (sliceHello_awaited hup hf ha hd)
  case helloLoaded =>
    rintro s dt n cause m rfl hn hf ha hl
    exact onSlice_to hn (sliceHello_loaded hf ha hl)
  case helloBad =>
    rintro s dt n cause m rfl hn
    exact onSlice_to hn rfl
  case restart =>
    rintro s dt n c cause m rfl hn hcases ho hc
    obtain ⟨h1, h2, h3, h4, h5⟩ := sliceRestart_leaves (n := n) cause ho hc
    have hexec : exec c s = .next { s with m := (s.m.elapse dt).sliceRestart n cause } := by
      rcases hcases with ⟨rfl, rfl⟩ | ⟨rfl, rfl⟩ | ⟨rfl, rfl⟩ <;> exact onSlice_to hn rfl
    exact ⟨_, hexec, h1, congrArg OwnSlice.epoch h1, h2, h3, h4, h5⟩
  case start =>
    rintro s dt n hdr block m rfl hn hg
    exact onSlice_to hn (takeLoad_start block hg)
  case next =>
    rintro s dt n hdr block m rfl hn hg he h0 hr
    exact onSlice_to hn (takeLoad_next block hg he h0 hr)
  case damaged =>
    rintro s dt n hdr start block m rfl hn hg
    exact onSlice_to hn (takeLoad_damaged start block hg)

end Sys2Proof.Machine
end


section
/-! PROOFS. VITAL-OK, the angle tracker and cycle boundaries: O27, O28, O29 and O30. -/

namespace Sys2Proof.Machine
open Sys2Proof

/-! ### VITAL-OK -/

/-- Where everything allows it, the pump toggles again from this tick on (R225, R226). -/
theorem vitalResume_resumes {m : Module} (ht : m.prov.toggling = false) (hc : m.vitalCause = 0)
    (hh : m.prov.hold = false ∨ m.startMet = true) (hl : m.prov.lastToggle + 500000 ≤ m.clk.tick.toNat)
    (hu : m.coresUp = true) (hx : m.crossPoint m.clk.ref = true) :
    Talk { m with prov := { m.prov with toggling := true, hold := false, lastToggle := m.clk.tick.toNat } }
      m.vitalResume := by
  have hs : (!m.prov.hold || m.startMet) = true := by rcases hh with h | h <;> simp [h]
  unfold Module.vitalResume
  rw [if_neg (by simp [ht]), if_pos (by simp [hc, hs, hu, hx, Module.now, hl])]
  exact talk_event _ _ _

/-- Where something forbids it, nothing moves (R51, R225, R226). -/
theorem vitalResume_waits {m : Module} (ht : m.prov.toggling = false)
    (h : m.vitalCause ≠ 0 ∨ (m.prov.hold = true ∧ m.startMet = false) ∨ m.clk.tick.toNat < m.prov.lastToggle + 500000 ∨
      m.coresUp = false ∨ m.crossPoint m.clk.ref = false) : m.vitalResume = m := by
  have hc : (m.vitalCause == 0 && (!m.prov.hold || m.startMet) &&
      decide (m.prov.lastToggle + 500000 ≤ m.now) && m.coresUp && m.crossPoint m.clk.ref) = false := by
    rcases h with h | ⟨h1, h2⟩ | h | h | h
    · simp [h]
    · simp [h1, h2]
    · simp [Module.now, Nat.not_le.mpr h]
    · simp [h]
    · simp [h]
  unfold Module.vitalResume
  rw [if_neg (by simp [ht]), if_neg (by simp [hc])]

/-- A condition stops a pump that toggles, at its row too (R225). -/
theorem vitalResume_stops {m : Module} (ht : m.prov.toggling = true) (hf : m.vitalFree = false) :
    m.vitalResume.prov = { m.prov with toggling := false, lastToggle := m.clk.tick.toNat } := by
  unfold Module.vitalResume
  rw [if_pos ht, vitalStop_prov, if_pos (by simp [ht, hf])]
  rfl

/-- A value that a table holds beside its default stands in it. -/
theorem any_of_record {m : Module} {ch kind : Nat} {p : FaultRec → Bool} (hd : p FaultRec.none = false)
    (h : p (m.record ch kind) = true) : m.prov.records.any (fun e => p e.2) = true := any_get hd h

/-- A detection with response DROP_VITAL opens VITAL-OK and shows the module fallback (R217, R224, R225). -/
theorem detect_dropVital {m : Module} {ch kind bin : Nat} {c : Cycle} {a : Angle} {v : Int}
    (hi : (m.record ch kind).active = false) (hr : m.response ch = 3) (h1 : 1 ≤ kind) (h3 : kind ≤ 3)
    (hw : Tbl.wf FaultRec.none m.prov.records = true) :
    (m.detect ch kind c a bin v).prov.toggling = false ∧ (m.detect ch kind c a bin v).moduleFallback = true := by
  have hrec := (record_detect hw ch kind kind c a bin v ch h1 (by omega) h1 (by omega)).2.2.1 hi
  have hresp : (if kind = 4 then 0 else m.response ch) = 3 := by rw [if_neg (by omega), hr]
  have hdrop : (m.detect ch kind c a bin v).dropVital = true :=
    any_of_record (ch := ch) (kind := kind) (p := fun r => r.latched && r.response == 3) rfl (by rw [hrec, hresp]; rfl)
  have hfall : (m.detect ch kind c a bin v).recordFallback = true :=
    any_of_record (ch := ch) (kind := kind) (p := fun r => r.latched && decide (2 ≤ r.response)) rfl
      (by rw [hrec, hresp]; rfl)
  refine ⟨?_, by simp [Module.moduleFallback, hfall]⟩
  have hfree : (m.detect ch kind c a bin v).vitalFree = false := by
    cases hv : (m.detect ch kind c a bin v).vitalFree
    · rfl
    · rw [vitalFree_iff] at hv
      obtain ⟨-, -, -, -, hd, -⟩ := hv
      exact absurd hd (by simp [hdrop])
  have hsafe : VitalSafe (m.detect ch kind c a bin v) := by
    unfold Module.detect
    dsimp only
    rw [if_neg (by simp [hi])]
    exact vitalSafe_stop _
  cases ht : (m.detect ch kind c a bin v).prov.toggling
  · rfl
  · exact absurd (hsafe ht) (by simp [hfree])

/-- Settles O27: VITAL-OK resumes by `vitalResume_resumes`, waits by `vitalResume_waits`, and a condition stops it. -/
theorem vitalOk : Obligations.VitalOk := by
  unfold Obligations.VitalOk
  refine ⟨?resumes, ?waits, ?stops, ?detected⟩
  case resumes =>
    rintro s dt m rfl ht hc hh hl hu hx
    have h := vitalResume_resumes ht hc hh hl hu hx
    exact ⟨_, on_next rfl, h.prov, h.lamps, h.vault⟩
  case waits =>
    rintro s dt m rfl ht h
    exact on_next (vitalResume_waits ht h)
  case stops =>
    rintro s dt m rfl ht hf
    exact ⟨_, on_next rfl, vitalResume_stops ht hf⟩
  case detected =>
    intro m ch kind bin c a v hi _ hr h1 h3 hw
    exact detect_dropVital hi hr h1 h3 hw

end Sys2Proof.Machine
end


section
/-! PROOFS. Crossings (`Obligations.Crossings`). -/

namespace Sys2Proof.Machine
open Sys2Proof

/-! ### The interval and the correction (R75, R78) -/

theorem chained_pos {b : Bus} {stamp last : Nat} (h : b.lastPos = some last) :
    b.chained true stamp = decide (100000000 ≤ 65 * (stamp - last) ∧ 45 * (stamp - last) ≤ 100000000) := by
  simp [Bus.chained, h, freqOk, Bool.decide_and]

theorem chained_neg {b : Bus} {stamp last : Nat} (h : b.lastNeg = some last) :
    b.chained false stamp = decide (100000000 ≤ 65 * (stamp - last) ∧ 45 * (stamp - last) ≤ 100000000) := by
  simp [Bus.chained, h, freqOk, Bool.decide_and]

theorem unchained_pos {b : Bus} {stamp : Nat} (h : b.lastPos = none) : b.chained true stamp = false := by
  simp [Bus.chained, h]

theorem unchained_neg {b : Bus} {stamp : Nat} (h : b.lastNeg = none) : b.chained false stamp = false := by
  simp [Bus.chained, h]

/-- The correction stays within 1,024 au, and is a quarter of an error that is small enough (R78). -/
theorem slewAu_bounds (err : Int) : -1024 ≤ slewAu err ∧ slewAu err ≤ 1024 ∧
    (err.natAbs ≤ 4096 → slewAu err = err.tdiv 4) := by
  refine ⟨le_max_left _ _, max_le (by decide) (min_le_left _ _), fun h => ?_⟩
  have hq : (err.tdiv 4).natAbs ≤ 1024 := by
    rw [Int.natAbs_tdiv]
    exact Nat.div_le_of_le_mul h
  unfold slewAu
  omega

/-- The correction of the length leaves the rest of the clock. -/
theorem setLen_leaves (c : Clock) (len : Word32) :
    c.setLen len = { c with cycleLen := (c.setLen len).cycleLen, frac := (c.setLen len).frac } := by
  unfold Clock.setLen; split <;> rfl

theorem refErr_eq (m : Module) (delta : Nat) :
    m.refErr delta = signedAngle (m.clk.angleAt delta - (if m.clk.altRef then m.clk.altOffset else 0)) := rfl

/-! ### Crossings of the reference bus (R77, R78, R80) -/

/-- The clock after a crossing of the reference bus in LOCKING and LOCKED, before its correction (R77, R78). -/
def Module.followed (m : Module) (delta d : Nat) : Clock :=
  let near := decide ((m.refErr delta).natAbs ≤ 64)
  let run := if near then min 8 (m.clk.lockRun + 1) else 0
  { m.clk with
    measured := BitVec.ofNat 32 d, lastRef := some (m.now - delta), lockRun := run
    tracker := if !near then .locking else if 8 ≤ run then .locked else m.clk.tracker }

theorem refCrossing_follows {m : Module} {n delta d : Nat} (h : m.clk.tracker = .locking ∨ m.clk.tracker = .locked) :
    m.refCrossing n delta d =
      { m with clk := (m.followed delta d).setLen ((m.followed delta d).slewed (m.refErr delta)) } := by
  rcases h with h | h <;> · simp only [Module.refCrossing, h, Module.followed]

/-- Beyond ±64 au the run of near crossings begins again (R77). -/
theorem followed_far {m : Module} {delta d : Nat} (h : 64 < (m.refErr delta).natAbs) :
    (m.followed delta d).tracker = .locking ∧ (m.followed delta d).lockRun = 0 := by
  simp [Module.followed, Nat.not_le.mpr h]

/-- The eighth near crossing locks (R77). -/
theorem followed_locks {m : Module} {delta d : Nat} (h : (m.refErr delta).natAbs ≤ 64) (hr : 7 ≤ m.clk.lockRun) :
    (m.followed delta d).tracker = .locked := by
  have h8 : 8 ≤ min 8 (m.clk.lockRun + 1) := by omega
  simp only [Module.followed, h, decide_true, if_true, Bool.not_true, Bool.false_eq_true, if_false, h8]

/-- A near crossing before the eighth is counted (R77). -/
theorem followed_counts {m : Module} {delta d : Nat} (h : (m.refErr delta).natAbs ≤ 64) (hr : m.clk.lockRun < 7) :
    (m.followed delta d).tracker = m.clk.tracker ∧ (m.followed delta d).lockRun = m.clk.lockRun + 1 := by
  have h8 : ¬ 8 ≤ m.clk.lockRun + 1 := by omega
  have hm : min 8 (m.clk.lockRun + 1) = m.clk.lockRun + 1 := by omega
  simp only [Module.followed, h, decide_true, if_true, Bool.not_true, Bool.false_eq_true, if_false, hm, h8, and_self]

/-! ### Steps (R80) -/

namespace Serves
variable {m t : Module}
theorem clk (h : Serves m t) : t.clk = m.clk := by rw [h.same]
theorem meter (h : Serves m t) : t.meter = m.meter := by rw [h.same]
theorem pow (h : Serves m t) : t.pow = m.pow := by rw [h.same]
theorem live (h : Serves m t) : t.live = m.live := by rw [h.same]
theorem variant (h : Serves m t) : t.variant = m.variant := by rw [h.same]
theorem plans (h : Serves m t) : t.lamps.plans = m.lamps.plans := by rw [h.same]
end Serves

/-- The plan entries of a cut that is not at a wrap, where none is due in its cycle. -/
theorem no_due_plans {plans : List Plan} {c : Nat} (h : ∀ e ∈ plans, 65536 * (c + 1) ≤ e.due) :
    sortPlans (plans.filter (fun e => decide (e.due < 65536 * (c + 1)))) = [] := by
  have : plans.filter (fun e => decide (e.due < 65536 * (c + 1))) = [] := by
    rw [List.filter_eq_nil_iff]
    intro e he
    simpa using h e he
  rw [this]; rfl

/-- What a cycle start does beside the wrap leaves the clock. -/
theorem cycleBegins_clk (m : Module) : m.cycleBegins.clk = m.clk := by
  unfold Module.cycleBegins
  dsimp only
  split
  · obtain ⟨i, h⟩ := serves_takeItems { m with meter := { m.meter with sincePass := m.meter.sincePass + 1 } }
    exact h.clk
  · rfl

/-- A step outside the tick of a wrap, where it cuts no plan entry, leaves the clock that it cuts (R80). -/
theorem stepAngle_clk {m : Module} {delta : Nat} (hw : m.clk.wrapped delta = false)
    (hp : ∀ e ∈ m.lamps.plans, 65536 * (m.clk.cycle.toNat + 1) ≤ e.due) :
    ∃ sent, (m.stepAngle delta none).clk = { m.clk.cutAt delta (m.clk.cycle + 1) with stepSent := sent } := by
  unfold Module.stepAngle
  simp only [hw, Bool.false_eq_true, if_false, Option.isSome_none, Option.getD_none, no_due_plans hp, List.foldl_nil,
    cycleBegins_clk, Bool.false_or]
  refine ⟨if !m.ring.isRef then m.clk.stepSent
    else some (if m.clk.partsAt delta < 65536 then 0 else m.clk.angleAt delta), ?_⟩
  exact (Serves.each _ (fun _ m => serves_own m _) _ _).clk.trans
    ((serves_stopLearning _ _ _ _).clk.trans (talk_event _ _ _).clk)

/-- A step is taken outside the tick of a natural wrap (R78, R80). -/
theorem stepUnlessWrap_steps {m : Module} {delta : Nat} (h : 65536 ≤ m.clk.partsAt delta) :
    m.stepUnlessWrap delta = m.stepAngle delta none := by
  unfold Module.stepUnlessWrap
  rw [if_neg (by omega)]

/-- The clock that a source is taken with, at a crossing `delta` ticks ago and `d` after the one before it (R77). -/
def Module.taken (m : Module) (delta d : Nat) : Clock :=
  { m.clk with
    tracker := .locking, measured := BitVec.ofNat 32 d, lockRun := 0, fly := []
    lastRef := some (m.clk.tick.toNat - delta) }

/-- A near source is slewed to (R83). -/
theorem takeSource_slews {m : Module} {delta d : Nat} {always : Bool} (ha : always = false)
    (h : (m.refErr delta).natAbs ≤ 4096) :
    m.takeSource delta d always =
      { m with clk := (m.taken delta d).setLen ((m.taken delta d).slewed (m.refErr delta)) } := by
  have hc : (always || decide (4096 < (m.refErr delta).natAbs)) = false := by simp [ha, Nat.not_lt.mpr h]
  unfold Module.takeSource
  dsimp only
  rw [if_neg (by simp [hc])]
  rfl

/-- The module as it steps to a source: no offset is left (R80; log 61). -/
def Module.stepSource (m : Module) (delta d : Nat) : Module :=
  { m with clk := { m.taken delta d with altOffset := 0 } }

/-- Any other is stepped to (R77, R80, R83). -/
theorem takeSource_steps {m : Module} {delta d : Nat} {always : Bool}
    (h : always = true ∨ 4096 < (m.refErr delta).natAbs) :
    m.takeSource delta d always = (m.stepSource delta d).stepUnlessWrap delta := by
  have hc : (always || decide (4096 < (m.refErr delta).natAbs)) = true := by
    rcases h with h | h <;> simp [h]
  unfold Module.takeSource
  dsimp only
  rw [if_pos hc]
  rfl

/-- An interval of 45 to 65 Hz is a length that 32 bits hold (R75). -/
theorem toNat_of_freqOk {d : Nat} (h : freqOk d = true) : (BitVec.ofNat 32 d).toNat = d ∧ BitVec.ofNat 32 d ≠ 0 := by
  simp only [freqOk, Bool.and_eq_true, decide_eq_true_eq] at h
  obtain ⟨h1, h2⟩ := h
  have e : (BitVec.ofNat 32 d).toNat = d := by
    rw [BitVec.toNat_ofNat]; omega
  refine ⟨e, fun h0 => ?_⟩
  rw [h0] at e
  have : d = 0 := by simpa using e.symm
  omega

/-- The clock of a cut that is not at a wrap, with a measured length (R80). -/
theorem cutAt_measured {c : Clock} {delta : Nat} {new : Cycle} (hw : c.wrapped delta = false) (hm : c.measured ≠ 0) :
    (c.cutAt delta new).cycle = new ∧ (c.cutAt delta new).tracker = c.tracker ∧ (c.cutAt delta new).stepped = true ∧
      (c.cutAt delta new).cycleLen = c.measured ∧
      (c.cutAt delta new).angle = BitVec.ofNat 16 (65536 * delta / c.measured.toNat) := by
  simp only [Clock.cutAt, hw, hm, if_false, Bool.false_eq_true, and_self]

/-- The first valid crossing takes the tracker out of FREE and SYNTHETIC (R77, R80). -/
theorem refCrossing_first {m : Module} {n delta d : Nat} (h : m.clk.tracker = .free ∨ m.clk.tracker = .synthetic)
    (hb : m.busKind n ≠ 1) : m.refCrossing n delta d = m.takeSource delta d true := by
  rcases h with h | h <;> · simp only [Module.refCrossing, h, hb, if_false]

/-- A crossing of another bus that does not end a valid interval is noted, and that is all (R75). -/
theorem cross_unchained {m : Module} {n delta : Nat} {rising : Bool} (hn : n ≠ m.clk.ref)
    (h : (m.slice n).bus.chained rising (m.clk.tick.toNat - delta) = false) :
    m.cross n rising delta = m.setSlice n (fun h => { h with
      bus := if rising then h.bus.rise (m.clk.tick.toNat - delta)
        else { h.bus with lastNeg := some (m.clk.tick.toNat - delta) } }) := by
  have h' : (m.slice n).bus.chained rising (m.now - delta) = false := h
  simp only [Module.cross, h', Bool.false_and, Bool.false_eq_true, if_false]
  rw [if_neg (by simp [hn])]
  rfl

/-- Settles O28: the interval's rule, a step out of FREE (`stepAngle_clk`), and the run that locks (`followed_far`,
`followed_locks`, `followed_counts`). -/
theorem crossings : Obligations.Crossings := by
  unfold Obligations.Crossings
  refine ⟨?row, ?pos, ?neg, ?unchained, ?other, ?steps, ?follows, ?err, slewAu_bounds⟩
  case row =>
    rintro s dt n stamp hdr rising m rfl hn
    exact onSlice_to hn rfl
  case pos => exact fun b stamp last h => chained_pos h
  case neg => exact fun b stamp last h => chained_neg h
  case unchained => exact fun b stamp => ⟨unchained_pos, unchained_neg⟩
  case other => exact fun m n delta rising hn h => cross_unchained hn h
  case steps =>
    intro m n delta d ht hb hf hp hw hplans
    obtain ⟨hd, h0⟩ := toNat_of_freqOk hf
    obtain ⟨sent, hc⟩ := stepAngle_clk (m := m.stepSource delta d) (delta := delta) hw hplans
    obtain ⟨h1, h2, h3, h4, h5⟩ := cutAt_measured (c := (m.stepSource delta d).clk) (delta := delta)
      (new := m.clk.cycle + 1) hw h0
    rw [refCrossing_first ht hb, takeSource_steps (Or.inl rfl), stepUnlessWrap_steps (m := m.stepSource delta d) hp]
    rw [hc]
    refine ⟨h2, h1, h5.trans ?_, h4, h3⟩
    show BitVec.ofNat 16 (65536 * delta / (BitVec.ofNat 32 d).toNat) = _
    rw [hd]
  case follows =>
    intro m n delta d ht
    rw [refCrossing_follows ht, setLen_leaves]
    exact ⟨_, rfl, rfl, rfl, rfl, rfl, followed_far (d := d), followed_locks (d := d), followed_counts (d := d)⟩
  case err =>
    refine fun m delta => ⟨fun h => ?_, fun h => ?_⟩
    · rw [refErr_eq, h]; simp
    · rw [refErr_eq, h, if_pos rfl]

end Sys2Proof.Machine
end


section
/-! PROOFS. The tracker's moves, the cycle and the half-cycle boundaries (`Obligations.TrackerMoves`,
`Obligations.CyclesAndBoundaries`). -/

namespace Sys2Proof.Machine
open Sys2Proof

/-! ### Flywheel, alternate, primary and domain hold (R77, R79, R83) -/

/-- The flywheel is entered where a prediction has passed with nothing in its window (R77). -/
theorem flywheel_enters {m : Module} (ht : m.clk.tracker = .locking ∨ m.clk.tracker = .locked)
    (hp : 4096 < m.clk.sincePrediction.toNat)
    (hs : ∀ t, m.clk.lastRef = some t → t + m.clk.windowTicks < m.clk.tick.toNat) (h0 : m.clk.measured ≠ 0) :
    m.flywheel = { m with clk := { m.clk with
      tracker := .flywheel, fly := [], flyFrom := m.clk.turn, lockRun := 0, cycleLen := m.clk.measured
      frac := m.clk.frac * m.clk.measured.toNat / m.clk.cycleLen.toNat } } := by
  have hk : (m.clk.tracker == .locking || m.clk.tracker == .locked) = true := by
    rcases ht with h | h <;> rw [h] <;> rfl
  unfold Module.flywheel
  cases hr : m.clk.lastRef with
  | none => simp only [hr, hk, hp, decide_true, Bool.not_false, Bool.and_self, if_true, setLen_eq _ _ h0]
  | some t =>
    have hno : ¬ m.now ≤ t + m.clk.windowTicks := Nat.not_le.mpr (hs t hr)
    simp only [hr, hk, hp, hno, decide_true, decide_false, Bool.not_false, Bool.and_self, if_true, setLen_eq _ _ h0]

theorem flywheel_stays {m : Module}
    (h : (m.clk.tracker ≠ .locking ∧ m.clk.tracker ≠ .locked) ∨ m.clk.sincePrediction.toNat ≤ 4096) :
    m.flywheel = m := by
  unfold Module.flywheel
  dsimp only
  refine if_neg ?_
  rcases h with ⟨h1, h2⟩ | h
  · simp [h1, h2]
  · simp [Nat.not_lt.mpr h]

/-- After 64 cycles of the flywheel a settled alternate is followed, with no step (R83). -/
theorem alternate_takes {m : Module} (ht : m.clk.tracker = .flywheel) (hf : m.clk.flyFrom + 64 * 65536 ≤ m.clk.turn)
    (hn : m.items.refAlternate < m.variant.slices)
    (hs : (m.slice m.items.refAlternate).bus.phase.settled = true) :
    m.alternate = { m with clk := { m.clk with
      tracker := .locking, altRef := true, ref := m.items.refAlternate
      altOffset := (m.slice m.items.refAlternate).bus.phase.pos, lockRun := 0, fly := []
      lastRef := (m.slice m.items.refAlternate).bus.lastPos } } := by
  unfold Module.alternate
  dsimp only
  rw [if_pos (by simp only [ht, hf, hn, hs, decide_true]; rfl)]

theorem alternate_stays {m : Module}
    (h : m.clk.tracker ≠ .flywheel ∨ m.clk.turn < m.clk.flyFrom + 64 * 65536 ∨ m.variant.slices ≤ m.items.refAlternate ∨
      (m.slice m.items.refAlternate).bus.phase.settled = false) : m.alternate = m := by
  unfold Module.alternate
  dsimp only
  refine if_neg ?_
  rcases h with h | h | h | h
  · simp [h]
  · simp [decide_eq_false (Nat.not_le.mpr h)]
  · simp [Nat.not_lt.mpr h]
  · simp [h]

/-- Settled for 64 cycles, the primary is taken at its crossing (R83). -/
theorem primaryReturn_takes {m : Module} {stamp : Nat} (ha : m.clk.altRef = true)
    (hs : (m.slice m.items.refPrimary).bus.phase.settled = true)
    (h64 : (m.slice m.items.refPrimary).bus.settledAt + 64 * 65536 ≤ m.clk.turn)
    (ht : m.clk.tracker = .locking ∨ m.clk.tracker = .locked ∨ m.clk.tracker = .flywheel)
    (hq : freqOk ((m.slice m.items.refPrimary).bus.gapAt stamp) = true) :
    m.primaryReturn stamp =
      m.takePrimary (m.clk.tick.toNat - stamp) ((m.slice m.items.refPrimary).bus.gapAt stamp) := by
  have hk : (m.clk.tracker == .locking || m.clk.tracker == .locked || m.clk.tracker == .flywheel) = true := by
    rcases ht with h | h | h <;> rw [h] <;> rfl
  unfold Module.primaryReturn
  dsimp only
  rw [if_pos (by simp only [ha, hs, h64, hq, hk, decide_true, Bool.and_self])]
  rfl

theorem primaryReturn_stays {m : Module} {stamp : Nat}
    (h : m.clk.altRef = false ∨ (m.slice m.items.refPrimary).bus.phase.settled = false ∨
      m.clk.turn < (m.slice m.items.refPrimary).bus.settledAt + 64 * 65536 ∨
      freqOk ((m.slice m.items.refPrimary).bus.gapAt stamp) = false) : m.primaryReturn stamp = m := by
  unfold Module.primaryReturn
  dsimp only
  refine if_neg ?_
  rcases h with h | h | h | h
  · simp [h]
  · simp [h]
  · simp [decide_eq_false (Nat.not_le.mpr h)]
  · simp [h]

/-- Settles O29: each move by its lemma of when it comes (`flywheel_enters`, `alternate_takes`, `primaryReturn_takes`) and
its lemma of when nothing moves. -/
theorem trackerMoves : Obligations.TrackerMoves := by
  unfold Obligations.TrackerMoves
  refine ⟨?fly, ?noFly, ?since, ?alternate, ?noAlternate, ?primary, ?noPrimary, ?source, ?hold, ?noHold⟩
  case fly =>
    rintro s dt m rfl ht hp hs h0
    exact on_next (flywheel_enters ht hp hs h0)
  case noFly =>
    rintro s dt m rfl h
    exact on_next (flywheel_stays h)
  case since =>
    refine fun c => ⟨fun h => ?_, fun h => ?_⟩
    · simp [Clock.sincePrediction, h]
    · simp [Clock.sincePrediction, h]
  case alternate =>
    rintro s dt m rfl ht hf hn hs
    exact on_next (alternate_takes ht hf hn hs)
  case noAlternate =>
    rintro s dt m rfl h
    exact on_next (alternate_stays h)
  case primary =>
    rintro s dt stamp m rfl ha hs h64 ht hq
    exact on_next (f := fun m => m.primaryReturn stamp) (primaryReturn_takes ha hs h64 ht hq)
  case noPrimary =>
    rintro s dt stamp m rfl h
    exact on_next (f := fun m => m.primaryReturn stamp) (primaryReturn_stays h)
  case source =>
    rintro m delta d always c rfl
    exact ⟨fun h => takeSource_slews h.1 h.2, fun h => takeSource_steps h⟩
  case hold =>
    rintro s dt m rfl ht hg h0
    refine on_next ((if_pos ?_).trans ?_)
    · simp only [ht, hg, decide_true, Bool.and_true]; rfl
    · rw [setLen_eq _ _ h0]
  case noHold =>
    rintro s dt m rfl h
    refine on_next (if_neg ?_)
    rcases h with h | h
    · simp [h]
    · simp [Nat.not_le.mpr h]

/-! ### What a bus's boundary leaves alone (R84, R86) -/

theorem serves_refresh (m : Module) (ch : Nat) : Serves m (m.refresh ch) := serves_moveSwitch m ch _

theorem serves_applyStart (m : Module) (ch : Nat) : Serves m (m.applyStart ch) := serves_takeEffect m ch _

theorem serves_applyFallback (m : Module) (ch : Nat) : Serves m (m.applyFallback ch) := by
  unfold Module.applyFallback
  dsimp only
  exact ((Serves.refl m).ite (serves_applyStart m ch)).ite ((serves_refresh m ch).ite (serves_takeEffect m ch _))

theorem serves_showCommand (m : Module) (ch : Nat) (s : Shown) : Serves m (m.showCommand ch s) :=
  (Serves.refl m).ite (serves_takeEffect m ch _)

theorem serves_startSlice (m : Module) (n : Nat) : Serves m (m.startSlice n) := by
  unfold Module.startSlice
  refine Serves.ite ((serves_setSlice m n _).trans (Serves.each _ (fun ch m => ?_) _ _)) (Serves.refl m)
  exact (serves_applyFallback m ch).ite ((serves_refresh m ch).ite (serves_applyStart m ch))

theorem serves_runWaiting (m : Module) (ch : Nat) (p : Nat → Bool) : Serves m (m.runWaiting ch p) := by
  unfold Module.runWaiting
  dsimp only
  refine Serves.trans ?_ (Serves.foldl (fun m (e : Nat × Bool) => m.moveSwitch ch e.2) (fun m e => serves_moveSwitch m ch e.2) _ _)
  refine Serves.trans ?_ (serves_setChan _ ch _)
  exact (serves_setChan m ch _).trans (Serves.foldl (fun m (z : Shown × Nat) => m.showCommand ch z.1)
    (fun m z => serves_showCommand m ch z.1) _ _)

theorem serves_learnGuard (m : Module) (p : Nat → Bool) : Serves m (m.learnGuard p) := serves_stopLearning m _ _ _

theorem serves_dimStep (m : Module) (ch : Nat) : Serves m (m.dimStep ch) := by
  unfold Module.dimStep
  exact ((serves_refresh m ch).ite (serves_moveSwitch m ch _)).ite (Serves.refl m)

theorem serves_mismatch (m : Module) (n cause : Nat) : Serves m (m.mismatch n cause) := .ofTalk (talk_event m _ _)

theorem serves_busReversed (m : Module) (n : Nat) : Serves m (m.busReversed n) :=
  (serves_openAll m n id).trans (serves_mismatch _ n 2)

theorem serves_busRighted (m : Module) (n : Nat) : Serves m (m.busRighted n) :=
  (serves_busBack m n).trans (Serves.each _ (fun ch m => serves_setChan m ch _) _ _)

/-- A bus judged at a half-cycle boundary changes its channels, its slice and its jobs (R84, R86, R215). -/
theorem serves_busHalf (m : Module) (n : Nat) (v : Int) : Serves m (m.busHalf n v) := by
  unfold Module.busHalf
  dsimp only
  refine Serves.ite (.trans ?_ (serves_busReversed _ n)) (Serves.ite (.trans ?_ (serves_busRighted _ n)) ?_) <;>
  · refine Serves.trans ?_ (Serves.each _ (fun ch m => serves_dimStep m ch) _ _)
    refine Serves.trans ?_ (serves_learnGuard _ _)
    refine Serves.trans ?_ (serves_kindChanged _ n _)
    refine Serves.trans ?_ (serves_setSlice _ n _)
    refine (Serves.refl m).ite ?_
    exact (serves_startSlice m n).trans (Serves.each _ (fun ch m => serves_runWaiting m ch _) _ _)

/-! ### The cycle's start (R71, R72, R74) -/

/-- The wrap (R71, R72, R74). -/
theorem wrap_counts {c : Clock} (h : c.cycleLen ≠ 0) : c.wrap.frac < c.cycleLen.toNat := by
  refine Nat.mod_lt _ (Nat.pos_of_ne_zero fun h0 => h ?_)
  exact BitVec.eq_of_toNat_eq h0

theorem wrapDue_of {c : Clock} (ha : c.angle = 65535) (hf : c.cycleLen.toNat ≤ c.frac) : c.wrapDue = true := by
  unfold Clock.wrapDue
  rw [ha, decide_eq_true hf]
  rfl

theorem not_wrapDue {c : Clock} (h : c.angle ≠ 65535 ∨ c.frac < c.cycleLen.toNat) : c.wrapDue = false := by
  unfold Clock.wrapDue
  rcases h with h | h
  · rw [beq_false_of_ne h, Bool.false_and]
  · rw [decide_eq_false (Nat.not_le.mpr h), Bool.and_false]

theorem cycleBegins_upd (m : Module) : m.cycleBegins.upd = m.upd := by
  unfold Module.cycleBegins
  dsimp only
  split
  · obtain ⟨i, h⟩ := serves_takeItems { m with meter := { m.meter with sincePass := m.meter.sincePass + 1 } }
    exact h.upd
  · rfl

/-- At a due wrap with no UNWIND due the cycle begins (R72, R387). -/
theorem cycleStart_wraps {m : Module} (hd : m.clk.wrapDue = true) (hu : m.upd.session.unwindDue = false) :
    m.cycleStart = ({ m with clk := m.clk.wrap }).cycleBegins := by
  have hs : (({ m with clk := m.clk.wrap }).cycleBegins).session.unwindDue = false := by
    unfold Module.session
    rw [cycleBegins_upd]
    exact hu
  unfold Module.cycleStart
  rw [if_pos hd]
  dsimp only
  refine if_neg ?_
  simp [hs]

/-- While the cores are held the cycle is counted, and nothing else (R72). -/
theorem cycleStart_held {m : Module} (hd : m.clk.wrapDue = true) (hc : m.coresUp = false) :
    m.cycleStart =
      { m with clk := m.clk.wrap, meter := { m.meter with sincePass := m.meter.sincePass + 1 } } := by
  have hc' : ∀ (k : Clock) (x : Meter), ({ m with clk := k, meter := x } : Module).coresUp = false := fun _ _ => hc
  unfold Module.cycleStart Module.cycleBegins
  simp only [hd, if_true, hc', Bool.false_eq_true, if_false, Bool.false_and]

/-! ### Half-cycle boundaries (R84, R85, R270) -/

/-- A weft time has passed (R270). -/
def Module.weftPassed (a : Module) : Module :=
  { a with
    clk := { a.clk with headerGap := a.clk.headerGap + 1 }
    upd := { a.upd with
      wefts := a.upd.wefts + 1
      session := { a.upd.session with stall := a.upd.session.stall + 1 } }
    ring := { a.ring with
      east := { a.ring.east with helloGap := a.ring.east.helloGap + 1 }
      west := { a.ring.west with helloGap := a.ring.west.helloGap + 1 } } }

/-- Every bus judged and the tracker moved, before the weft time is counted (R77, R84). -/
def Module.busesJudged (m : Module) (means : List Int) : Module :=
  ((List.range m.variant.slices).foldl (fun (x : Module) n => x.busHalf n (means.getD n 0))
    { m with clk := { m.clk with halfDone := m.clk.turn / 32768 } }).synthetic

theorem synthetic_diag (m : Module) : m.synthetic.diag = m.diag := by
  unfold Module.synthetic
  simp only [apply_ite Module.diag, ite_self]

theorem busesJudged_bist {m : Module} (h : m.diag.bist = none) (means : List Int) :
    (m.busesJudged means).diag.bist = none := by
  unfold Module.busesJudged
  rw [synthetic_diag]
  exact (Serves.foldl _ (fun m n => serves_busHalf m n (means.getD n 0)) _ _).bist h

theorem prbsStep_idle {m : Module} (h : m.diag.bist = none) : m.prbsStep = m := by
  unfold Module.prbsStep
  rw [h]

/-- A boundary not seen yet: the buses are judged, a weft time passes, and the metering's half-cycle ends. -/
theorem halfBoundary_runs {m : Module} {means : List Int} (ha : m.alive = true)
    (hh : m.clk.turn / 32768 ≠ m.clk.halfDone) :
    ∃ x, m.halfBoundary means = { (m.busesJudged means).weftPassed with meter := x } := by
  unfold Module.halfBoundary
  rw [if_pos (by simp [ha, hh])]
  show ∃ x, (if (m.busesJudged means).weftPassed.coresUp then (m.busesJudged means).weftPassed.meterBoundary
    else (m.busesJudged means).weftPassed) = _
  split
  · exact meterBoundary_eq _
  · exact ⟨(m.busesJudged means).weftPassed.meter, rfl⟩

theorem halfBoundary_seen {m : Module} {means : List Int}
    (h : m.stage = .unpowered ∨ m.stage = .holdup ∨ m.clk.turn / 32768 = m.clk.halfDone) :
    m.halfBoundary means = m := by
  unfold Module.halfBoundary
  refine if_neg ?_
  rcases h with h | h | h
  · simp [not_alive (Or.inl h)]
  · simp [not_alive (Or.inr h)]
  · simp [h]

theorem dcBand_of {v : Int} (h1 : 770 ≤ v) (h2 : v ≤ 1400) : dcBand v = true ∧ revBand v = false := by
  simp only [dcBand, revBand, decide_eq_true_eq, Bool.and_eq_true, Bool.and_eq_false_iff, decide_eq_false_iff_not]
  omega

/-- A mean in the DC band with no crossing in it is DC on a bus configured DC (R84). -/
theorem halfEnd_dc {b : Bus} {ticks turn : Nat} {v : Int} (h1 : 770 ≤ v) (h2 : v ≤ 1400)
    (hs : ∀ t, b.seen = some t → t + 32768 < turn) : (b.halfEnd 1 ticks v turn).phase.kind = .dc := by
  obtain ⟨hd, hr⟩ := dcBand_of h1 h2
  cases h : b.seen with
  | none => simp only [Bus.halfEnd, hd, hr, h, Bool.false_eq_true, if_false, Bool.not_false, Bool.and_self, if_true]
  | some t =>
    have ht : ¬ turn ≤ t + 32768 := Nat.not_le.mpr (hs t h)
    simp only [Bus.halfEnd, hd, hr, h, ht, decide_false, Bool.false_eq_true, if_false, Bool.not_false, Bool.and_self,
      if_true]

/-- A reversed bus stays so while its mean stays in the reversed band (R84). -/
theorem halfEnd_reversed {b : Bus} {kind ticks turn : Nat} {v : Int} (hr : b.reversed = true) (h1 : -1400 ≤ v)
    (h2 : v ≤ -770) :
    (b.halfEnd kind ticks v turn).phase.kind = .none ∧ (b.halfEnd kind ticks v turn).reversed = true := by
  have hb : revBand v = true := by simp [revBand, h1, h2]
  simp only [Bus.halfEnd, hb, hr, if_true, Bool.true_or, and_self]

theorem halfEnd_righted {b : Bus} {kind ticks turn : Nat} {v : Int} (h : v < -1400 ∨ -770 < v) :
    (b.halfEnd kind ticks v turn).reversed = false := by
  have hb : revBand v = false := by
    simp only [revBand, Bool.and_eq_false_iff, decide_eq_false_iff_not]
    omega
  simp only [Bus.halfEnd, hb, Bool.false_eq_true, if_false]

theorem dead_ne_ac {p : Prop} [Decidable p] {k : BusKind} (h : k ≠ .ac) : (if p then BusKind.none else k) ≠ .ac := by
  split
  · decide
  · exact h

theorem dc_or_dead_ne_ac {p : Prop} [Decidable p] : (if p then BusKind.dc else .none) ≠ .ac := by
  split <;> decide

/-- Four half-cycles without a crossing end a settled record and an AC bus (R84, R88). -/
theorem halfEnd_silent {b : Bus} {kind ticks turn : Nat} {v : Int} (hs : ∀ t, b.seen = some t → t + 131072 ≤ turn) :
    (b.halfEnd kind ticks v turn).phase.settled = false ∧ (b.halfEnd kind ticks v turn).phase.kind ≠ .ac := by
  have hno : ∀ t, b.seen = some t → ¬ turn < t + 131072 := fun t ht => Nat.not_lt.mpr (hs t ht)
  cases h : b.seen with
  | none =>
    simp only [Bus.halfEnd, h, Bool.and_false, true_and, Bool.false_eq_true, if_false]
    refine dead_ne_ac ?_
    rcases kind with _ | _ | k
    · simp
    · exact dc_or_dead_ne_ac
    · exact dc_or_dead_ne_ac
  | some t =>
    simp only [Bus.halfEnd, h, hno t h, decide_false, Bool.and_false, true_and, Bool.false_eq_true, if_false]
    refine dead_ne_ac ?_
    rcases kind with _ | _ | k
    · simp
    · exact dc_or_dead_ne_ac
    · exact dc_or_dead_ne_ac

/-- A DC reference makes the tracker synthetic, with no step (R77, R85). -/
theorem synthetic_dc {m : Module}
    (ht : m.clk.tracker = .free ∨ m.clk.tracker = .locking ∨ m.clk.tracker = .locked ∨ m.clk.tracker = .flywheel)
    (hp : m.clk.takePrimary = false) (hk : (m.slice m.clk.ref).bus.phase.kind = .dc) :
    m.synthetic.clk.tracker = .synthetic ∧ m.synthetic.clk.cycleLen = 2000000 ∧ m.synthetic.clk.angle = m.clk.angle ∧
      m.synthetic.clk.cycle = m.clk.cycle := by
  have h0 : (2000000 : Word32) ≠ 0 := by decide
  have hd : (m.busKind m.clk.ref == 1 || (m.slice m.clk.ref).bus.phase.kind == .dc) = true := by
    rw [hk]; simp
  unfold Module.synthetic
  rcases ht with h | h | h | h <;>
    simp only [hp, h, hd, Bool.false_and, Bool.false_eq_true, if_false, Bool.and_self, if_true, setLen_eq _ _ h0, and_self]

/-- Settles O30: the wrap by `wrap_counts` and `cycleStart_wraps`, a boundary by `halfBoundary_runs`, a bus by the
`halfEnd` lemmas and the tracker by `synthetic_dc`. -/
theorem cyclesAndBoundaries : Obligations.CyclesAndBoundaries := by
  unfold Obligations.CyclesAndBoundaries
  refine ⟨?wrap, ?start, ?held, ?early, ?checkpoint, ?boundary, ?seen, ?bus, ?synthetic⟩
  case wrap => exact fun c h => ⟨rfl, rfl, rfl, rfl, wrap_counts h, rfl, rfl⟩
  case start =>
    rintro s dt m rfl ha hf hu
    exact on_next (f := fun m => m.cycleStart) (cycleStart_wraps (wrapDue_of ha hf) hu)
  case held =>
    rintro s dt m rfl ha hf hc
    exact on_next (f := fun m => m.cycleStart) (cycleStart_held (wrapDue_of ha hf) hc)
  case early =>
    rintro s dt m rfl h
    exact on_next (if_neg (by simp [not_wrapDue h]))
  case checkpoint =>
    rintro s dt m rfl
    exact on_next rfl
  case boundary =>
    rintro s dt means m rfl h1 h2 hh hb
    obtain ⟨x, hx⟩ := halfBoundary_runs (means := means) (alive_of h1 h2) hh
    refine ⟨_, _, on_next (f := fun m => (m.halfBoundary means).prbsStep)
      ((congrArg Module.prbsStep hx).trans (prbsStep_idle (busesJudged_bist hb means))),
      rfl, rfl, rfl, rfl, rfl, rfl, rfl, rfl, rfl, rfl⟩
  case seen =>
    rintro s dt means m rfl hb h
    exact on_next (f := fun m => (m.halfBoundary means).prbsStep)
      ((congrArg Module.prbsStep (halfBoundary_seen h)).trans (prbsStep_idle hb))
  case bus =>
    intro b kind ticks turn v
    refine ⟨?_, halfEnd_reversed, halfEnd_righted, halfEnd_silent⟩
    rintro rfl h1 h2 hs
    exact halfEnd_dc h1 h2 hs
  case synthetic => exact fun m ht hp hk => synthetic_dc ht hp hk

end Sys2Proof.Machine
end


section
/-! PROOFS. Supplies, HOLDUP, standby and the wake (`Obligations.SupplyChanges`, `Obligations.HoldupAndStandby`). -/

namespace Sys2Proof.Machine
open Sys2Proof

/-! ### Changes of the supplies (R300, R301, R325, R326) -/

/-- A change of supply is reported and stands in the boundary record (R326, R344). -/
theorem supplyChange_keeps (m : Module) (cause : Nat) : (m.supplyChange cause).pow = m.pow ∧
    (m.supplyChange cause).clk = m.clk ∧ (m.supplyChange cause).prov = m.prov ∧
    (m.supplyChange cause).lamps = m.lamps ∧ (m.supplyChange cause).hub = m.hub ∧
    (m.supplyChange cause).vault = m.vault ∧ (m.supplyChange cause).stage = m.stage := by
  have h := talk_event m 0x8501 (u8 cause ++ u8 m.pow.bits ++ u16 m.pow.mainsDv.toNat ++ m.ca ++ rsv 1 ++
    u16 m.pow.backupCv.toNat ++ rsv 2)
  exact ⟨h.pow, h.clk, h.prov, h.lamps, h.hub, h.vault, h.stage⟩

theorem supplyChange_pow (m : Module) (cause : Nat) : (m.supplyChange cause).pow = m.pow :=
  (supplyChange_keeps m cause).1
theorem supplyChange_clk (m : Module) (cause : Nat) : (m.supplyChange cause).clk = m.clk :=
  (supplyChange_keeps m cause).2.1
theorem supplyChange_stage (m : Module) (cause : Nat) : (m.supplyChange cause).stage = m.stage :=
  (supplyChange_keeps m cause).2.2.2.2.2.2

theorem mainsIn_comes {m : Module} {dv : Word16} (ha : m.alive = true) (hm : m.pow.mains = false) :
    m.mainsIn dv = (fun (x : Module) => if m.stage = .standby then x.wake 8 else x)
      (({ m with pow := { m.pow with
        mains := true, mainsSince := m.clk.tick.toNat, mainsDv := dv } }).supplyChange 2) := by
  unfold Module.mainsIn Module.now
  rw [if_neg (by simp [ha, hm])]
  dsimp only
  rw [supplyChange_stage]
  simp only [beq_iff_eq]

theorem mainsIn_stays {m : Module} {dv : Word16} (h : m.alive = false ∨ m.pow.mains = true) : m.mainsIn dv = m := by
  unfold Module.mainsIn
  exact if_pos (by rcases h with h | h <;> simp [h])

theorem mainsOut_goes {m : Module} {dv : Word16} (ha : m.alive = true) (hm : m.pow.mains = true) :
    m.mainsOut dv = if m.pow.backup
      then (({ m with pow := { m.pow with mains := false, mainsDv := dv } }).supplyChange 1).toBackup.waitedStandby
      else (({ m with pow := { m.pow with mains := false, mainsDv := dv } }).supplyChange 1).holdup := by
  unfold Module.mainsOut
  rw [if_neg (by simp [ha, hm])]
  dsimp only
  rw [supplyChange_pow]

theorem mainsOut_stays {m : Module} {dv : Word16} (h : m.alive = false ∨ m.pow.mains = false) : m.mainsOut dv = m := by
  unfold Module.mainsOut
  exact if_pos (by rcases h with h | h <;> simp [h])

theorem backupIn_comes {m : Module} {cv : Word16} (ha : m.alive = true) (hb : m.pow.backup = false) :
    m.backupIn cv = if m.pow.mains = true ∧ m.pow.mainsSince + 200000000 ≤ m.clk.tick.toNat
      then ({ m with pow := { m.pow with backup := true, backupCv := cv } }).supplyChange 4
      else (({ m with pow := { m.pow with backup := true, backupCv := cv } }).supplyChange 4).toBackup := by
  unfold Module.backupIn Module.now twoSeconds
  rw [if_neg (by simp [ha, hb])]
  dsimp only
  rw [supplyChange_pow, supplyChange_clk]
  simp only [Bool.and_eq_true, decide_eq_true_eq]

theorem backupOut_goes {m : Module} {cv : Word16} (ha : m.alive = true) (hb : m.pow.backup = true) :
    m.backupOut cv = if m.pow.mains
      then (({ m with pow := { m.pow with backup := false, backupCv := cv } }).supplyChange 3).toMains
      else (({ m with pow := { m.pow with backup := false, backupCv := cv } }).supplyChange 3).holdup := by
  unfold Module.backupOut
  rw [if_neg (by simp [ha, hb])]
  dsimp only
  rw [supplyChange_pow]

theorem backupIn_dead {m : Module} {cv : Word16} (h : m.alive = false) : m.backupIn cv = m := by
  unfold Module.backupIn
  exact if_pos (by simp [h])

theorem backupOut_dead {m : Module} {cv : Word16} (h : m.alive = false) : m.backupOut cv = m := by
  unfold Module.backupOut
  exact if_pos (by simp [h])

/-- The effect of TO_MAINS (R301). -/
def Module.mainsSettled (m : Module) : Module :=
  if m.alive && m.pow.mains && decide (m.pow.mainsSince + twoSeconds ≤ m.now) then m.toMains else m

theorem exec_toMains (dt : Nat) (s : State) : exec (.toMains dt) s = s.on dt Module.mainsSettled := rfl

theorem mainsSettled_goes {m : Module} (ha : m.alive = true) (hm : m.pow.mains = true)
    (hs : m.pow.mainsSince + twoSeconds ≤ m.clk.tick.toNat) : m.mainsSettled = m.toMains :=
  if_pos (by simp [ha, hm, Module.now, hs])

theorem toMains_idle {m : Module} (h : m.pow.onBackup = false) : m.toMains = m := if_neg (by simp [h])

theorem mainsSettled_waits {m : Module} (h : m.pow.mains = false ∨
    m.clk.tick.toNat < m.pow.mainsSince + twoSeconds ∨ m.pow.onBackup = false) : m.mainsSettled = m := by
  unfold Module.mainsSettled
  rcases h with h | h | h
  · exact if_neg (by simp [h])
  · exact if_neg (by simp [Module.now, Nat.not_le.mpr h])
  · rw [toMains_idle h, ite_self]

/-- Settles O31: each row by the lemma of its operation; what a change of supply leaves is `supplyChange_keeps`. -/
theorem supplyChanges : Obligations.SupplyChanges := by
  unfold Obligations.SupplyChanges
  refine ⟨?mainsIn, ?mainsStays, ?mainsOut, ?noMains, ?backupIn, ?backupOut, ?dead, ?toMains, ?noChange,
    fun m cause => ⟨_, rfl, supplyChange_keeps m cause⟩⟩
  case mainsIn =>
    rintro s dt dv m rfl h1 h2 hm
    exact on_next (f := fun m => m.mainsIn dv) (mainsIn_comes (alive_of h1 h2) hm)
  case mainsStays =>
    rintro s dt dv m rfl h
    refine on_next (f := fun m => m.mainsIn dv) (mainsIn_stays ?_)
    rcases h with h | h | h
    · exact Or.inl (not_alive (Or.inl h))
    · exact Or.inl (not_alive (Or.inr h))
    · exact Or.inr h
  case mainsOut =>
    rintro s dt dv m x rfl h1 h2 hm rfl
    exact on_next (f := fun m => m.mainsOut dv) (mainsOut_goes (alive_of h1 h2) hm)
  case noMains =>
    rintro s dt dv m rfl h
    refine on_next (f := fun m => m.mainsOut dv) (mainsOut_stays ?_)
    rcases h with h | h | h
    · exact Or.inl (not_alive (Or.inl h))
    · exact Or.inl (not_alive (Or.inr h))
    · exact Or.inr h
  case backupIn =>
    rintro s dt cv m x rfl h1 h2 hb rfl
    exact on_next (f := fun m => m.backupIn cv) (backupIn_comes (alive_of h1 h2) hb)
  case backupOut =>
    rintro s dt cv m x rfl h1 h2 hb rfl
    exact on_next (f := fun m => m.backupOut cv) (backupOut_goes (alive_of h1 h2) hb)
  case dead =>
    rintro s dt cv m rfl h
    exact ⟨on_next (f := fun m => m.backupIn cv) (backupIn_dead (not_alive h)),
      on_next (f := fun m => m.backupOut cv) (backupOut_dead (not_alive h))⟩
  case toMains =>
    rintro s dt m rfl h1 h2 hm hs hb
    rw [exec_toMains]
    exact on_next ((mainsSettled_goes (alive_of h1 h2) hm hs).trans (if_pos hb))
  case noChange =>
    rintro s dt m rfl h
    rw [exec_toMains]
    exact on_next (mainsSettled_waits h)

/-! ### HOLDUP (R305, R306, R308) -/

/-- Records written one after another take the checkpoint with them. -/
theorem foldl_writeRecord_checkpoint : ∀ (l : List Boundary) (m : Module), l ≠ [] →
    (l.foldl (fun m r => m.writeRecord r) m).vault.checkpoint = some m.clk.cycle
  | [], _, h => absurd rfl h
  | [r], m, _ => (writeRecord_checkpoint m r).1
  | r :: r' :: l, m, _ => by
    refine (foldl_writeRecord_checkpoint (r' :: l) (m.writeRecord r) (List.cons_ne_nil _ _)).trans ?_
    rw [(writeRecord_checkpoint m r).2]

/-- At HOLDUP every open record is written, that of the stop at least, and so the checkpoint (R305, R348). -/
theorem closeRecords_checkpoint {m : Module} {f : Module → Module} (hs : m.stage = .holdup)
    (hf : ∀ x, Books x (f x)) (ho : ∀ x, (f x).meter.opened ≠ []) :
    (m.closeRecords f).vault.checkpoint = some m.clk.cycle := by
  have hd := books_demandClose m
  unfold Module.closeRecords
  dsimp only
  generalize hx : f _ = x
  have hx' : Books m x := by
    rw [← hx]
    exact (hd.withMeter _).trans (hf _)
  have hxo : x.meter.opened ≠ [] := by rw [← hx]; exact ho _
  rw [if_pos (by simp [hx'.stage, hs])]
  rw [foldl_writeRecord_checkpoint _ _ hxo]
  exact congrArg (fun c : Clock => some c.cycle) hx'.clk

/-- What of a module that stands still the power-on reset keeps (R306). -/
theorem powerOnReset_clk {m : Module} {c : Cycle} (h : m.vault.checkpoint = some c) :
    m.powerOnReset.clk = Clock.powerOn (c + 65536) := by
  unfold Module.powerOnReset
  rw [h]

theorem powerOnReset_account {m : Module} {b : Word32} (h : m.vault.backupPoint = some b) :
    m.powerOnReset.pow.account = b := by
  unfold Module.powerOnReset
  rw [h]

/-- The stop's own event at HOLDUP (R344, R348). -/
def Module.holdupEvent (asleep : Bool) (m : Module) : Module :=
  let m := m.supplyEvent 7
  { m with meter := m.meter.recordAt m.meter.committed (fun b => b.mark (if asleep then 0x28 else 0x08)) }

/-- The module as HOLDUP begins: VITAL-OK stopped, the plan dropped (R305). -/
def Module.holdupBegun (m : Module) : Module :=
  let x := if m.stage == .standby then m.gapSince (m.au / 32768 * 32768) else m
  { x with
    stage := .holdup
    prov := { x.prov with
      dark := true, toggling := false, lastToggle := if x.prov.toggling then x.now else x.prov.lastToggle }
    lamps := { x.lamps with plans := [] } }

/-- The module as its records and checkpoints are written, before the power-on reset (R305). -/
def Module.holdupWritten (m : Module) : Module :=
  let x := m.holdupBegun.closeRecords (Module.holdupEvent (m.stage == .standby))
  { x with vault := { x.vault with backupPoint := some x.pow.account }, diag := x.diag.cutShort }

theorem holdupBegun_keeps (m : Module) : m.holdupBegun.stage = .holdup ∧ m.holdupBegun.variant = m.variant ∧
    m.holdupBegun.clk = m.clk ∧ m.holdupBegun.vault = m.vault ∧ m.holdupBegun.upd = m.upd ∧
    m.holdupBegun.pow = m.pow := by
  unfold Module.holdupBegun
  dsimp only
  split
  · obtain ⟨x, h⟩ := gapSince_eq m (m.au / 32768 * 32768)
    rw [h]
    exact ⟨rfl, rfl, rfl, rfl, rfl, rfl⟩
  · exact ⟨rfl, rfl, rfl, rfl, rfl, rfl⟩

theorem holdup_eq (m : Module) : m.holdup = m.holdupWritten.powerOnReset := rfl

theorem books_holdupEvent (b : Bool) (m : Module) : Books m (m.holdupEvent b) :=
  ((Books.refl m).withMeter _).withMeter _

theorem holdupEvent_opened (b : Bool) (m : Module) : (m.holdupEvent b).meter.opened ≠ [] := recordAt_opened _ _ _

/-- What HOLDUP has written before the power-on reset (R305). -/
theorem holdupWritten_keeps (m : Module) : m.holdupWritten.variant = m.variant ∧ m.holdupWritten.upd = m.upd ∧
    m.holdupWritten.vault.config = m.vault.config ∧ m.holdupWritten.vault.hubEpoch = m.vault.hubEpoch ∧
    m.holdupWritten.vault.backupPoint = some m.pow.account ∧
    m.holdupWritten.vault.checkpoint = some m.clk.cycle := by
  obtain ⟨hs, hv, hc, hvault, hu, hp⟩ := holdupBegun_keeps m
  have hb := books_closeRecords m.holdupBegun _ (books_holdupEvent (m.stage == .standby))
  have hk := closeRecords_checkpoint hs (books_holdupEvent (m.stage == .standby))
    (holdupEvent_opened (m.stage == .standby))
  have hpow : (m.holdupBegun.closeRecords (Module.holdupEvent (m.stage == .standby))).pow = m.holdupBegun.pow := by
    rw [hb.same]
  refine ⟨hb.variant.trans hv, hb.upd.trans hu, hb.config.trans ?_, hb.hubEpoch.trans ?_, ?_, hk.trans ?_⟩
  · rw [hvault]
  · rw [hvault]
  · exact congrArg (fun p : Power => some p.account) (hpow.trans hp)
  · rw [hc]

/-! ### Standby and the wake (R324, R325) -/

/-- A ring till fails (R324). -/
def Module.failForward (m : Module) (f : Word16 × Word16 × Packet) : Module :=
  (m.setTill f.1 (fun _ => Till.closed)).complete f.2.1 f.2.2 0 stTimeout f.1 []

theorem talk_failForward (m : Module) (f : Word16 × Word16 × Packet) : Talk m (m.failForward f) :=
  (talk_setTill m f.1 _).trans (talk_complete _ f.2.1 f.2.2 0 stTimeout f.1 [])

theorem failForwards_eq (m : Module) : m.failForwards =
    m.ring.forwards.foldl Module.failForward { m with ring := { m.ring with forwards := [] } } := rfl

/-- Every ring till fails, and nothing else is lost (R324). -/
theorem talk_failForwards (m : Module) :
    Talk { m with ring := { m.ring with forwards := [] } } m.failForwards := by
  rw [failForwards_eq]
  exact talk_foldl _ talk_failForward _ _

theorem detachHost_off (m : Module) (cause : Byte) : (m.detachHost cause).win.attached = false := by
  unfold Module.detachHost
  split
  · rfl
  · simpa using ‹¬ m.win.attached = true›

/-- A host that is detached changes the window only. -/
theorem detachHost_keeps (m : Module) (cause : Byte) : m.detachHost cause = { m with win := (m.detachHost cause).win } := by
  unfold Module.detachHost
  split <;> rfl

/-- Standby's fallback and the condition of R225 that comes with it (R324). -/
def Module.darkened (m : Module) : Module := { m with prov := { m.prov with coreFb := true, dark := true } }

theorem darkened_cause (m : Module) : m.darkened.vitalCause ≠ 0 := by
  unfold Module.vitalCause
  split
  · decide
  · split
    · decide
    · split
      · decide
      · rw [if_pos (show m.darkened.prov.dark = true from rfl)]; decide

theorem darkened_stop (m : Module) : m.darkened.vitalStop.prov.coreFb = true ∧
    m.darkened.vitalStop.prov.dark = true ∧ m.darkened.vitalStop.prov.toggling = false := by
  refine ⟨?_, ?_, (vitalStop_open (darkened_cause m)).1⟩
  · rw [vitalStop_prov]; split <;> rfl
  · rw [vitalStop_prov]; split <;> rfl

/-- The module in standby, before the records are closed (R324). -/
def Module.asleep (m : Module) (cause : Nat) : Module :=
  m.darkened.vitalStop.dropSchedules.failForwards.ledgerEvent 3 cause 0xFF 0
    (m.darkened.vitalStop.win.used 0x2000 40960)

theorem talk_asleep (m : Module) (cause : Nat) :
    Talk { m.darkened.vitalStop.dropSchedules with
      ring := { m.darkened.vitalStop.dropSchedules.ring with forwards := [] } } (m.asleep cause) :=
  (talk_failForwards _).trans (talk_event _ _ _)

/-- What entering standby has changed before the records are closed (R324). -/
theorem asleep_keeps (m : Module) (cause : Nat) : (m.asleep cause).clk = m.clk ∧
    (m.asleep cause).vault = m.vault ∧ (m.asleep cause).prov.coreFb = true ∧ (m.asleep cause).prov.dark = true ∧
    (m.asleep cause).prov.toggling = false ∧ (m.asleep cause).lamps.plans = [] ∧
    (m.asleep cause).ring.forwards = [] := by
  have hd := drives_vitalStop m.darkened
  obtain ⟨h1, h2, h3⟩ := darkened_stop m
  have ht := talk_asleep m cause
  have hp : (m.asleep cause).prov = m.darkened.vitalStop.prov := ht.prov
  have hl : (m.asleep cause).lamps.plans = [] := by rw [ht.lamps]; rfl
  have hr : (m.asleep cause).ring.forwards = [] := by rw [ht.same]
  exact ⟨ht.clk.trans hd.clk, ht.vault.trans hd.vault, hp ▸ h1, hp ▸ h2, hp ▸ h3, hl, hr⟩

/-- The stop's own event at standby (R344, R349). -/
def Module.standbyEvent (m : Module) : Module :=
  { m with meter := m.meter.recordAt m.meter.committed (fun b => b.mark 0x20) }

/-- The module in standby, its records closed and its host detached (R324). -/
def Module.standbyClosed (m : Module) (cause : Nat) : Module :=
  ((m.asleep cause).closeRecords Module.standbyEvent).detachHost 2

/-- Standby powers the lanes, the ports and the host's enumeration down (R324). -/
def Module.standbyDown (m : Module) : Module :=
  { m with
    stage := .standby
    win := { m.win with enumerated := false }
    ring := m.ring.powerDown
    pow := { m.pow with standbyDue := false, countDone := false }
    maint := m.maint.rest
    drop := m.drop.rest }

theorem enterStandby_eq (m : Module) (cause : Nat) : m.enterStandby cause = (m.standbyClosed cause).standbyDown := rfl

/-- What standby's records and its detachment leave (R324, R349). -/
theorem standbyClosed_keeps (m : Module) (cause : Nat) : (m.standbyClosed cause).clk = m.clk ∧
    (m.standbyClosed cause).vault.hubEpoch = m.vault.hubEpoch ∧ (m.standbyClosed cause).prov.coreFb = true ∧
    (m.standbyClosed cause).prov.dark = true ∧ (m.standbyClosed cause).prov.toggling = false ∧
    (m.standbyClosed cause).lamps.plans = [] ∧ (m.standbyClosed cause).ring.forwards = [] ∧
    (m.standbyClosed cause).win.attached = false := by
  obtain ⟨h1, h2, h3, h4, h5, h6, h7⟩ := asleep_keeps m cause
  have hb : Books (m.asleep cause) ((m.asleep cause).closeRecords Module.standbyEvent) :=
    books_closeRecords _ _ (fun m => books_meter m _)
  have he : (m.standbyClosed cause) = { (m.asleep cause).closeRecords Module.standbyEvent with
    win := (m.standbyClosed cause).win } := detachHost_keeps _ 2
  have hring : ((m.asleep cause).closeRecords Module.standbyEvent).ring.forwards = (m.asleep cause).ring.forwards := by
    rw [hb.same]
  have hoff : (m.standbyClosed cause).win.attached = false := detachHost_off _ 2
  rw [he]
  refine ⟨hb.clk.trans h1, (hb.hubEpoch.trans (by rw [h2])), ?_, ?_, ?_, ?_, hring.trans h7, hoff⟩
  · exact (congrArg Proving.coreFb hb.prov).trans h3
  · exact (congrArg Proving.dark hb.prov).trans h4
  · exact (congrArg Proving.toggling hb.prov).trans h5
  · exact (congrArg Lamps.plans hb.lamps).trans h6

/-- The cores' fallback, VITAL-OK's power and toggling, and the fault records. -/
def Module.marks (m : Module) : Bool × Bool × Bool × Tbl FaultRec :=
  (m.prov.coreFb, m.prov.dark, m.prov.toggling, m.prov.records)

theorem marks_talk {m t : Module} (h : Talk m t) : t.marks = m.marks := by
  unfold Module.marks
  rw [h.prov]

theorem marks_stopLearning (m : Module) (p : Nat → Bool) (r : Nat) (b : Bool) :
    (m.stopLearning p r b).marks = m.marks := by
  unfold Module.stopLearning Module.settleLearns
  exact foldl_keeps Module.marks _ (fun m _ => marks_talk (talk_final m _ _ _ _)) _ _

theorem marks_stopWires (m : Module) (p : Nat → Bool) (b : Bool) : (m.stopWires p b).marks = m.marks := by
  unfold Module.stopWires Module.settleWires
  exact foldl_keeps Module.marks _ (fun m _ => marks_talk (talk_final m _ _ _ _)) _ _

theorem marks_sendSlice (m : Module) (n : Nat) (msg : HubMsg) (w : Option (Word16 × Packet)) :
    (m.sendSlice n msg w).marks = m.marks := by
  have h := (sends_sendSlice n m msg w).same
  rw [h]
  rfl

theorem marks_beginLoad (m : Module) (n : Nat) : (m.beginLoad n).marks = m.marks := by
  unfold Module.beginLoad
  exact (marks_sendSlice _ n _ _).trans (marks_sendSlice _ n _ _)

theorem marks_failBist (m : Module) (n : Nat) : (m.failBist n).marks = m.marks := by
  unfold Module.failBist
  split
  · split
    · exact (marks_talk (talk_final _ _ _ _ _)).trans rfl
    · rfl
  · rfl

theorem marks_reloadAll (m : Module) : m.reloadAll.marks = m.marks := by
  unfold Module.reloadAll
  refine (foldl_keeps Module.marks _ (fun m n => ?_) _ _).trans ?_
  · refine (marks_failBist _ n).trans ?_
    split
    · rfl
    · exact marks_beginLoad m n
  · refine (marks_stopWires _ _ _).trans ((marks_stopLearning _ _ _ _).trans ?_)
    exact foldl_keeps Module.marks _ (fun m s => marks_talk (talk_complete m _ _ _ _ _ _)) _ _

/-- What a wake is said to settle: the stage, the shelf, the clock, the vault, DROP's resumption and the marks. -/
def Module.awake (m : Module) : Stage × Bool × Clock × Vault × Option Nat × Bool × Bool × Bool × Tbl FaultRec :=
  (m.stage, m.shelf, m.clk, m.vault, m.drop.resumeAt, m.marks)

theorem awake_talk {m t : Module} (h : Talk m t) : t.awake = m.awake := by
  have hr : t.drop.resumeAt = m.drop.resumeAt := by rw [h.same]
  unfold Module.awake
  rw [h.stage, h.shelf, h.clk, h.vault, hr, marks_talk h]

theorem awake_trainLanes (m : Module) : m.trainLanes.awake = m.awake := by
  refine foldl_keeps Module.awake (fun m l => m.trainLane l) (fun m l => ?_) _ m
  unfold Module.trainLane
  split <;> rfl

/-- The module as it wakes, before its slices are loaded again (R325). -/
def Module.wakes (m : Module) : Module :=
  { m with
    prov := { m.prov with coreFb := false, dark := false }
    drop := { m.drop with resumeAt := some (m.now + 1000000) } }

/-- The wake's loads have begun, in the place the module has (R325). -/
theorem awake_reloadAll (m : Module) : ({ m.wakes.reloadAll with shelf := m.shelf } : Module).awake =
    (.reload, m.shelf, m.clk, m.vault, some (m.now + 1000000), false, false, m.prov.toggling, m.prov.records) := by
  have hs := serves_reloadAll m.wakes
  have hm : m.wakes.reloadAll.marks = (false, false, m.prov.toggling, m.prov.records) := marks_reloadAll _
  have hr : m.wakes.reloadAll.drop.resumeAt = some (m.now + 1000000) := by rw [hs.same]; rfl
  show (m.wakes.reloadAll.stage, m.shelf, m.wakes.reloadAll.clk, m.wakes.reloadAll.vault,
    m.wakes.reloadAll.drop.resumeAt, m.wakes.reloadAll.marks) = _
  rw [hs.stage, hs.clk, hs.vault, hr, hm]
  rfl

/-- What the wake does once the loads have begun leaves all that (R325). -/
theorem awake_wake (m : Module) (cause : Nat) :
    (m.wake cause).awake = ({ m.wakes.reloadAll with shelf := m.shelf } : Module).awake := by
  have hslices := fun y : Module => foldl_keeps Module.awake
    (fun m n => m.setSlice n (fun h => { h with startDue := true })) (fun _ _ => rfl) (List.range y.variant.slices) y
  have hmeter : ∀ y : Module, (if y.variant.metering then y.settleStart else y).awake = y.awake := by
    intro y; split <;> rfl
  have hent : ∀ (y : Module) (b : Bool), (if b then y else y.entropyEvent 6 0).awake = y.awake := by
    intro y b
    split
    · rfl
    · exact awake_talk (talk_event _ _ _)
  unfold Module.wake
  refine (hmeter _).trans ((hent _ _).trans ?_)
  refine (awake_talk (m := ?_) (talk_event _ _ _)).trans ?_
  refine (hslices _).trans (awake_trainLanes _)

/-- The countdown of STANDBY_ARMED has run out (R322, R324). -/
theorem countdown_ends {m : Module} (hu : m.coresUp = true) (hl : m.pow.ledger = 2)
    (hc : m.pow.countFrom + tickRate * m.items.standbyAfter.toNat ≤ m.clk.tick.toNat) :
    m.countdown = if m.pow.onBackup = true ∧ m.pow.mains = false then m.enterStandby 5
      else { m with pow := { m.pow with countDone := true } } := by
  unfold Module.countdown Module.mayStandby
  rw [if_pos (by simp [hu, hl, Module.now, hc])]
  simp only [hu, Bool.true_and, Bool.and_eq_true, Bool.not_eq_true']

theorem countdown_runs {m : Module} (h : m.coresUp = false ∨ m.pow.ledger ≠ 2 ∨
    m.clk.tick.toNat < m.pow.countFrom + tickRate * m.items.standbyAfter.toNat) : m.countdown = m := by
  unfold Module.countdown
  refine if_neg ?_
  rcases h with h | h | h
  · simp [h]
  · simp [h]
  · simp [Module.now, Nat.not_le.mpr h]

/-- Settles O32: HOLDUP by `holdupWritten_keeps`, standby by `standbyClosed_keeps`, the wake by `awake_wake`. -/
theorem holdupAndStandby : Obligations.HoldupAndStandby := by
  unfold Obligations.HoldupAndStandby
  refine ⟨?holdup, ?standby, ?countdown, ?waits, ?checkpoint, ?wake⟩
  case holdup =>
    intro m
    obtain ⟨hv, hu, hc, he, hb, hk⟩ := holdupWritten_keeps m
    refine ⟨_, holdup_eq m, rfl, hv, rfl, rfl, rfl, rfl, rfl, rfl, rfl, ?_, ?_, ?_, hc, he, hb, hk,
      powerOnReset_clk hk, powerOnReset_account hb, rfl⟩
    · show m.holdupWritten.upd.bank0 = m.upd.bank0
      rw [hu]
    · show m.holdupWritten.upd.bank1 = m.upd.bank1
      rw [hu]
    · show m.holdupWritten.upd.swapped = m.upd.swapped
      rw [hu]
  case standby =>
    intro m cause
    obtain ⟨h1, h2, h3, h4, h5, h6, h7, h8⟩ := standbyClosed_keeps m cause
    exact ⟨_, enterStandby_eq m cause, rfl, h3, h4, h5, h6, h8, rfl, h7, rfl, rfl, rfl, rfl, h1, h2⟩
  case countdown =>
    rintro s dt m rfl hu hl hc
    exact on_next (f := fun m => m.countdown) (countdown_ends hu hl hc)
  case waits =>
    rintro s dt m rfl h
    exact on_next (f := fun m => m.countdown) (countdown_runs h)
  case checkpoint =>
    rintro s dt m rfl
    refine on_next ?_
    simp only [beq_iff_eq]
  case wake =>
    intro m cause
    have h := (awake_wake m cause).trans (awake_reloadAll m)
    simp only [Module.awake, Module.marks, Prod.mk.injEq] at h
    obtain ⟨h1, h2, h3, h4, h5, h6, h7, h8, h9⟩ := h
    exact ⟨_, rfl, h1, h6, h7, h8, h9, h2, h3, congrArg Vault.config h4, h5⟩

end Sys2Proof.Machine
end


section
/-! PROOFS. The backup account, the thermal model and the metering (`Obligations.AccountsAndHeat`,
`Obligations.HalfCycleCommits`, `Obligations.DemandAndTariffs`). -/

namespace Sys2Proof.Machine
open Sys2Proof

/-! ### The backup account and the ledger (R304, R310, R322) -/

/-- What is taken from BACKUP is what was measured, and not more than is there (R310). -/
theorem account_sub (a g : Word32) : (a - (if g.toNat < a.toNat then g else a)).toNat = a.toNat - g.toNat := by
  split
  · bv_omega
  · rw [BitVec.sub_self]
    have : (0#32).toNat = 0 := rfl
    omega

theorem integrate_idle {m : Module} {groats : Word32}
    (h : m.stage = .unpowered ∨ m.stage = .holdup ∨ m.pow.onBackup = false) : m.integrate groats = m := by
  unfold Module.integrate
  refine if_neg ?_
  rcases h with h | h | h
  · simp [not_alive (Or.inl h)]
  · simp [not_alive (Or.inr h)]
  · simp [h]

theorem integrate_falls {m : Module} {groats : Word32} (ha : m.alive = true) (hb : m.pow.onBackup = true) :
    m.integrate groats =
      let x := { m with pow := { m.pow with
        account := m.pow.account - (if groats.toNat < m.pow.account.toNat then groats else m.pow.account) } }
      if m.coresUp then x.judgeLedger 2 else x := by
  unfold Module.integrate
  rw [if_pos (by simp [ha, hb])]
  rfl

/-- The effect of BACKUP_CHECKPOINT (R310). -/
def Module.backupCheckpointed (m : Module) : Module :=
  if m.alive && m.pow.onBackup then { m with vault := { m.vault with backupPoint := some m.pow.account } } else m

theorem exec_backupCheckpoint (dt : Nat) (s : State) :
    exec (.backupCheckpoint dt) s = s.on dt Module.backupCheckpointed := rfl

theorem backupCheckpointed_idle {m : Module}
    (h : m.stage = .unpowered ∨ m.stage = .holdup ∨ m.pow.onBackup = false) : m.backupCheckpointed = m := by
  unfold Module.backupCheckpointed
  refine if_neg ?_
  rcases h with h | h | h
  · simp [not_alive (Or.inl h)]
  · simp [not_alive (Or.inr h)]
  · simp [h]

theorem backupCheckpointed_writes {m : Module} (ha : m.alive = true) (hb : m.pow.onBackup = true) :
    m.backupCheckpointed = { m with vault := { m.vault with backupPoint := some m.pow.account } } :=
  if_pos (by simp [ha, hb])

/-- Ticks of the 4 h of mains after which BACKUP is full again (R310). -/
def refillTicks : Nat := 1440000000000

/-- The effect of BACKUP_REFILL (R310). -/
def Module.refilled (m : Module) : Module :=
  if m.alive && m.pow.mains && !m.pow.onBackup && decide (m.pow.mainsSince + refillTicks ≤ m.now) then
    { m with pow := { m.pow with account := m.items.capacity } }
  else m

theorem exec_backupRefill (dt : Nat) (s : State) : exec (.backupRefill dt) s = s.on dt Module.refilled := rfl

theorem refilled_fills {m : Module} (ha : m.alive = true) (hm : m.pow.mains = true) (hb : m.pow.onBackup = false)
    (hs : m.pow.mainsSince + refillTicks ≤ m.clk.tick.toNat) :
    m.refilled = { m with pow := { m.pow with account := m.items.capacity } } :=
  if_pos (by simp [ha, hm, hb, Module.now, hs])

theorem refilled_waits {m : Module} (h : m.pow.mains = false ∨ m.pow.onBackup = true ∨
    m.clk.tick.toNat < m.pow.mainsSince + refillTicks) : m.refilled = m := by
  unfold Module.refilled
  refine if_neg ?_
  rcases h with h | h | h
  · simp [h]
  · simp [h]
  · simp [Module.now, Nat.not_le.mpr h]

/-- The effect of RESERVE_ARMED (R304). -/
def Module.reserve (m : Module) (groats : Word32) : Module :=
  if m.alive then
    { m with pow := { m.pow with
      holdup := if 24000 < groats.toNat then 24000 else groats, armed := decide (8000 ≤ groats.toNat) } }
  else m

theorem exec_reserveArmed (dt : Nat) (groats : Word32) (s : State) :
    exec (.reserveArmed dt groats) s = s.on dt (fun m => m.reserve groats) := rfl

/-- The reserve reads at most 24,000 groats (R304). -/
theorem reserve_most (g : Word32) : (if 24000 < g.toNat then (24000 : Word32) else g).toNat = min 24000 g.toNat := by
  have h : (24000 : Word32).toNat = 24000 := rfl
  split <;> omega

/-- The ledger's state by the account (R322). -/
theorem ledgerFor_zero (m : Module) : m.ledgerFor = 0 ↔ m.pow.onBackup = false ∨
    (m.items.capacity ≠ 0 ∧ m.items.leanBelow.toNat ≤ m.pow.account.toNat) := by
  unfold Module.ledgerFor
  dsimp only
  split
  · rename_i hc
    obtain ⟨hb, hl⟩ : m.pow.onBackup = true ∧
        (m.items.capacity = 0 ∨ m.pow.account.toNat < m.items.leanBelow.toNat) := by simpa using hc
    constructor
    · intro h
      split at h <;> exact absurd h (by decide)
    · rintro (h | ⟨h1, h2⟩)
      · exact absurd hb (by simp [h])
      · rcases hl with h | h
        · exact absurd h h1
        · exact absurd h (Nat.not_lt.mpr h2)
  · rename_i hc
    refine ⟨fun _ => ?_, fun _ => rfl⟩
    cases hb : m.pow.onBackup with
    | false => exact Or.inl rfl
    | true => exact Or.inr (by simpa [hb] using hc)

theorem ledgerFor_lean (m : Module) (h : m.ledgerFor ≠ 0) : m.ledgerFor = 1 ↔ m.items.standbyAfter = 0 := by
  unfold Module.ledgerFor at *
  dsimp only at *
  split at h
  · rename_i hc
    rw [if_pos hc]
    by_cases hs : m.items.standbyAfter = 0 <;> simp [hs]
  · exact absurd rfl h

theorem ledgerFor_le (m : Module) : m.ledgerFor ≤ 2 := by
  unfold Module.ledgerFor
  dsimp only
  split
  · split <;> decide
  · decide

theorem judgeLedger_same {m : Module} {cause : Nat} (h : m.ledgerFor = m.pow.ledger) : m.judgeLedger cause = m := by
  unfold Module.judgeLedger
  exact if_pos (beq_iff_eq.mpr h)

theorem judgeLedger_moves {m : Module} {cause : Nat} (h : m.ledgerFor ≠ m.pow.ledger) :
    m.judgeLedger cause = ({ m with pow := { m.pow with
      ledger := m.ledgerFor, countFrom := m.now, countDone := false } }).ledgerEvent m.ledgerFor cause 0xFF 0 0 := by
  unfold Module.judgeLedger
  exact if_neg (by simp [h])

/-! ### The thermal model (R248, R311, R312) -/

/-- The loss of a slice's last cycle (R311). -/
def Module.heatLoss (m : Module) (n : Nat) : Nat :=
  let h := m.slice n
  sliceLoss (meanSquares h.heat) h.ons (if h.warm then h.tEst else Config.freeInt m.free) m.clk.period.toNat

/-- One of the filters of a slice's loss, of `tau` seconds (R311). -/
def Module.heatFilter (m : Module) (n old tau : Nat) : Nat :=
  if (m.slice n).warm then Config.filter old (m.heatLoss n) m.clk.period.toNat tau else m.heatLoss n

/-- T_est of a slice after its last cycle (R311). -/
def Module.heatEst (m : Module) (n : Nat) : Int :=
  let h := m.slice n
  let p1 := m.heatFilter n h.p1 1
  let p20 := m.heatFilter n h.p20 20
  if (Tbl.get (0, 1) m.live.sliceOpts n).2 == 1 && h.ths != 0 && h.ths != 16383 then
    max (dieTemp h.tdie) (Config.ntcTemp h.ths + 150 * (p20 : Int) / 1000000000)
  else dieTemp h.tdie + 150 * (max 0 ((p1 : Int) - p20)) / 1000000000

/-- The slice after one cycle of its thermal model (R311, R312). -/
def Module.heated (m : Module) (n : Nat) : HubSlice :=
  let h := m.slice n
  { h with
    tEst := m.heatEst n, p1 := m.heatFilter n h.p1 1, p20 := m.heatFilter n h.p20 20, warm := true
    stretch := stretchOf h.stretch (12500 - m.heatEst n), heat := [], ons := (0, 0), modelAt := m.clk.wraps }

/-- What a cycle of the thermal model writes before its event. -/
def Module.modelled (m : Module) (n : Nat) (hub : Int) : Module :=
  ({ m with free := if (m.slice n).warm then m.free else m.free + 1, pow := { m.pow with hubTemp := hub } }).setSlice n
    (fun h => { h with
      tEst := m.heatEst n, p1 := m.heatFilter n (m.slice n).p1 1, p20 := m.heatFilter n (m.slice n).p20 20, warm := true
      stretch := stretchOf (m.slice n).stretch (12500 - m.heatEst n), heat := [], ons := (0, 0)
      modelAt := m.clk.wraps })

theorem thermal_runs {m : Module} {n : Nat} {hub : Int} (hu : m.coresUp = true) (hl : (m.slice n).loaded = true)
    (ha : (m.slice n).modelAt ≠ m.clk.wraps) : Talk (m.modelled n hub) (m.thermal n hub) := by
  unfold Module.thermal
  rw [if_pos (by simp [hu, hl, ha])]
  exact (Talk.refl (m.modelled n hub)).ite (talk_event _ _ _)

theorem thermal_idle {m : Module} {n : Nat} {hub : Int}
    (h : m.coresUp = false ∨ (m.slice n).loaded = false ∨ (m.slice n).modelAt = m.clk.wraps) : m.thermal n hub = m := by
  unfold Module.thermal
  refine if_neg ?_
  rcases h with h | h | h <;> simp [h]

/-- The stretch factor by the headroom, with its hysteresis (R312). -/
theorem stretchOf_steps (f : Nat) (head : Int) : (head < 500 → stretchOf f head = 4) ∧
    (500 ≤ head → head < 1000 → stretchOf f head = if f = 4 then 4 else 2) ∧
    (1000 ≤ head → head < 1500 → stretchOf f head = if f = 1 then 1 else 2) ∧ (1500 ≤ head → stretchOf f head = 1) := by
  unfold stretchOf
  refine ⟨fun h => if_pos h, fun h1 h2 => ?_, fun h1 h2 => ?_, fun h => ?_⟩
  · rw [if_neg (by omega), if_pos h2]
  · rw [if_neg (by omega), if_neg (by omega), if_pos h2]
  · rw [if_neg (by omega), if_neg (by omega), if_neg (by omega)]

theorem hub_modelled {m : Module} (hw : Tbl.wf HubSlice.reset m.hub = true) (n : Nat) (hub : Int) (k : Nat) :
    (m.modelled n hub).slice k = if k = n then m.heated n else m.slice k :=
  slice_setSlice (m := { m with
    free := if (m.slice n).warm then m.free else m.free + 1, pow := { m.pow with hubTemp := hub } }) hw n k _

/-- Settles O33: the account's rows by their effects, the ledger by `ledgerFor_zero` and `ledgerFor_lean`, the thermal
model by `thermal_runs` and `hub_modelled`. -/
theorem accountsAndHeat : Obligations.AccountsAndHeat := by
  unfold Obligations.AccountsAndHeat
  refine ⟨⟨?falls, ?idle, ?checkpoint, ?refill, ?noRefill, ?reserve, ?ledger, ?judgeSame, ?judgeMoves⟩,
    ?model, ?noModel, stretchOf_steps⟩
  case falls =>
    rintro s dt groats m x rfl h1 h2 hb rfl
    exact ⟨account_sub _ _, on_next (f := fun m => m.integrate groats) (integrate_falls (alive_of h1 h2) hb)⟩
  case idle =>
    rintro s dt groats m rfl h
    refine ⟨on_next (f := fun m => m.integrate groats) (integrate_idle h), ?_⟩
    rw [exec_backupCheckpoint]
    exact on_next (backupCheckpointed_idle h)
  case checkpoint =>
    rintro s dt m rfl h1 h2 hb
    rw [exec_backupCheckpoint]
    exact on_next (backupCheckpointed_writes (alive_of h1 h2) hb)
  case refill =>
    rintro s dt m rfl h1 h2 hm hb hs
    rw [exec_backupRefill]
    exact on_next (refilled_fills (alive_of h1 h2) hm hb hs)
  case noRefill =>
    rintro s dt m rfl h
    rw [exec_backupRefill]
    exact on_next (refilled_waits h)
  case reserve =>
    rintro s dt groats m rfl h1 h2
    rw [exec_reserveArmed]
    exact ⟨_, on_next (if_pos (alive_of h1 h2)), rfl, rfl, reserve_most groats, decide_eq_true_iff⟩
  case ledger => exact fun m => ⟨ledgerFor_zero m, ledgerFor_lean m, ledgerFor_le m⟩
  case judgeSame => exact fun m cause h => judgeLedger_same h
  case judgeMoves => exact fun m cause h => judgeLedger_moves h
  case model =>
    rintro s dt n hub m rfl hn hu hl ha hw
    have ht := thermal_runs (hub := hub) hu hl ha
    have hs : ∀ k, ((s.m.elapse dt).thermal n hub).slice k =
        if k = n then (s.m.elapse dt).heated n else (s.m.elapse dt).slice k := by
      intro k
      rw [← hub_modelled hw n hub k]
      unfold Module.slice
      rw [ht.hub]
    refine ⟨_, onSlice_to hn rfl, ht.pow, ?_⟩
    rw [hs n, if_pos rfl]
    generalize s.m.elapse dt = m at *
    refine ⟨rfl, rfl, rfl, rfl, rfl, ?_, ?_, ?_, ?_, ht.prov, ht.clk, ht.lamps, ?_⟩
    · intro h
      simp [Module.heated, Module.heatFilter, h]
    · intro h
      simp [Module.heated, Module.heatFilter, Module.heatLoss, h]
    · intro h1 h2 h3
      simp [Module.heated, Module.heatEst, h1, h2, h3]
    · intro h
      have hc : ((Tbl.get (0, 1) m.live.sliceOpts n).2 == 1 && (m.slice n).ths != 0 && (m.slice n).ths != 16383) =
          false := by
        rcases h with h | h | h <;> simp [h]
      simp only [Module.heated, Module.heatEst, hc, Bool.false_eq_true, if_false]
    · intro k hk
      rw [hs k, if_neg hk]
  case noModel =>
    rintro s dt n hub m rfl hn h
    exact onSlice_to hn (thermal_idle h)

/-! ### Half-cycles committed (R329-R331) -/

/-- From `m` to `t` the slices are as they were, but for a second burst that was waiting for its voltage. -/
structure Carries (m t : Module) : Prop where
  wf : Tbl.wf HubSlice.reset m.hub = true → Tbl.wf HubSlice.reset t.hub = true
  slice : Tbl.wf HubSlice.reset m.hub = true → ∀ n, t.slice n = { m.slice n with carry := (t.slice n).carry }

namespace Carries
variable {m t u : Module}
theorem ofHub (h : t.hub = m.hub) : Carries m t := by
  refine ⟨fun w => by rw [h]; exact w, fun _ n => ?_⟩
  unfold Module.slice
  rw [h]
theorem refl (m : Module) : Carries m m := ofHub rfl
theorem trans (h : Carries m t) (h' : Carries t u) : Carries m u := by
  refine ⟨fun w => h'.wf (h.wf w), fun w n => ?_⟩
  rw [h'.slice (h.wf w) n, h.slice w n]
theorem foldl {α : Type} (f : Module → α → Module) (h : ∀ m a, Carries m (f m a)) :
    ∀ (l : List α) (m : Module), Carries m (l.foldl f m)
  | [], m => refl m
  | a :: l, m => (h m a).trans (foldl f h l _)
end Carries

theorem carries_gatherSecond (m : Module) (n : Nat) (right : Int) : Carries m (m.gatherSecond n right) := by
  unfold Module.gatherSecond
  split
  · refine Carries.trans (t := m.setSlice n (fun h => { h with carry := none })) ⟨fun w => wf_setSlice w n _, ?_⟩
      (.ofHub ?_)
    · intro w k
      rw [slice_setSlice w]
      split
      · rename_i hk
        rw [hk]
      · rfl
    · refine foldl_keeps (fun m : Module => m.hub) _ ?_ _ _
      exact fun _ _ => rfl
  · exact Carries.refl m

theorem carries_gatherLate (m : Module) (half n : Nat) : Carries m (m.gatherLate half n) := by
  unfold Module.gatherLate
  split
  · split
    · exact (Carries.ofHub (m := m) (t := { m with free := m.free + 1 }) rfl).trans (carries_gatherSecond _ n _)
    · exact Carries.refl m
  · exact Carries.refl m

theorem substitute_hub (m : Module) (n b : Nat) : (m.substitute n b).hub = m.hub := by
  unfold Module.substitute
  refine foldl_keeps (fun m => m.hub) _ (fun m ch => ?_) _ m
  dsimp only
  split
  · split <;> rfl
  · rfl

theorem carries_fillGaps (m : Module) (half n : Nat) : Carries m (m.fillGaps half n) :=
  .ofHub (foldl_keeps (fun m => m.hub) (fun m b => m.substitute n b) (fun m b => substitute_hub m n b) _ m)

theorem carries_countHalf (m : Module) (half ticks tariff : Nat) : Carries m (m.countHalf half ticks tariff) := by
  unfold Module.countHalf
  split
  · exact (Carries.foldl (fun m s => (m.gatherLate half s).fillGaps half s)
      (fun m s => (carries_gatherLate m half s).trans (carries_fillGaps _ half s)) _ m).trans (.ofHub rfl)
  · exact Carries.refl m

theorem demandClose_hub (m : Module) : m.demandClose.hub = m.hub := by
  unfold Module.demandClose
  split
  · split <;> rfl
  · rfl

theorem pass_hub (m : Module) : m.pass.hub = m.hub := by
  unfold Module.pass
  split <;> rfl

theorem writeRecord_hub (m : Module) (b : Boundary) : (m.writeRecord b).hub = m.hub := by
  refine Eq.trans ?_ (pass_hub m)
  unfold Module.writeRecord
  dsimp only
  split
  · exact (talk_event _ _ _).hub
  · rfl

theorem writeBelow_hub (m : Module) (au : Nat) : (m.writeBelow au).hub = m.hub := by
  unfold Module.writeBelow
  dsimp only
  split
  · exact foldl_keeps (fun m => m.hub) _ (fun m r => writeRecord_hub m r) _ _
  · rfl

theorem carries_commitHalf (m : Module) (b ticks tariff : Nat) : Carries m (m.commitHalf b ticks tariff) :=
  ((Carries.ofHub (demandClose_hub m)).trans (.ofHub (writeBelow_hub _ b))).trans
    ((carries_countHalf _ ((b / 32768 + 1) % 2) ticks tariff).trans (.ofHub rfl))

theorem halfEnergy_nonpos {sum : Int} {ticks : Nat} (h : sum ≤ 0) : halfEnergy sum ticks = 0 := by
  have hp : sum * (ticks : Int) ≤ 0 := Int.mul_nonpos_of_nonpos_of_nonneg h (Int.natCast_nonneg ticks)
  unfold halfEnergy
  rw [Int.toNat_eq_zero]
  omega

/-- A counter after an amount is added, with the remainder below the unit (R331). -/
theorem add_counts {t : Meter} {k e unit : Nat} (hc : Tbl.wf (0 : BitVec 64) t.counters = true)
    (hr : Tbl.wf 0 t.rem = true) (hlt : t.counter k + (Tbl.get 0 t.rem k + e) / unit < 2 ^ 64) :
    (t.add k e unit).counter k = t.counter k + (Tbl.get 0 t.rem k + e) / unit ∧
      Tbl.get 0 (t.add k e unit).rem k = (Tbl.get 0 t.rem k + e) % unit ∧
      ∀ j, j ≠ k → (t.add k e unit).counter j = t.counter j ∧ Tbl.get 0 (t.add k e unit).rem j = Tbl.get 0 t.rem j := by
  have hrem : ∀ j, Tbl.get 0 (Tbl.set 0 t.rem k ((Tbl.get 0 t.rem k + e) % unit)) j =
      if j = k then (Tbl.get 0 t.rem k + e) % unit else Tbl.get 0 t.rem j := fun j => Tbl.get_set hr _ _ _
  unfold Meter.add
  dsimp only
  split
  · rename_i h0
    refine ⟨by rw [h0]; rfl, (hrem k).trans (if_pos rfl), fun j hj => ⟨rfl, (hrem j).trans (if_neg hj)⟩⟩
  · have hset := counter_setCounter (t := { t with rem := Tbl.set 0 t.rem k ((Tbl.get 0 t.rem k + e) % unit) }) hc k
      (t.counter k + (Tbl.get 0 t.rem k + e) / unit)
    refine ⟨((hset k).trans (if_pos rfl)).trans (Nat.mod_eq_of_lt hlt), (hrem k).trans (if_pos rfl),
      fun j hj => ⟨(hset j).trans (if_neg hj), (hrem j).trans (if_neg hj)⟩⟩

/-- The effect of HALF_CYCLE_COMMIT (R330). -/
def Module.committed (m : Module) : Module :=
  match m.meter.ended with
  | some (b, ticks, tariff) => if m.coresUp && decide (b + 256 ≤ m.au) then m.commitHalf b ticks tariff else m
  | none => m

theorem exec_halfCycleCommit (dt : Nat) (s : State) : exec (.halfCycleCommit dt) s = s.on dt Module.committed := rfl

theorem committed_ended {m : Module} {b ticks tariff : Nat} (hu : m.coresUp = true)
    (he : m.meter.ended = some (b, ticks, tariff)) (hb : b + 256 ≤ m.au) :
    m.committed = m.commitHalf b ticks tariff := by
  unfold Module.committed
  rw [he]
  exact if_pos (by simp [hu, hb])

theorem committed_waits {m : Module} (h : m.coresUp = false ∨ m.meter.ended = none ∨
    ∃ b ticks tariff, m.meter.ended = some (b, ticks, tariff) ∧ m.au < b + 256) : m.committed = m := by
  unfold Module.committed
  split
  · rename_i b ticks tariff he
    refine if_neg ?_
    rcases h with h | h | ⟨b', t', x', h, hlt⟩
    · simp [h]
    · rw [he] at h; exact absurd h (by simp)
    · rw [he] at h
      simp only [Option.some.injEq, Prod.mk.injEq] at h
      rw [h.1]
      simp [Nat.not_le.mpr hlt]
  · rfl

/-- Settles O34: the commit by `commitHalf_keeps` and `carries_commitHalf`, a counter by `add_counts`. -/
theorem halfCycleCommits : Obligations.HalfCycleCommits := by
  unfold Obligations.HalfCycleCommits
  refine ⟨?commits, ?waits, ?adds, fun sum ticks h => halfEnergy_nonpos h⟩
  case commits =>
    rintro s dt b ticks tariff m rfl hu he hb
    rw [exec_halfCycleCommit]
    obtain ⟨hbooks, h1, h2, h3⟩ := commitHalf_keeps (s.m.elapse dt) b ticks tariff
    exact ⟨_, on_next (committed_ended hu he hb), rfl, h1, h2, h3, hbooks.clk, hbooks.mem, hbooks.prov, hbooks.lamps,
      (carries_commitHalf _ b ticks tariff).slice⟩
  case waits =>
    rintro s dt m rfl h
    rw [exec_halfCycleCommit]
    exact on_next (committed_waits h)
  case adds =>
    intro t k e unit hu hc hr hlt
    obtain ⟨h1, h2, h3⟩ := add_counts hc hr hlt
    refine ⟨?_, by rw [h2]; exact Nat.mod_lt _ hu, h3⟩
    rw [h1, h2]
    have := Nat.div_add_mod (Tbl.get 0 t.rem k + e) unit
    rw [Nat.mul_add]
    omega

/-! ### Demand closes and tariff changes (R334, R336-R338, R345) -/

theorem closeInterval_none (t : Meter) (now : Nat) :
    t.closeInterval now = none ↔ t.gridLen = 0 ∨ now < t.closeAfter t.lastClose := by
  unfold Meter.closeInterval
  dsimp only
  split
  · rename_i h
    simp only [reduceCtorEq, false_iff, not_or, Nat.not_lt]
    exact h
  · rename_i h
    simp only [true_iff]
    omega

/-- A close with a result is written into the record of its boundary (R345). -/
theorem demandClose_result {m : Module} {t : Meter} {c : Nat} {fl : Byte} (hv : m.variant.metering = true)
    (h : m.meter.closeInterval (m.meter.committed / 65536) = some (t, c, some fl)) :
    m.demandClose = { m with meter := t.recordAt t.committed (fun b => b.demand t t.lastTariff fl) } := by
  unfold Module.demandClose
  rw [if_pos hv, h]

theorem demandClose_empty {m : Module} {t : Meter} {c : Nat} (hv : m.variant.metering = true)
    (h : m.meter.closeInterval (m.meter.committed / 65536) = some (t, c, none)) :
    m.demandClose = { m with meter := t } := by
  unfold Module.demandClose
  rw [if_pos hv, h]

theorem demandClose_waits {m : Module}
    (h : m.variant.metering = false ∨ m.meter.closeInterval (m.meter.committed / 65536) = none) :
    m.demandClose = m := by
  unfold Module.demandClose
  split
  · rename_i hv
    rcases h with h | h
    · exact absurd hv (by simp [h])
    · rw [h]
  · rfl

theorem tariffChange_waits {m : Module}
    (h : m.variant.metering = false ∨ ∀ e ∈ m.meter.pendingTariffs, m.clk.cycle.toNat < e.2.1) : m.tariffChange = m := by
  unfold Module.tariffChange
  split
  · rename_i hv
    rcases h with h | h
    · exact absurd hv (by simp [h])
    · rw [applyTariffs_none _ _ h]
  · rfl

/-- Of the changes that are due the last in cycle order decides (R334). -/
theorem applyTariffs_due {t : Meter} {now : Nat} (h : ∃ e ∈ t.pendingTariffs, e.2.1 ≤ now) :
    ∃ u c x, t.applyTariffs now = some (u, c, x) ∧ c ≤ now ∧ (∃ k, (k, c, x) ∈ t.pendingTariffs) ∧
      (∀ e ∈ t.pendingTariffs, e.2.1 ≤ now → e.2.1 ≤ c) ∧ u.committed = t.committed := by
  obtain ⟨e0, he0, hle0⟩ := h
  have hne : t.pendingTariffs.filter (fun e => decide (e.2.1 ≤ now)) ≠ [] :=
    List.ne_nil_of_mem (List.mem_filter.mpr ⟨he0, decide_eq_true hle0⟩)
  obtain ⟨⟨k, c, x⟩, hlast, hmem, hmax⟩ := lastChange_some _ hne
  obtain ⟨hin, hdue⟩ := List.mem_filter.mp hmem
  have happ : t.applyTariffs now = some (t.setCounters
      ((t.pendingTariffs.filter (fun e => decide (e.2.1 ≤ now))).map (fun e => (e.1, 0)) ++ [(3278, x)]), c, x) := by
    unfold Meter.applyTariffs
    dsimp only
    rw [hlast]
  exact ⟨_, c, x, happ, of_decide_eq_true hdue, ⟨k, hin⟩,
    fun e he hle => hmax e (List.mem_filter.mpr ⟨he, decide_eq_true hle⟩), setCounters_committed t _⟩

theorem tariffChange_applies {m : Module} {t : Meter} {c x : Nat} (hv : m.variant.metering = true)
    (h : m.meter.applyTariffs m.clk.cycle.toNat = some (t, c, x)) :
    ∃ u, m.tariffChange = { m with meter := u } ∧ u.counters = t.counters ∧ u.committed = t.committed := by
  unfold Module.tariffChange
  rw [if_pos hv, h]
  exact ⟨_, rfl, rfl, rfl⟩

/-- Settles O36: a close by `closeInterval_none` and the `demandClose` lemmas, a change by `applyTariffs_due`. -/
theorem demandAndTariffs : Obligations.DemandAndTariffs := by
  unfold Obligations.DemandAndTariffs
  refine ⟨?result, ?empty, ?noClose, closeInterval_none, ?noTariff, ?tariff⟩
  case result =>
    rintro s dt m t c fl rfl hu hv h
    exact on_next ((if_pos hu).trans (demandClose_result hv h))
  case empty =>
    rintro s dt m t c rfl hu hv h
    exact on_next ((if_pos hu).trans (demandClose_empty hv h))
  case noClose =>
    rintro s dt m rfl h
    refine on_next ?_
    rcases h with h | h
    · exact if_neg (by simp [h])
    · rw [demandClose_waits h, ite_self]
  case noTariff =>
    rintro s dt m rfl h
    refine on_next ?_
    rcases h with h | h
    · exact if_neg (by simp [h])
    · rw [tariffChange_waits h, ite_self]
  case tariff =>
    rintro s dt m rfl hu hv h
    obtain ⟨t, c, x, ht, hc, hk, hmax, hcom⟩ := applyTariffs_due h
    obtain ⟨u, hchange, hcnt, hu2⟩ := tariffChange_applies hv ht
    exact ⟨t, c, x, ht, hc, hk, hmax, u, on_next ((if_pos hu).trans hchange), hcnt, hu2.trans hcom⟩

end Sys2Proof.Machine
end


section
/-! PROOFS. Lanes, spans and notices (`Obligations.LinkFrames`). -/

namespace Sys2Proof.Machine
open Sys2Proof

/-- A row of a lane that the variant has, by what its effect comes to. -/
theorem onLane_to {s : State} {dt : Nat} {l : Lane} {f : Module → Module} {t : Module}
    (hl : (s.m.elapse dt).variant.fits l = true) (h : f (s.m.elapse dt) = t) :
    s.onLane dt l f = .next { s with m := t } := by
  rw [onLane_next hl, h]

/-- A link-control row on a lane in lock, by what its effect comes to (R266, R289). -/
theorem onLink_to {s : State} {dt : Nat} {hdr : LinkHdr} {side : Side} {f : Side → Module → Module} {t : Module}
    (hu : (s.m.elapse dt).ringUp = true) (hs : laneSide (farLane hdr.lane) = some side)
    (h2 : ((s.m.elapse dt).lane (farLane hdr.lane)).state = 2)
    (h : f side ((s.m.elapse dt).seeEpoch ((s.m.elapse dt).peerPosition side).toNat hdr.srcEpoch) = t) :
    s.on dt (fun m => m.onLink hdr f) = .next { s with m := t } :=
  on_next ((onLink_ok hu hs h2).trans h)

theorem ringUp_ready {m : Module} (hv : m.variant.hasRing = true) (hs : m.stage = .ready) : m.ringUp = true := by
  simp [Module.ringUp, hv, Module.coresUp, hs]

/-! ### Lanes (R253, R255) -/

/-- A lane that trains may take the link up: it is neither up, nor idle, nor under test. -/
def LaneSt.down? (l : LaneSt) : Prop := l.state ≠ 2 ∧ l.state ≠ 3 ∧ l.state ≠ 4

/-- The lane just locked (R253, R255). -/
def LaneSt.locked (x : LaneSt) (state : Nat) (fec : Bool) : LaneSt :=
  { x with state := state, fec := fec, delay := none, echoes := [], train := none }

/-- The condition under which a trained lane locks (R253, R255). -/
theorem laneUp_iff {m : Module} {l : Lane} {fec : Bool} :
    (m.coresUp && fec == (if l = .h then m.items.hFec else m.items.ringFec) && (m.lane l).state != 2 &&
      (m.lane l).state != 3 && (m.lane l).state != 4) = true ↔
      m.coresUp = true ∧ fec = (if l = .h then m.items.hFec else m.items.ringFec) ∧ (m.lane l).down? := by
  unfold LaneSt.down?
  simp only [Bool.and_eq_true, beq_iff_eq, bne_iff_ne, and_assoc]

theorem laneUp_stays {m : Module} {l : Lane} {fec : Bool}
    (h : m.coresUp = false ∨ (fec ≠ if l = .h then m.items.hFec else m.items.ringFec) ∨ (m.lane l).state = 2) :
    m.laneUp l fec = m := by
  unfold Module.laneUp
  dsimp only
  refine if_neg (fun hc => ?_)
  obtain ⟨h1, h2, h3, -⟩ := laneUp_iff.mp hc
  rcases h with h | h | h
  · exact absurd h1 (by simp [h])
  · exact h h2
  · exact h3 h

theorem laneUp_host {m : Module} {fec : Bool} (hu : m.coresUp = true) (hf : fec = m.items.hFec)
    (hd : (m.lane .h).down?) : m.laneUp .h fec = m.setLane .h (fun x => x.locked 2 fec) := by
  unfold Module.laneUp
  dsimp only
  rw [if_pos (laneUp_iff.mpr ⟨hu, hf, hd⟩)]
  simp only [laneSide, show (Lane.h == Lane.e1) = false from rfl, show (Lane.h == Lane.w1) = false from rfl,
    Bool.or_false, Bool.and_false, Bool.false_eq_true, if_false]
  rfl

theorem laneUp_ring {m : Module} {l : Lane} {fec : Bool} {side : Side} (hu : m.coresUp = true)
    (hf : fec = m.items.ringFec) (hs : laneSide l = some side) (hd : (m.lane l).down?)
    (hi : m.ring.e1w1Idle = false ∨ l = .e0 ∨ l = .w0) :
    m.laneUp l fec = ({ (m.setLane l (fun x => x.locked 2 fec)) with
      out := m.out ++ [Out.link l 0x42 (u64 m.clk.tick.toNat)] }).beginAuth side := by
  have hl : l ≠ .h := by rintro rfl; exact absurd hs (by simp [laneSide])
  have hidle : (m.ring.e1w1Idle && (l == .e1 || l == .w1)) = false := by
    rcases hi with h | h | h
    · simp [h]
    · subst h; simp
    · subst h; simp
  unfold Module.laneUp
  dsimp only
  rw [if_pos (laneUp_iff.mpr ⟨hu, by rw [if_neg hl]; exact hf, hd⟩), hidle, hs]
  rfl

theorem laneUp_idle {m : Module} {l : Lane} {fec : Bool} {side : Side} (hu : m.coresUp = true)
    (hf : fec = m.items.ringFec) (hs : laneSide l = some side) (hd : (m.lane l).down?)
    (hi : m.ring.e1w1Idle = true) (h1 : l = .e1 ∨ l = .w1) :
    m.laneUp l fec = m.setLane l (fun x => x.locked 3 fec) := by
  have hl : l ≠ .h := by rintro rfl; exact absurd hs (by simp [laneSide])
  have hidle : (m.ring.e1w1Idle && (l == .e1 || l == .w1)) = true := by
    rcases h1 with h | h <;> · subst h; simp [hi]
  unfold Module.laneUp
  dsimp only
  rw [if_pos (laneUp_iff.mpr ⟨hu, by rw [if_neg hl]; exact hf, hd⟩), hidle, hs]
  rfl

theorem laneDown_goes {m : Module} {l : Lane} (ha : m.alive = true) (h0 : (m.lane l).state ≠ 0)
    (h4 : (m.lane l).state ≠ 4) :
    m.laneDown l = ((m.setLane l (fun x => { x with
      state := 0, losses := satInc x.losses, delay := none, echoes := [] })).trainLane l).linkGone l := by
  unfold Module.laneDown
  exact if_pos (by simp [ha, h0, h4])

theorem laneDown_stays {m : Module} {l : Lane} (h : (m.lane l).state = 0 ∨ (m.lane l).state = 4) :
    m.laneDown l = m := by
  unfold Module.laneDown
  exact if_neg (by rcases h with h | h <;> simp [h])

/-! ### Spans that break and are restored (R257, R282-R284) -/

theorem talk_pushRef {m t : Module} (h : Talk m t) (p : List (FinalRef × Bool × Bool)) :
    Talk { m with ring := { m.ring with pushRef := p } } { t with ring := { t.ring with pushRef := p } } := by
  refine ⟨?_, h.wf⟩
  rw [h.same]

/-- What the known breaks leave of a module: its own spans, lanes in another form and new echoes (R8, R257). -/
theorem noteBreak_breaks (m : Module) (key : Nat) : ∃ b i l o, m.noteBreak key true = { m with
    ring := { m.ring with breaks := b, form := turnedForm m.ring.form, e1w1Idle := i, lanes := l }, out := o } := by
  unfold Module.noteBreak
  dsimp only
  rw [if_pos rfl]
  obtain ⟨i, l, o, h⟩ := takeForm_eq { m with ring := { m.ring with breaks := Tbl.set false m.ring.breaks key true } }
    (turnedForm m.ring.form)
  exact ⟨_, i, l, o, h⟩

/-- A break that closes makes the form whole where none is left (R257, R284). -/
theorem noteBreak_closes (m : Module) (key : Nat) : ∃ b i l o, m.noteBreak key false = { m with
    ring := { m.ring with
      breaks := b, e1w1Idle := i, lanes := l
      form := if (Tbl.set false m.ring.breaks key false).isEmpty && !m.ring.east.broken && !m.ring.west.broken
        then wholeForm m.ring.form else m.ring.form }, out := o } := by
  unfold Module.noteBreak
  dsimp only
  rw [if_neg (by decide)]
  split
  · obtain ⟨i, l, o, h⟩ := takeForm_eq
      { m with ring := { m.ring with breaks := Tbl.set false m.ring.breaks key false } } (wholeForm m.ring.form)
    exact ⟨_, i, l, o, h⟩
  · exact ⟨_, _, _, _, rfl⟩

/-- The span of a side is broken, and counted (R172, R282). -/
def Module.spanBroken (m : Module) (side : Side) : Module :=
  let x := m.setSpan side (fun s => { s with broken := true })
  { x with ring := { x.ring with wraps := satInc x.ring.wraps, quiet := true } }

/-- A span breaks: it is broken and counted, the form turns; beside that the known breaks, the lanes and the pushes
follow, and the neighbours are told (R257, R282, R283). -/
theorem breakSpan_breaks {m : Module} {side : Side} (h : (m.span side).broken = false) : ∃ b i l o p,
    Talk { m.spanBroken side with
      ring := { (m.spanBroken side).ring with
        breaks := b, form := turnedForm (m.spanBroken side).ring.form, e1w1Idle := i, lanes := l, pushRef := p }
      out := o } (m.breakSpan side) := by
  have he : m.breakSpan side = ((((m.spanBroken side).noteBreak
      (breakKey m.positionByte.toNat (m.peerPosition side).toNat) true).sendChange 1
      (m.peerPosition side).toNat).ringChange 1 (m.peerPosition side).toNat (lane0 side).code 0).settlePushes := by
    unfold Module.breakSpan
    rw [if_neg (by simp [h])]
    cases side <;> rfl
  obtain ⟨b, i, l, o, hn⟩ := noteBreak_breaks (m.spanBroken side)
    (breakKey m.positionByte.toNat (m.peerPosition side).toNat)
  rw [he, hn]
  generalize hx : ({ m.spanBroken side with
      ring := { (m.spanBroken side).ring with
        breaks := b, form := turnedForm (m.spanBroken side).ring.form, e1w1Idle := i, lanes := l }
      out := o } : Module) = x
  have ht := (talk_sendChange x 1 (m.peerPosition side).toNat).trans
    (talk_ringChange _ 1 (m.peerPosition side).toNat (lane0 side).code 0)
  obtain ⟨p, hp⟩ := settlePushes_talk
    ((x.sendChange 1 (m.peerPosition side).toNat).ringChange 1 (m.peerPosition side).toNat (lane0 side).code 0)
  refine ⟨b, i, l, o, p, ?_⟩
  have hq := (talk_pushRef ht p).trans hp
  rw [← hx] at hq ⊢
  exact hq

theorem breakSpan_broken (m : Module) (side : Side) : ((m.breakSpan side).span side).broken = true := by
  cases h : (m.span side).broken with
  | true =>
    unfold Module.breakSpan
    rw [if_pos h, h]
  | false =>
    obtain ⟨b, i, l, o, p, ht⟩ := breakSpan_breaks h
    unfold Module.span
    rw [ht.same]
    cases side <;> rfl

theorem linkGone_host (m : Module) :
    (m.linkGone .h).win.attached = false ∧ (m.linkGone .h).win.enumerated = false := by
  exact ⟨detachHost_off m 2, rfl⟩

/-- A link that is gone breaks the span whose first lane it is (R282). -/
theorem linkGone_broken (m : Module) (side : Side) : ((m.linkGone (lane0 side)).span side).broken = true := by
  have hl : laneSide (lane0 side) = some side := by cases side <;> rfl
  unfold Module.linkGone
  rw [hl]
  dsimp only
  rw [if_pos (by simp)]
  exact breakSpan_broken _ side

/-- The condition under which a broken span is restored (R270, R284). -/
theorem unwrapSpan_stays {m : Module} {side : Side} (h : (m.span side).broken = false ∨ m.spanUsable side = false ∨
    2048 ≤ m.clk.angle.toNat % 32768) : m.unwrapSpan side = m := by
  unfold Module.unwrapSpan
  refine if_neg ?_
  rcases h with h | h | h
  · simp [h]
  · simp [h]
  · simp [Nat.not_lt.mpr h]

theorem span_talk {m t : Module} (h : Talk m t) (side : Side) : t.span side = m.span side := by
  unfold Module.span
  rw [h.same]

theorem form_talk {m t : Module} (h : Talk m t) : t.ring.form = m.ring.form := by rw [h.same]

/-- A restored span is whole, and the form with it where no break is left (R257, R284). -/
theorem unwrapSpan_restores {m : Module} {side other : Side} (ho : other ≠ side) (hup : m.ringUp = true)
    (hb : (m.span side).broken = true) (hs : m.stage = .ready) (hu : m.spanUsable side = true)
    (hp : (m.peerFlags side).getLsbD 1 = true) (ha : m.clk.angle.toNat % 32768 < 2048) :
    ((m.unwrapSpan side).span side).broken = false ∧
      (m.unwrapSpan side).ring.form = (if (m.span other).broken = false ∧
          Tbl.set false m.ring.breaks (breakKey m.positionByte.toNat (m.peerPosition side).toNat) false = []
        then wholeForm m.ring.form else m.ring.form) := by
  have hc : (m.ringUp && (m.span side).broken && m.spanUsable side && m.stage == .ready &&
      (m.peerFlags side).getLsbD 1 && decide (m.clk.angle.toNat % 32768 < 2048)) = true := by
    simp [hup, hb, hs, hu, hp, ha]
  have he : m.unwrapSpan side = (((m.setSpan side (fun s => { s with broken := false })).noteBreak
      (breakKey m.positionByte.toNat (m.peerPosition side).toNat) false).sendChange 2
      (m.peerPosition side).toNat).ringChange 2 (m.peerPosition side).toNat (lane0 side).code 0 := by
    unfold Module.unwrapSpan
    rw [if_pos hc]
    cases side <;> rfl
  obtain ⟨b, i, l, o, hn⟩ := noteBreak_closes (m.setSpan side (fun s => { s with broken := false }))
    (breakKey m.positionByte.toNat (m.peerPosition side).toNat)
  have ht := (talk_sendChange ((m.setSpan side (fun s => { s with broken := false })).noteBreak
    (breakKey m.positionByte.toNat (m.peerPosition side).toNat) false) 2 (m.peerPosition side).toNat).trans
    (talk_ringChange _ 2 (m.peerPosition side).toNat (lane0 side).code 0)
  rw [← he, hn] at ht
  refine ⟨?_, ?_⟩
  · rw [span_talk ht]
    cases side <;> rfl
  · rw [form_talk ht]
    cases side <;> cases other
    · exact absurd rfl ho
    · refine if_congr ?_ rfl rfl
      simp [Module.setSpan, Module.span, and_comm]
    · refine if_congr ?_ rfl rfl
      simp [Module.setSpan, Module.span, and_comm]
    · exact absurd rfl ho

/-! ### ECHO (R267) -/

theorem answerEcho_answers {m : Module} {l : Lane} {tick : Nat} (hu : m.ringUp = true) (hs : (m.lane l).state = 2)
    (hl : l ≠ .h) : m.answerEcho l tick = { m with
      free := m.free + 1, out := m.out ++ [Out.link l 0x43 (u64 tick ++ u32 (Config.freeInt m.free).toNat)] } := by
  unfold Module.answerEcho
  rw [if_pos (by simp [hu, hs, hl])]
  rfl

/-- The measurement that an ECHO_REPLY gives, in ns, with those before it (R267). -/
def Module.echoesOf (m : Module) (l : Lane) (tick turn : Nat) : List Nat :=
  5 * (m.clk.tick.toNat - tick - turn) :: (m.lane l).echoes

/-- What a reply makes of a lane that is being measured (R267). -/
theorem takeEcho_measures {m : Module} {l : Lane} {side : Side} {tick turn : Nat} (hu : m.ringUp = true)
    (hs : (m.lane l).state = 2) (hl : laneSide l = some side) (hd : (m.lane l).delay = none) :
    m.takeEcho l tick turn =
      if (m.echoesOf l tick turn).length < 8 then
        (m.setLane l (fun s => { s with echoes := m.echoesOf l tick turn })).measure l
      else if median8 (m.echoesOf l tick turn) ≤ 1000 then
        m.setLane l (fun s => { s with
          echoes := m.echoesOf l tick turn, delay := some (median8 (m.echoesOf l tick turn)) })
      else (m.setLane l (fun s => { s with echoes := [], delay := none, state := 0 })).linkGone l := by
  unfold Module.takeEcho
  rw [hl]
  dsimp only
  rw [if_pos (by simp [hu, hs, hd])]
  rfl

/-! ### Notices and acknowledgements (R280, R295, R407) -/

theorem nearWefts_far {a b : Word32} (h : 15 < (a - b).toNat ∧ 15 < (b - a).toNat) : nearWefts a b = false := by
  unfold nearWefts
  rw [decide_eq_false (Nat.not_le.mpr h.1), decide_eq_false (Nat.not_le.mpr h.2)]
  rfl

/-- A notice with none near it is counted (R172, R280). -/
theorem takeNotice_counts {f : Module} {weft : Word32}
    (h : ∀ w, f.ring.lastNotice = some w → 15 < (weft - w).toNat ∧ 15 < (w - weft).toNat) :
    f.takeNotice weft = { f with ring := { f.ring with
      slotViolations := satInc f.ring.slotViolations, lastNotice := some weft } } := by
  have hn : (f.ring.lastNotice.any (fun w => nearWefts weft w)) = false := by
    cases hl : f.ring.lastNotice with
    | none => rfl
    | some w => exact nearWefts_far (h w hl)
  unfold Module.takeNotice
  simp only [hn, Bool.false_eq_true, if_false]

/-- A second notice within 15 wefts mutes and makes the module adopt the domain angle again (R280). -/
theorem takeNotice_mutes {f : Module} {weft w : Word32} (hl : f.ring.lastNotice = some w)
    (hw : (weft - w).toNat ≤ 15) : Talk { f with ring := { f.ring with
      slotViolations := satInc f.ring.slotViolations, lastNotice := some weft, muted := true, calmRun := 0
      muteUntil := some (f.clk.turn / 32768 + 16), readopt := true } } (f.takeNotice weft) := by
  have hn : (f.ring.lastNotice.any (fun w => nearWefts weft w)) = true := by
    rw [hl]
    show nearWefts weft w = true
    unfold nearWefts
    rw [decide_eq_true hw, Bool.true_or]
  unfold Module.takeNotice
  simp only [hn, if_true]
  exact talk_ringChange _ _ _ _ _

/-- The neighbour's copy is current (R172, R295, R407). -/
def Module.acked (m : Module) (side : Side) : Module :=
  let x := m.setSpan side (fun s => { s with acked := s.auth == .done })
  match side with
  | .east => { x with ring := { x.ring with
      escrowE := true, pushRef := x.ring.pushRef.map (fun (j : FinalRef × Bool × Bool) => (j.1, false, j.2.2)) } }
  | .west => { x with ring := { x.ring with
      escrowW := true, pushRef := x.ring.pushRef.map (fun (j : FinalRef × Bool × Bool) => (j.1, j.2.1, false)) } }

theorem takeAck_marks {f : Module} (side : Side) : ∃ k p,
    Talk { f.acked side with
      vault := { (f.acked side).vault with alternate := k }, ring := { (f.acked side).ring with pushRef := p } }
      (f.takeAck side f.revision) := by
  obtain ⟨k, hk⟩ := erasePrevious_eq (f.acked side)
  obtain ⟨p, hp⟩ := settlePushes_talk (f.acked side).erasePrevious
  rw [hk] at hp
  refine ⟨k, p, ?_⟩
  have he : f.takeAck side f.revision = (f.acked side).erasePrevious.settlePushes := by
    unfold Module.takeAck
    rw [if_pos rfl]
    cases side <;> rfl
  rw [he, hk]
  exact hp

theorem acked_span (f : Module) (side : Side) : ((f.acked side).span side).acked = ((f.span side).auth == .done) := by
  cases side <;> rfl

/-- Settles O37: a lane by the `laneUp` and `laneDown` lemmas, a span by `breakSpan_broken` and `unwrapSpan_restores`, an
ECHO_REPLY by `takeEcho_measures`, a notice by `takeNotice_counts` and `takeNotice_mutes`. -/
theorem linkFrames : Obligations.LinkFrames := by
  unfold Obligations.LinkFrames
  refine ⟨⟨?host, ?ring, ?noLock, ?loss, ?noLoss, ?gone, ?unwrap, ?noUnwrap, ?echo, ?reply⟩, ?notice, ?ack⟩
  case host =>
    rintro s dt l fec m rfl hl hu hf h2 h3 h4 hw rfl
    refine ⟨_, onLane_to (f := fun m => m.laneUp .h fec) hl (laneUp_host hu hf ⟨h2, h3, h4⟩), ?_, ?_, ?_, rfl⟩ <;>
      rw [lane_setLane hw] <;> rfl
  case ring =>
    rintro s dt l fec side m rfl hl hu hf hs h2 h3 h4
    exact ⟨fun hi => onLane_to hl (laneUp_ring hu hf hs ⟨h2, h3, h4⟩ hi),
      fun hi h1 => onLane_to hl (laneUp_idle hu hf hs ⟨h2, h3, h4⟩ hi h1)⟩
  case noLock =>
    rintro s dt l fec m rfl hl h
    exact onLane_to hl (laneUp_stays h)
  case loss =>
    rintro s dt l m rfl hl h1 h2 h0 h4
    exact onLane_to hl (laneDown_goes (alive_of h1 h2) h0 h4)
  case noLoss =>
    rintro s dt l m rfl hl h
    exact onLane_to hl (laneDown_stays h)
  case gone =>
    intro m
    obtain ⟨h1, h2⟩ := linkGone_host m
    exact ⟨h1, h2, linkGone_broken m .east, linkGone_broken m .west⟩
  case unwrap =>
    rintro s dt side other m rfl ho hv hs hb hu hp ha
    obtain ⟨h1, h2⟩ := unwrapSpan_restores ho (ringUp_ready hv hs) hb hs hu hp ha
    exact ⟨_, on_next (f := fun m => m.unwrapSpan side) rfl, h1, h2⟩
  case noUnwrap =>
    rintro s dt side m rfl h
    exact on_next (f := fun m => m.unwrapSpan side) (unwrapSpan_stays h)
  case echo =>
    rintro s dt l tick m rfl hl hu hs hne
    exact onLane_to hl (answerEcho_answers hu hs hne)
  case reply =>
    rintro s dt l side tick turn m rfl hl hu hs hside hd
    have hm := takeEcho_measures (tick := tick) (turn := turn) hu hs hside hd
    have hlen : ((s.m.elapse dt).echoesOf l tick turn).length = ((s.m.elapse dt).lane l).echoes.length + 1 := rfl
    refine ⟨fun h => onLane_to hl (hm.trans (if_pos (by omega))), fun h h8 => ?_, fun h h8 => ?_⟩
    · exact onLane_to hl (hm.trans ((if_neg (by omega)).trans (if_pos h8)))
    · exact onLane_to hl (hm.trans ((if_neg (by omega)).trans (if_neg (Nat.not_le.mpr h8))))
  case notice =>
    rintro s dt hdr weft slot loop side m f rfl hu hs h2 rfl
    refine ⟨fun h => onLink_to (f := fun _ m => m.takeNotice weft) hu hs h2 (takeNotice_counts h),
      fun w hl hw => ?_⟩
    have ht := takeNotice_mutes hl hw
    refine ⟨_, onLink_to (f := fun _ m => m.takeNotice weft) hu hs h2 rfl, ?_, ?_, ?_, ht.clk, ?_, ?_⟩ <;> rw [ht.same]
  case ack =>
    rintro s dt hdr revision side m f rfl hu hs h2 rfl
    refine ⟨fun h => onLink_to (f := fun side m => m.takeAck side revision) hu hs h2 (if_neg h),
      fun h => ⟨_, onLink_to (f := fun side m => m.takeAck side revision) hu hs h2 rfl, ?_⟩⟩
    generalize (s.m.elapse dt).seeEpoch _ _ = f at *
    subst h
    obtain ⟨k, p, ht⟩ := takeAck_marks (f := f) side
    refine ⟨?_, ?_, (congrArg Span.acked (span_talk ht side)).trans ?_, ?_, ?_⟩
    · rintro rfl
      rw [ht.same]
      exact ⟨rfl, rfl⟩
    · rintro rfl
      rw [ht.same]
      exact ⟨rfl, rfl⟩
    · exact acked_span f side
    · rw [ht.vault]; cases side <;> rfl
    · rw [ht.vault]; cases side <;> rfl

end Sys2Proof.Machine
end


section
/-! PROOFS. Neighbours and their handshake (`Obligations.Neighbours`, `Obligations.Handshake`). -/

namespace Sys2Proof.Machine
open Sys2Proof

/-! ### HELLO (R259, R262, R265, R266) -/

/-- A link-control frame on a lane that is not in lock, or while the ring rests, is ignored (R266). -/
theorem onLink_ignores {m : Module} {hdr : LinkHdr} {f : Side → Module → Module}
    (h : m.ringUp = false ∨ hdr.lane = .h ∨ (m.lane (farLane hdr.lane)).state ≠ 2) : m.onLink hdr f = m := by
  unfold Module.onLink
  cases hs : laneSide (farLane hdr.lane) with
  | none => rfl
  | some side =>
    refine if_neg ?_
    rcases h with h | h | h
    · simp [h]
    · rw [h] at hs; exact absurd hs (by simp [farLane, laneSide])
    · simp [h]

/-- A known neighbour's HELLO is kept (R265, R266). -/
def Module.helloKept (m : Module) (side : Side) (epoch : Word16) (position claim variant flags name : Byte)
    (seen : Word16) : Module :=
  ((m.seeEpoch position.toNat epoch).seeVariant position variant).setSpan side (fun y => { y with
    hello := some (position, claim, variant, flags, name, seen), epoch := epoch, helloGap := 0 })

/-- The HELLO of a neighbour of the same epoch that has its place goes on to the handshake (R266, R268). -/
theorem takeHello_known {m : Module} {side : Side} {epoch : Word16} {position claim variant flags name : Byte}
    {seen : Word16} (he : (m.span side).epoch = epoch) (hp : unplaced position flags = false) :
    m.takeHello side epoch position claim variant flags name seen =
      let x := m.helloKept side epoch position claim variant flags name seen
      x.helloAuth side false (x.vault.current.isSome != flags.getLsbD 0) := by
  unfold Module.takeHello
  dsimp only
  rw [if_pos he, hp, he]
  simp only [Bool.false_and, Bool.false_eq_true, if_false, ne_eq, not_true_eq_false, decide_false, Bool.and_false]
  rfl

/-- With keys on both sides, or on none, the handshake begins (R268). -/
theorem helloAuth_begins {x : Module} {side : Side} (ha : (x.span side).auth ≠ .keyless) :
    x.helloAuth side false false = x.beginAuth side := by
  have hk : ((x.span side).auth == .keyless) = false := beq_false_of_ne ha
  simp only [Module.helloAuth, hk, Bool.false_and, Bool.or_self, Bool.false_eq_true, if_false]

/-- With a key on exactly one side the span is KEYLESS (R269). -/
theorem helloAuth_keyless {x : Module} {side : Side} (hu : x.spanUp side = true) :
    x.helloAuth side false true = x.setSpan side (fun y => { y with auth := .keyless, deadline := none }) := by
  simp only [Module.helloAuth, hu, Bool.not_true, Bool.and_false, Bool.or_self, Bool.false_eq_true, if_false,
    Bool.and_self, if_true]

/-- HELLO goes both ways on lanes in lock (R263, R266). -/
theorem sendHello_sends {m : Module} (hu : m.ringUp = true) (he : (m.lane .e0).state = 2) (hw : (m.lane .w0).state = 2) :
    m.sendHello = { m with
      out := m.out ++ [Out.link .e0 0x41 (m.helloPayload .east), .link .w0 0x41 (m.helloPayload .west)]
      ring := { m.ring with
        east := { m.ring.east with refused := m.ring.east.refused - 1 }
        west := { m.ring.west with refused := m.ring.west.refused - 1 } } } := by
  have h1 : m.link .east 0x41 (m.helloPayload .east) =
      { m with out := m.out ++ [.link .e0 0x41 (m.helloPayload .east)] } := link_up (side := .east) he _ _
  have h2 : ∀ o : List Out, (({ m with out := o } : Module).link .west 0x41 (m.helloPayload .west)) =
      { m with out := o ++ [.link .w0 0x41 (m.helloPayload .west)] } := fun o =>
    link_up (m := { m with out := o }) (side := .west) hw _ _
  unfold Module.sendHello
  rw [if_pos hu, h1, h2, List.append_assoc]
  rfl

theorem helloPayload_layout (m : Module) (side : Side) : (m.helloPayload side).length = 8 ∧
    fieldAt (m.helloPayload side) 0 1 = m.positionByte.toNat := by
  unfold Module.helloPayload
  dsimp only
  refine ⟨?_, ?_⟩
  · simp only [u8, u16, rsv, List.length_append, length_leBytes, List.length_replicate]
  · simp only [List.append_assoc]
    exact fieldAt_bitVec 1 m.positionByte rfl

/-- The row of HELLO_TIMEOUT (R266, R282). -/
def Module.helloSilent (m : Module) (side : Side) : Module :=
  if m.ringUp && decide (64 ≤ (m.span side).helloGap) then m.breakSpan side else m

theorem helloSilent_eq (m : Module) (side : Side) : m.helloSilent side =
    if m.ringUp = true ∧ 64 ≤ (m.span side).helloGap then m.breakSpan side else m := by
  unfold Module.helloSilent
  simp only [Bool.and_eq_true, decide_eq_true_eq]

theorem breakSpan_idle {m : Module} {side : Side} (h : (m.span side).broken = true) : m.breakSpan side = m := by
  unfold Module.breakSpan
  exact if_pos h

/-- What a break leaves (R257, R282). -/
theorem breakSpan_keeps {m : Module} {side : Side} (h : (m.span side).broken = false) :
    (m.breakSpan side).ring.form = turnedForm m.ring.form ∧ (m.breakSpan side).ring.wraps = satInc m.ring.wraps ∧
      (m.breakSpan side).ring.quiet = true ∧ (m.breakSpan side).clk = m.clk ∧ (m.breakSpan side).lamps = m.lamps ∧
      (m.breakSpan side).prov = m.prov ∧ (m.breakSpan side).win.mem = m.win.mem := by
  obtain ⟨b, i, l, o, p, ht⟩ := breakSpan_breaks h
  refine ⟨?_, ?_, ?_, ?_, ?_, ?_, ?_⟩ <;> rw [ht.same] <;> cases side <;> rfl

/-- Settles O38: HELLO by `takeHello_known` and the `helloAuth` lemmas, a break by `breakSpan_keeps`. -/
theorem neighbours : Obligations.Neighbours := by
  unfold Obligations.Neighbours
  refine ⟨?row, ?ignored, ?hello, ?send, helloPayload_layout, ?timeout, ?idle, ?breaks⟩
  case row =>
    rintro s dt hdr position claim variant flags name seen side m rfl hu hs h2
    exact onLink_to (f := fun side m => m.takeHello side hdr.srcEpoch position claim variant flags name seen) hu hs h2 rfl
  case ignored =>
    rintro s dt hdr position claim variant flags name seen m rfl h
    exact on_next (f := fun m => m.onLink hdr (fun side m =>
      m.takeHello side hdr.srcEpoch position claim variant flags name seen)) (onLink_ignores h)
  case hello =>
    rintro m x side epoch position claim variant flags name seen he hp rfl
    refine ⟨fun ha hk => ?_, fun hk hu => ?_⟩
    · refine (takeHello_known he hp).trans ?_
      dsimp only
      rw [show (m.helloKept side epoch position claim variant flags name seen).vault.current.isSome =
        flags.getLsbD 0 from hk, bne_self_eq_false]
      exact helloAuth_begins ha
    · refine (takeHello_known he hp).trans ?_
      dsimp only
      rw [show ((m.helloKept side epoch position claim variant flags name seen).vault.current.isSome !=
        flags.getLsbD 0) = true from bne_iff_ne.mpr hk]
      exact helloAuth_keyless hu
  case send =>
    rintro s dt m rfl hu he hw
    exact ⟨_, on_next (sendHello_sends hu he hw), rfl, rfl, rfl⟩
  case timeout =>
    rintro s dt side m rfl
    exact on_next (f := fun m => m.helloSilent side) (helloSilent_eq _ side)
  case idle => exact fun m side h => breakSpan_idle h
  case breaks => exact fun m side h => ⟨_, rfl, breakSpan_broken m side, breakSpan_keeps h⟩

/-! ### The handshake (R268, R401, R406, R408) -/

theorem takeA_draws {f : Module} {epoch : Word16} {na : List Byte} (hk : f.vault.current.isSome = true)
    (hu : f.spanUp .west = true) :
    f.takeA epoch na = ((if (f.span .west).auth = .done then f.breakSpan .west else f).setSpan .west (fun x => { x with
      auth := .none, na := na, epoch := epoch, attempt := x.attempt + 1, deadline := none })).nonce .west := by
  unfold Module.takeA
  rw [if_pos (by simp [hk, hu])]
  simp only [beq_iff_eq]

/-- The E side answers with its nonce and MB (R268, R406). -/
theorem sendB_answers {m : Module} {nb k : List Byte} (hk : m.attemptKey m.ring.west.attempt = some k)
    (hw : (m.lane .w0).state = 2) : m.sendB nb = { m with
      ring := { m.ring with west := { m.ring.west with
        auth := .sentB, nb := nb, current := some k == m.vault.current
        deadline := some (m.clk.tick.toNat + 20000000) } }
      out := m.out ++ [.link .w0 0x45 (nb ++ hmac k (mbText m.ring.west.na nb m.ring.west.epoch m.vault.hubEpoch))] } := by
  unfold Module.sendB
  dsimp only
  rw [hk]
  exact link_up (m := m.setSpan .west _) (side := .west) hw _ _

/-- An exchange on time (R98, R268). -/
theorem inExchange_of {f : Module} {side : Side} {st : Auth} {d : Nat} (ha : (f.span side).auth = st)
    (hd : (f.span side).deadline = some d) (ht : f.clk.tick.toNat ≤ d) : f.inExchange side st = true := by
  unfold Module.inExchange Module.expired Module.now
  rw [ha, hd]
  simp [Nat.not_lt.mpr ht]

theorem not_inExchange {f : Module} {side : Side} {st : Auth} {d : Nat} (hd : (f.span side).deadline = some d)
    (ht : d < f.clk.tick.toNat) : f.inExchange side st = false := by
  unfold Module.inExchange Module.expired Module.now
  rw [hd]
  simp [ht]

theorem takeB_late {f : Module} {epoch : Word16} {nb mb : List Byte} (h : f.inExchange .east .sentA = false) :
    f.takeB epoch nb mb = f := by
  unfold Module.takeB
  exact if_neg (by simp [h])

theorem takeC_late {f : Module} {epoch : Word16} {ma : List Byte} (h : f.inExchange .west .sentB = false) :
    f.takeC epoch ma = f := by
  unfold Module.takeC
  exact if_neg (by simp [h])

/-- The W side has the nonce of the E side (R268). -/
def Module.heardB (f : Module) (epoch : Word16) (nb : List Byte) : Module :=
  f.setSpan .east (fun x => { x with nb := nb, epoch := epoch })

/-- The W side answers MA under the key that verified (R268, R406). -/
def Module.answersB (f : Module) (epoch : Word16) (nb k : List Byte) (current : Bool) : Module :=
  ((f.heardB epoch nb).link .east 0x46 (hmac k (maText f.ring.east.na nb f.vault.hubEpoch epoch))).authDone .east current

/-- MB as it verifies under a key (R268). -/
def Module.verifiesB (f : Module) (epoch : Word16) (nb mb k : List Byte) : Bool :=
  hmac k (mbText f.ring.east.na nb f.vault.hubEpoch epoch) == mb

theorem takeB_current {f : Module} {epoch : Word16} {nb mb k : List Byte} (hx : f.inExchange .east .sentA = true)
    (hk : f.vault.current = some k) (hv : f.verifiesB epoch nb mb k = true) :
    f.takeB epoch nb mb = f.answersB epoch nb k true := by
  unfold Module.verifiesB at hv
  unfold Module.takeB
  rw [if_pos hx]
  have hc : (f.setSpan .east (fun x => { x with nb := nb, epoch := epoch })).vault.current = some k := hk
  simp only [hc, Option.any_some, hv, if_true]
  rfl

theorem takeB_previous {f : Module} {epoch : Word16} {nb mb k q : List Byte} (hx : f.inExchange .east .sentA = true)
    (hk : f.vault.current = some k) (hv : f.verifiesB epoch nb mb k = false) (hq : f.previous = some q)
    (hvq : f.verifiesB epoch nb mb q = true) : f.takeB epoch nb mb = f.answersB epoch nb q false := by
  unfold Module.verifiesB at hv hvq
  unfold Module.takeB
  rw [if_pos hx]
  have hc : (f.setSpan .east (fun x => { x with nb := nb, epoch := epoch })).vault.current = some k := hk
  have hp : (f.setSpan .east (fun x => { x with nb := nb, epoch := epoch })).previous = some q := hq
  simp only [hc, hp, Option.any_some, hv, hvq, Bool.false_eq_true, if_false, if_true]
  rfl

theorem takeB_fails {f : Module} {epoch : Word16} {nb mb k : List Byte} (hx : f.inExchange .east .sentA = true)
    (hk : f.vault.current = some k) (hv : f.verifiesB epoch nb mb k = false)
    (hq : ∀ q, f.previous = some q → f.verifiesB epoch nb mb q = false) :
    f.takeB epoch nb mb = (f.heardB epoch nb).authFails .east true := by
  unfold Module.verifiesB at hv hq
  have hc : (f.setSpan .east (fun x => { x with nb := nb, epoch := epoch })).vault.current = some k := hk
  unfold Module.takeB
  rw [if_pos hx]
  cases hp : f.previous with
  | none =>
    have hp' : (f.setSpan .east (fun x => { x with nb := nb, epoch := epoch })).previous = none := hp
    simp only [hc, hp', Option.any_some, hv, Bool.false_eq_true, if_false]
    rfl
  | some q =>
    have hp' : (f.setSpan .east (fun x => { x with nb := nb, epoch := epoch })).previous = some q := hp
    simp only [hc, hp', Option.any_some, hv, hq q hp, Bool.false_eq_true, if_false]
    rfl

theorem takeC_verifies {f : Module} {epoch : Word16} {ma k : List Byte} (hx : f.inExchange .west .sentB = true)
    (hk : f.attemptKey (f.span .west).attempt = some k) :
    f.takeC epoch ma = if hmac k (maText f.ring.west.na f.ring.west.nb epoch f.vault.hubEpoch) = ma
      then f.authDone .west f.ring.west.current else f.authFails .west true := by
  have hk' : f.attemptKey f.ring.west.attempt = some k := hk
  unfold Module.takeC
  rw [if_pos hx]
  dsimp only
  rw [hk']
  simp only [beq_iff_eq]

theorem authRetry_ends {m : Module} {side : Side} {d : Nat} (hu : m.ringUp = true)
    (hd : (m.span side).deadline = some d) (ht : d < m.clk.tick.toNat) :
    m.authRetry side = if (m.span side).auth = .none
      then (m.setSpan side (fun x => { x with deadline := none })).beginAuth side else m.authFails side false := by
  unfold Module.authRetry Module.expired Module.now
  dsimp only
  rw [hd]
  simp only [hu, ht, decide_true, Bool.and_self, if_true, beq_iff_eq]

theorem authRetry_waits {m : Module} {side : Side} {d : Nat} (hd : (m.span side).deadline = some d)
    (ht : m.clk.tick.toNat ≤ d) : m.authRetry side = m := by
  unfold Module.authRetry Module.expired Module.now
  dsimp only
  rw [hd]
  simp only [Nat.not_lt.mpr ht, decide_false, Bool.and_false, Bool.false_eq_true, if_false]

/-- Settles O39: each frame by the lemma of what it is answered (`takeA_draws`, the `takeB` lemmas, `takeC_verifies`). -/
theorem handshake : Obligations.Handshake := by
  unfold Obligations.Handshake
  refine ⟨?a, ?answer, ?b, ?c, ?late, ?retry, ?waits, fun m side => by cases side <;> exact ⟨rfl, rfl⟩⟩
  case a =>
    rintro s dt hdr na m f rfl hu hs h2 rfl hk hup
    exact onLink_to (f := fun side m => if side = .west then m.takeA hdr.srcEpoch na else m) hu hs h2
      ((if_pos rfl).trans (takeA_draws hk hup))
  case answer => exact fun m nb k hk hw => sendB_answers hk hw
  case b =>
    rintro s dt hdr nb mb k d m f rfl hu hs h2 rfl ha hd ht hk
    have hx := inExchange_of ha hd ht
    refine ⟨fun hv => ?_, fun q hv hq hvq => ?_, fun hv hq => ?_⟩
    · exact onLink_to (f := fun side m => if side = .east then m.takeB hdr.srcEpoch nb mb else m) hu hs h2
        ((if_pos rfl).trans (takeB_current hx hk (beq_iff_eq.mpr hv)))
    · exact onLink_to (f := fun side m => if side = .east then m.takeB hdr.srcEpoch nb mb else m) hu hs h2
        ((if_pos rfl).trans (takeB_previous hx hk (beq_false_of_ne hv) hq (beq_iff_eq.mpr hvq)))
    · exact onLink_to (f := fun side m => if side = .east then m.takeB hdr.srcEpoch nb mb else m) hu hs h2
        ((if_pos rfl).trans (takeB_fails hx hk (beq_false_of_ne hv) (fun q h => beq_false_of_ne (hq q h))))
  case c =>
    rintro s dt hdr ma k d m f rfl hu hs h2 rfl ha hd ht hk
    exact onLink_to (f := fun side m => if side = .west then m.takeC hdr.srcEpoch ma else m) hu hs h2
      ((if_pos rfl).trans (takeC_verifies (inExchange_of ha hd ht) hk))
  case late =>
    rintro s dt hdr nb mb ma m f side d rfl hu hs h2 rfl hd ht
    refine ⟨onLink_to (f := fun side m => if side = .east then m.takeB hdr.srcEpoch nb mb else m) hu hs h2 ?_,
      onLink_to (f := fun side m => if side = .west then m.takeC hdr.srcEpoch ma else m) hu hs h2 ?_⟩
    · cases side
      · exact (if_pos rfl).trans (takeB_late (not_inExchange hd ht))
      · exact if_neg (by decide)
    · cases side
      · exact if_neg (by decide)
      · exact (if_pos rfl).trans (takeC_late (not_inExchange hd ht))
  case retry =>
    rintro s dt d side m rfl hu hd ht
    exact on_next (f := fun m => m.authRetry side) (authRetry_ends hu hd ht)
  case waits =>
    rintro s dt d side m rfl hd ht
    exact on_next (f := fun m => m.authRetry side) (authRetry_waits hd ht)

end Sys2Proof.Machine
end


section
/-! PROOFS. Enumeration (`Obligations.Enumeration`). -/

namespace Sys2Proof.Machine
open Sys2Proof

/-! ### The anchor (R260, R264) -/

/-- The anchor takes position 0 and counts from itself (R260, R264). -/
theorem startEnum_anchor (m : Module) : m.startEnum.ring.position = some 0 ∧ m.startEnum.ring.anchor = true ∧
    m.startEnum.ring.enum = some (false, m.clk.tick.toNat + 50000000) := by
  obtain ⟨st, c, hp⟩ := takePosition_eq m 0
  unfold Module.startEnum
  dsimp only
  rw [hp]
  generalize (u8 1 ++ u8 0 ++ _ ++ rsv 1 : List Byte) = payload
  generalize hx : ({ m with
    stage := st, vault := { m.vault with config := c }
    ring := { m.ring with
      position := some 0, refusing := false, unpositioned := false, anchor := true, counted := some 0
      enum := _ } } : Module) = x
  obtain ⟨o, ho⟩ := link_eq x .east 0x47 payload
  rw [ho, ← hx]
  exact ⟨rfl, rfl, rfl⟩

/-- The effect of DOMAIN_JOIN (R260). -/
def Module.joinDomain (m : Module) : Module :=
  if m.ringUp && m.stage == .lamps && decide (64 ≤ m.clk.headerGap) && m.ring.enum.isNone && m.ring.form == .none &&
      m.gateway && m.claim == some 0 then m.startEnum
  else m

theorem exec_domainJoin (dt : Nat) (s : State) : exec (.domainJoin dt) s = s.on dt Module.joinDomain := rfl

theorem ringUp_lamps {m : Module} (hv : m.variant.hasRing = true) (hs : m.stage = .lamps) : m.ringUp = true := by
  simp [Module.ringUp, hv, Module.coresUp, hs]

theorem joinDomain_starts {m : Module} (hv : m.variant.hasRing = true) (hs : m.stage = .lamps)
    (hg : 64 ≤ m.clk.headerGap) (he : m.ring.enum = none) (hf : m.ring.form = .none) (hw : m.gateway = true)
    (hc : m.claim = some 0) : m.joinDomain = m.startEnum :=
  if_pos (by simp [ringUp_lamps hv hs, hs, hg, he, hf, hw, hc])

theorem joinDomain_waits {m : Module}
    (h : m.stage ≠ .lamps ∨ m.clk.headerGap < 64 ∨ m.gateway = false ∨ m.claim ≠ some 0) : m.joinDomain = m := by
  unfold Module.joinDomain
  refine if_neg ?_
  rcases h with h | h | h | h
  · simp [h]
  · simp [Nat.not_le.mpr h]
  · simp [h]
  · simp [h]

/-! ### ENUM (R260, R261, R263) -/

theorem takeEnum_east {f : Module} {count size highest : Nat} {all : Bool} (he : f.ring.enum = none) :
    f.takeEnum .west count false all size highest = f.enumEast count all := by
  unfold Module.takeEnum
  rw [he]

theorem takeEnum_west {f : Module} {count size highest : Nat} {all : Bool} (he : f.ring.enum = none) :
    f.takeEnum .east count true all size highest = f.enumWest count all size highest := by
  unfold Module.takeEnum
  rw [he]

theorem takeEnum_returns {f : Module} {count size highest d : Nat} {all : Bool} (he : f.ring.enum = some (false, d)) :
    f.takeEnum .west count false all size highest = f.finishEnum count (if all then .dual else .single) := by
  unfold Module.takeEnum
  rw [he]
  rfl

theorem link_out (m : Module) (side : Side) (ty : Byte) (p : List Byte) : m.link side ty p = { m with
    out := m.out ++ (if (m.lane (lane0 side)).state = 2 then [.link (lane0 side) ty p] else []) } := by
  unfold Module.link
  by_cases h : (m.lane (lane0 side)).state = 2
  · rw [if_pos (by simp [h]), if_pos h]
    rfl
  · rw [if_neg (by simp [h]), if_neg h, List.append_nil]

/-- A count below 64 is this module's position and goes on with the next (R260). -/
theorem enumEast_counts {f : Module} {count : Nat} {all : Bool} (h : count < 64) :
    (f.enumEast count all).ring.position = some count ∧ (f.enumEast count all).ring.counted = some count ∧
      (f.enumEast count all).out = f.out ++ (if (f.lane .e0).state = 2 then
        [Out.link .e0 0x47 (u8 (count + 1) ++ u8 0 ++ u8 (bit (all && f.variant == Variant.um384)) ++ rsv 1)] else []) := by
  obtain ⟨st, c, hp⟩ := takePosition_eq f count
  unfold Module.enumEast
  rw [if_neg (Nat.not_le.mpr h)]
  dsimp only
  rw [link_out, hp]
  exact ⟨rfl, rfl, rfl⟩

/-- Count 64 is refused (R263). -/
theorem enumEast_refuses {f : Module} {count : Nat} {all : Bool} (h : 64 ≤ count) :
    (f.enumEast count all).ring.position = none ∧ (f.enumEast count all).ring.refusing = true := by
  unfold Module.enumEast
  rw [if_pos h, link_out]
  exact ⟨rfl, rfl⟩

/-- A W-ward ENUM numbers from RING_SIZE where that lies beyond the highest E-ward count (R261). -/
theorem enumWest_counts {f : Module} {d size highest : Nat} {all : Bool} (hc : f.ring.counted = none)
    (hr : f.ring.refusing = false) (h : size ≠ 0 ∧ highest + d < size) :
    (f.enumWest d all size highest).ring.position = some (size - d) := by
  obtain ⟨st, c, hp⟩ := takePosition_eq f (size - d)
  unfold Module.enumWest
  rw [if_neg (by simp [hc, hr])]
  dsimp only
  rw [if_pos h, link_out, hp]

/-- Otherwise it leaves the module without a position (R261, R262). -/
theorem enumWest_leaves {f : Module} {d size highest : Nat} {all : Bool} (hc : f.ring.counted = none)
    (hr : f.ring.refusing = false) (h : size = 0 ∨ size ≤ highest + d) :
    (f.enumWest d all size highest).ring.position = none ∧
      (f.enumWest d all size highest).ring.unpositioned = true := by
  have ht : Talk { f with ring := { f.ring with
      position := none, unpositioned := true, refusing := f.ring.refusing || decide (64 ≤ 0) } }
      (f.stayUnpositioned 0) := talk_ringChange _ _ _ _ _
  unfold Module.enumWest
  rw [if_neg (by simp [hc, hr])]
  dsimp only
  rw [if_neg (by omega), link_out, ht.same]
  exact ⟨rfl, rfl⟩

/-! ### ENUM_DONE and the ends (R260, R261, R263, R286) -/

theorem takeDone_ignores {f : Module} {side : Side} {positions : Nat} {form : Form} {refs : List Byte}
    (h : f.ring.anchor = true ∨ f.ring.refusing = true) : f.takeDone side positions form refs = f := by
  unfold Module.takeDone
  exact if_pos (by rcases h with h | h <;> simp [h])

theorem takeDone_settles {f : Module} {side : Side} {positions : Nat} {form : Form} {refs : List Byte}
    (ha : f.ring.anchor = false) (hr : f.ring.refusing = false) :
    (f.takeDone side positions form refs).ring.positions = positions ∧
      (f.takeDone side positions form refs).ring.form = form ∧
      (f.takeDone side positions form refs).ring.refList = refs ∧
      (f.takeDone side positions form refs).ring.counted = none ∧
      (f.takeDone side positions form refs).ring.position = f.ring.position := by
  unfold Module.takeDone
  rw [if_neg (by simp [ha, hr])]
  dsimp only
  rw [link_out]
  exact enumerated_ring f positions form refs

theorem enumTimeout_ends {m : Module} {highest d : Nat} (hu : m.ringUp = true) (hd : d < m.clk.tick.toNat)
    (he : m.ring.enum = some (true, d)) : m.enumTimeout highest =
      m.brokenForm.1.finishEnum (min 64 (max (highest + 1) m.items.ringSize)) m.brokenForm.2 := by
  unfold Module.enumTimeout Module.expired Module.now
  rw [he]
  dsimp only
  rw [if_pos (by simp [hu, hd])]
  rfl

theorem enumTimeout_turns {m : Module} {highest d : Nat} (hu : m.ringUp = true) (hd : d < m.clk.tick.toNat)
    (he : m.ring.enum = some (false, d)) : m.enumTimeout highest =
      ({ m with ring := { m.ring with enum := some (true, m.clk.tick.toNat + 50000000) } }).link .west 0x47
        (u8 1 ++ u8 1 ++ u8 (bit (m.variant == Variant.um384)) ++ rsv 1) := by
  unfold Module.enumTimeout Module.expired Module.now
  rw [he]
  dsimp only
  rw [if_pos (by simp [hu, hd])]
  rfl

theorem enumTimeout_waits {m : Module} {highest : Nat}
    (h : m.ring.enum = none ∨ ∃ p, m.ring.enum = some p ∧ m.clk.tick.toNat ≤ p.2) : m.enumTimeout highest = m := by
  unfold Module.enumTimeout Module.expired Module.now
  rcases h with h | ⟨p, h, hp⟩
  · rw [h]
  · rw [h]
    exact if_neg (by simp [Nat.not_lt.mpr hp])

theorem breakSpan_refused (m : Module) (side : Side) : ((m.breakSpan side).span side).refused = (m.span side).refused := by
  cases h : (m.span side).broken with
  | true => rw [breakSpan_idle h]
  | false =>
    obtain ⟨b, i, l, o, p, ht⟩ := breakSpan_breaks h
    rw [span_talk ht]
    cases side <;> rfl

/-- A refusal breaks its span (R263). -/
theorem takeRefuse_breaks (m : Module) (side : Side) (cause : Byte) :
    ((m.takeRefuse side cause).span side).broken = true ∧ ((m.takeRefuse side cause).span side).refused = 2 := by
  have ht : Talk ((m.setSpan side (fun s => { s with refused := 2 })).breakSpan side) (m.takeRefuse side cause) := by
    unfold Module.takeRefuse
    exact ((talk_sendChange _ _ _).trans (talk_ringChange _ _ _ _ _)).ite (Talk.refl _)
  rw [span_talk ht]
  refine ⟨breakSpan_broken _ side, (breakSpan_refused _ side).trans ?_⟩
  cases side <;> rfl

/-- The effect of ENUM_REFUSE_SEND (R263). -/
def Module.sendRefuse (m : Module) : Module :=
  if m.ringUp && m.ring.refusing then (m.link .east 0x49 (u8 1 ++ rsv 3)).link .west 0x49 (u8 1 ++ rsv 3) else m

theorem sendRefuse_eq (m : Module) : m.sendRefuse = if m.ringUp = true ∧ m.ring.refusing = true then
    (m.link .east 0x49 (u8 1 ++ rsv 3)).link .west 0x49 (u8 1 ++ rsv 3) else m := by
  unfold Module.sendRefuse
  simp only [Bool.and_eq_true]

/-- Settles O40: the anchor by `startEnum_anchor`, ENUM by the `enumEast` and `enumWest` lemmas, ENUM_DONE by
`takeDone_settles`, the end by the `enumTimeout` lemmas. -/
theorem enumeration : Obligations.Enumeration := by
  unfold Obligations.Enumeration
  refine ⟨?join, ?noJoin, ?count, ?done, ?timeout, ?waits, ?refuse, takeRefuse_breaks, ?send⟩
  case join =>
    rintro s dt m rfl hv hs hg he hf hw hc
    rw [exec_domainJoin]
    exact ⟨on_next (joinDomain_starts hv hs hg he hf hw hc), startEnum_anchor _⟩
  case noJoin =>
    rintro s dt m rfl h
    rw [exec_domainJoin]
    exact on_next (joinDomain_waits h)
  case count =>
    rintro s dt hdr count w all size highest side m f rfl hu hs h2 hf
    refine ⟨?_, ?_, ?_, ?_, ?_⟩
    · subst hf
      exact onLink_to (f := fun side m => m.takeEnum side count.toNat w all size highest) hu hs h2 rfl
    · rintro he rfl rfl hc
      rw [takeEnum_east he]
      exact enumEast_counts hc
    · rintro he rfl rfl hc
      rw [takeEnum_east he]
      exact enumEast_refuses hc
    · rintro d he rfl rfl
      exact takeEnum_returns he
    · rintro he rfl rfl hc hr
      rw [takeEnum_west he]
      exact ⟨enumWest_counts hc hr, enumWest_leaves hc hr⟩
  case done =>
    rintro s dt hdr positions form refs side m f rfl hu hs h2 rfl
    refine ⟨fun h => onLink_to (f := fun side m => m.takeDone side positions.toNat form refs) hu hs h2
      (takeDone_ignores h), fun ha hr => ?_⟩
    exact ⟨_, onLink_to (f := fun side m => m.takeDone side positions.toNat form refs) hu hs h2 rfl,
      takeDone_settles ha hr⟩
  case timeout =>
    rintro s dt highest d m rfl hu hd
    exact ⟨fun he => on_next (f := fun m => m.enumTimeout highest) (enumTimeout_ends hu hd he),
      fun he => on_next (f := fun m => m.enumTimeout highest) (enumTimeout_turns hu hd he)⟩
  case waits =>
    rintro s dt highest m rfl h
    exact on_next (f := fun m => m.enumTimeout highest) (enumTimeout_waits h)
  case refuse =>
    rintro s dt hdr cause side m rfl hu hs h2
    exact onLink_to (f := fun side m => m.takeRefuse side cause) hu hs h2 rfl
  case send =>
    rintro s dt m rfl
    exact on_next (f := Module.sendRefuse) (sendRefuse_eq _)

end Sys2Proof.Machine
end

section
/-! PROOFS. Plan entries and the edges of the lamps (`Obligations.PlanEntries`, `Obligations.LampEdges`). -/

namespace Sys2Proof.Machine
open Sys2Proof

theorem onChannel_to {s : State} {dt ch : Nat} {f : Module → Module} {t : Module} (hc : ch < (s.m.elapse dt).variant.channels)
    (h : f (s.m.elapse dt) = t) : s.onChannel dt ch f = .next { s with m := t } := by
  rw [onChannel_next hc, h]

/-! ### A channel whose switch follows what it shows -/

/-- What commands, start patterns and fallbacks have made of a channel: what it shows, and what it waits for. -/
def Chan.source (c : Chan) : Option Shown × Option Shown × Nat × Pattern × List (Shown × Nat) × List (Nat × Bool) :=
  (c.cmd, c.start, c.fb, c.fbPat, c.zc, c.edge)

/-- From `m` to `t` the switch of channel `ch` is moved and its fault records, jobs and counts with it: no other channel changes,
and of the slices only a wire test and the turn-ons counted. -/
structure Follows (ch : Nat) (m t : Module) : Prop where
  serves : Serves m t
  wfChans : Tbl.wf Chan.reset m.lamps.chans = true → Tbl.wf Chan.reset t.lamps.chans = true
  others : Tbl.wf Chan.reset m.lamps.chans = true → ∀ k, k ≠ ch → t.chan k = m.chan k
  source : Tbl.wf Chan.reset m.lamps.chans = true → (t.chan ch).source = (m.chan ch).source
  wfHub : Tbl.wf HubSlice.reset m.hub = true → Tbl.wf HubSlice.reset t.hub = true
  hub : Tbl.wf HubSlice.reset m.hub = true → ∀ k, ∃ w o, t.slice k = { m.slice k with wire := w, ons := o }
  wfOwn : Tbl.wf (OwnSlice.reset 1) m.own = true → Tbl.wf (OwnSlice.reset 1) t.own = true
  own : Tbl.wf (OwnSlice.reset 1) m.own = true → ∀ k, ∃ w, t.ownOf k = { m.ownOf k with wire := w }

namespace Follows
variable {ch : Nat} {m t u : Module}

theorem refl (ch : Nat) (m : Module) : Follows ch m m :=
  ⟨.refl m, id, fun _ _ _ => rfl, fun _ => rfl, id, fun _ k => ⟨(m.slice k).wire, (m.slice k).ons, rfl⟩, id,
    fun _ k => ⟨(m.ownOf k).wire, rfl⟩⟩

theorem trans (h : Follows ch m t) (h' : Follows ch t u) : Follows ch m u where
  serves := h.serves.trans h'.serves
  wfChans hw := h'.wfChans (h.wfChans hw)
  others hw k hk := (h'.others (h.wfChans hw) k hk).trans (h.others hw k hk)
  source hw := (h'.source (h.wfChans hw)).trans (h.source hw)
  wfHub hw := h'.wfHub (h.wfHub hw)
  hub hw k := by
    obtain ⟨w, o, e⟩ := h.hub hw k
    obtain ⟨w', o', e'⟩ := h'.hub (h.wfHub hw) k
    exact ⟨w', o', by rw [e', e]⟩
  wfOwn hw := h'.wfOwn (h.wfOwn hw)
  own hw k := by
    obtain ⟨w, e⟩ := h.own hw k
    obtain ⟨w', e'⟩ := h'.own (h.wfOwn hw) k
    exact ⟨w', by rw [e', e]⟩

theorem ite {c : Prop} [Decidable c] (h : Follows ch m t) (h' : Follows ch m u) : Follows ch m (if c then t else u) := by
  split
  · exact h
  · exact h'

/-- What touches neither channels nor slices. -/
theorem ofServes (h : Serves m t) (hl : t.lamps = m.lamps) (hh : t.hub = m.hub) (ho : t.own = m.own) : Follows ch m t where
  serves := h
  wfChans hw := by rw [hl]; exact hw
  others _ k _ := by unfold Module.chan; rw [hl]
  source _ := by unfold Module.chan; rw [hl]
  wfHub hw := by rw [hh]; exact hw
  hub _ k := ⟨(m.slice k).wire, (m.slice k).ons, by unfold Module.slice; rw [hh]⟩
  wfOwn hw := by rw [ho]; exact hw
  own _ k := ⟨(m.ownOf k).wire, by unfold Module.ownOf; rw [ho]⟩

theorem ofTalk (h : Talk m t) : Follows ch m t := ofServes (.ofTalk h) h.lamps h.hub h.own

end Follows

theorem follows_setChan (m : Module) (ch : Nat) (f : Chan → Chan) (hf : ∀ c, (f c).source = c.source) :
    Follows ch m (m.setChan ch f) where
  serves := serves_setChan m ch f
  wfChans hw := Tbl.wf_modify hw _ _
  others hw k hk := by rw [chan_setChan hw, if_neg hk]
  source hw := by rw [chan_setChan hw, if_pos rfl, hf]
  wfHub := id
  hub _ k := ⟨(m.slice k).wire, (m.slice k).ons, rfl⟩
  wfOwn := id
  own _ k := ⟨(m.ownOf k).wire, rfl⟩

theorem follows_setSlice (m : Module) (ch n : Nat) (f : HubSlice → HubSlice)
    (hf : ∀ h, ∃ w o, f h = { h with wire := w, ons := o }) : Follows ch m (m.setSlice n f) where
  serves := serves_setSlice m n f
  wfChans := id
  others _ _ _ := rfl
  source _ := rfl
  wfHub hw := wf_setSlice hw n f
  hub hw k := by
    rw [slice_setSlice hw]
    split
    · rename_i hk
      rw [hk]
      exact hf _
    · exact ⟨(m.slice k).wire, (m.slice k).ons, rfl⟩
  wfOwn := id
  own _ k := ⟨(m.ownOf k).wire, rfl⟩

theorem follows_setOwn (m : Module) (ch n : Nat) (f : OwnSlice → OwnSlice) (hf : ∀ o, ∃ w, f o = { o with wire := w }) :
    Follows ch m (m.setOwn n f) where
  serves := serves_own m _
  wfChans := id
  others _ _ _ := rfl
  source _ := rfl
  wfHub := id
  hub _ k := ⟨(m.slice k).wire, (m.slice k).ons, rfl⟩
  wfOwn hw := wf_setOwn hw n f
  own hw k := by
    rw [ownOf_setOwn hw]
    split
    · rename_i hk
      rw [hk]
      exact hf _
    · exact ⟨(m.ownOf k).wire, rfl⟩

theorem settleLearns_lamps (m : Module) : m.settleLearns.lamps = m.lamps := by
  unfold Module.settleLearns
  exact (foldl_keeps (fun m => m.lamps) _ (fun _ _ => (talk_final _ _ _ _ _).lamps) _ _).trans rfl

theorem settleWires_lamps (m : Module) : m.settleWires.lamps = m.lamps := by
  unfold Module.settleWires
  exact (foldl_keeps (fun m => m.lamps) _ (fun _ _ => (talk_final _ _ _ _ _).lamps) _ _).trans rfl

theorem follows_stopLearning (m : Module) (ch : Nat) (p : Nat → Bool) (r : Nat) (b : Bool) :
    Follows ch m (m.stopLearning p r b) := by
  refine .ofServes (serves_stopLearning m p r b) ?_ ?_ ?_ <;> unfold Module.stopLearning Module.dropSamples
  · exact settleLearns_lamps _
  · exact (settleLearns_hub_own _).1
  · exact (settleLearns_hub_own _).2

theorem follows_stopWires (m : Module) (ch : Nat) (p : Nat → Bool) (b : Bool) : Follows ch m (m.stopWires p b) := by
  refine .ofServes (serves_stopWires m p b) ?_ ?_ ?_ <;> unfold Module.stopWires
  · exact settleWires_lamps _
  · exact (settleWires_hub_own _).1
  · exact (settleWires_hub_own _).2

theorem follows_setRecord (m : Module) (ch c kind : Nat) (f : FaultRec → FaultRec) : Follows ch m (m.setRecord c kind f) :=
  .ofServes (serves_prov m _) rfl rfl rfl

theorem follows_endFault (m : Module) (ch c kind how : Nat) : Follows ch m (m.endFault c kind how) := by
  unfold Module.endFault
  dsimp only
  split
  · exact .trans (t := m.setRecord c kind (fun r => { r with active := false })) (follows_setRecord m ch c kind _)
      (.ofTalk (talk_event _ _ _))
  · exact .refl ch m

/-- An open-wire test under way on a slice is dropped at both ends. -/
theorem follows_dropWire (m : Module) (ch n : Nat) : Follows ch m
    ((m.setOwn n (fun o => { o with wire := none })).setSlice n (fun h => { h with wire := none })) :=
  .trans (t := m.setOwn n (fun o => { o with wire := none })) (follows_setOwn m ch n _ (fun _ => ⟨none, rfl⟩))
    (follows_setSlice _ ch n _ (fun h => ⟨none, h.ons, rfl⟩))

theorem follows_learnGuard (m : Module) (ch : Nat) (p : Nat → Bool) : Follows ch m (m.learnGuard p) :=
  follows_stopLearning m ch _ _ _

/-- A pattern leaves a run of DARK, and what it makes fresh. -/
theorem follows_newPattern (m : Module) (ch : Nat) (new : Pattern) : Follows ch m (m.setChan ch (fun c =>
    { c with darkRun := 0, fresh := c.fresh || new == .off || new == .dim })) :=
  follows_setChan m ch _ (fun _ => rfl)

theorem follows_patternChanged (m : Module) (ch : Nat) (old : Pattern) : Follows ch m (m.patternChanged ch old) := by
  unfold Module.patternChanged
  dsimp only
  split
  · exact .refl ch m
  · refine (follows_newPattern m ch (m.shown ch).1.pattern).trans ?_
    generalize m.setChan ch (fun c => { c with
      darkRun := 0, fresh := c.fresh || (m.shown ch).1.pattern == .off || (m.shown ch).1.pattern == .dim }) = x
    refine (follows_learnGuard x ch (fun k => k == ch)).trans ?_
    generalize x.learnGuard (fun k => k == ch) = y
    refine .trans (t := if ((y.slice (ch / 16)).wire.map (fun w => w.1)) = some (ch % 16) then
        ((y.setOwn (ch / 16) (fun o => { o with wire := none })).setSlice (ch / 16) (fun h => { h with wire := none })).stopWires
          (fun x => x == ch) false
      else y) ?_ (.ite (follows_endFault _ ch ch 1 1) (follows_endFault _ ch ch 2 1))
    split
    · exact (follows_dropWire y ch _).trans (follows_stopWires _ ch _ _)
    · exact .refl ch y

theorem openAt_source (c : Chan) (now : Nat) (dc : Bool) : (c.openAt now dc).source = c.source := by
  unfold Chan.openAt
  split <;> rfl

theorem follows_countOn (m : Module) (ch : Nat) (dim : Bool) : Follows ch m (m.countOn ch dim) :=
  follows_setSlice m ch (ch / 16) _ (fun h => ⟨h.wire, _, rfl⟩)

theorem follows_moveSwitch (m : Module) (ch : Nat) (want : Bool) : Follows ch m (m.moveSwitch ch want) := by
  unfold Module.moveSwitch
  dsimp only
  refine .trans (follows_setChan m ch (fun c => { c with cut := c.cut && !(want && !c.lit && m.coolSlice ch) })
    (fun _ => rfl)) (.trans (.ite (follows_countOn _ ch _) (.refl ch _)) (follows_setChan _ ch _ (fun c => ?_)))
  · split
    · split
      · split <;> rfl
      · rfl
    · exact openAt_source c _ _

theorem follows_refresh (m : Module) (ch : Nat) : Follows ch m (m.refresh ch) := follows_moveSwitch m ch _

/-- A source takes effect: the channel has what it gives, no edge waits, and the switch follows (R202). -/
theorem follows_takeEffect (m : Module) (ch : Nat) (f : Chan → Chan) : Follows ch (m.setChan ch (fun c =>
    { f c with tripOpen := false, tripped := false, edge := [], cut := c.cut && !m.coolSlice ch })) (m.takeEffect ch f) := by
  unfold Module.takeEffect
  dsimp only
  refine .ite (.trans ?_ (follows_moveSwitch _ ch _)) (.trans ?_ (follows_refresh _ ch)) <;>
    exact (follows_patternChanged _ ch _).trans (follows_setChan _ ch _ (fun _ => rfl))

/-- Changing a channel keeps the table's form. -/
theorem wf_setChan {m : Module} (hw : Tbl.wf Chan.reset m.lamps.chans = true) (ch : Nat) (f : Chan → Chan) :
    Tbl.wf Chan.reset (m.setChan ch f).lamps.chans = true := Tbl.wf_modify hw _ _

/-! ### Plan entries (R93, R95, R115, R138, R188) -/

/-- The entry as sent to its slices (R95). -/
def Module.planSent (m : Module) (id : Nat) : Lamps :=
  { m.lamps with plans := m.lamps.plans.map (fun (x : Plan) => if x.id = id then { x with sent := true } else x) }

/-- An entry goes to its slices, and changes their links only (R95). -/
theorem dispatch_sends (m : Module) (e : Plan) :
    m.dispatch e = { m with lamps := m.planSent e.id, hub := (m.dispatch e).hub, out := (m.dispatch e).out } := by
  have hto : ∀ (x : Module) (n : Nat), ∃ h o, x.planTo e n = { x with hub := h, out := o } := fun x n =>
    ⟨_, _, (Sends.foldl (fun l => HubMsg.plan (.entries l)) _ (fun y l => sends_sendSlice n y _ _) (planFrames e n) x).same⟩
  have hall : ∀ (l : List Nat) (x : Module), ∃ h o, x.each l (fun n y => y.planTo e n) = { x with hub := h, out := o } := by
    intro l
    induction l with
    | nil => exact fun x => ⟨x.hub, x.out, rfl⟩
    | cons n l ih =>
      intro x
      obtain ⟨h, o, e1⟩ := hto x n
      obtain ⟨h', o', e2⟩ := ih (x.planTo e n)
      exact ⟨h', o', e2.trans (by rw [e1])⟩
  obtain ⟨h, o, heq⟩ := hall ((slicesOf (e.acts.map (fun a => a.1))).filter m.sliceRuns) { m with lamps := m.planSent e.id }
  have hd : m.dispatch e = { { m with lamps := m.planSent e.id } with hub := h, out := o } := heq
  rw [hd]

/-- An entry that has come acts, where none lies before it (R93, R138). -/
theorem planFirst_iff (m : Module) (e : Plan) :
    m.planFirst e = true ↔ ∀ x ∈ m.lamps.plans, e.due < x.due ∨ (e.due = x.due ∧ e.id ≤ x.id) := by
  simp [Module.planFirst]

/-- A command takes effect where no fallback holds the channel or is shown (R202). -/
theorem showCommand_takes {m : Module} {ch : Nat} {x : Shown} (h1 : m.fallbackFor ch = 0) (h2 : (m.chan ch).fb = 0) :
    m.showCommand ch x = m.takeEffect ch (fun c => { c with cmd := some x }) :=
  if_neg (by simp [h1, h2])

theorem showCommand_held {m : Module} {ch : Nat} {x : Shown} (h : m.fallbackFor ch ≠ 0 ∨ (m.chan ch).fb ≠ 0) :
    m.showCommand ch x = m := if_pos h

/-- An action waits for its crossing, or shows its state now (R188). -/
theorem act_eq (m : Module) (at_ : Nat) (held : List Nat) (ch : Nat) (x : Shown) :
    m.act at_ held (ch, x) = (fun (h : Module) =>
      if h.waitsCrossing ch x.mode (held.contains (ch / 16)) = true then
        h.setChan ch (fun c => { c with zc := c.zc ++ [(x, at_)] })
      else h.showCommand ch x) (m.setChan ch (fun c => { c with zc := c.zc.filter (fun z => z.2 != at_) })) := rfl

/-- The channel after a command's state has taken effect (R202). -/
theorem takeEffect_source {m : Module} {ch : Nat} {x : Shown} (hw : Tbl.wf Chan.reset m.lamps.chans = true) :
    ((m.takeEffect ch (fun c => { c with cmd := some x })).chan ch).source =
      { m.chan ch with cmd := some x, edge := [] }.source := by
  have h := (follows_takeEffect m ch (fun c => { c with cmd := some x })).source (wf_setChan hw ch _)
  rw [h, chan_setChan hw, if_pos rfl]
  rfl

/-- What showing a command leaves of what the channel waits for, and what it remembers (R202-R204). -/
theorem showCommand_source {m : Module} {ch : Nat} {x : Shown} (hw : Tbl.wf Chan.reset m.lamps.chans = true) :
    ((m.showCommand ch x).chan ch).zc = (m.chan ch).zc ∧
    (m.fallbackFor ch = 0 → (m.chan ch).fb = 0 → ((m.showCommand ch x).chan ch).cmd = some x) ∧
    ((m.fallbackFor ch ≠ 0 ∨ (m.chan ch).fb ≠ 0) → ((m.showCommand ch x).chan ch).cmd = (m.chan ch).cmd) := by
  have hs := takeEffect_source (ch := ch) (x := x) hw
  refine ⟨?_, fun h1 h2 => ?_, fun h => by rw [showCommand_held h]⟩
  · unfold Module.showCommand
    split
    · rfl
    · exact congrArg (fun p => p.2.2.2.2.1) hs
  · rw [showCommand_takes h1 h2]
    exact congrArg (fun p => p.1) hs

/-- Moving a switch, over and over, leaves the channel's sources. -/
theorem follows_moves (ch : Nat) (l : List (Nat × Bool)) (m : Module) :
    Follows ch m (l.foldl (fun m e => m.moveSwitch ch e.2) m) := by
  induction l generalizing m with
  | nil => exact .refl ch m
  | cons e l ih => exact (follows_moveSwitch m ch e.2).trans (ih _)

theorem showCommand_wf {m : Module} {ch : Nat} {x : Shown} (hw : Tbl.wf Chan.reset m.lamps.chans = true) :
    Tbl.wf Chan.reset (m.showCommand ch x).lamps.chans = true := by
  unfold Module.showCommand
  split
  · exact hw
  · exact (follows_takeEffect m ch _).wfChans (wf_setChan hw ch _)

/-- The one action that waits takes place when its time has come (R188). -/
theorem runWaiting_acts {m : Module} {ch at_ : Nat} {x : Shown} {p : Nat → Bool}
    (hw : Tbl.wf Chan.reset m.lamps.chans = true) (hz : (m.chan ch).zc = [(x, at_)]) (hp : p at_ = true) :
    ((m.runWaiting ch p).chan ch).zc = [] ∧
    (m.fallbackFor ch = 0 → (m.chan ch).fb = 0 → ((m.runWaiting ch p).chan ch).cmd = some x) ∧
    ((m.fallbackFor ch ≠ 0 ∨ (m.chan ch).fb ≠ 0) → ((m.runWaiting ch p).chan ch).cmd = (m.chan ch).cmd) := by
  have hdue : (m.chan ch).zc.filter (fun z => p z.2) = [(x, at_)] := by simp [hz, hp]
  unfold Module.runWaiting
  rw [hdue]
  have hk := chan_setChan hw ch ch (fun c => { c with zc := c.zc.filter (fun z => !p z.2) })
  rw [if_pos rfl] at hk
  have hw1 : Tbl.wf Chan.reset (m.setChan ch (fun c => { c with zc := c.zc.filter (fun z => !p z.2) })).lamps.chans = true :=
    wf_setChan hw ch _
  have hff : (m.setChan ch (fun c => { c with zc := c.zc.filter (fun z => !p z.2) })).fallbackFor ch = m.fallbackFor ch := rfl
  generalize m.setChan ch (fun c => { c with zc := c.zc.filter (fun z => !p z.2) }) = a at hk hw1 hff
  obtain ⟨h1, h2, h3⟩ := showCommand_source (ch := ch) (x := x) hw1
  have hw2 : Tbl.wf Chan.reset (a.showCommand ch x).lamps.chans = true := showCommand_wf hw1
  have hkz : (a.chan ch).zc = [] := by rw [hk]; simp [hz, hp]
  have hkf : (a.chan ch).fb = (m.chan ch).fb := by rw [hk]
  have hkc : (a.chan ch).cmd = (m.chan ch).cmd := by rw [hk]
  simp only [List.foldl_cons, List.foldl_nil]
  generalize a.showCommand ch x = b at h1 h2 h3 hw2
  have hc := chan_setChan hw2 ch ch (fun c => { c with edge := c.edge.filter (fun e => !p e.1) })
  rw [if_pos rfl] at hc
  have hs := (follows_moves ch ((b.chan ch).edge.filter (fun e => p e.1))
    (b.setChan ch (fun c => { c with edge := c.edge.filter (fun e => !p e.1) }))).source (wf_setChan hw2 ch _)
  have hcmd := (congrArg (fun q => q.1) hs).trans (congrArg (fun (c : Chan) => c.cmd) hc)
  have hzc := (congrArg (fun q => q.2.2.2.2.1) hs).trans (congrArg (fun (c : Chan) => c.zc) hc)
  refine ⟨hzc.trans (h1.trans hkz), fun g1 g2 => hcmd.trans (h2 (hff.trans g1) (hkf.trans g2)), fun g => hcmd.trans ((h3 ?_).trans hkc)⟩
  rw [hff, hkf]
  exact g

/-- Nothing whose time has come: only the form of the table may change. -/
theorem runWaiting_waits {m : Module} {ch : Nat} {p : Nat → Bool} (hw : Tbl.wf Chan.reset m.lamps.chans = true)
    (hz : ∀ z ∈ (m.chan ch).zc, p z.2 = false) (he : ∀ e ∈ (m.chan ch).edge, p e.1 = false) :
    (∀ k, (m.runWaiting ch p).chan k = m.chan k) ∧
      m.runWaiting ch p = { m with lamps := { m.lamps with chans := (m.runWaiting ch p).lamps.chans } } := by
  have hdue : (m.chan ch).zc.filter (fun z => p z.2) = [] := by
    rw [List.filter_eq_nil_iff]
    exact fun z hz' => by simp [hz z hz']
  have hall : (m.chan ch).zc.filter (fun z => !p z.2) = (m.chan ch).zc := by
    rw [List.filter_eq_self]
    exact fun z hz' => by simp [hz z hz']
  have eall : (m.chan ch).edge.filter (fun e => !p e.1) = (m.chan ch).edge := by
    rw [List.filter_eq_self]
    exact fun e he' => by simp [he e he']
  have hk : ∀ k, (m.setChan ch (fun c => { c with zc := c.zc.filter (fun z => !p z.2) })).chan k = m.chan k := by
    intro k
    rw [chan_setChan hw]
    split
    · rename_i h
      rw [h, hall]
    · rfl
  have hedge : ((m.setChan ch (fun c => { c with zc := c.zc.filter (fun z => !p z.2) })).chan ch).edge.filter
      (fun e => p e.1) = [] := by
    rw [hk ch, List.filter_eq_nil_iff]
    exact fun e he' => by simp [he e he']
  have hrun : m.runWaiting ch p = (m.setChan ch (fun c => { c with zc := c.zc.filter (fun z => !p z.2) })).setChan ch
      (fun c => { c with edge := c.edge.filter (fun e => !p e.1) }) := by
    unfold Module.runWaiting
    rw [hdue]
    dsimp only [List.foldl_nil]
    rw [hedge]
    rfl
  refine ⟨fun k => ?_, by rw [hrun]; rfl⟩
  rw [hrun, chan_setChan (wf_setChan hw ch _)]
  split
  · rename_i h
    rw [hk ch, eall, h]
  · exact hk k

/-- PLAN_DISPATCH as an effect on the module (R95). -/
def Module.planDispatch (m : Module) (id : Nat) : Module :=
  match m.planOf id with
  | some e => if e.sent then m else m.dispatch e
  | none => m

theorem exec_planDispatch (dt id : Nat) (s : State) :
    exec (.planDispatch dt id) s = s.on dt (fun m => m.planDispatch id) := rfl

/-- PLAN_ENTRY_ACTION as an effect on the module (R93, R138). -/
def Module.planAction (m : Module) (id : Nat) : Module :=
  match m.planOf id with
  | some e => if e.due ≤ m.au ∧ m.planFirst e then m.runPlan e else m
  | none => m

theorem exec_planEntryAction (dt id : Nat) (s : State) :
    exec (.planEntryAction dt id) s = s.on dt (fun m => m.planAction id) := rfl

theorem planDispatch_sends {m : Module} {id : Nat} {e : Plan} (h : m.planOf id = some e) (hs : e.sent = false) :
    m.planDispatch id = m.dispatch e := by
  unfold Module.planDispatch
  rw [h]
  exact if_neg (by simp [hs])

theorem planDispatch_stays {m : Module} {id : Nat}
    (h : m.planOf id = none ∨ ∃ e, m.planOf id = some e ∧ e.sent = true) : m.planDispatch id = m := by
  unfold Module.planDispatch
  rcases h with h | ⟨e, h, hs⟩
  · rw [h]
  · rw [h]
    exact if_pos hs

/-- An entry without a generator setting frees its till, and each channel acts (R115, R138, R188). -/
theorem runPlan_acts {m : Module} {e : Plan} (hf : e.flash = none) : m.runPlan e =
    e.acts.foldl (fun c a => c.act (m.clk.turnAgo (m.au - e.due)) e.held a) (match e.till with
      | some t => ({ m with lamps := { m.lamps with
          plans := m.lamps.plans.filter (fun x => x.id != e.id) } }).setTill t (fun _ => Till.closed)
      | none => { m with lamps := { m.lamps with plans := m.lamps.plans.filter (fun x => x.id != e.id) } }) := by
  unfold Module.runPlan
  rw [hf]
  cases e.till <;> rfl

theorem planAction_runs {m : Module} {id : Nat} {e : Plan} (h : m.planOf id = some e) (hd : e.due ≤ m.au)
    (hp : ∀ x ∈ m.lamps.plans, e.due < x.due ∨ (e.due = x.due ∧ e.id ≤ x.id)) : m.planAction id = m.runPlan e := by
  unfold Module.planAction
  rw [h]
  exact if_pos ⟨hd, (planFirst_iff m e).mpr hp⟩

theorem planAction_waits {m : Module} {id : Nat} {e : Plan} (h : m.planOf id = some e)
    (hp : m.au < e.due ∨ ∃ x ∈ m.lamps.plans, x.due < e.due ∨ (x.due = e.due ∧ x.id < e.id)) : m.planAction id = m := by
  unfold Module.planAction
  rw [h]
  refine if_neg (fun ⟨hd, hf⟩ => ?_)
  rcases hp with hp | ⟨x, hx, hp⟩
  · omega
  · have := (planFirst_iff m e).mp hf x hx
    omega

/-- Settles O25: an entry is dispatched once, acts when it is first in the plan, and each action then waits for a crossing, shows
its state or is held by a fallback. -/
theorem planEntries : Obligations.PlanEntries := by
  unfold Obligations.PlanEntries
  refine ⟨?sent, ?notSent, ?acts, ?waits, ?action, ?timeout, ?early⟩
  case sent =>
    rintro s dt id _ e rfl h hs
    rw [exec_planDispatch]
    refine ⟨_, on_next (f := fun m => m.planDispatch id) (planDispatch_sends h hs), ?_, ?_⟩
    · rw [dispatch_sends]
      rfl
    · rw [dispatch_sends]
  case notSent =>
    rintro s dt id _ rfl h
    rw [exec_planDispatch]
    exact on_next (f := fun m => m.planDispatch id) (planDispatch_stays h)
  case acts =>
    rintro s dt id _ e rfl h hf hd hp
    rw [exec_planEntryAction]
    exact on_next (f := fun m => m.planAction id) ((planAction_runs h hd hp).trans (runPlan_acts hf))
  case waits =>
    rintro s dt id _ e rfl h hp
    rw [exec_planEntryAction]
    exact on_next (f := fun m => m.planAction id) (planAction_waits h hp)
  case action =>
    rintro m _ at_ held ch x rfl
    rw [act_eq]
    exact ⟨fun h => if_pos h, fun h h1 h2 => (if_neg (by rw [h]; exact Bool.false_ne_true)).trans (showCommand_takes h1 h2),
      fun h h1 => (if_neg (by rw [h]; exact Bool.false_ne_true)).trans (showCommand_held h1)⟩
  case timeout =>
    rintro s dt ch x at_ _ rfl hc hz he hw hd
    obtain ⟨h1, h2, h3⟩ := runWaiting_acts (p := fun x => decide (x + zcLimit ≤ (s.m.elapse dt).clk.turn)) hw hz
      (decide_eq_true hd)
    have hs := serves_runWaiting (s.m.elapse dt) ch (fun x => decide (x + zcLimit ≤ (s.m.elapse dt).clk.turn))
    exact ⟨_, onChannel_to hc rfl, h1, hs.clk, hs.vault, h2, h3⟩
  case early =>
    rintro s dt ch _ rfl hc hz he hw
    obtain ⟨h1, h2⟩ := runWaiting_waits (p := fun x => decide (x + zcLimit ≤ (s.m.elapse dt).clk.turn)) hw
      (fun z h => decide_eq_false (Nat.not_le.mpr (hz z h))) (fun e h => decide_eq_false (Nat.not_le.mpr (he e h)))
    exact ⟨_, onChannel_to hc rfl, h1, h2⟩

end Sys2Proof.Machine
end

section
/-! PROOFS. The edges of the lamps: flash boundaries, dimmer firings, trips and thermal cuts (`Obligations.LampEdges`). -/

namespace Sys2Proof.Machine
open Sys2Proof

/-! ### Flash boundaries (R191-R196) -/

/-- From `m` to `t` the lamps move, with what the hub counts of their turn-ons and stretch factors, at one half-cycle index. -/
structure Lights (m t : Module) : Prop where
  same : t = { m with lamps := t.lamps, hub := t.hub }
  half : t.lamps.half = m.lamps.half

namespace Lights
variable {m t u : Module}

theorem refl (m : Module) : Lights m m := ⟨rfl, rfl⟩
theorem trans (h : Lights m t) (h' : Lights t u) : Lights m u :=
  ⟨by rw [h'.same, h.same], h'.half.trans h.half⟩
theorem foldl {α : Type} (f : Module → α → Module) (h : ∀ m a, Lights m (f m a)) :
    ∀ (l : List α) (m : Module), Lights m (l.foldl f m)
  | [], m => refl m
  | a :: l, m => (h m a).trans (foldl f h l _)
theorem each (f : Nat → Module → Module) (h : ∀ n m, Lights m (f n m)) (l : List Nat) (m : Module) :
    Lights m (m.each l f) := foldl _ (fun m n => h n m) l m
theorem ite {c : Prop} [Decidable c] (h : Lights m t) (h' : Lights m u) : Lights m (if c then t else u) := by
  split
  · exact h
  · exact h'

end Lights

theorem lights_setChan (m : Module) (ch : Nat) (f : Chan → Chan) : Lights m (m.setChan ch f) := ⟨rfl, rfl⟩
theorem lights_setSlice (m : Module) (n : Nat) (f : HubSlice → HubSlice) : Lights m (m.setSlice n f) := ⟨rfl, rfl⟩

theorem lights_moveSwitch (m : Module) (ch : Nat) (want : Bool) : Lights m (m.moveSwitch ch want) := by
  unfold Module.moveSwitch
  dsimp only
  exact .trans (lights_setChan m ch (fun c => { c with cut := c.cut && !(want && !c.lit && m.coolSlice ch) }))
    (.trans (.ite (lights_setSlice _ _ _) (.refl _)) (lights_setChan _ ch _))

theorem lights_takeStretch (m : Module) : Lights m m.takeStretch := by
  unfold Module.takeStretch
  exact Lights.foldl _ (fun m k => .ite (.each _ (fun n m => lights_setSlice m n _) _ m) (.refl m)) _ m

theorem lights_takeGenerators (m : Module) : Lights m m.takeGenerators := by
  unfold Module.takeGenerators
  refine Lights.foldl _ (fun m k => ?_) _ m
  dsimp only
  split
  · refine ⟨rfl, ?_⟩
    unfold Lamps.setGen
    dsimp only
    split <;> rfl
  · exact .refl m

theorem lights_joinPhase (m : Module) : Lights m m.joinPhase := by
  unfold Module.joinPhase
  refine Lights.foldl _ (fun m k => ?_) _ m
  exact .ite (.ite ⟨rfl, rfl⟩ (.refl m)) (.ite ⟨rfl, rfl⟩ (.refl m))

theorem lights_flashStep (m : Module) (ch : Nat) : Lights m (m.flashStep ch) := by
  have hmove : ∀ (x : Module) (c d : Bool) (on : Bool), Lights x (if c then
      (if d then x.setChan ch (fun c => { c with edge := c.edge ++ [(x.clk.turn / 32768 * 32768, on)] })
        else x.moveSwitch ch on) else x) :=
    fun x c d on => .ite (.ite (lights_setChan x ch _) (lights_moveSwitch x ch on)) (.refl x)
  unfold Module.flashStep
  dsimp only
  refine .ite (.trans (.ite ?_ ?_) (hmove _ _ _ _)) (.refl m)
  · exact lights_setChan m ch (fun c => { c with waitOn := false })
  · exact .refl m

/-- At a boundary the half-cycle index is that of the half-cycle that begins (R191). -/
theorem atBoundary_moves (m : Module) (h : Nat) : (m.atBoundary h).lamps.half = h ∧
    m.atBoundary h = { m with lamps := (m.atBoundary h).lamps, hub := (m.atBoundary h).hub } := by
  have hl : Lights { m with lamps := { m.lamps with half := h } } (m.atBoundary h) :=
    (((lights_takeGenerators _).trans (lights_joinPhase _)).trans (lights_takeStretch _)).trans
      (.each _ (fun ch m => lights_flashStep m ch) _ _)
  exact ⟨hl.half, hl.same⟩

theorem flashBoundary_moves {m : Module} (h : m.clk.half ≠ m.lamps.half) : m.flashBoundary.lamps.half = m.clk.half ∧
    m.flashBoundary = { m with lamps := m.flashBoundary.lamps, hub := m.flashBoundary.hub } := by
  unfold Module.flashBoundary
  dsimp only
  rw [if_neg h]
  split
  · obtain ⟨-, e1⟩ := atBoundary_moves m (m.clk.half - 1)
    obtain ⟨h2, e2⟩ := atBoundary_moves (m.atBoundary (m.clk.half - 1)) m.clk.half
    refine ⟨h2, e2.trans ?_⟩
    rw [e1]
  · exact atBoundary_moves m _

/-! ### Switches (R186, R189, R197, R247) -/

/-- A switch that may close closes (R197). -/
theorem moveSwitch_closes {m : Module} {ch : Nat} (hw : Tbl.wf Chan.reset m.lamps.chans = true) (hm : m.mayClose ch = true) :
    ((m.moveSwitch ch true).chan ch).closed = true := by
  have hcut : (m.chan ch).cut = false := by
    have h := hm
    unfold Module.mayClose at h
    simp only [Bool.and_eq_true, Bool.not_eq_true'] at h
    exact h.1.1.2
  have hk := chan_setChan hw ch ch (fun c => { c with cut := c.cut && !(true && !c.lit && m.coolSlice ch) })
  rw [if_pos rfl, hcut, Bool.false_and] at hk
  have hok : (m.setChan ch (fun c => { c with cut := c.cut && !(true && !c.lit && m.coolSlice ch) })).mayClose ch = true := by
    have h := hm
    unfold Module.mayClose at h ⊢
    dsimp only at h ⊢
    rw [hk]
    rw [hcut] at h
    exact h
  unfold Module.moveSwitch
  dsimp only
  have hw1 := wf_setChan hw ch (fun c => { c with cut := c.cut && !(true && !c.lit && m.coolSlice ch) })
  generalize m.setChan ch (fun c => { c with cut := c.cut && !(true && !c.lit && m.coolSlice ch) }) = a at hok hw1 ⊢
  have hwif : ∀ (c : Prop) [Decidable c] (d : Bool),
      Tbl.wf Chan.reset (if c then a.countOn ch d else a).lamps.chans = true := by
    intro c _ d
    split
    · exact hw1
    · exact hw1
  rw [chan_setChan (hwif _ _), if_pos rfl, hok]
  simp only [if_true, Bool.true_and]
  generalize (if (!(a.chan ch).closed) = true then a.countOn ch _ else a) = b
  split
  · split <;> rfl
  · rename_i h
    simpa using h

/-- A switch that is to open opens (R189, R197). -/
theorem moveSwitch_opens {m : Module} {ch : Nat} (hw : Tbl.wf Chan.reset m.lamps.chans = true) :
    ((m.moveSwitch ch false).chan ch).closed = false := by
  unfold Module.moveSwitch
  simp only [Bool.false_and, Bool.false_eq_true, if_false]
  rw [chan_setChan (wf_setChan hw ch _), if_pos rfl]
  exact openAt_closed _ _ _

/-- A firing moves the switch of a channel that dims (R197). -/
theorem dimStep_moves {m : Module} {ch : Nat} (hp : (m.shown ch).1.pattern = .dim) (hs : m.dimsAsSteady ch = false) :
    m.dimStep ch = m.moveSwitch ch (m.dimNow ch) := by
  unfold Module.dimStep
  rw [if_pos (by rw [hp]; rfl), if_neg (by rw [hs]; exact Bool.false_ne_true)]

theorem dimStep_stays {m : Module} {ch : Nat} (hp : (m.shown ch).1.pattern ≠ .dim) : m.dimStep ch = m :=
  if_neg (by simpa using hp)

theorem openAt_cases (c : Chan) (now : Nat) (dc : Bool) : (c.openAt now dc).closed = false ∧
    (c.openAt now dc).inrush = none ∧ (c.closed = true → (c.openAt now dc).ramp = some (now, dc)) ∧
    (c.closed = false → (c.openAt now dc).ramp = c.ramp) := by
  unfold Chan.openAt
  cases c.closed <;> simp

/-! ### Overcurrent and thermal protection (R186, R247) -/

theorem tripLevel_inrush {m : Module} {ch t : Nat} (h : (m.chan ch).inrush = some t) (ht : m.clk.tick.toNat < t + 1000000) :
    m.tripLevel ch = 32000 := by
  unfold Module.tripLevel
  rw [h]
  exact if_pos ht

theorem tripLevel_closed {m : Module} {ch : Nat}
    (h : ∀ t, (m.chan ch).inrush = some t → t + 1000000 ≤ m.clk.tick.toNat) : m.tripLevel ch = 8000 := by
  unfold Module.tripLevel
  cases hi : (m.chan ch).inrush with
  | none => rfl
  | some t => exact if_neg (Nat.not_lt.mpr (h t hi))

theorem tripLevel_ge (m : Module) (ch : Nat) : 8000 ≤ m.tripLevel ch := by
  unfold Module.tripLevel
  split
  · split <;> omega
  · omega

/-- Past the threshold the switch opens, and the third time in a row the channel stays off and the slice reports it (R186). -/
theorem overcurrent_trips {m : Module} {ch peak : Nat} (hc : (m.chan ch).closed = true) (hp : m.tripLevel ch < peak) :
    ((m.chan ch).tripRun < 2 → m.overcurrent ch peak = m.setChan ch (fun c => { c.openAt m.clk.tick.toNat false with
      tripOpen := true, tripRun := (m.chan ch).tripRun + 1, tripped := c.tripped || false })) ∧
    (2 ≤ (m.chan ch).tripRun → m.overcurrent ch peak = (m.setChan ch (fun c => { c.openAt m.clk.tick.toNat false with
      tripOpen := true, tripRun := (m.chan ch).tripRun + 1, tripped := c.tripped || true })).fromOwn (ch / 16)
        (.trip (some (ch % 16)))) := by
  unfold Module.overcurrent
  dsimp only
  rw [if_pos ⟨hc, hp⟩]
  constructor
  · intro h
    rw [if_neg (by omega), decide_eq_false (by omega)]
    rfl
  · intro h
    rw [if_pos (by omega), decide_eq_true (by omega)]
    rfl

theorem overcurrent_stays {m : Module} {ch peak : Nat} (h : (m.chan ch).closed = false ∨ peak ≤ m.tripLevel ch) :
    m.overcurrent ch peak = m := by
  refine if_neg (fun ⟨hc, hp⟩ => ?_)
  rcases h with h | h
  · rw [h] at hc
    cases hc
  · omega

/-- INRUSH_WINDOW_END as an effect on the module (R186). -/
def Module.inrushEnds (m : Module) (ch : Nat) : Module :=
  match (m.chan ch).inrush with
  | some t => if t + 1000000 ≤ m.now then m.setChan ch (fun c => { c with inrush := none }) else m
  | none => m

theorem exec_inrushWindowEnd (dt ch : Nat) (s : State) :
    exec (.inrushWindowEnd dt ch) s = s.onChannel dt ch (fun m => m.inrushEnds ch) := rfl

theorem inrushEnds_some {m : Module} {ch t : Nat} (h : (m.chan ch).inrush = some t) : m.inrushEnds ch =
    if t + 1000000 ≤ m.clk.tick.toNat then m.setChan ch (fun c => { c with inrush := none }) else m := by
  unfold Module.inrushEnds
  rw [h]
  rfl

theorem inrushEnds_none {m : Module} {ch : Nat} (h : (m.chan ch).inrush = none) : m.inrushEnds ch = m := by
  unfold Module.inrushEnds
  rw [h]

/-- A slice's own frame, unless the slice runs alone (R229, R232). -/
theorem fromOwn_out {m : Module} {n : Nat} (hw : Tbl.wf (OwnSlice.reset 1) m.own = true) (msg : SliceMsg) :
    (m.fromOwn n msg).out = m.out ++ (if (m.ownOf n).alone && (m.ownOf n).running then []
      else [.fromSlice n (m.ownOf n).epoch ((m.ownOf n).seq + 1) (m.ownOf n).lastSeq msg]) := by
  unfold Module.fromOwn
  dsimp only
  split
  · exact (List.append_nil _).symm
  · rw [ownOf_setOwn hw, if_pos rfl]
    rfl

/-- What a slice's own frame says does not hang on its die's temperature. -/
theorem fromOwn_heated {m : Module} {n : Nat} (hw : Tbl.wf (OwnSlice.reset 1) m.own = true) (msg : SliceMsg)
    (f : OwnSlice → OwnSlice) (hf : ∀ o, f o = { o with tdie := (f o).tdie }) :
    ((m.setOwn n f).fromOwn n msg).out = m.out ++ (if (m.ownOf n).alone && (m.ownOf n).running then []
      else [.fromSlice n (m.ownOf n).epoch ((m.ownOf n).seq + 1) (m.ownOf n).lastSeq msg]) := by
  rw [fromOwn_out (wf_setOwn hw n f), ownOf_setOwn hw, if_pos rfl, hf]
  rfl

theorem fromOwn_chan (m : Module) (n ch : Nat) (msg : SliceMsg) : (m.fromOwn n msg).chan ch = m.chan ch := by
  unfold Module.fromOwn
  dsimp only
  split <;> rfl

/-- Every switch of a slice is open, and held so by the cut (R247). -/
theorem openAll_cuts {m : Module} (n : Nat) (hw : Tbl.wf Chan.reset m.lamps.chans = true) :
    (∀ ch, ch / 16 = n → ((m.openAll n (fun c => { c with cut := true })).chan ch).closed = false ∧
      ((m.openAll n (fun c => { c with cut := true })).chan ch).cut = true) ∧
    (∀ ch, ch / 16 ≠ n → (m.openAll n (fun c => { c with cut := true })).chan ch = m.chan ch) ∧
    (m.openAll n (fun c => { c with cut := true })).out = m.out ∧
    (m.openAll n (fun c => { c with cut := true })).own = m.own := by
  have hff : ∀ c : Chan, (fun (c : Chan) => ({ c.openAt m.now false with cut := true } : Chan))
      ((fun (c : Chan) => ({ c.openAt m.now false with cut := true } : Chan)) c) =
      (fun (c : Chan) => ({ c.openAt m.now false with cut := true } : Chan)) c := by
    intro c
    unfold Chan.openAt
    cases hc : c.closed <;> simp [hc]
  rw [openAll_eq]
  obtain ⟨h1, h2, h3⟩ := each_cut (fun c => { c.openAt m.now false with cut := true }) (sliceChans n) m hw hff
  have h4 := (each_setChan (fun c => { c.openAt m.now false with cut := true }) (fun c => openAt_closed c _ _)
    (sliceChans n) m hw).2.2.2
  refine ⟨fun ch hch => ?_, fun ch hch => h2 ch (fun h => hch ((mem_sliceChans n ch).mp h)), h3, h4⟩
  rw [h1 ch ((mem_sliceChans n ch).mpr hch)]
  exact ⟨openAt_closed _ _ _, rfl⟩

/-- What a slice at 150 °C says and keeps of its temperature (R240, R247). -/
def Module.cutSaid (m : Module) (n : Nat) : Module :=
  (m.setOwn n (fun o => { o with tdie := max o.tdie 12500 })).fromOwn n (.trip none)

theorem cutSaid_chan (m : Module) (n ch : Nat) : (m.cutSaid n).chan ch = m.chan ch := fromOwn_chan _ n ch _

theorem cutSaid_out {m : Module} {n : Nat} (hw : Tbl.wf (OwnSlice.reset 1) m.own = true) :
    (m.cutSaid n).out = m.out ++ (if (m.ownOf n).alone && (m.ownOf n).running then []
      else [.fromSlice n (m.ownOf n).epoch ((m.ownOf n).seq + 1) (m.ownOf n).lastSeq (.trip none)]) :=
  fromOwn_heated hw _ _ (fun _ => rfl)

theorem thermalCut_eq (m : Module) (n : Nat) : m.thermalCut n = (m.openAll n (fun c => { c with cut := true })).cutSaid n := rfl

/-- At 150 °C every switch of the slice opens, and it says so (R240, R247). -/
theorem thermalCut_opens {m : Module} (n : Nat) (hw : Tbl.wf Chan.reset m.lamps.chans = true)
    (ho : Tbl.wf (OwnSlice.reset 1) m.own = true) :
    (∀ ch, ch / 16 = n → ((m.thermalCut n).chan ch).closed = false ∧ ((m.thermalCut n).chan ch).cut = true) ∧
    (∀ ch, ch / 16 ≠ n → (m.thermalCut n).chan ch = m.chan ch) ∧
    (m.thermalCut n).out = m.out ++ (if (m.ownOf n).alone && (m.ownOf n).running then []
      else [.fromSlice n (m.ownOf n).epoch ((m.ownOf n).seq + 1) (m.ownOf n).lastSeq (.trip none)]) := by
  obtain ⟨h1, h2, h3, h4⟩ := openAll_cuts (m := m) n hw
  rw [thermalCut_eq]
  generalize m.openAll n (fun c => { c with cut := true }) = x at h1 h2 h3 h4
  have hox : Tbl.wf (OwnSlice.reset 1) x.own = true := by rw [h4]; exact ho
  have hof : x.ownOf n = m.ownOf n := congrArg (fun o => Tbl.get (OwnSlice.reset 1) o n) h4
  refine ⟨fun ch hch => ?_, fun ch hch => ?_, ?_⟩
  · rw [cutSaid_chan]
    exact h1 ch hch
  · rw [cutSaid_chan]
    exact h2 ch hch
  · rw [cutSaid_out hox, h3, hof]

/-- A damaged frame of a slice is discarded (R229). -/
theorem fromSlice_damaged {m : Module} {n : Nat} {hdr : SliceHdr} (hg : hdr.good = false) (f : Module → Module) :
    m.fromSlice n hdr f = m := by
  unfold Module.fromSlice
  dsimp only
  rw [if_pos (by simp [hg])]

theorem fallbackPoint_applies {m : Module} {n : Nat} (hs : m.stage ≠ .unpowered) (hx : m.crossPoint n = true)
    (hd : (m.slice n).startDue = false) : m.fallbackPoint n = (sliceChans n).foldl (fun m ch => m.applyFallback ch) m := by
  unfold Module.fallbackPoint
  rw [if_pos (by simp [hs, hx]), if_neg (by rw [hd]; exact Bool.false_ne_true)]
  rfl

theorem fallbackPoint_stays {m : Module} {n : Nat} (h : m.stage = .unpowered ∨ m.crossPoint n = false) :
    m.fallbackPoint n = m := by
  unfold Module.fallbackPoint
  rw [if_neg (by rcases h with h | h <;> simp [h])]

/-- Settles O26: boundaries keep all but the lamps and the hub's counts, switches follow the angle, and the protections open them. -/
theorem lampEdges : Obligations.LampEdges := by
  unfold Obligations.LampEdges
  refine ⟨⟨?flash, ?same, ?fires, ?ends, ?other, ?falls, ?between⟩, ⟨?trips, ?opens, ?below, ?window, ?noWindow, ?cut, ?trip, ?damaged⟩⟩
  case flash =>
    rintro s dt _ rfl h
    obtain ⟨h1, h2⟩ := flashBoundary_moves h
    exact ⟨_, on_next rfl, h1, h2⟩
  case same =>
    rintro s dt _ rfl h
    exact on_next (f := fun m => m.flashBoundary) (if_pos h)
  case fires =>
    rintro s dt ch _ rfl hc hp hd hn hm - hw
    refine ⟨_, onChannel_to hc ((dimStep_moves hp hd).trans (by rw [hn])), moveSwitch_closes hw hm, ?_⟩
    exact (follows_moveSwitch _ ch true).others hw
  case ends =>
    rintro s dt ch _ rfl hc hp hd hn hw
    refine ⟨_, onChannel_to hc ((dimStep_moves hp hd).trans (by rw [hn])), moveSwitch_opens hw, ?_⟩
    exact (follows_moveSwitch _ ch false).others hw
  case other =>
    rintro s dt ch _ rfl hc hp
    exact onChannel_to hc (dimStep_stays hp)
  case falls =>
    rintro s dt n _ rfl hn hs hx hd
    exact onSlice_to hn (fallbackPoint_applies hs hx hd)
  case between =>
    rintro s dt n _ rfl hn h
    exact onSlice_to hn (fallbackPoint_stays h)
  case trips =>
    rintro s dt ch peak _ rfl hc hcl hp
    have hl : (s.m.elapse dt).tripLevel ch < peak := by
      rcases hp with ⟨t, h1, h2, h3⟩ | ⟨h1, h2⟩
      · rw [tripLevel_inrush h1 h2]
        exact h3
      · rw [tripLevel_closed h1]
        exact h2
    obtain ⟨h1, h2⟩ := overcurrent_trips hcl hl
    exact ⟨fun h => onChannel_to hc (h1 h), fun h => onChannel_to hc (h2 h)⟩
  case opens => exact openAt_cases
  case below =>
    rintro s dt ch peak _ rfl hc h
    refine onChannel_to hc (overcurrent_stays ?_)
    rcases h with h | h | ⟨t, h1, h2, h3⟩
    · exact .inl h
    · exact .inr (h.trans (tripLevel_ge _ _))
    · rw [tripLevel_inrush h1 h2]
      exact .inr h3
  case window =>
    rintro s dt ch t0 _ rfl hc h
    rw [exec_inrushWindowEnd]
    exact onChannel_to hc (inrushEnds_some h)
  case noWindow =>
    rintro s dt ch _ rfl hc h
    rw [exec_inrushWindowEnd]
    exact onChannel_to hc (inrushEnds_none h)
  case cut =>
    rintro s dt n _ rfl hn hw ho
    exact ⟨_, onSlice_to hn rfl, thermalCut_opens n hw ho⟩
  case trip =>
    rintro s dt n hdr pos _ rfl hn hs1 hs2 hf hg he h0 hw
    exact onSlice_to hn (fromSlice_ok hs1 hs2 hf hg he h0 hw id)
  case damaged =>
    rintro s dt n hdr pos _ rfl hn hg
    exact onSlice_to hn (fromSlice_damaged hg id)

end Sys2Proof.Machine
end

section
/-! PROOFS. Weft headers: the domain angle, the mute and the reference (`Obligations.WeftHeaders`). -/

namespace Sys2Proof.Machine
open Sys2Proof

/-! ### Whether this module is the reference, and which position is (R286-R288) -/

/-- This module is the domain reference, and the position that is. -/
def Module.role (m : Module) : Bool × Byte := (m.ring.isRef, m.ring.reference)

theorem role_talk {m t : Module} (h : Talk m t) : t.role = m.role := by
  unfold Module.role
  rw [h.same]

theorem role_ringChange (m : Module) (a b c : Nat) (e : Word16) : (m.ringChange a b c e).role = m.role :=
  role_talk (talk_ringChange m a b c e)

theorem role_takeForm (m : Module) (f : Form) : (m.takeForm f).role = m.role := by
  obtain ⟨i, x, o, h⟩ := takeForm_eq m f
  rw [h]
  rfl

theorem role_takePosition (m : Module) (p : Nat) : (m.takePosition p).role = m.role := by
  obtain ⟨st, c, h⟩ := takePosition_eq m p
  rw [h]
  rfl

theorem role_stayUnpositioned (m : Module) (n : Nat) : (m.stayUnpositioned n).role = m.role :=
  (role_ringChange _ _ _ _ _).trans rfl

theorem role_joinBetween (m : Module) (n : Nat) : (m.joinBetween n).role = m.role := by
  unfold Module.joinBetween
  dsimp only
  split
  · rfl
  · split
    · split
      · exact role_takePosition _ _
      · exact role_stayUnpositioned _ _
    · exact role_takePosition _ _
    · exact role_takePosition _ _
    · rfl

/-- The ring without what this module keeps of the other positions' epochs, packets and frames. -/
def Module.standing (m : Module) : Ring :=
  { m.ring with epochs := [], lastSeq := [], forwards := [], watches := [], peerRestarts := 0, txq := [], held := [], heldLoss := none }

theorem standing_talk {m t : Module} (h : Talk m t) : t.standing = m.standing := by
  unfold Module.standing
  rw [h.same]

theorem standing_resetStep (m : Module) : m.resetStep.standing = m.standing := by
  unfold Module.resetStep
  split <;> rfl

theorem standing_failTill (m : Module) (t status : Word16) : (m.failTill t status).standing = m.standing := by
  unfold Module.failTill
  split
  · rfl
  · exact (standing_resetStep _).trans
      ((standing_talk ((talk_setTill _ t (fun _ => Till.closed)).trans (talk_complete _ _ _ _ _ _ _))).trans rfl)

theorem standing_endFinals (m : Module) (op a b : Word16) : (m.endFinals op a b).standing = m.standing := by
  unfold Module.endFinals
  exact (foldl_keeps Module.standing _ (fun _ _ => standing_talk (talk_final _ _ _ _ _)) _ _).trans rfl

theorem standing_releaseVote (m : Module) (pos : Nat) (cause : Byte) : (m.releaseVote pos cause).standing = m.standing := by
  unfold Module.releaseVote
  refine (standing_endFinals _ _ _ _).trans ?_
  unfold Module.ctlAll Module.sendCtl
  split <;> rfl

theorem standing_peerRestarted (m : Module) (pos : Nat) (e : Word16) : (m.peerRestarted pos e).standing = m.standing := by
  have hfail : ∀ (l : List Word16) (x : Module),
      (l.foldl (fun m t => m.failTill t stPeerRestarted) x).standing = x.standing :=
    fun l x => foldl_keeps Module.standing _ (fun m t => standing_failTill m t _) l x
  have hgone : ∀ (l : List (Nat × Word16 × FinalRef)) (x : Module),
      (l.foldl (fun m w => m.final w.2.2 stPeerRestarted w.2.1 []) x).standing = x.standing :=
    fun l x => foldl_keeps Module.standing _ (fun m w => standing_talk (talk_final _ _ _ _ _)) l x
  have hmember : ∀ x : Module, (x.memberRestarted pos).standing = x.standing := by
    intro x
    unfold Module.memberRestarted
    dsimp only
    split
    · exact standing_releaseVote _ _ _
    · rfl
  unfold Module.peerRestarted
  dsimp only
  refine (standing_talk (talk_ringChange _ _ _ _ _)).trans ((hmember _).trans ?_)
  split
  · exact (Eq.trans rfl (hgone _ _)).trans (hfail _ _)
  · exact (hgone _ _).trans (hfail _ _)

/-- A frame's epoch changes records of the positions only (R289). -/
theorem standing_seeEpoch (m : Module) (pos : Nat) (e : Word16) : (m.seeEpoch pos e).standing = m.standing := by
  unfold Module.seeEpoch
  dsimp only
  split
  · rfl
  · split
    · rfl
    · exact (standing_peerRestarted _ _ _).trans rfl

theorem role_seeEpoch (m : Module) (pos : Nat) (e : Word16) : (m.seeEpoch pos e).role = m.role := by
  have h := congrArg (fun r : Ring => (r.isRef, r.reference)) (standing_seeEpoch m pos e)
  exact h

theorem role_readHeader (m : Module) (lane : Lane) (h : WeftHdr) (d : Nat) :
    (m.readHeader lane h d).role = (m.ring.isRef, h.reference) := by
  have hfollow : ∀ (x : Module) (c : Bool), (if c then
      ({ x with ring := { x.ring with breaks := if runsBothWays h.form then x.ring.breaks else [] } }).takeForm h.form
      else x).ring.isRef = x.ring.isRef := by
    intro x c
    split
    · exact congrArg (fun r => r.1) (role_takeForm _ _)
    · rfl
  have hspans : ∀ (x : Module) (c : Bool), (if c then
      (x.setSpan .east (fun s => { s with broken := !x.spanUsable .east })).setSpan .west (fun s =>
        { s with broken := !x.spanUsable .west })
      else x).role = x.role := by
    intro x c
    split <;> rfl
  have htold : ∀ (x : Module) (c : Bool) (a b n : Nat) (e : Word16),
      (if c then x.ringChange a b n e else x).role = x.role := by
    intro x c a b n e
    split
    · exact role_ringChange _ _ _ _ _
    · rfl
  unfold Module.readHeader
  dsimp only
  refine (htold _ _ _ _ _ _).trans ((hspans _ _).trans ?_)
  refine Prod.ext ((hfollow _ _).trans ?_) rfl
  exact congrArg (fun r => r.1) (role_seeEpoch m _ _)

/-! ### The clock through a rebase (R80-R82, R90) -/

theorem serves_act (m : Module) (at_ : Nat) (held : List Nat) (e : Nat × Shown) : Serves m (m.act at_ held e) := by
  obtain ⟨ch, x⟩ := e
  rw [act_eq]
  exact (serves_setChan m ch _).trans (Serves.ite (serves_setChan _ ch _) (serves_showCommand _ ch x))

/-- What a plan entry's action leaves: the clock, the role, and the store. -/
def Module.timed (m : Module) : Clock × Bool × Byte := (m.clk, m.role)

theorem timed_talk {m t : Module} (h : Talk m t) : t.timed = m.timed := by
  unfold Module.timed Module.role
  rw [h.same]

theorem timed_serves {m t : Module} (h : Serves m t) : t.timed = m.timed := by
  unfold Module.timed Module.role
  rw [h.same]

theorem timed_books {m t : Module} (h : Books m t) : t.timed = m.timed := by
  unfold Module.timed Module.role
  rw [h.same]

theorem timed_lights {m t : Module} (h : Lights m t) : t.timed = m.timed := by
  rw [h.same]
  rfl

theorem lights_takeFlash (m : Module) (due : Nat) (f : Nat × Nat × Nat × Nat) : (m.takeFlash due f).timed = m.timed := by
  unfold Module.takeFlash
  dsimp only
  split
  · exact (timed_lights ((lights_takeStretch _).trans (.each _ (fun ch m => lights_flashStep m ch) _ _))).trans rfl
  · rfl

theorem timed_runPlan (m : Module) (e : Plan) : (m.runPlan e).timed = m.timed := by
  have hacts : ∀ (x : Module) (at_ : Nat), (e.acts.foldl (fun m a => m.act at_ e.held a) x).timed = x.timed :=
    fun x at_ => foldl_keeps Module.timed _ (fun m a => timed_serves (serves_act m at_ _ a)) _ x
  have hflash : ∀ x : Module, (match e.flash with | some f => x.takeFlash e.due f | none => x).timed = x.timed := by
    intro x
    split
    · exact lights_takeFlash _ _ _
    · rfl
  unfold Module.runPlan
  dsimp only
  refine (hflash _).trans ((hacts _ _).trans ?_)
  split <;> rfl

theorem timed_cycleBegins (m : Module) : m.cycleBegins.timed = m.timed := by
  unfold Module.cycleBegins
  dsimp only
  split
  · obtain ⟨i, h⟩ := serves_takeItems { m with meter := { m.meter with sincePass := m.meter.sincePass + 1 } }
    exact (timed_serves h).trans rfl
  · rfl

/-- A cut leaves the clock that it cuts, but for the step that a reference has to announce (R80, R90, R92). -/
theorem stepAngle_timed (m : Module) (delta : Nat) (rebase : Option Cycle) : ∃ sent new, (rebase.isSome → new = rebase.getD 0) ∧
    (m.stepAngle delta rebase).timed = ({ m.clk.cutAt delta new with stepSent := sent }, m.role) := by
  have hdue : ∀ (l : List Plan) (x : Module), (l.foldl (fun m e => m.runPlan e) x).timed = x.timed :=
    fun l x => foldl_keeps Module.timed _ timed_runPlan l x
  have hown : ∀ (x : Module), (x.each (List.range x.variant.slices) (fun n m =>
      m.setOwn n (fun o => { o with skip := 3, dirty := Tbl.setRange false [] 0 (List.replicate 16 true) }))).timed = x.timed :=
    fun x => timed_serves (Serves.each _ (fun _ m => serves_own m _) _ x)
  have hbegins : ∀ (x : Module) (c : Bool), (if c then x else x.cycleBegins).timed = x.timed := by
    intro x c
    split
    · rfl
    · exact timed_cycleBegins x
  have hmeter : ∀ (x : Module) (n : Nat), (if rebase.isSome = true then x.meterRebase n else x).timed = x.timed := by
    intro x n
    split
    · exact timed_books (books_meterRebase x n)
    · rfl
  unfold Module.stepAngle
  dsimp only
  refine ⟨if (rebase.isSome || !m.ring.isRef) = true then m.clk.stepSent
      else some (if m.clk.partsAt delta < 65536 then 0 else m.clk.angleAt delta),
    rebase.getD ((if m.clk.wrapped delta = true then m.clk.cycle - 1 else m.clk.cycle) + 1), fun h => ?_, ?_⟩
  · obtain ⟨c, rfl⟩ := Option.isSome_iff_exists.mp h
    rfl
  · refine (hmeter _ _).trans ((hbegins _ _).trans ((hown _).trans ?_))
    refine (timed_serves (serves_stopLearning _ _ _ _)).trans ((timed_talk (talk_event _ _ _)).trans ?_)
    exact (Eq.trans rfl (hdue _ _)).trans rfl

theorem role_timed {m t : Module} {c : Clock} (h : t.timed = (c, m.role)) : t.clk = c ∧ t.role = m.role :=
  ⟨congrArg (fun p => p.1) h, congrArg (fun p => p.2) h⟩

/-! ### The domain angle at a header (R80, R89-R92) -/

/-- The module as it takes a header up, before the angle moves (R89, R280). -/
def Module.adopting (m : Module) (h : WeftHdr) (d : Nat) : Module :=
  let far := decide (40960 * m.clk.cycleLen.toNat < (m.headerErr h d).natAbs)
  { m with
    clk := { m.clk with tracker := .domain, measured := h.period, stepDue := m.clk.stepDue || (m.clk.tracker == .domainHold && far) }
    ring := { m.ring with readopt := m.ring.readopt && h.half } }

/-- At the header of a half weft the angle slews (R91). -/
theorem adopt_slews {m : Module} {h : WeftHdr} {d : Nat} (hh : h.half = true) :
    (m.adopt h d).1.clk.tracker = .domain ∧ (m.adopt h d).1.clk.measured = h.period ∧
      (m.adopt h d).1.clk.cycle = m.clk.cycle ∧ (m.adopt h d).1.clk.angle = m.clk.angle ∧
      (m.adopt h d).1 = { m with clk := (m.adopt h d).1.clk } := by
  have he : ∃ l, (m.adopt h d).1 = { m.adopting h d with clk := (m.adopting h d).clk.setLen l } := by
    refine ⟨(m.adopting h d).clk.slewed ((m.headerErr h d).tdiv ((10 * m.clk.cycleLen.toNat : Nat) : Int)), ?_⟩
    unfold Module.adopt Module.adopting
    simp only [hh, Bool.not_true, Bool.false_and, Bool.false_eq_true, if_false]
  obtain ⟨l, he⟩ := he
  have hr : (m.ring.readopt && h.half) = m.ring.readopt := by rw [hh, Bool.and_true]
  rw [he]
  dsimp only
  rw [setLen_leaves]
  refine ⟨rfl, rfl, rfl, rfl, ?_⟩
  unfold Module.adopting
  dsimp only
  rw [hr]

/-- A rebase takes the header's cycle as its own (R90). -/
theorem adopt_rebases {m : Module} {h : WeftHdr} {d : Nat} (hh : h.half = false) (hr : m.clk.rebaseDue = true) :
    (m.adopt h d).1.clk.cycle = h.cycle ∧ (m.adopt h d).1.clk.tracker = .domain ∧ (m.adopt h d).1.clk.rebaseDue = false ∧
      (m.adopt h d).1.vault.checkpoint = some h.cycle ∧ (m.adopt h d).2 = 0 := by
  obtain ⟨sent, new, hn, ht⟩ := stepAngle_timed (m.adopting h d) (d / 10) (some h.cycle)
  have he : m.adopt h d = ({ (m.adopting h d).stepAngle (d / 10) (some h.cycle) with
      vault := { ((m.adopting h d).stepAngle (d / 10) (some h.cycle)).vault with
        checkpoint := some ((m.adopting h d).stepAngle (d / 10) (some h.cycle)).clk.cycle } }, 0) := by
    unfold Module.adopt
    dsimp only
    rw [if_pos (by simp [hh, hr])]
    rfl
  have hclk := (role_timed ht).1
  have hnew : new = h.cycle := hn rfl
  rw [he]
  dsimp only
  rw [hclk, hnew]
  exact ⟨rfl, rfl, rfl, rfl, rfl⟩

theorem role_adopt (m : Module) (h : WeftHdr) (d : Nat) : (m.adopt h d).1.role = m.role := by
  have hstep : ∀ (x : Module) (n : Nat) (r : Option Cycle), (x.stepAngle n r).role = x.role := by
    intro x n r
    obtain ⟨_, _, -, ht⟩ := stepAngle_timed x n r
    exact (role_timed ht).2
  unfold Module.adopt
  dsimp only
  split
  · exact (Eq.trans rfl (hstep _ _ _)).trans rfl
  · split
    · unfold Module.stepUnlessWrap
      split
      · rfl
      · exact (hstep _ _ _).trans rfl
    · rfl

theorem role_flushHeld (m : Module) : m.flushHeld.role = m.role := by
  obtain ⟨a, b, h⟩ := talk_flushHeld m
  exact (role_talk h).trans rfl

theorem role_judgeMute (m : Module) (e : Int) : (m.judgeMute e).role = m.role := by
  have htold : ∀ (x : Module) (c1 c2 : Bool) (n : Nat),
      (if c1 then x.ringChange 9 n 0xFF 0 else if c2 then x.flushHeld else x).role = x.role := by
    intro x c1 c2 n
    split
    · exact role_ringChange _ _ _ _ _
    · split
      · exact role_flushHeld _
      · rfl
  unfold Module.judgeMute
  dsimp only
  exact (htold _ _ _ _).trans rfl

theorem putLane_out (m : Module) (l : Lane) (o : Out) :
    m.putLane l o = { m with out := m.out ++ (if (m.lane l).state = 2 then [o] else []) } := by
  unfold Module.putLane
  by_cases h : (m.lane l).state = 2
  · rw [if_pos (by simp [h]), if_pos h]
    rfl
  · rw [if_neg (by simp [h]), if_neg h, List.append_nil]

theorem role_passHeader (m : Module) (lane : Lane) (h : WeftHdr) (d : Nat) : (m.passHeader lane h d).role = m.role := by
  unfold Module.passHeader
  dsimp only
  rw [putLane_out]
  rfl

/-! ### Headers that arrive (R271, R274, R288) -/

/-- What a header does at a module that is not, or no longer, the reference (R271, R274). -/
def Module.followHeader (m : Module) (lane : Lane) (h : WeftHdr) (d : Nat) : Module :=
  let x := (m.readHeader lane h d).joinBetween h.positions.toNat
  let y := if x.comesRound lane && (x.clk.tracker == .domain || x.clk.tracker == .domainHold) then
      (x.adopt h d).1.judgeMute (x.adopt h d).2 else x
  y.passHeader lane h d

theorem role_followHeader (m : Module) (lane : Lane) (h : WeftHdr) (d : Nat) :
    (m.followHeader lane h d).role = (m.ring.isRef, h.reference) := by
  unfold Module.followHeader
  dsimp only
  rw [role_passHeader]
  split
  · rw [role_judgeMute, role_adopt, role_joinBetween, role_readHeader]
  · rw [role_joinBetween, role_readHeader]

theorem takeHeader_stays {m : Module} {lane : Lane} {h : WeftHdr}
    (hs : m.ringUp = false ∨ m.ring.refusing = true ∨ (m.lane lane).state ≠ 2) : m.takeHeader lane h = m := by
  unfold Module.takeHeader
  exact if_pos (by rcases hs with h | h | h <;> simp [h])

/-- The module stops being the reference (R288). -/
def Module.yielding (m : Module) : Module :=
  { m with ring := { m.ring with isRef := false }, clk := { m.clk with tracker := .domain, altRef := false, rebaseDue := true } }

/-- A module that is not the reference follows the header (R271, R274). -/
theorem takeHeader_follows {m : Module} {lane : Lane} {h : WeftHdr} (hu : m.ringUp = true) (hr : m.ring.refusing = false)
    (hl : (m.lane lane).state = 2) (hi : m.ring.isRef = false) :
    m.takeHeader lane h = m.followHeader lane h (m.pathOf lane h) := by
  unfold Module.takeHeader
  dsimp only
  rw [if_neg (by simp [hu, hr, hl]), if_neg (by simp [hi]), if_neg (by simp [hi])]
  simp only [hi, Bool.false_eq_true, if_false]
  rfl

/-- At the reference its own header ends where its loop is closed, another of an earlier place makes it yield, and a later one is
left to yield itself (R274, R288). -/
theorem takeHeader_reference {m : Module} {lane : Lane} {h : WeftHdr} (hu : m.ringUp = true) (hr : m.ring.refusing = false)
    (hl : (m.lane lane).state = 2) (hi : m.ring.isRef = true) :
    (m.ownPosition h.reference = true → m.takeHeader lane h = (fun (f : Module) =>
      if f.comesRound lane then f else f.passHeader lane h (m.pathOf lane h)) (m.seeEpoch h.reference.toNat h.refEpoch)) ∧
    (m.ownPosition h.reference = false → m.yieldsTo h.reference = false →
      m.takeHeader lane h = m.seeEpoch h.reference.toNat h.refEpoch) ∧
    (m.ownPosition h.reference = false → m.yieldsTo h.reference = true →
      m.takeHeader lane h = m.yielding.followHeader lane h (m.pathOf lane h)) := by
  unfold Module.takeHeader
  dsimp only
  rw [if_neg (by simp [hu, hr, hl])]
  refine ⟨fun ho => ?_, fun ho hy => ?_, fun ho hy => ?_⟩
  · rw [if_pos (by simp [hi, ho])]
  · rw [if_neg (by simp [ho]), if_pos (by simp [hi, hy])]
  · rw [if_neg (by simp [ho]), if_neg (by simp [hy]), if_pos hi]
    rfl

theorem passHeader_passes {m : Module} {lane : Lane} (h : WeftHdr) (d : Nat) (hl : (m.lane (m.nextLane lane)).state = 2) :
    m.passHeader lane h d = { m with out := m.out ++ [.weft (m.nextLane lane) { h with
      pathDelay := BitVec.ofNat 32 (d + m.latency), hops := h.hops + 1 }] } := by
  unfold Module.passHeader
  dsimp only
  rw [putLane_out, if_pos hl]

/-! ### The mute (R279, R280) -/

/-- The mute follows the offset: it begins past 1 µs, and ends after eight estimates within 500 ns (R279, R280). -/
theorem judgeMute_follows (m : Module) (err : Int) : (m.judgeMute err).ring.offset = -(err.tdiv 65536) ∧
    (65536000 < err.natAbs → (m.judgeMute err).ring.muted = true) ∧
    (err.natAbs ≤ 65536000 → m.ring.muted = false → (m.judgeMute err).ring.muted = false) ∧
    (m.ring.muted = true → 32768000 < err.natAbs → (m.judgeMute err).ring.muted = true) ∧
    (m.ring.muted = true → m.ring.muteUntil = none → err.natAbs ≤ 32768000 → 7 ≤ m.ring.calmRun →
      (m.judgeMute err).ring.muted = false) := by
  obtain ⟨h1, h2⟩ := judgeMute_ring m err
  rw [h2]
  refine ⟨h1, fun h => ?_, fun h hm => ?_, fun hm h => ?_, fun hm hu h hc => ?_⟩
  · rw [decide_eq_true h, Bool.true_or]
  · rw [decide_eq_false (Nat.not_lt.mpr h), hm, Bool.false_and, Bool.or_false]
  · rw [if_neg (Nat.not_le.mpr h), hm]
    simp
  · rw [decide_eq_false (by omega), if_pos h, decide_eq_false (by omega), hu, Bool.false_or, Bool.false_or, Bool.and_false]

/-! ### The reference's own headers (R273, R274) -/

/-- Frames that leave one after another on lanes in lock. -/
theorem foldl_putLane {α : Type} (lane : Module → α → Lane) (o : Module → α → Out)
    (hlane : ∀ m x a, lane { m with out := x } a = lane m a) (ho : ∀ m x a, o { m with out := x } a = o m a) :
    ∀ (l : List α) (m : Module), l.foldl (fun m a => m.putLane (lane m a) (o m a)) m =
      { m with out := m.out ++ (l.filter (fun a => (m.lane (lane m a)).state == 2)).map (o m) }
  | [], m => by simp
  | a :: l, m => by
    have hl : ∀ x b, ({ m with out := x } : Module).lane b = m.lane b := fun _ _ => rfl
    rw [List.foldl_cons, putLane_out, foldl_putLane lane o hlane ho l]
    simp only [hlane, hl, List.filter_cons, List.append_assoc]
    have ho' : ∀ x, o { m with out := x } = o m := fun x => funext (ho m x)
    rw [ho' (m.out ++ (if (m.lane (lane m a)).state = 2 then [o m a] else []))]
    by_cases h : (m.lane (lane m a)).state = 2
    · simp [h]
    · simp [h]

/-- At a weft start the reference's headers go out, and what the seam held after them (R273, R274). -/
theorem sendHeaders_sends {m : Module} (hu : m.ringUp = true) (hi : m.ring.isRef = true)
    (ha : m.clk.angle.toNat % 32768 < 2048) :
    m.sendHeaders.clk.headerGap = 0 ∧ m.sendHeaders.ring.seam = [] ∧ m.sendHeaders.ring.quiet = false ∧
    m.sendHeaders.ring.delay0 = 0 ∧ m.sendHeaders.ring.delay1 = 0 ∧
    m.sendHeaders.out = m.out ++
      ((loopsOf m.ring.form).filter (fun l => (m.lane (m.sendLane l)).state == 2)).map (fun l =>
        Out.weft (m.sendLane l) (m.header l)) ++
      (m.ring.seam.filter (fun f => (m.lane (m.sendLane f.hdr.loop)).state == 2)).map (fun f =>
        Out.ring (m.sendLane f.hdr.loop) f.ty { f.hdr with held := true } f.payload) := by
  unfold Module.sendHeaders
  dsimp only
  rw [if_pos (by simp [hu, hi, ha]), foldl_putLane (fun m loop => m.sendLane loop)
      (fun m loop => .weft (m.sendLane loop) (m.header loop)) (fun _ _ _ => rfl) (fun _ _ _ => rfl),
    foldl_putLane (fun m (f : RingOut) => m.sendLane f.hdr.loop)
      (fun m (f : RingOut) => .ring (m.sendLane f.hdr.loop) f.ty { f.hdr with held := true } f.payload)
      (fun _ _ _ => rfl) (fun _ _ _ => rfl)]
  exact ⟨rfl, rfl, rfl, rfl, rfl, rfl⟩

theorem sendHeaders_waits {m : Module}
    (h : m.ringUp = false ∨ m.ring.isRef = false ∨ 2048 ≤ m.clk.angle.toNat % 32768) : m.sendHeaders = m :=
  if_neg (by rcases h with h | h | h <;> simp [h])

/-! ### The takeover of the reference (R85, R286, R287) -/

/-- A new reference continues its angle (R92, R287). -/
theorem becomeRef_continues (m : Module) : m.becomeRef.ring.isRef = true ∧ m.becomeRef.ring.reference = m.positionByte ∧
    m.becomeRef.clk.angle = m.clk.angle ∧ m.becomeRef.clk.cycle = m.clk.cycle := by
  have hkeep : ∀ (x : Module) (a b c : Nat) (e : Word16), (x.ringChange a b c e).timed = x.timed :=
    fun x a b c e => timed_talk (talk_ringChange x a b c e)
  have hset : ∀ (c : Clock) (l : Word32), (c.setLen l).angle = c.angle ∧ (c.setLen l).cycle = c.cycle := by
    intro c l
    rw [setLen_leaves]
    exact ⟨rfl, rfl⟩
  have hclk : ∀ (x : Module) (held dc : Bool), let y := if held then
      { x with clk :=
        let c := { x.clk with ref := x.items.refPrimary, altRef := false, fly := [], lockRun := 0 }
        if dc then { c with tracker := .synthetic, measured := 2000000 }.setLen 2000000
        else { c with tracker := .flywheel, flyFrom := c.turn } }
      else x
      y.role = x.role ∧ y.clk.angle = x.clk.angle ∧ y.clk.cycle = x.clk.cycle := by
    intro x held dc
    cases held
    · exact ⟨rfl, rfl, rfl⟩
    · cases dc
      · exact ⟨rfl, rfl, rfl⟩
      · simp only [if_true]
        exact ⟨rfl, hset _ _⟩
  unfold Module.becomeRef
  dsimp only
  refine ⟨?_, ?_, ?_, ?_⟩
  · exact (congrArg (fun p => p.2.1) (hkeep _ _ _ _ _)).trans (congrArg (fun p => p.1) (hclk _ _ _).1)
  · exact (congrArg (fun p => p.2.2) (hkeep _ _ _ _ _)).trans (congrArg (fun p => p.2) (hclk _ _ _).1)
  · exact (congrArg (fun p => p.1.angle) (hkeep _ _ _ _ _)).trans (hclk _ _ _).2.1
  · exact (congrArg (fun p => p.1.cycle) (hkeep _ _ _ _ _)).trans (hclk _ _ _).2.2

/-- REFERENCE_TAKEOVER as an effect on the module (R286, R287). -/
def Module.takeOver (m : Module) : Module :=
  if m.ringUp && m.ringReady && m.ring.position.isSome && !m.ring.isRef && m.takeoverDue then m.becomeRef else m

theorem exec_referenceTakeover (dt : Nat) (s : State) : exec (.referenceTakeover dt) s = s.on dt Module.takeOver := rfl

theorem takeoverDue_eq {m : Module} {k : Nat} (h : refIndex m.ring.refList m.positionByte = some k) :
    m.takeoverDue = decide (64 + 8 * k ≤ m.clk.headerGap) := by
  unfold Module.takeoverDue
  rw [h]

theorem takeOver_takes {m : Module} {k : Nat} (hu : m.ringUp = true) (hr : m.ringReady = true)
    (hp : m.ring.position.isSome = true) (hi : m.ring.isRef = false) (hk : refIndex m.ring.refList m.positionByte = some k)
    (hg : 64 + 8 * k ≤ m.clk.headerGap) : m.takeOver = m.becomeRef :=
  if_pos (by simp [hu, hr, hp, hi, takeoverDue_eq hk, hg])

theorem takeOver_waits {m : Module} {k : Nat} (hk : refIndex m.ring.refList m.positionByte = some k)
    (hg : m.clk.headerGap < 64 + 8 * k) : m.takeOver = m :=
  if_neg (by simp [takeoverDue_eq hk, hg])

/-- Settles O41: each header is followed, ended or left to the other reference; the reference sends its own, and is succeeded. -/
theorem weftHeaders : Obligations.WeftHeaders := by
  unfold Obligations.WeftHeaders
  refine ⟨?follows, ?passes, ?stays, ?reference, ?slews, ?rebases, ?mutes, ?sends, ?waits, ?takeover⟩
  case follows =>
    rintro s dt lane h _ x y rfl hf hu hr hl hi rfl rfl
    refine onLane_to hf ((takeHeader_follows hu hr hl hi).trans ?_)
    unfold Module.followHeader
    dsimp only
    congr 1
    exact if_congr (by simp) rfl rfl
  case passes => exact fun m lane h d hl => passHeader_passes h d hl
  case stays =>
    rintro s dt lane h _ rfl hf hs
    exact onLane_to hf (takeHeader_stays hs)
  case reference =>
    rintro s dt lane h _ f rfl hf hu hr hl hi rfl
    obtain ⟨h1, h2, h3⟩ := takeHeader_reference (h := h) hu hr hl hi
    refine ⟨fun ho => onLane_to hf (h1 ho), fun ho hy => onLane_to hf (h2 ho hy), fun ho hy => ?_⟩
    have hrole := role_followHeader (s.m.elapse dt).yielding lane h ((s.m.elapse dt).pathOf lane h)
    exact ⟨_, onLane_to hf (h3 ho hy), congrArg (fun p => p.1) hrole, congrArg (fun p => p.2) hrole⟩
  case slews => exact fun m h d hh => adopt_slews hh
  case rebases => exact fun m h d hh hr => adopt_rebases hh hr
  case mutes => exact judgeMute_follows
  case sends =>
    rintro s dt _ rfl hu hi ha
    exact ⟨_, on_next (f := fun m => m.sendHeaders) rfl, sendHeaders_sends hu hi ha⟩
  case waits =>
    rintro s dt _ rfl h
    exact on_next (f := fun m => m.sendHeaders) (sendHeaders_waits h)
  case takeover =>
    rintro s dt k _ rfl hu hr hp hi hk
    rw [exec_referenceTakeover]
    exact ⟨fun hg => ⟨_, on_next (takeOver_takes hu hr hp hi hk hg), becomeRef_continues _⟩,
      fun hg => on_next (takeOver_waits hk hg)⟩

end Sys2Proof.Machine
end

section
/-! PROOFS. Slot frames: their insertion, their passing and what they carry (`Obligations.SlotTraffic`,
`Obligations.RingFrames`). -/

namespace Sys2Proof.Machine
open Sys2Proof

/-! ### Insertion (R62, R270-R272, R281, R283, R290) -/

/-- With nothing held nothing is sent late (R299). -/
theorem flushHeld_empty {m : Module} (h1 : m.ring.held = []) (h2 : m.ring.heldLoss = none) : m.flushHeld = m := by
  have hm : { m with ring := { m.ring with held := [], heldLoss := none } } = m := by rw [← h1, ← h2]
  unfold Module.flushHeld
  split
  · dsimp only
    rw [h1, h2, List.foldl_nil]
    exact hm
  · rfl

theorem mayInsert_iff (m : Module) (f : RingOut) : m.mayInsert f = true ↔ m.stage = .ready ∧ (m.shelf = false ∨ f.ty = 3) ∧
    m.ring.muted = false ∧ m.ring.quiet = false ∧ m.ring.refusing = false := by
  simp [Module.mayInsert, and_assoc]

theorem nextFrame_first {m : Module} {f : RingOut} {fs : List RingOut} {p dur : Nat} (h1 : m.mayInsert f = true)
    (h2 : m.busyUntil (m.sendLane (m.frameLoop f)) ≤ m.clk.tick.toNat) (h3 : m.inBody p (m.frameLoop f) dur = true) :
    m.nextFrame p dur (f :: fs) = some (f, fs) := by
  unfold Module.nextFrame
  dsimp only
  rw [if_pos (by simp [h1, h3, Module.now, h2])]

/-- The module with a frame taken off its queue (R272, R278). -/
def Module.dequeued (m : Module) (p dur : Nat) (f : RingOut) (rest : List RingOut) : Module :=
  { m with ring := { m.ring with
    txq := rest
    touches := if m.touchesSelvage p (m.frameLoop f) dur then satInc m.ring.touches else m.ring.touches } }

/-- The first frame that may leave leaves (R272). -/
theorem insert_inserts {m : Module} {p dur : Nat} {f : RingOut} {rest : List RingOut} (hu : m.ringUp = true)
    (hp : m.ring.position = some p) (hh : m.ringReady = false ∨ m.ring.held = [] ∧ m.ring.heldLoss = none)
    (he : m.ring.pushE = false) (hw : m.ring.pushW = false) (hn : m.nextFrame p dur m.ring.txq = some (f, rest)) :
    m.insert dur = ((m.dequeued p dur f rest).insertFrame f dur).resetStep.standbyStep.prbsStep := by
  have hf : m.flushHeld = m := by
    rcases hh with h | ⟨h1, h2⟩
    · exact flushHeld_idle h
    · exact flushHeld_empty h1 h2
  unfold Module.insert
  rw [hp]
  dsimp only
  rw [if_pos hu, hf, pushEscrow_idle he hw, hn]
  rfl

theorem insert_idle {m : Module} {dur : Nat} (h : m.ringUp = false ∨ m.ring.position = none) : m.insert dur = m := by
  unfold Module.insert
  split
  · rfl
  · rename_i p hp
    rcases h with h | h
    · exact if_neg (by rw [h]; exact Bool.false_ne_true)
    · rw [h] at hp
      cases hp

/-- The frame that leaves, with its loop, SEQ, source epoch and WEFT of now (R258, R275). -/
def Module.stamped (m : Module) (f : RingOut) : RingHdr :=
  { f.hdr with
    loop := m.frameLoop f, seq := Tbl.get 0 m.ring.txSeq (m.frameLoop f) + 1, srcEpoch := m.vault.hubEpoch
    weft := BitVec.ofNat 32 m.clk.half }

/-- The lane is busy until the frame's end; a REQUEST's till is due 100 ms after it (R272, R290). -/
def Module.occupied (m : Module) (f : RingOut) (dur : Nat) : Module :=
  let m' := ({ m with ring := { m.ring with
    txSeq := Tbl.set 0 m.ring.txSeq (m.frameLoop f) (Tbl.get (0 : Word16) m.ring.txSeq (m.frameLoop f) + 1) } } : Module).busy
      (m.sendLane (m.frameLoop f)) (m.now + dur)
  if f.ty = 2 then m'.setTill f.hdr.rtill (fun t => { t with due := m.now + dur + 10000000 }) else m'

theorem insertFrame_eq (m : Module) (f : RingOut) (dur : Nat) : m.insertFrame f dur = (m.occupied f dur).putLane
    (m.sendLane (m.frameLoop f)) (.ring (m.sendLane (m.frameLoop f)) f.ty (m.stamped f) f.payload) := by
  unfold Module.insertFrame Module.occupied
  dsimp only
  split <;> rfl

theorem occupied_eq (m : Module) (f : RingOut) (dur : Nat) : ∃ w, m.occupied f dur = { m with
    win := w
    ring := { m.ring with
      txSeq := Tbl.set 0 m.ring.txSeq (m.frameLoop f) (Tbl.get (0 : Word16) m.ring.txSeq (m.frameLoop f) + 1)
      busyTill := Tbl.set 0 m.ring.busyTill (m.sendLane (m.frameLoop f)).code (m.now + dur) } } := by
  unfold Module.occupied
  dsimp only
  split
  · exact ⟨_, rfl⟩
  · exact ⟨m.win, rfl⟩

theorem occupied_due {m : Module} {f : RingOut} {dur : Nat} (hf : f.ty = 2) (hw : Tbl.wf Till.closed m.win.tills = true) :
    ((m.occupied f dur).till f.hdr.rtill).due = m.clk.tick.toNat + dur + 10000000 := by
  unfold Module.occupied
  dsimp only
  rw [if_pos hf, till_setTill _ _ (by exact hw)]
  rfl

/-- What inserting a frame writes and sends (R272, R275, R290). -/
theorem insertFrame_sends (m : Module) (f : RingOut) (dur : Nat) :
    (m.insertFrame f dur).ring.txq = m.ring.txq ∧
    (m.insertFrame f dur).ring.busyTill =
      Tbl.set 0 m.ring.busyTill (m.sendLane (m.frameLoop f)).code (m.clk.tick.toNat + dur) ∧
    (m.insertFrame f dur).out = m.out ++ (if (m.lane (m.sendLane (m.frameLoop f))).state = 2 then
      [.ring (m.sendLane (m.frameLoop f)) f.ty (m.stamped f) f.payload] else []) ∧
    (f.ty = 2 → Tbl.wf Till.closed m.win.tills = true →
      ((m.insertFrame f dur).till f.hdr.rtill).due = m.clk.tick.toNat + dur + 10000000) := by
  have hdue := @occupied_due m f dur
  obtain ⟨w, h⟩ := occupied_eq m f dur
  rw [insertFrame_eq, putLane_out]
  rw [h] at hdue ⊢
  exact ⟨rfl, rfl, rfl, fun h2 hw => hdue h2 hw⟩

/-! ### Passing through (R263, R272, R273, R276-R278) -/

theorem passFrame_stays {m : Module} {lane : Lane} {ty : Byte} {hdr : RingHdr} {payload : List Byte} {good inserted : Bool}
    {reach : Nat} (h : m.ringUp = false ∨ m.ring.refusing = true ∨ good = false ∨ (m.lane lane).state ≠ 2) :
    m.passFrame lane ty hdr payload good inserted reach = m :=
  if_pos (by rcases h with h | h | h | h <;> simp [h])

/-- A frame passing through, once its epoch is recorded (R276-R278). -/
def Module.passes (f : Module) (lane : Lane) (ty : Byte) (hdr : RingHdr) (payload : List Byte) : Module :=
  if f.ownPosition hdr.dst && removedAtDst ty then f
  else if f.ownPosition hdr.src && f.comesRound lane then f
  else if f.ring.isRef && f.comesRound lane then
    if hdr.held then f else { f with ring := { f.ring with seam := f.ring.seam ++ [⟨ty, hdr, payload⟩] } }
  else f.forwardFrame (f.nextLane lane) ⟨ty, hdr, payload⟩

theorem passFrame_passes {m : Module} {lane : Lane} {ty : Byte} {hdr : RingHdr} {payload : List Byte} {good inserted : Bool}
    {reach : Nat} (hu : m.ringUp = true) (hr : m.ring.refusing = false) (hg : good = true) (hl : (m.lane lane).state = 2) :
    (inserted = true → 2 ≤ reach → m.passFrame lane ty hdr payload good inserted reach = (fun (f : Module) =>
      f.link ((laneSide lane).getD .west) 0x4A (u32 hdr.weft.toNat ++
        u8 ((f.clk.angle.toNat % 32768 - 2048) / 240) ++ u8 hdr.loop ++ rsv 2)) (m.seeEpoch hdr.src.toNat hdr.srcEpoch)) ∧
    ((inserted = false ∨ reach < 2) → m.passFrame lane ty hdr payload good inserted reach =
      (m.seeEpoch hdr.src.toNat hdr.srcEpoch).passes lane ty hdr payload) := by
  unfold Module.passFrame
  dsimp only
  rw [if_neg (by simp [hu, hr, hg, hl])]
  refine ⟨fun h1 h2 => if_pos (by simp [h1, h2]), fun h => if_neg ?_⟩
  rcases h with h | h <;> simp [h]

/-- The destination removes a frame to one position, and the source its own (R276). -/
theorem passes_removed {f : Module} {lane : Lane} {ty : Byte} {hdr : RingHdr} {payload : List Byte}
    (h : (f.ownPosition hdr.dst = true ∧ 2 ≤ ty.toNat ∧ ty.toNat ≤ 6) ∨
      (f.ownPosition hdr.src = true ∧ f.comesRound lane = true)) : f.passes lane ty hdr payload = f := by
  unfold Module.passes
  rcases h with ⟨h1, h2, h3⟩ | ⟨h1, h2⟩
  · exact if_pos (by simp [h1, removedAtDst, h2, h3])
  · split
    · rfl
    · exact if_pos (by simp [h1, h2])

theorem not_removedAtDst {f : Module} {ty : Byte} {hdr : RingHdr}
    (h : f.ownPosition hdr.dst = false ∨ ty.toNat < 2 ∨ 6 < ty.toNat) : (f.ownPosition hdr.dst && removedAtDst ty) = false := by
  unfold removedAtDst
  rcases h with h | h | h
  · rw [h, Bool.false_and]
  · rw [decide_eq_false (Nat.not_le.mpr h), Bool.false_and, Bool.and_false]
  · rw [decide_eq_false (Nat.not_le.mpr h), Bool.and_false, Bool.and_false]

/-- At the reference, where its loop is closed, a frame waits at the seam, once (R273). -/
theorem passes_seam {f : Module} {lane : Lane} {ty : Byte} {hdr : RingHdr} {payload : List Byte}
    (h : f.ownPosition hdr.dst = false ∨ ty.toNat < 2 ∨ 6 < ty.toNat) (hs : f.ownPosition hdr.src = false)
    (hc : f.comesRound lane = true) (hi : f.ring.isRef = true) : f.passes lane ty hdr payload =
      if hdr.held then f else { f with ring := { f.ring with seam := f.ring.seam ++ [⟨ty, hdr, payload⟩] } } := by
  unfold Module.passes
  rw [not_removedAtDst h, if_neg Bool.false_ne_true, if_neg (by simp [hs]), if_pos (by simp [hi, hc])]

/-- Any other frame goes on (R272). -/
theorem passes_on {f : Module} {lane : Lane} {ty : Byte} {hdr : RingHdr} {payload : List Byte}
    (h : f.ownPosition hdr.dst = false ∨ ty.toNat < 2 ∨ 6 < ty.toNat)
    (hc : f.comesRound lane = false ∨ (f.ownPosition hdr.src = false ∧ f.ring.isRef = false)) :
    f.passes lane ty hdr payload = f.forwardFrame (f.nextLane lane) ⟨ty, hdr, payload⟩ := by
  unfold Module.passes
  rw [not_removedAtDst h, if_neg Bool.false_ne_true]
  rcases hc with hc | ⟨hs, hi⟩
  · rw [if_neg (by simp [hc]), if_neg (by simp [hc])]
  · rw [if_neg (by simp [hs]), if_neg (by simp [hi])]

theorem forwardFrame_drops {m : Module} {out : Lane} {f : RingOut} (h : 131072 < m.backlog out + (28 + f.payload.length)) :
    m.forwardFrame out f = { m with ring := { m.ring with fwdLost := m.ring.fwdLost + 1 } } := if_pos h

theorem forwardFrame_sends {m : Module} {out : Lane} {f : RingOut} (h : m.backlog out + (28 + f.payload.length) ≤ 131072)
    (hl : (m.lane out).state = 2) : m.forwardFrame out f = { m with
      ring := { m.ring with
        busyTill := Tbl.set 0 m.ring.busyTill out.code
          (max m.clk.tick.toNat (m.busyUntil out) + 2 * (28 + f.payload.length) / 25) }
      out := m.out ++ [.ring out f.ty f.hdr f.payload] } := by
  refine (if_neg (Nat.not_lt.mpr h)).trans ?_
  rw [putLane_out]
  have hs : ((m.busy out (max m.now (m.busyUntil out) + 2 * frameBytes f.payload / 25)).lane out).state = 2 := hl
  rw [if_pos hs]
  rfl

/-- Settles O42: the frame that may leave does so, and a passing frame meets the first of R276-R278 that applies. -/
theorem slotTraffic : Obligations.SlotTraffic := by
  unfold Obligations.SlotTraffic
  refine ⟨?inserts, ?idle, mayInsert_iff, fun m f fs p dur => ⟨fun h1 h2 h3 => nextFrame_first h1 h2 h3, rfl⟩, ?passing,
    fun m out f => ⟨fun h => forwardFrame_drops h, fun h hl => forwardFrame_sends h hl⟩⟩
  case inserts =>
    rintro s dt dur p loop lane _ f rest rfl hu hp hh he hw hn rfl rfl
    obtain ⟨h1, h2, h3, h4⟩ := insertFrame_sends ((s.m.elapse dt).dequeued p dur f rest) f dur
    exact ⟨_, on_next (f := fun m => m.insert dur) (insert_inserts hu hp hh he hw hn), h1, h2, h3, h4⟩
  case idle =>
    rintro s dt dur _ rfl h
    exact on_next (f := fun m => m.insert dur) (insert_idle h)
  case passing =>
    rintro s dt lane ty hdr payload good inserted reach _ f rfl hf rfl
    refine ⟨fun h => onLane_to hf (passFrame_stays h), fun hu hr hg hl => ?_⟩
    obtain ⟨h1, h2⟩ := passFrame_passes (m := s.m.elapse dt) (lane := lane) (ty := ty) (hdr := hdr) (payload := payload)
      (inserted := inserted) (reach := reach) hu hr hg hl
    refine ⟨fun hi hreach => onLane_to hf (h1 hi hreach), fun hi => ⟨fun hd ht1 ht2 => ?_, fun hs hc => ?_, fun hd => ⟨?_, ?_⟩⟩⟩
    · exact onLane_to hf ((h2 hi).trans (passes_removed (.inl ⟨hd, ht1, ht2⟩)))
    · exact onLane_to hf ((h2 hi).trans (passes_removed (.inr ⟨hs, hc⟩)))
    · exact fun hs hc hr => onLane_to hf ((h2 hi).trans (passes_seam hd hs hc hr))
    · exact fun hc => onLane_to hf ((h2 hi).trans (passes_on hd hc))

/-! ### Frames addressed here, and broadcasts (R276, R289) -/

theorem addressed_stays {m : Module} {hdr : RingHdr} {g : Module → Module} (h : m.ringUp = false ∨ m.ring.refusing = true) :
    m.addressed hdr g = m :=
  if_neg (by rcases h with h | h <;> simp [h])

theorem addressed_acts {m : Module} {hdr : RingHdr} {g : Module → Module} (hu : m.ringUp = true)
    (hr : m.ring.refusing = false) : m.addressed hdr g = (fun (f : Module) =>
      if f.ownPosition hdr.dst = true ∧ f.ownPosition hdr.src = false then g f else f)
        (m.seeEpoch hdr.src.toNat hdr.srcEpoch) := by
  unfold Module.addressed
  rw [if_pos (by simp [hu, hr])]
  exact if_congr (by simp) rfl rfl

theorem takeOnce_stays {m : Module} {hdr : RingHdr} {g : Module → Module} (h : m.ringUp = false ∨ m.ring.refusing = true) :
    m.takeOnce hdr g = m :=
  if_neg (by rcases h with h | h <;> simp [h])

/-- A broadcast acts once for each source and loop, and never at its source (R276). -/
theorem takeOnce_acts {m f : Module} {hdr : RingHdr} {key : Nat} {g : Module → Module}
    (hf : f = m.seeEpoch hdr.src.toNat hdr.srcEpoch) (hk : key = 256 * hdr.loop + hdr.src.toNat) (hu : m.ringUp = true)
    (hr : m.ring.refusing = false) :
    (f.ownPosition hdr.src = true → m.takeOnce hdr g = f) ∧
    (∀ q, Tbl.get none f.ring.lastSeq key = some q → newerSeq hdr.seq q = false → m.takeOnce hdr g = f) ∧
    (f.ownPosition hdr.src = false → (∀ q, Tbl.get none f.ring.lastSeq key = some q → newerSeq hdr.seq q = true) →
      m.takeOnce hdr g = g { f with ring := { f.ring with lastSeq := Tbl.set none f.ring.lastSeq key (some hdr.seq) } }) := by
  subst hf hk
  unfold Module.takeOnce
  dsimp only
  rw [if_pos (by simp [hu, hr])]
  generalize m.seeEpoch hdr.src.toNat hdr.srcEpoch = f
  refine ⟨fun ho => if_neg (by simp [ho]), fun q hq hn => ?_, fun ho hn => ?_⟩
  · rw [hq]
    exact if_neg (by simp [hn])
  · refine if_pos ?_
    rw [ho]
    cases hq : Tbl.get none f.ring.lastSeq (256 * hdr.loop + hdr.src.toNat) with
    | none => rfl
    | some q => simp [hn q hq]

/-! ### Requests and replies (R145, R289-R293) -/

theorem takeRing_cases (m : Module) (hdr : RingHdr) (op : Word16) (p : Packet) :
    (m.ignores hdr.src = true → m.takeRing hdr op p = m) ∧
    (m.ignores hdr.src = false → hdr.dstEpoch ≠ 0 → hdr.dstEpoch ≠ m.vault.hubEpoch →
      m.takeRing hdr op p = m.sendPresence hdr.src) ∧
    (m.ignores hdr.src = false → (hdr.dstEpoch = 0 ∨ hdr.dstEpoch = m.vault.hubEpoch) →
      m.takeRing hdr op p = m.arrive (op, { p with path := .ring hdr.src hdr.rtill }) m.clk.tick.toNat true) := by
  unfold Module.takeRing
  refine ⟨fun hi => if_pos hi, fun hi h1 h2 => ?_, fun hi h => ?_⟩
  · rw [if_neg (by simp [hi]), if_pos (by simpa using ⟨h1, h2⟩)]
  · rw [if_neg (by simp [hi]), if_neg (by rcases h with h | h <;> simp [h])]
    rfl

/-- A reply that nothing waits for, or that comes late, from another position or under another epoch, is discarded (R145, R292). -/
theorem relay_discards {m : Module} {hdr : RingHdr} {r : Reply} (h : (∀ f ∈ m.ring.forwards, f.1 ≠ hdr.rtill) ∨
    (m.till hdr.rtill).link.toNat ≠ hdr.src.toNat ∨
    ((m.till hdr.rtill).due ≠ 0 ∧ (m.till hdr.rtill).due < m.clk.tick.toNat) ∨
    ((m.till hdr.rtill).epoch ≠ 0 ∧ (m.till hdr.rtill).epoch ≠ hdr.srcEpoch)) : m.relay hdr r = m := by
  unfold Module.relay
  dsimp only
  split
  · rfl
  · rename_i f hf
    refine if_pos ?_
    rcases h with h | h | ⟨h1, h2⟩ | ⟨h1, h2⟩
    · have hb := List.find?_some hf
      exact absurd (by simpa using hb) (h f (List.mem_of_find?_eq_some hf))
    · simp [h]
    · simp [Module.ringLate, Module.expired, Module.now, h1, h2]
    · have he : ((m.till hdr.rtill).epoch ≠ 0 && (m.till hdr.rtill).epoch ≠ hdr.srcEpoch) = true := by simpa using ⟨h1, h2⟩
      exact (congrArg (fun b => decide ((m.till hdr.rtill).link.toNat ≠ hdr.src.toNat) || m.ringLate (m.till hdr.rtill) || b)
        he).trans (Bool.or_true _)

/-- A reply on time from its position is relayed, and its till is free (R145, R293). -/
theorem relay_relays {m : Module} {hdr : RingHdr} {r : Reply} {f : Word16 × Word16 × Packet}
    (hf : m.ring.forwards.find? (fun f => f.1 == hdr.rtill) = some f) (hl : (m.till hdr.rtill).link.toNat = hdr.src.toNat)
    (hd : (m.till hdr.rtill).due = 0 ∨ m.clk.tick.toNat ≤ (m.till hdr.rtill).due)
    (he : (m.till hdr.rtill).epoch = 0 ∨ (m.till hdr.rtill).epoch = hdr.srcEpoch) (hr : r.status ≠ stAccepted) :
    m.relay hdr r = ((({ m with ring := { m.ring with
        forwards := m.ring.forwards.filter (fun f => f.1 != hdr.rtill) } }).setTill hdr.rtill
          (fun _ => Till.closed)).completeWith f.2.1 f.2.2 { r with rflags := r.rflags ||| 32 }).resetStep := by
  have hlate : m.ringLate (m.till hdr.rtill) = false := by
    unfold Module.ringLate Module.expired Module.now
    rcases hd with hd | hd
    · simp [hd]
    · simp [Nat.not_lt.mpr hd]
  have hep : ((m.till hdr.rtill).epoch ≠ 0 && (m.till hdr.rtill).epoch ≠ hdr.srcEpoch) = false := by
    rcases he with he | he <;> simp [he]
  unfold Module.relay
  dsimp only
  rw [hf]
  dsimp only
  rw [if_neg (by simpa [hl, hlate] using hep), if_neg hr]
  rfl

theorem ringLate_iff (m : Module) (t : Till) : m.ringLate t = true ↔ t.due ≠ 0 ∧ t.due < m.clk.tick.toNat := by
  unfold Module.ringLate Module.expired
  rw [Bool.and_eq_true, bne_iff_ne, decide_eq_true_iff]
  rfl

/-- RING_REPLY_TIMEOUT as an effect on the module (R145, R290). -/
def Module.replyTimeout (m : Module) (till : Word16) : Module :=
  if (m.till till).kind = 5 && m.ringLate (m.till till) then m.failTill till stTimeout else m

theorem exec_ringReplyTimeout (dt : Nat) (till : Word16) (s : State) :
    exec (.ringReplyTimeout dt till) s = s.on dt (fun m => m.replyTimeout till) := rfl

theorem replyTimeout_eq (m : Module) (till : Word16) : m.replyTimeout till =
    if (m.till till).kind = 5 ∧ (m.till till).due ≠ 0 ∧ (m.till till).due < m.clk.tick.toNat then m.failTill till stTimeout
    else m :=
  if_congr (by rw [Bool.and_eq_true, decide_eq_true_iff, ringLate_iff]) rfl rfl

/-! ### Escrow and changes (R257, R283, R295) -/

theorem placeEscrow_verified {m : Module} {side : Side} {position : Byte} {epoch : Word16} {revision : Word32}
    {bytes mac : List Byte} (h : m.verifies bytes mac = true) :
    (m.placeEscrow side position epoch revision bytes mac).escrowOf side = some ⟨position, revision, epoch, bytes, mac⟩ := by
  unfold Module.placeEscrow
  rw [if_pos h]
  obtain ⟨o, ho⟩ := link_eq (m.setEscrow side (some ⟨position, revision, epoch, bytes, mac⟩)) side 0x4B (u32 revision.toNat)
  rw [ho]
  cases side <;> rfl

/-- The ring after a CHANGE that tells of a break or of its end, and of any other (R257, R283). -/
def Module.changed (m : Module) (src cause subject : Byte) : Module :=
  if cause = 1 || cause = 2 then m.noteBreak (breakKey src.toNat subject.toNat) (cause == 1) else m

theorem changed_form (m : Module) (src cause subject : Byte) :
    (m.changed src cause subject).ring.quiet = m.ring.quiet ∧
    (m.changed src cause subject).ring.form = (if cause = 1 then turnedForm m.ring.form
      else if cause = 2 ∧ m.ring.east.broken = false ∧ m.ring.west.broken = false ∧
        Tbl.set false m.ring.breaks (breakKey src.toNat subject.toNat) false = [] then wholeForm m.ring.form
      else m.ring.form) := by
  unfold Module.changed
  by_cases h1 : cause = 1
  · subst h1
    obtain ⟨b, i, l, o, h⟩ := noteBreak_breaks m (breakKey src.toNat subject.toNat)
    rw [if_pos (by decide), if_pos rfl, beq_self_eq_true, h]
    exact ⟨rfl, rfl⟩
  · rw [if_neg h1]
    by_cases h2 : cause = 2
    · obtain ⟨b, i, l, o, h⟩ := noteBreak_closes m (breakKey src.toNat subject.toNat)
      rw [if_pos (by simp [h2]), beq_false_of_ne h1, h]
      refine ⟨rfl, if_congr ?_ rfl rfl⟩
      simp [h2, List.isEmpty_iff, and_comm, and_left_comm]
    · rw [if_neg (by simpa using ⟨h1, h2⟩), if_neg (fun h => h2 h.1)]
      exact ⟨rfl, rfl⟩

/-- A CHANGE stops insertion until the next header, and the form follows a break that comes or is closed (R257, R283). -/
theorem takeChange_form {m : Module} {src cause subject : Byte} {epoch : Word16} (he : cause = 8 → m.ring.enum = none) :
    (m.takeChange src cause subject epoch).ring.quiet = true ∧
    (m.takeChange src cause subject epoch).ring.form = (if cause = 1 then turnedForm m.ring.form
      else if cause = 2 ∧ m.ring.east.broken = false ∧ m.ring.west.broken = false ∧
        Tbl.set false m.ring.breaks (breakKey src.toNat subject.toNat) false = [] then wholeForm m.ring.form
      else m.ring.form) := by
  have hsee : ∃ x : Module, x.standing = m.standing ∧ m.takeChange src cause subject epoch =
      (({ x with ring := { x.ring with quiet := true } } : Module).changed src cause subject).ringChange
        cause.toNat subject.toNat 0xFF epoch := by
    refine ⟨if cause = 5 then m.seeEpoch subject.toNat epoch else m, ?_, ?_⟩
    · split
      · exact standing_seeEpoch m _ _
      · rfl
    · unfold Module.takeChange Module.changed
      dsimp only
      rw [if_neg (c := (cause = 8 && m.ring.enum.isSome) = true) (by simpa using he)]
  obtain ⟨x, hx, heq⟩ := hsee
  obtain ⟨h1, h2⟩ := changed_form { x with ring := { x.ring with quiet := true } } src cause subject
  have hs := standing_talk (talk_ringChange (({ x with ring := { x.ring with quiet := true } } : Module).changed src cause subject)
    cause.toNat subject.toNat 0xFF epoch)
  rw [← heq] at hs
  have hq := congrArg (fun r : Ring => r.quiet) hs
  have hf := congrArg (fun r : Ring => r.form) hs
  have hxf := congrArg (fun r : Ring => r.form) hx
  have hxe := congrArg (fun r : Ring => r.east) hx
  have hxw := congrArg (fun r : Ring => r.west) hx
  have hxb := congrArg (fun r : Ring => r.breaks) hx
  refine ⟨hq.trans h1, (hf.trans h2).trans ?_⟩
  dsimp only [Module.standing] at hxf hxe hxw hxb ⊢
  rw [hxf, hxe, hxw, hxb]

/-- Settles O43: each frame is taken as its rule gives it, through `addressed` or `takeOnce`. -/
theorem ringFrames : Obligations.RingFrames := by
  unfold Obligations.RingFrames
  refine ⟨fun m hdr g => ⟨fun h => addressed_stays h, fun hu hr => addressed_acts hu hr⟩,
    fun m hdr g => ⟨fun h => takeOnce_stays h, fun f key hf hk hu hr => takeOnce_acts hf hk hu hr⟩, ?request, takeRing_cases,
    ?reply, ?relay, ?timeout, ?escrow, ?place, ?presence, ?change, fun m src cause subject epoch he => takeChange_form he, ?event⟩
  case request =>
    rintro s dt hdr op p _ rfl
    rfl
  case reply =>
    rintro s dt hdr r _ rfl
    rfl
  case relay =>
    exact fun m hdr r => ⟨fun h => relay_discards (.inl h), fun h1 h2 => relay_discards (.inr (.inr (.inl ⟨h1, h2⟩))),
      fun h => relay_discards (.inr (.inl h)), fun h1 h2 => relay_discards (.inr (.inr (.inr ⟨h1, h2⟩))),
      fun f hf hl hd he hr => relay_relays hf hl hd he hr⟩
  case timeout =>
    rintro s dt till _ rfl
    rw [exec_ringReplyTimeout]
    exact on_next (f := fun m => m.replyTimeout till) (replyTimeout_eq _ till)
  case escrow =>
    rintro s dt side hdr position epoch revision total offset data mac _ rfl
    rfl
  case place =>
    exact fun m side position epoch revision bytes mac =>
      ⟨fun h => if_neg (by rw [h]; exact Bool.false_ne_true), placeEscrow_verified⟩
  case presence =>
    rintro s dt hdr position variant epoch _ rfl
    rfl
  case change =>
    rintro s dt hdr cause subject epoch _ rfl
    rfl
  case event =>
    rintro s dt hdr r _ rfl
    refine on_next (f := fun m => m.takeOnce hdr (fun m => if m.gateway && !m.ignores hdr.src
      then m.deliver 1 { r with rflags := r.rflags ||| rfRelayed } m.vault.hostEpoch else m)) ?_
    congr 1
    funext m
    exact if_congr (by simp) rfl rfl

end Sys2Proof.Machine
end

section
/-! PROOFS. Both ends of a slice link (`Obligations.SliceLinkEnds`). -/

namespace Sys2Proof.Machine
open Sys2Proof

/-! ### Frames and deadlines at the hub (R229-R237) -/

/-- A frame of another epoch is counted, and the third in a row resets the link (R235). -/
theorem fromSlice_stale {m : Module} {n : Nat} {hdr : SliceHdr} {f : Module → Module} (h1 : m.stage ≠ .unpowered)
    (h2 : m.stage ≠ .rails) (hf : (m.slice n).failed = false) (hg : hdr.good = true) (he : hdr.epoch ≠ (m.slice n).epoch) :
    m.fromSlice n hdr f = if (m.slice n).stale < 2 then m.setSlice n (fun h => { h with stale := h.stale + 1 })
      else m.sliceReset n true := by
  unfold Module.fromSlice
  dsimp only
  rw [if_neg (by simp [h1, h2, hf, hg]), if_pos (by simp [he])]
  exact if_congr (by omega) rfl rfl

theorem linkDeadline_waits {m : Module} {n : Nat} {seq : Word16} {u : Unacked}
    (hu : (m.slice n).unacked.find? (fun u => u.seq == seq && u.sends != 0) = some u) (hd : m.clk.tick.toNat ≤ u.deadline) :
    m.linkDeadline n seq = m := by
  have he : m.expired u.deadline = false := decide_eq_false (Nat.not_lt.mpr hd)
  unfold Module.linkDeadline
  rw [hu]
  dsimp only
  rw [he]
  rfl

theorem linkDeadline_resets {m : Module} {n : Nat} {seq : Word16} {u : Unacked}
    (hu : (m.slice n).unacked.find? (fun u => u.seq == seq && u.sends != 0) = some u) (hd : u.deadline < m.clk.tick.toNat)
    (hs : 3 ≤ u.sends) : m.linkDeadline n seq = m.sliceReset n true := by
  have he : m.expired u.deadline = true := decide_eq_true hd
  unfold Module.linkDeadline
  rw [hu]
  dsimp only
  rw [he, if_neg (by decide), if_pos hs]

/-- Frames that go out change the outputs only. -/
theorem putFrames_out (n : Nat) : ∀ (l : List Unacked) (m : Module), ∃ o, l.foldl (fun m v => m.putFrame n v) m = { m with out := o }
  | [], m => ⟨m.out, rfl⟩
  | v :: l, m => by
    obtain ⟨o, h⟩ := putFrames_out n l (m.putFrame n v)
    exact ⟨o, h⟩

/-- The frame and those after it are sent again (R234). -/
theorem linkDeadline_resends {m : Module} {n : Nat} {seq : Word16} {u : Unacked}
    (hu : (m.slice n).unacked.find? (fun u => u.seq == seq && u.sends != 0) = some u) (hd : u.deadline < m.clk.tick.toNat)
    (hs : u.sends < 3) (hw : Tbl.wf HubSlice.reset m.hub = true) :
    ((m.linkDeadline n seq).slice n).unacked = resendFrom m.clk.tick.toNat seq false (m.slice n).unacked ∧
    m.linkDeadline n seq = { m with hub := (m.linkDeadline n seq).hub, out := (m.linkDeadline n seq).out } := by
  have he : m.expired u.deadline = true := decide_eq_true hd
  unfold Module.linkDeadline
  rw [hu]
  dsimp only
  rw [he, if_neg (by decide), if_neg (by omega)]
  obtain ⟨o, h⟩ := putFrames_out n ((resendFrom m.now seq false (m.slice n).unacked).filter
    (fun v => !(m.slice n).unacked.contains v))
    (m.setSlice n (fun h => { h with unacked := resendFrom m.now seq false (m.slice n).unacked }))
  rw [h]
  have hsl := slice_setSlice hw n n (fun h => { h with unacked := resendFrom m.now seq false (m.slice n).unacked })
  rw [if_pos rfl] at hsl
  exact ⟨congrArg (fun h : HubSlice => h.unacked) hsl, rfl⟩

/-- SLICE_LINK_SILENCE as an effect on the module (R236). -/
def Module.linkSilent (m : Module) (n : Nat) : Module :=
  if m.sliceRuns n && m.clk.pastTurn ((m.slice n).lastFrame + 8192) then m.sliceReset n true else m

theorem exec_sliceLinkSilence (dt n : Nat) (s : State) :
    exec (.sliceLinkSilence dt n) s = s.onSlice dt n (fun m => m.linkSilent n) := rfl

theorem runs_of {m : Module} {n : Nat} (hl : (m.slice n).loaded = true) (hf : (m.slice n).failed = false) :
    m.sliceRuns n = true := by
  unfold Module.sliceRuns
  rw [hl, hf]
  rfl

theorem linkSilent_eq {m : Module} {n : Nat} (hl : (m.slice n).loaded = true) (hf : (m.slice n).failed = false) :
    m.linkSilent n = if m.clk.pastTurn ((m.slice n).lastFrame + 8192) then m.sliceReset n true else m := by
  unfold Module.linkSilent
  rw [runs_of hl hf, Bool.true_and]

/-! ### A reloaded slice is re-issued its state (R67, R238) -/

/-- What a re-issue leaves, and what it makes of the plan entries. -/
def Module.reissueMarks (m : Module) : Clock × Vault × Option Nat × List (Nat × List Nat) :=
  (m.clk, m.vault, m.ring.position, m.lamps.plans.map (fun e => (e.id, e.held)))

theorem reissueMarks_serves {m t : Module} (h : Serves m t) : t.reissueMarks = m.reissueMarks := by
  unfold Module.reissueMarks
  rw [h.same]

theorem reissueMarks_dispatch (m : Module) (e : Plan) : (m.dispatch e).reissueMarks = m.reissueMarks := by
  have hmap : (m.planSent e.id).plans.map (fun (e : Plan) => (e.id, e.held)) =
      m.lamps.plans.map (fun (e : Plan) => (e.id, e.held)) := by
    unfold Module.planSent
    rw [List.map_map]
    refine List.map_congr_left (fun x _ => ?_)
    dsimp only [Function.comp]
    split <;> rfl
  rw [dispatch_sends]
  unfold Module.reissueMarks
  dsimp only
  rw [hmap]

theorem reissueMarks_planTo (m : Module) (e : Plan) (n : Nat) : (m.planTo e n).reissueMarks = m.reissueMarks := by
  unfold Module.planTo
  exact foldl_keeps Module.reissueMarks _ (fun m _ => reissueMarks_serves (serves_sendSlice m n _ none)) _ m

/-- At a crossing a reloaded slice's near entries are held back from it, and nothing is lost (R238). -/
theorem reissue_issues {m h : Module} {n : Nat} (hr : (m.slice n).reissue = true) (hl : (m.slice n).loaded = true)
    (hx : m.crossPoint n = true) (hh : h = m.setSlice n (fun h => { h with reissue := false, stored := false })) :
    (m.reissue n).clk = m.clk ∧ (m.reissue n).vault = m.vault ∧ (m.reissue n).ring.position = m.ring.position ∧
    (m.reissue n).lamps.plans.map (fun (e : Plan) => (e.id, e.held)) = h.lamps.plans.map (fun (e : Plan) =>
      (e.id, if e.acts.any (fun a => a.1 / 16 == n) && !decide (m.au + 1536 ≤ e.due) then n :: e.held else e.held)) := by
  have hsent : ∀ (l : List Plan) (x : Module),
      (l.foldl (fun m e => if e.sent then m.planTo e n else m.dispatch e) x).reissueMarks = x.reissueMarks := by
    refine fun l x => foldl_keeps Module.reissueMarks _ (fun m e => ?_) l x
    split
    · exact reissueMarks_planTo m e n
    · exact reissueMarks_dispatch m e
  have hshow : Serves m (h.each (sliceChans n) (fun ch m =>
      if m.fallbackFor ch = (m.chan ch).fb then m.takeEffect ch id else m.applyFallback ch)) := by
    rw [hh]
    exact (serves_setSlice m n _).trans (Serves.each _ (fun ch m => Serves.ite (serves_takeEffect m ch id)
      (serves_applyFallback m ch)) _ _)
  have heq : ∃ x : Module, Serves m x ∧ (m.reissue n).reissueMarks = ({ x with lamps := { x.lamps with
      plans := x.lamps.plans.map (fun (e : Plan) =>
        if e.acts.any (fun a => a.1 / 16 == n) && !decide (x.au + 1536 ≤ e.due) then { e with held := n :: e.held } else e) } } :
        Module).reissueMarks := by
    unfold Module.reissue
    dsimp only
    rw [if_pos (by simp [hr, hl, hx]), ← hh]
    exact ⟨_, hshow, hsent _ _⟩
  obtain ⟨x, hx, he⟩ := heq
  have hau : x.au = m.au := by unfold Module.au; rw [hx.clk]
  have hp : h.lamps.plans = m.lamps.plans := by rw [hh]; rfl
  have hpos : x.ring.position = m.ring.position := by rw [hx.same]
  refine ⟨(congrArg (fun p => p.1) he).trans hx.clk, (congrArg (fun p => p.2.1) he).trans hx.vault,
    (congrArg (fun p => p.2.2.1) he).trans hpos, (congrArg (fun p => p.2.2.2) he).trans ?_⟩
  unfold Module.reissueMarks
  dsimp only
  rw [hx.plans, hau, hp, List.map_map]
  refine List.map_congr_left (fun e _ => ?_)
  dsimp only [Function.comp]
  split <;> rfl

theorem reissue_waits {m : Module} {n : Nat}
    (h : (m.slice n).reissue = false ∨ (m.slice n).loaded = false ∨ m.crossPoint n = false) : m.reissue n = m :=
  if_neg (by rcases h with h | h | h <;> simp [h])

/-! ### Calibration and time (R230, R245) -/

theorem recalibrate_sends {m : Module} {n : Nat} (hc : m.coresUp = true) (hl : (m.slice n).loaded = true)
    (hf : (m.slice n).failed = false) (ha : (m.slice n).auxFrom + 16 * 65536 ≤ m.clk.turn) :
    m.recalibrate n = if (calTable (Tbl.get (0, 0) (m.slice n).aux)).all CalPath_ok then
      (m.setSlice n (fun h => { h with
        calNext := some (calTable (Tbl.get (0, 0) (m.slice n).aux)), aux := [], auxFrom := m.clk.turn })).sendSlice n
          (.plan (.calibration (calTable (Tbl.get (0, 0) (m.slice n).aux)))) none
      else m.sliceReset n true := by
  unfold Module.recalibrate
  dsimp only
  rw [if_pos (by rw [runs_of hl hf, hc, decide_eq_true ha]; rfl)]

/-- Once in every 4,096 au each running slice is sent the time (R230). -/
theorem sendTimes_sends {m : Module} (hc : m.coresUp = true) (ht : m.clk.turn / 4096 ≠ m.clk.timeDone) :
    m.sendTimes = { m with
      clk := { m.clk with timeDone := m.clk.turn / 4096 }
      out := m.out ++ ((List.range m.variant.slices).filter m.sliceRuns).map (fun n =>
        .time n (m.slice n).epoch (m.slice n).seq ⟨m.clk.cycle, m.clk.angle, m.clk.tick.toNat, m.clk.half,
          m.clk.period.toNat, (m.slice n).bus.phase⟩) } := by
  have hput : ∀ (l : List Nat) (x : Module), x.each l (fun n m => m.put (.time n (m.slice n).epoch (m.slice n).seq (m.timeBody n))) =
      { x with out := x.out ++ l.map (fun n => .time n (x.slice n).epoch (x.slice n).seq (x.timeBody n)) } := by
    intro l
    induction l with
    | nil => intro x; simp [Module.each]
    | cons n l ih =>
      intro x
      refine (ih _).trans ?_
      simp only [Module.put, List.map_cons, List.append_assoc, List.singleton_append]
      rfl
  unfold Module.sendTimes
  rw [if_pos (by rw [hc, bne_iff_ne.mpr ht]; rfl)]
  exact hput _ _

/-! ### Frames at the slice (R24, R229-R232) -/

theorem inSequence_next {m : Module} {n : Nat} {hdr : HubHdr} (f : Module → Module)
    (h : hdr.seq = (m.ownOf n).lastSeq + 1) :
    m.inSequence n hdr f = f (m.setOwn n (fun o => { o with lastSeq := hdr.seq, heard := m.clk.turn })) := if_pos h

/-- PLAN, REQUEST and TIME at a slice as effects on the module (R230). -/
def Module.heardPlan (m : Module) (n : Nat) (hdr : HubHdr) (body : PlanBody) : Module :=
  if (m.ownOf n).listens hdr then m.inSequence n hdr (fun m => m.takePlan n body) else m

def Module.heardRequest (m : Module) (n : Nat) (hdr : HubHdr) (req : SliceReq) : Module :=
  if (m.ownOf n).listens hdr || (req == .echo && (m.ownOf n).inLoad hdr) then
    m.inSequence n hdr (fun m => m.takeRequest n hdr.seq req)
  else m

def Module.heardTime (m : Module) (n : Nat) (hdr : HubHdr) (body : TimeBody) : Module :=
  if (m.ownOf n).listens hdr then
    m.setOwn n (fun o =>
      { o with
        time := { body with tick := body.tick + o.delay }, heard := m.clk.turn
        half := if (m.slice n).stored then o.half else body.half
        plans := o.plans.filter (fun a => decide (m.au < a.due)) })
  else m

theorem exec_plan (dt n : Nat) (hdr : HubHdr) (body : PlanBody) (s : State) :
    exec (.plan dt n hdr body) s = s.onSlice dt n (fun m => m.heardPlan n hdr body) := rfl
theorem exec_sliceRequest (dt n : Nat) (hdr : HubHdr) (req : SliceReq) (s : State) :
    exec (.sliceRequest dt n hdr req) s = s.onSlice dt n (fun m => m.heardRequest n hdr req) := rfl
theorem exec_timeFrame (dt n : Nat) (hdr : HubHdr) (body : TimeBody) (s : State) :
    exec (.timeFrame dt n hdr body) s = s.onSlice dt n (fun m => m.heardTime n hdr body) := rfl

theorem heardPlan_takes {m : Module} {n : Nat} {hdr : HubHdr} {body : PlanBody} (hl : (m.ownOf n).listens hdr = true)
    (hs : hdr.seq = (m.ownOf n).lastSeq + 1) : m.heardPlan n hdr body =
      (m.setOwn n (fun o => { o with lastSeq := hdr.seq, heard := m.clk.turn })).takePlan n body :=
  (if_pos hl).trans (inSequence_next (fun m => m.takePlan n body) hs)

theorem heardRequest_takes {m : Module} {n : Nat} {hdr : HubHdr} {req : SliceReq} (hl : (m.ownOf n).listens hdr = true)
    (hs : hdr.seq = (m.ownOf n).lastSeq + 1) : m.heardRequest n hdr req =
      (m.setOwn n (fun o => { o with lastSeq := hdr.seq, heard := m.clk.turn })).takeRequest n hdr.seq req :=
  (if_pos (by rw [hl]; rfl)).trans (inSequence_next (fun m => m.takeRequest n hdr.seq req) hs)

theorem heardPlan_stays {m : Module} {n : Nat} {hdr : HubHdr} {body : PlanBody} (hl : (m.ownOf n).listens hdr = false) :
    m.heardPlan n hdr body = m := if_neg (by rw [hl]; exact Bool.false_ne_true)

theorem heardRequest_stays {m : Module} {n : Nat} {hdr : HubHdr} {req : SliceReq} (hl : (m.ownOf n).listens hdr = false)
    (hr : req ≠ .echo) : m.heardRequest n hdr req = m :=
  if_neg (by rw [hl, beq_false_of_ne hr]; exact Bool.false_ne_true)

/-! ### A slice alone (R24, R57, R475) -/

/-- Slice `n` shows the stored pattern it took up, and clock and vault are those given. -/
structure Alone (n : Nat) (pat : List Pattern) (clk : Clock) (vault : Vault) (m : Module) : Prop where
  stored : (m.slice n).stored = true
  alone : (m.ownOf n).alone = true
  pat : (m.ownOf n).alonePat = pat
  clk : m.clk = clk
  vault : m.vault = vault
  wfHub : Tbl.wf HubSlice.reset m.hub = true
  wfOwn : Tbl.wf (OwnSlice.reset 1) m.own = true

theorem Alone.follows {n ch : Nat} {pat : List Pattern} {clk : Clock} {vault : Vault} {m t : Module}
    (h : Alone n pat clk vault m) (hf : Follows ch m t) : Alone n pat clk vault t := by
  obtain ⟨w, o, hs⟩ := hf.hub h.wfHub n
  obtain ⟨w', ho⟩ := hf.own h.wfOwn n
  exact ⟨by rw [hs]; exact h.stored, by rw [ho]; exact h.alone, by rw [ho]; exact h.pat, hf.serves.clk.trans h.clk,
    hf.serves.vault.trans h.vault, hf.wfHub h.wfHub, hf.wfOwn h.wfOwn⟩

theorem Alone.setChan {n : Nat} {pat : List Pattern} {clk : Clock} {vault : Vault} {m : Module}
    (h : Alone n pat clk vault m) (ch : Nat) (f : Chan → Chan) : Alone n pat clk vault (m.setChan ch f) :=
  ⟨h.stored, h.alone, h.pat, h.clk, h.vault, h.wfHub, h.wfOwn⟩

/-- Every channel of a slice alone shows its stored pattern (R24, R475). -/
theorem Alone.shows {n : Nat} {pat : List Pattern} {clk : Clock} {vault : Vault} {m : Module} (h : Alone n pat clk vault m)
    {ch : Nat} (hc : ch / 16 = n) : (m.shown ch).2 = 4 ∧ (m.shown ch).1.pattern = pat.getD (ch % 16) .off := by
  unfold Module.shown
  dsimp only
  rw [hc, if_pos h.stored]
  refine ⟨rfl, ?_⟩
  unfold Module.storedShown
  rw [hc, h.pat]

/-- A slice's own state as it begins to run alone (R24, R475). -/
def OwnSlice.leftAlone (o : OwnSlice) : OwnSlice :=
  { o with alone := true, wire := none, alonePat := o.stored, aloneFa := o.fa, aloneFb := o.fb, plans := [] }

/-- Unheard for four half-cycles the slice shows its stored fallback pattern (R24). -/
theorem goAlone_goes {m : Module} {n : Nat} (hr : (m.ownOf n).running = true) (ha : (m.ownOf n).alone = false)
    (hp : m.clk.pastTurn ((m.ownOf n).heard + 131072) = true) (ho : Tbl.wf (OwnSlice.reset 1) m.own = true)
    (hh : Tbl.wf HubSlice.reset m.hub = true) : Alone n (m.ownOf n).stored m.clk m.vault (m.goAlone n) := by
  have hfold : ∀ (l : List (Nat × Pattern)) (x : Module), Alone n (m.ownOf n).stored m.clk m.vault x →
      Alone n (m.ownOf n).stored m.clk m.vault (l.foldl (fun m e =>
        let p := (m.shown e.1).1.pattern
        let m := (m.setChan e.1 (fun c => c.goAlone (p == .flashA || p == .flashB))).patternChanged e.1 e.2
        if (m.slice n).bus.phase.kind == .ac then m else m.refresh e.1) x) := by
    intro l
    induction l with
    | nil => exact fun x hx => hx
    | cons e l ih =>
      intro x hx
      refine ih _ ?_
      dsimp only
      have hc := (hx.setChan e.1 (fun c => c.goAlone ((x.shown e.1).1.pattern == .flashA ||
        (x.shown e.1).1.pattern == .flashB))).follows (follows_patternChanged _ e.1 e.2)
      split
      · exact hc
      · exact hc.follows (follows_refresh _ e.1)
  unfold Module.goAlone
  dsimp only
  rw [if_pos (by simp [hr, ha, hp])]
  refine hfold _ _ ?_
  have hown := ownOf_setOwn ho n n OwnSlice.leftAlone
  rw [if_pos rfl] at hown
  have hsl := slice_setSlice (m := m.setOwn n OwnSlice.leftAlone) hh n n
    (fun h => { h with stored := true })
  rw [if_pos rfl] at hsl
  exact ⟨congrArg (fun h : HubSlice => h.stored) hsl, congrArg (fun o : OwnSlice => o.alone) hown,
    congrArg (fun o : OwnSlice => o.alonePat) hown, rfl, rfl, wf_setSlice hh n _, wf_setOwn ho n OwnSlice.leftAlone⟩

theorem goAlone_stays {m : Module} {n : Nat} (h : (m.ownOf n).running = false ∨ (m.ownOf n).alone = true ∨
    m.clk.pastTurn ((m.ownOf n).heard + 131072) = false) : m.goAlone n = m :=
  if_neg (by rcases h with h | h | h <;> simp [h])

/-- SLICE_HELLO_TIMER as an effect on the module (R58, R230). -/
def Module.helloTimer (m : Module) (n : Nat) : Module :=
  if (m.ownOf n).epoch = 0 && m.alive && !(m.slice n).failed then m.fromOwn n (.hello (m.ownOf n).cause) else m

theorem exec_sliceHelloTimer (dt n : Nat) (s : State) :
    exec (.sliceHelloTimer dt n) s = s.onSlice dt n (fun m => m.helloTimer n) := rfl

theorem helloTimer_sends {m : Module} {n : Nat} (h0 : (m.ownOf n).epoch = 0) (ha : m.alive = true)
    (hf : (m.slice n).failed = false) : m.helloTimer n = m.fromOwn n (.hello (m.ownOf n).cause) :=
  if_pos (by rw [ha, hf, decide_eq_true h0]; rfl)

theorem helloTimer_stays {m : Module} {n : Nat} (h0 : (m.ownOf n).epoch ≠ 0) : m.helloTimer n = m :=
  if_neg (by rw [decide_eq_false h0]; exact Bool.false_ne_true)

/-- A slice alone counts the half-cycle, and its lamps follow (R475). -/
theorem storedHalf_counts {m : Module} {n : Nat} (ha : (m.ownOf n).alone = true ∨ (m.slice n).stored = true)
    (hk : (m.slice n).bus.phase.kind ≠ .none) (hr : (m.slice n).bus.reversed = false) :
    Lights (m.setOwn n (fun o => { o with half := o.half + 1 })) (m.storedHalf n) := by
  have hstep : ∀ (x : Module) (ch : Nat) (c : Bool),
      Lights x ((if c then x.setChan ch (fun c => { c with waitOn := false }) else x).refresh ch) :=
    fun x ch c => .trans (.ite (lights_setChan x ch _) (.refl x)) (lights_moveSwitch _ ch _)
  unfold Module.storedHalf
  dsimp only
  rw [if_pos (by rcases ha with ha | ha <;> simp [ha, hk, hr])]
  exact Lights.each _ (fun ch m => hstep m ch _) _ _

theorem storedHalf_stays {m : Module} {n : Nat} (h : (m.slice n).bus.phase.kind = .none ∨ (m.slice n).bus.reversed = true) :
    m.storedHalf n = m :=
  if_neg (by rcases h with h | h <;> simp [h])

/-- Settles O22: each end acts on its good frames, and a slice alone shows its stored pattern. -/
theorem sliceLinkEnds : Obligations.SliceLinkEnds := by
  unfold Obligations.SliceLinkEnds
  refine ⟨⟨?good, ?damaged, ?stale, ?deadline, ?silence, ?reissue, ?noReissue, ?calibrates, ?times⟩,
    ⟨?hears, ?deaf, ?time, ?alone, ?notAlone, ?hello, ?noHello, ?half, ?noHalf⟩⟩
  case good =>
    rintro s dt n hdr bin steps ofSeq ans _ _ rfl hn h1 h2 hf hg he h0 hw rfl
    exact ⟨onSlice_to hn (fromSlice_ok h1 h2 hf hg he h0 hw (fun m => m.sample n bin steps)),
      onSlice_to hn (fromSlice_ok h1 h2 hf hg he h0 hw (fun m => m.sliceReplied n ofSeq ans))⟩
  case damaged =>
    rintro s dt n hdr bin steps ofSeq ans _ rfl hn hg
    exact ⟨onSlice_to hn (fromSlice_damaged hg _), onSlice_to hn (fromSlice_damaged hg _)⟩
  case stale =>
    rintro s dt n hdr bin steps _ rfl hn h1 h2 hf hg he
    exact onSlice_to hn (fromSlice_stale h1 h2 hf hg he)
  case deadline =>
    rintro s dt n seq u _ rfl hn hu
    exact ⟨fun hd => onSlice_to hn (linkDeadline_waits hu hd), fun hd hs => onSlice_to hn (linkDeadline_resets hu hd hs),
      fun hd hs hw => ⟨_, onSlice_to hn rfl, linkDeadline_resends hu hd hs hw⟩⟩
  case silence =>
    rintro s dt n _ rfl hn hl hf
    rw [exec_sliceLinkSilence]
    exact onSlice_to hn (linkSilent_eq hl hf)
  case reissue =>
    rintro s dt n _ h rfl hn hr hl hx hh
    exact ⟨_, onSlice_to hn rfl, rfl, reissue_issues hr hl hx hh⟩
  case noReissue =>
    rintro s dt n _ rfl hn h
    exact onSlice_to hn (reissue_waits h)
  case calibrates =>
    rintro s dt n table _ rfl hn hc hl hf ha rfl
    have h := recalibrate_sends hc hl hf ha
    split
    · rename_i hok
      exact onSlice_to hn (h.trans (if_pos ((cal_ok _).mpr hok)))
    · rename_i hok
      exact onSlice_to hn (h.trans (if_neg (fun hall => hok ((cal_ok _).mp hall))))
  case times =>
    rintro s dt _ rfl hc ht
    exact on_next (f := fun m => m.sendTimes) (sendTimes_sends hc ht)
  case hears =>
    rintro s dt n hdr body req _ h rfl hn hg hr ha he h0 hs rfl
    rw [exec_plan, exec_sliceRequest]
    exact ⟨onSlice_to hn (heardPlan_takes (listens hg hr ha he h0) hs),
      onSlice_to hn (heardRequest_takes (listens hg hr ha he h0) hs)⟩
  case deaf =>
    rintro s dt n hdr body req _ rfl hn h
    have hl : ((s.m.elapse dt).ownOf n).listens hdr = false := not_listens (by
      rcases h with h | h | h | h
      · exact .inl h
      · exact .inr (.inr (.inl h))
      · exact .inr (.inr (.inr (.inl h)))
      · exact .inr (.inr (.inr (.inr h))))
    rw [exec_plan, exec_sliceRequest]
    exact ⟨onSlice_to hn (heardPlan_stays hl), fun hr => onSlice_to hn (heardRequest_stays hl hr)⟩
  case time =>
    rintro s dt n hdr body _ rfl hn hg hr ha he h0
    rw [exec_timeFrame]
    exact onSlice_to hn (if_pos (listens hg hr ha he h0))
  case alone =>
    rintro s dt n _ rfl hn hr ha hp ho hh
    have h := goAlone_goes hr ha hp ho hh
    exact ⟨_, onSlice_to hn rfl, h.alone, h.stored, h.clk, h.vault, fun ch hc => h.shows hc⟩
  case notAlone =>
    rintro s dt n _ rfl hn h
    exact onSlice_to hn (goAlone_stays h)
  case hello =>
    rintro s dt n _ rfl hn h0 ha hf
    rw [exec_sliceHelloTimer]
    exact onSlice_to hn (helloTimer_sends h0 ha hf)
  case noHello =>
    rintro s dt n _ rfl hn h0
    rw [exec_sliceHelloTimer]
    exact onSlice_to hn (helloTimer_stays h0)
  case half =>
    rintro s dt n _ rfl hn ha hk hr ho
    have h := (storedHalf_counts ha hk hr).same
    have hown : ((s.m.elapse dt).storedHalf n).own =
        ((s.m.elapse dt).setOwn n (fun o => { o with half := o.half + 1 })).own := by rw [h]
    have hof : ∀ k, ((s.m.elapse dt).storedHalf n).ownOf k =
        ((s.m.elapse dt).setOwn n (fun o => { o with half := o.half + 1 })).ownOf k :=
      fun k => congrArg (fun o => Tbl.get (OwnSlice.reset 1) o k) hown
    refine ⟨_, onSlice_to hn rfl, ?_, fun k hk => ?_, by rw [h]; rfl, by rw [h]; rfl, by rw [h]; rfl⟩
    · rw [hof, ownOf_setOwn ho, if_pos rfl]
    · rw [hof, ownOf_setOwn ho, if_neg hk]
  case noHalf =>
    rintro s dt n _ rfl hn h
    exact onSlice_to hn (storedHalf_stays h)

end Sys2Proof.Machine
end

section
/-! PROOFS. Verdicts, learning and open-wire tests (`Obligations.Verdicts`, `Obligations.LearningAndWires`). -/

namespace Sys2Proof.Machine
open Sys2Proof

/-! ### Verdicts at the hub (R97, R98, R210, R217) -/

theorem silent_misses {m : Module} {n : Nat} (h : m.verdictMissed n = false) : m.silent n = m :=
  if_neg (by rw [h]; exact Bool.false_ne_true)

theorem takeVerdict_eq (m : Module) (n bin : Nat) (cyc : Word16) (codes : Word32) : m.takeVerdict n bin cyc codes =
    (fun (g : Module) => if g.clk.byInstant (g.binEnd n bin cyc + 256) then g.countVerdict n bin (g.binEnd n bin cyc) codes else g)
      (if m.verdictMissed n then m.silent n else m) := by
  have hg : (if m.verdictMissed n then m.silent n else m) = m.silent n := by
    split
    · rfl
    · rename_i h
      rw [silent_misses (by simpa using h)]
  rw [hg]
  rfl

/-- A missed deadline faults the slice's 16 channels (R98, R217, R219). -/
theorem silent_faults {m : Module} {n : Nat} (h : m.verdictMissed n = true) (hw : Tbl.wf HubSlice.reset m.hub = true)
    (hr : Tbl.wf FaultRec.none m.prov.records = true) :
    ((m.silent n).slice n).verdicts = 0 ∧ ((m.silent n).slice n).r51 = 0 ∧ ((m.silent n).slice n).judged = m.nextDue n ∧
    (∀ ch, ch / 16 = n → ((m.silent n).record ch 3).active = true) ∧
    (∀ ch, ch / 16 = n → (m.record ch 3).active = false →
      ((m.silent n).record ch 3).latched = true ∧ ((m.silent n).record ch 3).response = m.response ch) ∧
    (∀ ch kind, (ch / 16 ≠ n ∨ kind ≠ 3) → 1 ≤ kind → kind ≤ 4 → (m.silent n).record ch kind = m.record ch kind) := by
  have hhub : ∀ (c : Cycle) (a : Angle) (l : List Nat) (x : Module),
      (x.each l (fun ch m => m.detect ch 3 c a 0xFF 0)).hub = x.hub :=
    fun c a l x => foldl_keeps (fun m => m.hub) _ (fun m ch => detect_hub m ch 3 c a 0xFF 0) l x
  have hsl := slice_setSlice hw n n (fun h => { h with verdicts := 0, r51 := 0, reloaded := false, judged := m.nextDue n })
  rw [if_pos rfl] at hsl
  have hx : ∃ (x : Module) (c : Cycle) (a : Angle), x.hub = (m.setSlice n (fun h =>
        { h with verdicts := 0, r51 := 0, reloaded := false, judged := m.nextDue n })).hub ∧ x.prov = m.prov ∧ x.live = m.live ∧
      m.silent n = (x.each (sliceChans n) (fun ch m => m.detect ch 3 c a 0xFF 0)).refuseFaulty := by
    unfold Module.silent
    rw [if_pos h]
    exact ⟨_, _, _, rfl, rfl, rfl, rfl⟩
  obtain ⟨x, c, a, hxh, hxp, hxl, heq⟩ := hx
  have hrec : ∀ ch k, x.record ch k = m.record ch k := fun ch k => record_congr (by rw [hxp]) ch k
  have hresp : ∀ ch, x.response ch = m.response ch := fun ch => by unfold Module.response; rw [hxl]
  obtain ⟨-, d1, d2, -, d4, d5⟩ := each_detect_silent c a (sliceChans n) x (by rw [hxp]; exact hr)
  have hs : (m.silent n).slice n = { m.slice n with verdicts := 0, r51 := 0, reloaded := false, judged := m.nextDue n } := by
    rw [← hsl]
    unfold Module.slice
    rw [heq]
    unfold Module.refuseFaulty
    rw [stopLearning_hub, hhub, hxh]
  have ht : ∀ ch k, (m.silent n).record ch k = (x.each (sliceChans n) (fun ch m => m.detect ch 3 c a 0xFF 0)).record ch k := by
    intro ch k
    rw [heq]
    exact record_congr (stopLearning_records _ _ _ _) ch k
  refine ⟨by rw [hs], by rw [hs], by rw [hs], fun ch hc => ?_, fun ch hc ha => ?_, fun ch k hk h1 h4 => ?_⟩
  · rw [ht]
    exact d1 ch ((mem_sliceChans n ch).mpr hc)
  · rw [ht, ← hresp]
    exact d4 ch ((mem_sliceChans n ch).mpr hc) (by rw [hrec]; exact ha)
  · rw [ht, ← hrec]
    by_cases h3 : k = 3
    · rw [h3]
      exact d2 ch (fun hm => hk.elim (fun hne => hne ((mem_sliceChans n ch).mp hm)) (fun hne => hne h3))
    · exact d5 ch k h1 h4 h3

/-! ### A bin's end at the slice (R205-R212, R230, R242) -/

/-- A switch that is to open changes the lamps only. -/
theorem moveSwitch_off (m : Module) (ch : Nat) : ∃ l, m.moveSwitch ch false = { m with lamps := l } := by
  unfold Module.moveSwitch
  simp only [Bool.false_and, Bool.false_eq_true, if_false]
  exact ⟨_, rfl⟩

theorem dimEnds_lamps (m : Module) (n : Nat) : ∃ l, m.dimEnds n = { m with lamps := l } := by
  unfold Module.dimEnds
  refine foldl_lamps _ (fun m ch => ?_) (sliceChans n) m
  dsimp only
  split
  · exact moveSwitch_off m ch
  · exact ⟨m.lamps, rfl⟩

/-- A slice that does not run alone sends a frame of its own: its SEQ counts, and nothing else of it changes (R229). -/
theorem fromOwn_sends {m : Module} {n : Nat} (hw : Tbl.wf (OwnSlice.reset 1) m.own = true) (ha : (m.ownOf n).alone = false)
    (msg : SliceMsg) : ∃ w, Tbl.wf (OwnSlice.reset 1) w = true ∧
      Tbl.get (OwnSlice.reset 1) w n = { m.ownOf n with seq := (m.ownOf n).seq + 1 } ∧
      m.fromOwn n msg = { m with
        own := w, out := m.out ++ [.fromSlice n (m.ownOf n).epoch ((m.ownOf n).seq + 1) (m.ownOf n).lastSeq msg] } := by
  have hget := ownOf_setOwn hw n n (fun o => { o with seq := o.seq + 1 })
  rw [if_pos rfl] at hget
  refine ⟨(m.setOwn n (fun o => { o with seq := o.seq + 1 })).own, wf_setOwn hw n _, hget, ?_⟩
  unfold Module.fromOwn
  dsimp only
  rw [if_neg (by rw [ha]; exact Bool.false_ne_true), hget]
  rfl

/-- The same for a list of frames. -/
theorem foldl_fromOwn {α : Type} (n : Nat) (msg : α → SliceMsg) : ∀ (l : List α) (m : Module),
    Tbl.wf (OwnSlice.reset 1) m.own = true → (m.ownOf n).alone = false →
    ∃ w, Tbl.wf (OwnSlice.reset 1) w = true ∧
      Tbl.get (OwnSlice.reset 1) w n = { m.ownOf n with seq := (m.ownOf n).seq + BitVec.ofNat 16 l.length } ∧
      l.foldl (fun m x => m.fromOwn n (msg x)) m = { m with
        own := w, out := m.out ++ l.zipIdx.map (fun e => .fromSlice n (m.ownOf n).epoch
          ((m.ownOf n).seq + 1 + BitVec.ofNat 16 e.2) (m.ownOf n).lastSeq (msg e.1)) }
  | [], m, hw, _ => ⟨m.own, hw, by simp [Module.ownOf], by simp⟩
  | x :: l, m, hw, ha => by
    obtain ⟨w, h1, h2, h3⟩ := fromOwn_sends hw ha (msg x)
    have hown : (m.fromOwn n (msg x)).ownOf n = { m.ownOf n with seq := (m.ownOf n).seq + 1 } := by
      rw [h3]
      exact h2
    obtain ⟨w', h1', h2', h3'⟩ := foldl_fromOwn n msg l (m.fromOwn n (msg x)) (by rw [h3]; exact h1) (by rw [hown]; exact ha)
    have hk : ∀ (q : Word16) (k : Nat), q + 1 + BitVec.ofNat 16 k = q + BitVec.ofNat 16 (k + 1) := by
      intro q k
      rw [BitVec.add_assoc, BitVec.ofNat_add, BitVec.add_comm 1]
      rfl
    refine ⟨w', h1', ?_, ?_⟩
    · rw [h2', hown]
      dsimp only
      rw [hk, List.length_cons]
    · rw [List.foldl_cons, h3', hown, h3]
      simp only [List.zipIdx_cons, List.map_cons, List.append_assoc, List.singleton_append, Nat.zero_add, List.zipIdx_succ,
        List.map_map, Function.comp_def]
      rw [BitVec.add_zero]
      simp only [hk]

/-- What a slice sends at a bin's end: the crossings it found, its verdict and its samples (R230). -/
theorem slice_speaks {m : Module} {n : Nat} (hw : Tbl.wf (OwnSlice.reset 1) m.own = true) (ha : (m.ownOf n).alone = false)
    (l : List (Bool × Nat)) (v w : SliceMsg) :
    ∃ own, ((l.foldl (fun m x => m.fromOwn n (.xing x.1 x.2)) m).fromOwn n v).fromOwn n w = { m with
      own := own
      out := m.out ++ l.zipIdx.map (fun e => .fromSlice n (m.ownOf n).epoch
          ((m.ownOf n).seq + 1 + BitVec.ofNat 16 e.2) (m.ownOf n).lastSeq (.xing e.1.1 e.1.2)) ++
        [.fromSlice n (m.ownOf n).epoch ((m.ownOf n).seq + 1 + BitVec.ofNat 16 l.length) (m.ownOf n).lastSeq v,
         .fromSlice n (m.ownOf n).epoch ((m.ownOf n).seq + 2 + BitVec.ofNat 16 l.length) (m.ownOf n).lastSeq w] } := by
  obtain ⟨w1, h1, g1, e1⟩ := foldl_fromOwn n (fun (x : Bool × Nat) => .xing x.1 x.2) l m hw ha
  generalize l.foldl (fun m x => m.fromOwn n (.xing x.1 x.2)) m = a at e1
  have ga : a.ownOf n = { m.ownOf n with seq := (m.ownOf n).seq + BitVec.ofNat 16 l.length } := by
    rw [e1]
    exact g1
  obtain ⟨w2, h2, g2, e2⟩ := fromOwn_sends (m := a) (by rw [e1]; exact h1) (by rw [ga]; exact ha) v
  generalize a.fromOwn n v = b at e2
  have gb : b.ownOf n = { m.ownOf n with seq := (m.ownOf n).seq + BitVec.ofNat 16 l.length + 1 } := by
    have hb : b.ownOf n = { a.ownOf n with seq := (a.ownOf n).seq + 1 } := by
      rw [e2]
      exact g2
    rw [hb, ga]
  obtain ⟨w3, -, -, e3⟩ := fromOwn_sends (m := b) (by rw [e2]; exact h2) (by rw [gb]; exact ha) w
  have hq : ∀ q k : Word16, q + k + 1 = q + 1 + k ∧ q + k + 1 + 1 = q + 2 + k := by
    intro q k
    constructor
    · rw [BitVec.add_assoc, BitVec.add_comm k, ← BitVec.add_assoc]
    · rw [BitVec.add_assoc, BitVec.add_assoc, BitVec.add_comm k, ← BitVec.add_assoc]
      rfl
  refine ⟨w3, ?_⟩
  rw [e3, gb]
  dsimp only
  rw [e2, ga]
  dsimp only
  rw [e1, (hq _ _).2, (hq _ _).1]
  simp only [List.append_assoc, List.singleton_append]

/-- What a slice's own frames carry of its state, and that it runs alone. -/
def OwnSlice.marks (o : OwnSlice) : Byte × Word16 × Word16 × Bool := (o.epoch, o.seq, o.lastSeq, o.alone)

/-- A slice's own state after a bin that it has judged (R205-R212). -/
def Module.judged (m : Module) (n b : Nat) (xs : List (Int × Int)) (verdict : List Nat) (w : Swing) : Module :=
  (m.setOwn n (fun o => { m.keepBin n b xs verdict o with swing := w })).binBegins n

theorem judged_own {m : Module} (hw : Tbl.wf (OwnSlice.reset 1) m.own = true) (n b : Nat) (xs : List (Int × Int))
    (verdict : List Nat) (w : Swing) : ∃ own, Tbl.wf (OwnSlice.reset 1) own = true ∧
      (Tbl.get (OwnSlice.reset 1) own n).marks = (m.ownOf n).marks ∧
      m.judged n b xs verdict w = { m with own := own } := by
  have hw1 := wf_setOwn hw n (fun o => { m.keepBin n b xs verdict o with swing := w })
  have h1 := ownOf_setOwn hw n n (fun o => { m.keepBin n b xs verdict o with swing := w })
  rw [if_pos rfl] at h1
  have heq : m.setOwn n (fun o => { m.keepBin n b xs verdict o with swing := w }) =
      { m with own := (m.setOwn n (fun o => { m.keepBin n b xs verdict o with swing := w })).own } := rfl
  unfold Module.judged
  generalize m.setOwn n (fun o => { m.keepBin n b xs verdict o with swing := w }) = a at hw1 h1 heq
  have h2 := ownOf_setOwn hw1 n n (fun o => { o with
    atStart := Tbl.setRange none [] 0 ((sliceChans n).map (fun ch => some (a.ruleOf ch, a.reported ch))) })
  rw [if_pos rfl, h1] at h2
  refine ⟨(a.binBegins n).own, wf_setOwn hw1 n _, (congrArg OwnSlice.marks h2).trans rfl, ?_⟩
  rw [heq]
  rfl

/-- What a slice sends leaves the format of its samples. -/
theorem alignLeft_speaks (m : Module) (n : Nat) (l : List (Bool × Nat)) (v : SliceMsg) :
    ((l.foldl (fun m x => m.fromOwn n (.xing x.1 x.2)) m).fromOwn n v).alignLeft n = m.alignLeft n := by
  have hown : ∀ (x : Module) (msg : SliceMsg), (x.fromOwn n msg).alignLeft n = x.alignLeft n := by
    intro x msg
    unfold Module.fromOwn
    dsimp only
    split <;> rfl
  exact (hown _ _).trans (foldl_keeps (fun m => m.alignLeft n) _ (fun m _ => hown m _) l m)

/-- A slice judges a bin: its own state, and the switches of dimmed channels that are late, change. -/
theorem binEnds_judges {m : Module} {n b : Nat} {codes : List (List Int)} (hr : (m.ownOf n).running = true)
    (ha : (m.ownOf n).alone = false) (hw : Tbl.wf (OwnSlice.reset 1) m.own = true) (o : OwnSlice) (h : Module)
    (x : List (Bool × Nat)) (ho : o = m.ownOf n) (hh : h = m.setOwn n (fun o => { o with tdie := binTdie b codes o.tdie }))
    (hx : x = (h.swingOver o.swing (codes.map (fun c => voltageOf o.cal (c.getD 0 0)))).2) :
    ∃ own l, m.binEnds n b codes = { m with
      own := own, lamps := l
      out := m.out ++
        x.zipIdx.map (fun e => .fromSlice n o.epoch (o.seq + 1 + BitVec.ofNat 16 e.2) o.lastSeq (.xing e.1.1 e.1.2)) ++
        [.fromSlice n o.epoch (o.seq + 1 + BitVec.ofNat 16 x.length) o.lastSeq
           (.verdict b (BitVec.ofNat 16 (m.binEndBy n m.au / 65536))
             ((sliceChans n).map (fun ch => h.codeOf ch b (h.binSamples o.cal ch codes)))),
         .fromSlice n o.epoch (o.seq + 2 + BitVec.ofNat 16 x.length) o.lastSeq
           (.samples b (binWords (m.alignLeft n) b codes))] } := by
  have hzip : ∀ (l : List Nat) (f : Nat → Int × Int), (l.zip (l.map f)).map (fun c => h.codeOf c.1 b c.2) =
      l.map (fun ch => h.codeOf ch b (f ch)) := by
    intro l f
    induction l with
    | nil => rfl
    | cons ch l ih => exact congrArg _ ih
  have hpre : ∃ own l, Tbl.wf (OwnSlice.reset 1) own = true ∧
      (Tbl.get (OwnSlice.reset 1) own n).marks = o.marks ∧
      m.binEnds n b codes = ((x.foldl (fun (m : Module) (e : Bool × Nat) => m.fromOwn n (.xing e.1 e.2))
        { m with own := own, lamps := l }).fromOwn n
        (.verdict b (BitVec.ofNat 16 (m.binEndBy n m.au / 65536))
          ((sliceChans n).map (fun ch => h.codeOf ch b (h.binSamples o.cal ch codes))))).fromOwn n
        (.samples b (binWords (m.alignLeft n) b codes)) := by
    subst ho hh
    have hw1 := wf_setOwn hw n (fun o => { o with tdie := binTdie b codes o.tdie })
    have g1 := ownOf_setOwn hw n n (fun o => { o with tdie := binTdie b codes o.tdie })
    rw [if_pos rfl] at g1
    unfold Module.binEnds
    dsimp only
    rw [if_pos (by simp [hr, ha]), hzip, ← hx]
    obtain ⟨own, h1, h2, h3⟩ := judged_own hw1 n b ((sliceChans n).map (fun ch =>
        (m.setOwn n (fun o => { o with tdie := binTdie b codes o.tdie })).binSamples (m.ownOf n).cal ch codes))
      ((sliceChans n).map (fun ch => (m.setOwn n (fun o => { o with tdie := binTdie b codes o.tdie })).codeOf ch b
        ((m.setOwn n (fun o => { o with tdie := binTdie b codes o.tdie })).binSamples (m.ownOf n).cal ch codes)))
      ((m.setOwn n (fun o => { o with tdie := binTdie b codes o.tdie })).swingOver (m.ownOf n).swing
        (codes.map (fun c => voltageOf (m.ownOf n).cal (c.getD 0 0)))).1
    obtain ⟨l, h4⟩ := dimEnds_lamps (({ m.setOwn n (fun o => { o with tdie := binTdie b codes o.tdie }) with own := own }) : Module) n
    rw [g1] at h2
    refine ⟨own, l, h1, h2.trans rfl, ?_⟩
    unfold Module.judged at h3
    rw [h3, h4, alignLeft_speaks]
    rfl
  obtain ⟨own, l, h1, h2, h3⟩ := hpre
  have hep : (({ m with own := own, lamps := l } : Module).ownOf n).epoch = o.epoch := congrArg (fun p => p.1) h2
  have hseq : (({ m with own := own, lamps := l } : Module).ownOf n).seq = o.seq := congrArg (fun p => p.2.1) h2
  have hlast : (({ m with own := own, lamps := l } : Module).ownOf n).lastSeq = o.lastSeq := congrArg (fun p => p.2.2.1) h2
  have hal : (({ m with own := own, lamps := l } : Module).ownOf n).alone = false :=
    (congrArg (fun p => p.2.2.2) h2).trans (by rw [ho]; exact ha)
  obtain ⟨own', h4⟩ := slice_speaks (m := { m with own := own, lamps := l }) (n := n) h1 hal x
    (.verdict b (BitVec.ofNat 16 (m.binEndBy n m.au / 65536))
      ((sliceChans n).map (fun ch => h.codeOf ch b (h.binSamples o.cal ch codes)))) (.samples b (binWords (m.alignLeft n) b codes))
  rw [hep, hseq, hlast] at h4
  exact ⟨own', l, h3.trans h4⟩

/-- A slice that does not run, or runs alone, judges nothing (R24, R210). -/
theorem binEnds_idle {m : Module} {n b : Nat} {codes : List (List Int)}
    (h : (m.ownOf n).running = false ∨ (m.ownOf n).alone = true) :
    m.binEnds n b codes = m.setOwn n (fun o => { o with tdie := binTdie b codes o.tdie }) :=
  if_neg (by rcases h with h | h <;> simp [h])

/-! ### Tracking (R216) -/

theorem track_moves {m : Module} {n pos : Nat} (hr : (m.ownOf n).running = true) (ha : (m.ownOf n).alone = false)
    (hs : Tbl.get 0 (m.ownOf n).swState pos = 2) (hd : Tbl.get false (m.ownOf n).dirty pos = false)
    (hl : m.learning (16 * n + pos) = false) (hc : m.cycleOver n = true) :
    m.track n pos = m.setOwn n (fun o => { o with
      dirty := Tbl.set false o.dirty pos true
      swatches := Tbl.modify Swatch.none o.swatches pos (fun w =>
        { w with bins := (w.bins.zipIdx).map (fun (e : SwBin × Nat) =>
            if m.validAt (16 * n + pos) e.2 then
              { e.1 with
                mean := trackMean e.1.mean ((Tbl.get Swatch.none (m.ownOf n).base pos).bins.getD e.2 e.1).mean
                  (Tbl.get 0 o.vals (128 * pos + e.2)) e.1.tol }
            else e.1) }) }) :=
  if_pos (by simp [hr, ha, hs, hd, hl, hc])

/-- A tracked mean stays within half the tolerance of the learned one (R216). -/
theorem trackMean_bounds (mean learned sum : Int) (tol : Nat) :
    learned - (tol / 2 : Nat) ≤ trackMean mean learned sum tol ∧
      trackMean mean learned sum tol ≤ learned + (tol / 2 : Nat) := by
  unfold trackMean
  dsimp only
  omega

/-- Settles O23: verdicts count by their deadline, a missed one faults the slice, and each bin's end sends what it has to. -/
theorem verdicts : Obligations.Verdicts := by
  unfold Obligations.Verdicts
  refine ⟨?verdict, ?silent, ?onTime, ?bin, ?noBin, ?track, trackMean_bounds⟩
  case verdict =>
    rintro s dt n bin hdr cyc codes _ _ g rfl hn h1 h2 hf hg he h0 hw rfl rfl
    have ht := fun m : Module => takeVerdict_eq m n bin cyc codes
    exact ⟨fun hd => onSlice_to hn ((fromSlice_ok h1 h2 hf hg he h0 hw (fun m => m.takeVerdict n bin cyc codes)).trans
        ((ht _).trans (if_pos hd))),
      fun hd => onSlice_to hn ((fromSlice_ok h1 h2 hf hg he h0 hw (fun m => m.takeVerdict n bin cyc codes)).trans
        ((ht _).trans (if_neg (by rw [hd]; exact Bool.false_ne_true))))⟩
  case silent =>
    rintro s dt n _ rfl hn h hw hr
    exact ⟨_, onSlice_to hn rfl, silent_faults h hw hr⟩
  case onTime =>
    rintro s dt n _ rfl hn h
    exact onSlice_to hn (silent_misses h)
  case bin =>
    rintro s dt n bin codes _ h o x rfl hn hr ha hw ho hh hx
    obtain ⟨own, l, he⟩ := binEnds_judges hr ha hw o h x ho hh hx
    exact ⟨_, onSlice_to hn he, rfl⟩
  case noBin =>
    rintro s dt n bin codes _ rfl hn h
    exact onSlice_to hn (binEnds_idle h)
  case track =>
    rintro s dt n pos _ rfl hn hr ha hs hd hl hc
    exact onSlice_to hn (track_moves hr ha hs hd hl hc)

/-! ### Learning (R213-R215) -/

theorem beginLearning_begins {m : Module} {ch : Nat} (hp : m.reported ch = .steady)
    (hs : (m.chan ch).settle + m.busAngle (ch / 16) ≤ m.clk.turn) (hl : (m.slice (ch / 16)).loaded = true)
    (hf : (m.slice (ch / 16)).failed = false) (ha : m.busAngle (ch / 16) < 512) :
    m.beginLearning ch = m.setLearning ch (fun c => (c.1, true, c.2.2)) :=
  if_pos (by rw [hp, decide_eq_true hs, runs_of hl hf, Module.cycleOver, decide_eq_true ha]; rfl)

/-- The channel has the samples of CYCLES cycles: its result is settled, and on LEARNED its swatch is stored (R214, R215). -/
theorem doneLearning_ends {m : Module} {ch cycles : Nat} {sums : List BinSum} {bins : List SwBin}
    (hc : m.learnCycles ch = some cycles) (hg : ∀ b, b < 128 → (m.gathered ch b).count = 2 * cycles)
    (hs : sums = (List.range 128).map (m.gathered ch))
    (hb : bins = sums.map (learnBin m.free (Tbl.get (20, 10, 0, 0) m.live.tolerance ch).1
      (Tbl.get (20, 10, 0, 0) m.live.tolerance ch).2.1)) :
    m.doneLearning ch = ((((if m.learnResult ch sums bins = 0 then
        ({ m with free := m.free + 1 }).changeItems (fun i => { i with
          swatch := Tbl.set Swatch.none i.swatch ch ⟨(m.busOf ch).phase.kind, bins⟩ })
      else { m with free := m.free + 1 }).setLearning ch
        (fun c => (c.1, c.2.1, some (m.learnResult ch sums bins)))).dropSamples (fun x => x == ch)).settleLearns) := by
  subst hs hb
  have hall : ((List.range 128).map (m.gathered ch)).all (fun x => x.count == 2 * cycles) = true := by
    rw [List.all_map, List.all_eq_true]
    exact fun b hb => beq_iff_eq.mpr (hg b (List.mem_range.mp hb))
  unfold Module.doneLearning
  rw [hc]
  dsimp only
  rw [if_pos hall]
  rfl

theorem doneLearning_waits {m : Module} {ch : Nat} (h : m.learnCycles ch = none ∨ ∃ cycles b, m.learnCycles ch = some cycles ∧
    b < 128 ∧ (m.gathered ch b).count ≠ 2 * cycles) : m.doneLearning ch = m := by
  unfold Module.doneLearning
  rcases h with h | ⟨cycles, b, h, hb, hg⟩
  · rw [h]
  · rw [h]
    refine if_neg (fun hall => hg ?_)
    rw [List.all_map, List.all_eq_true] at hall
    exact beq_iff_eq.mp (hall b (List.mem_range.mpr hb))

/-! ### The open-wire test (R251, R252) -/

/-- A channel's test that has both its means ends (R219, R251). -/
theorem wireTested_ends {m : Module} {ch : Nat} {up down : Nat × Nat} (hw : (m.slice (ch / 16)).wire = some (ch % 16, up, down))
    (hu : up.1 ≠ 0) (hd : down.1 ≠ 0) : m.wireTested ch =
      (if wireOpen up down then ((m.setSlice (ch / 16) (fun h => { h with wire := none })).setWire ch 1).detect ch 4
          m.clk.cycle m.clk.angle 0xFF 0
        else ((m.setSlice (ch / 16) (fun h => { h with wire := none })).setWire ch 0).endFault ch 4 0).settleWires.startWire
          (ch / 16) := by
  unfold Module.wireTested
  dsimp only
  rw [hw]
  dsimp only
  rw [if_pos ⟨rfl, hu, hd⟩]
  rfl

theorem wireTested_waits {m : Module} {ch : Nat}
    (h : ∀ p up down, (m.slice (ch / 16)).wire = some (p, up, down) → p ≠ ch % 16 ∨ up.1 = 0 ∨ down.1 = 0) :
    m.wireTested ch = m := by
  unfold Module.wireTested
  dsimp only
  split
  · rename_i p up down hw
    refine if_neg (fun ⟨hp, hu, hd⟩ => ?_)
    rcases h p up down hw with h | h | h
    · exact h hp
    · exact hu h
    · exact hd h
  · rfl

/-- Settles O24: learning begins and ends as its rules say, and a test ends by the difference of its means. -/
theorem learningAndWires : Obligations.LearningAndWires := by
  unfold Obligations.LearningAndWires
  refine ⟨?begins, ?done, ?waits, ?wire, ?noWire⟩
  case begins =>
    rintro s dt ch _ rfl hc hp hs hl hf ha
    exact onChannel_to hc (beginLearning_begins hp hs hl hf ha)
  case done =>
    rintro s dt ch cycles _ sums bins rfl hc hcy hg hs hb
    exact onChannel_to hc (doneLearning_ends hcy hg hs hb)
  case waits =>
    rintro s dt ch _ rfl hc h
    exact onChannel_to hc (doneLearning_waits h)
  case wire =>
    rintro s dt ch up down _ rfl hc hw hu hd
    have h := wireTested_ends hw hu hd
    refine ⟨fun hlt => onChannel_to hc (h.trans ?_), fun hle => onChannel_to hc (h.trans ?_)⟩
    · have ho : wireOpen up down = true := decide_eq_true hlt
      rw [ho]
      rfl
    · have ho : wireOpen up down = false := decide_eq_false (Nat.not_lt.mpr hle)
      rw [ho]
      rfl
  case noWire =>
    rintro s dt ch _ rfl hc h
    exact onChannel_to hc (wireTested_waits h)

end Sys2Proof.Machine
end

section
/-! PROOFS. Distribution and the vote of an update (`Obligations.UpdateVotes`). -/

namespace Sys2Proof.Machine
open Sys2Proof

/-! ### Frames of a session (R269, R276, R352, R366) -/

theorem onCtl_cases (m : Module) (hdr : RingHdr) (g : Module → Module) :
    (hdr.dst = 0xFE → m.onCtl hdr g = m.takeOnce hdr (fun f => if f.ignores hdr.src then f else g f)) ∧
    (hdr.dst ≠ 0xFE → m.onCtl hdr g = m.addressed hdr (fun f => if f.ignores hdr.src then f else g f)) :=
  ⟨fun h => if_pos h, fun h => if_neg h⟩

/-- Two ways to act on a frame that agree on every module give the same row. -/
theorem onCtl_congr {m : Module} {hdr : RingHdr} {f g : Module → Module} (h : ∀ t, f t = g t) :
    m.onCtl hdr f = m.onCtl hdr g := by
  rw [funext h]

/-- A row that acts on a control frame of the update. -/
theorem on_ctl {s : State} {dt : Nat} {hdr : RingHdr} {f g : Module → Module} (h : ∀ t, f t = g t) :
    s.on dt (fun m => m.onCtl hdr f) = .next { s with m := (s.m.elapse dt).onCtl hdr g } :=
  on_next (f := fun m => m.onCtl hdr f) (onCtl_congr h)

theorem talk_sendCtl (m : Module) (dst : Byte) (sub : Nat) (cause : Byte) (late : Bool) (body : List Byte) :
    Talk m (m.sendCtl dst sub cause late body) :=
  Talk.ite (talk_ringSend m _ _ _ _ _) (Talk.refl m)

theorem talk_replyCtl (m : Module) (u : UpdHdr) (sub : Nat) (cause : Byte) (body : List Byte) :
    Talk m (m.replyCtl u sub cause body) :=
  talk_ringSend m _ _ _ _ _

/-! ### OPEN and BLOCK (R352, R357, R361, R367, R368) -/

/-- OPEN refused: the session is noted ABORTED with its cause (R367). -/
def Module.refuseOpen (m : Module) (u : UpdHdr) (clean : Bool) (cause : Byte) : Module :=
  m.setSession (fun _ => { Session.idle with
    id := u.session, phase := .aborted, clean := clean, gateway := u.gateway, cause := cause })

theorem takeOpen_eq (m : Module) (u : UpdHdr) (clean : Bool) (man : List Byte) :
    m.takeOpen u clean man =
      if m.upd.session.id = u.session then m
      else if m.upd.session.phase.isOpen then m.setSession (fun x => { x with busyFor := some u.session })
      else if !manifestLayout man then m.refuseOpen u clean 0
      else match m.manifestCause man clean with
        | some (_, cause) => m.refuseOpen u clean cause
        | none => m.openSession u.session clean man u.gateway false [] := rfl

theorem takeOpen_held {m : Module} {u : UpdHdr} {clean : Bool} {man : List Byte} (h : m.upd.session.id = u.session) :
    m.takeOpen u clean man = m := by
  rw [takeOpen_eq, if_pos h]

theorem takeOpen_busy {m : Module} {u : UpdHdr} {clean : Bool} {man : List Byte} (h : m.upd.session.id ≠ u.session)
    (ho : m.upd.session.phase.isOpen = true) :
    m.takeOpen u clean man = m.setSession (fun x => { x with busyFor := some u.session }) := by
  rw [takeOpen_eq, if_neg h, if_pos ho]

theorem takeOpen_misshapen {m : Module} {u : UpdHdr} {clean : Bool} {man : List Byte} (h : m.upd.session.id ≠ u.session)
    (ho : m.upd.session.phase.isOpen = false) (hl : manifestLayout man = false) :
    m.takeOpen u clean man = m.refuseOpen u clean 0 := by
  rw [takeOpen_eq, if_neg h, ho, if_neg Bool.false_ne_true, hl, if_pos (Bool.not_false)]

theorem takeOpen_judged {m : Module} {u : UpdHdr} {clean : Bool} {man : List Byte} (h : m.upd.session.id ≠ u.session)
    (ho : m.upd.session.phase.isOpen = false) (hl : manifestLayout man = true) :
    m.takeOpen u clean man = match m.manifestCause man clean with
      | some (_, cause) => m.refuseOpen u clean cause
      | none => m.openSession u.session clean man u.gateway false [] := by
  rw [takeOpen_eq, if_neg h, ho, if_neg Bool.false_ne_true, hl]
  rfl

theorem takeBlock_ignored {m : Module} {side : Side} {b : Block} (h : m.upd.session.phase ≠ .receiving) :
    m.takeBlockFrame side b = m :=
  if_neg (by simpa [Module.session] using h)

/-- What a RECEIVING module does with a block once its sender is noted. -/
theorem takeBlock_receiving {m : Module} (side : Side) (b : Block) (h : m.upd.session.phase = .receiving) :
    m.takeBlockFrame side b = (fun (x : Module) =>
      if x.admits (blockCost b) [] then
        match x.checkBlock b with
        | some (e, out) => if x.holdsBlock (blockIndex b) then x else x.newBlock b e out (some side)
        | none => x
      else x) (m.setSession (fun y => { y with lastFrom := some side })) :=
  if_pos (by simpa [Module.session] using h)

theorem takeBlock_discards {m x : Module} {side : Side} {b : Block} (h : m.upd.session.phase = .receiving)
    (hx : x = m.setSession (fun y => { y with lastFrom := some side }))
    (hd : x.admits (blockCost b) [] = false ∨ x.checkBlock b = none ∨ x.holdsBlock (blockIndex b) = true) :
    m.takeBlockFrame side b = x := by
  rw [takeBlock_receiving side b h, ← hx]
  dsimp only
  rcases hd with hd | hd | hd
  · rw [hd, if_neg Bool.false_ne_true]
  · rw [hd, ite_self]
  · rw [hd]
    cases x.checkBlock b with
    | none => exact ite_self x
    | some found => exact ite_self x

theorem takeBlock_keeps {m x : Module} {side : Side} {b : Block} {e : PartEntry} {out : List Byte}
    (h : m.upd.session.phase = .receiving) (hx : x = m.setSession (fun y => { y with lastFrom := some side }))
    (ha : x.admits (blockCost b) [] = true) (hc : x.checkBlock b = some (e, out))
    (hh : x.holdsBlock (blockIndex b) = false) :
    m.takeBlockFrame side b = x.newBlock b e out (some side) := by
  rw [takeBlock_receiving side b h, ← hx]
  dsimp only
  rw [if_pos ha, hc]
  exact if_neg (by rw [hh]; exact Bool.false_ne_true)

/-- 64 wefts without a block: the count starts again, and the other neighbour is asked at the next try (R369). -/
theorem stalled_turns (m : Module) : m.stalled.upd.session.stall = 0 ∧
    m.stalled.upd.session.lastFrom = some (otherSide (m.upd.session.lastFrom.getD .west)) := by
  unfold Module.stalled
  dsimp only
  split
  · exact ⟨rfl, rfl⟩
  · rw [(talk_sendCtl _ _ _ _ _ _).upd]
    exact ⟨rfl, rfl⟩

/-! ### Votes (R375-R378) -/

/-- The condition of a yes, cause by cause in the order of R376. -/
theorem voteCause_zero_iff (m : Module) : m.voteCause = 0 ↔ m.upd.session.phase = .assembled ∧ m.ringReady = true ∧
    m.running = true ∧ m.prov.learns = [] ∧ m.staging = none ∧ m.admits 150000 [] = true := by
  unfold Module.voteCause Module.session
  dsimp only
  by_cases hp : m.upd.session.phase = .assembled
  · rw [if_neg (by simpa using hp)]
    have free : (!m.prov.learns.isEmpty || m.staging.isSome) = false ↔ m.prov.learns = [] ∧ m.staging = none := by
      simp
    split
    next h =>
      exact ⟨fun h7 => absurd h7 (by decide), fun ⟨_, hr, hn, _⟩ =>
        absurd h (by rw [hr, hn]; exact Bool.false_ne_true)⟩
    next h =>
      obtain ⟨hr, hn⟩ : m.ringReady = true ∧ m.running = true := by simpa using h
      split
      next h =>
        exact ⟨fun h9 => absurd h9 (by decide), fun ⟨_, _, _, hl, hs, _⟩ =>
          absurd h (by rw [free.mpr ⟨hl, hs⟩]; exact Bool.false_ne_true)⟩
      next h =>
        obtain ⟨hl, hs⟩ := free.mp (Bool.eq_false_iff.mpr h)
        split
        next h =>
          exact ⟨fun h8 => absurd h8 (by decide), fun ⟨_, _, _, _, _, ha⟩ =>
            absurd h (by rw [ha]; exact Bool.false_ne_true)⟩
        next h => exact ⟨fun _ => ⟨hp, hr, hn, hl, hs, by simpa using h⟩, fun _ => rfl⟩
  · rw [if_pos (by simpa using hp)]
    simp only [hp, false_and, iff_false]
    split
    next h =>
      rw [Bool.and_eq_true, bne_iff_ne] at h
      exact h.2
    · decide

theorem castVote_yes {m : Module} {u : UpdHdr} (h : m.upd.session.id = u.session) (hc : m.voteCause = 0) :
    m.castVote u = (m.writeSettings.setSession (fun x => { x with phase := .prepared })).replyCtl u 4 0
      (u8 1 ++ rsv 3) :=
  (if_pos h).trans (if_pos hc)

theorem castVote_no {m : Module} {u : UpdHdr} (h : m.upd.session.id = u.session) (hc : m.voteCause ≠ 0) :
    m.castVote u = m.replyCtl u 4 m.voteCause (u8 0 ++ rsv 3) :=
  (if_pos h).trans (if_neg hc)

theorem setEscrow_session (u : Update) (b : Bank) : (u.setEscrow b).session = u.session := by
  unfold Update.setEscrow
  split <;> rfl

theorem castVote_prepares {m : Module} {u : UpdHdr} (h : m.upd.session.id = u.session) (hc : m.voteCause = 0) :
    (m.castVote u).upd.session = { m.upd.session with phase := .prepared } := by
  rw [castVote_yes h hc, (talk_replyCtl _ _ _ _ _).upd]
  exact congrArg (fun x : Session => { x with phase := .prepared }) (setEscrow_session m.upd _)

/-- A vote is weighed: from a roster position, its first, by the close (R377). -/
theorem countVote_eq {m : Module} (src : Nat) (yes : Bool) (cause : Byte) {c : Nat} (h : m.upd.session.voteClose = some c) :
    m.countVote src yes cause =
      if m.upd.session.opener && m.upd.session.roster.contains src && !m.upd.session.votes.any (fun v => v.1 == src) &&
          m.clk.onTime c then
        (if ({ m.upd.session with votes := m.upd.session.votes ++ [(src, yes, cause)] } : Session).allYes then
          (m.setSession (fun x => { x with
            votes := x.votes ++ [(src, yes, cause)], phase := .prepared, voteClose := none })).endFinals 0x0704 stOk 0
        else m.setSession (fun x => { x with votes := x.votes ++ [(src, yes, cause)] }))
      else m := by
  unfold Module.countVote Module.session
  dsimp only
  rw [h]
  rfl

theorem countVote_discards {m : Module} {src c : Nat} {yes : Bool} {cause : Byte} (h : m.upd.session.voteClose = some c)
    (hd : m.upd.session.opener = false ∨ m.upd.session.roster.contains src = false ∨
      m.upd.session.votes.any (fun v => v.1 == src) = true ∨ m.clk.onTime c = false) :
    m.countVote src yes cause = m := by
  rw [countVote_eq src yes cause h]
  refine if_neg ?_
  rcases hd with hd | hd | hd | hd <;> simp only [hd, Bool.false_and, Bool.and_false, Bool.not_true] <;>
    exact Bool.false_ne_true

theorem countVote_counts {m : Module} {src c : Nat} {yes : Bool} {cause : Byte} (h : m.upd.session.voteClose = some c)
    (ho : m.upd.session.opener = true) (hr : m.upd.session.roster.contains src = true)
    (hv : m.upd.session.votes.any (fun v => v.1 == src) = false) (ht : m.clk.onTime c = true) :
    m.countVote src yes cause =
      if ({ m.upd.session with votes := m.upd.session.votes ++ [(src, yes, cause)] } : Session).allYes then
        (m.setSession (fun x => { x with
          votes := x.votes ++ [(src, yes, cause)], phase := .prepared, voteClose := none })).endFinals 0x0704 stOk 0
      else m.setSession (fun x => { x with votes := x.votes ++ [(src, yes, cause)] }) := by
  rw [countVote_eq src yes cause h, ho, hr, hv, ht]
  rfl

/-- VOTE_CLOSE. -/
def Module.voteCloses (m : Module) : Module :=
  match m.session.voteClose, m.session.lowestNo with
  | some c, some (q, cause) => if m.coresUp && m.session.opener && !m.clk.onTime c then m.releaseVote q cause else m
  | _, _ => m

theorem exec_voteClose (dt : Nat) (s : State) : exec (.voteClose dt) s = s.on dt Module.voteCloses := rfl

theorem voteCloses_idle {m : Module} (h : m.upd.session.voteClose = none) : m.voteCloses = m := by
  unfold Module.voteCloses Module.session
  rw [h]

theorem voteCloses_open {m : Module} {c q : Nat} {cause : Byte} (hu : m.coresUp = true)
    (ho : m.upd.session.opener = true) (hc : m.upd.session.voteClose = some c)
    (hl : m.upd.session.lowestNo = some (q, cause)) :
    m.voteCloses = if m.clk.onTime c then m else m.releaseVote q cause := by
  unfold Module.voteCloses Module.session
  rw [hc, hl]
  dsimp only
  rw [hu, ho]
  cases m.clk.onTime c <;> rfl

/-- Settles O44, operation by operation: each control row acts through `onCtl` with the operation's own function, and
each operation's outcomes are a lemma each. -/
theorem updateVotes : Obligations.UpdateVotes := by
  unfold Obligations.UpdateVotes
  refine ⟨onCtl_cases, ?openRow, fun m u clean man => ⟨takeOpen_held, takeOpen_busy, takeOpen_misshapen, takeOpen_judged⟩,
    ?blockRow, fun m side b => ⟨takeBlock_ignored, fun x h hx => ⟨takeBlock_discards h hx,
      fun e out ha hc hh => takeBlock_keeps h hx ha hc hh⟩⟩, ?needRow, ?stallRow, stalled_turns, ?callRow,
    fun m u h => ⟨fun hc => ⟨castVote_prepares h hc, castVote_yes h hc⟩, castVote_no h⟩, voteCause_zero_iff, ?voteRow,
    fun m src c yes cause h => ⟨countVote_discards h, fun ho hr hv ht hn => ?counts, fun ho hr hv ht hy => ?prepares⟩,
    ?closeRow, ?closeIdle, ?releaseRow⟩
  case openRow =>
    rintro s dt hdr u clean man _ rfl
    exact on_ctl fun _ => rfl
  case blockRow =>
    rintro s dt side hdr b _ rfl
    rfl
  case needRow =>
    rintro s dt side hdr u first count _ rfl
    exact on_ctl fun t => if_congr (Bool.and_eq_true_iff.trans (and_congr decide_eq_true_iff decide_eq_true_iff)) rfl rfl
  case stallRow =>
    rintro s dt _ rfl
    exact on_next (f := fun m => if m.ringUp && m.session.phase == .receiving && decide (64 ≤ m.session.stall)
      then m.stalled else m) (if_congr (by simp [Module.session, and_assoc]) rfl rfl)
  case callRow =>
    rintro s dt hdr u a c _ rfl
    exact on_ctl fun t => if_congr (Bool.and_eq_true_iff.trans (and_congr Iff.rfl decide_eq_true_iff)) rfl rfl
  case voteRow =>
    rintro s dt hdr u yes _ rfl
    exact on_ctl fun _ => rfl
  case counts => rw [countVote_counts h ho hr hv ht, hn, if_neg Bool.false_ne_true]
  case prepares => rw [countVote_counts h ho hr hv ht, if_pos hy]
  case closeRow =>
    rintro s dt c q cause _ rfl hu ho hc hl
    exact (exec_voteClose dt s).trans (on_next (voteCloses_open hu ho hc hl))
  case closeIdle =>
    rintro s dt _ rfl hc
    exact (exec_voteClose dt s).trans (on_next (voteCloses_idle hc))
  case releaseRow =>
    rintro s dt hdr u _ rfl
    refine on_ctl fun t => if_congr ?_ rfl rfl
    rw [Bool.and_eq_true, Bool.and_eq_true, decide_eq_true_iff, Bool.not_eq_true', beq_iff_eq, and_assoc]
    rfl

end Sys2Proof.Machine
end

section
/-! PROOFS. Commit and trial of an update (`Obligations.CommitAndTrial`). -/

namespace Sys2Proof.Machine
open Sys2Proof

/-! ### COMMIT at a roster module (R381, R382) -/

theorem takeCommit_eq (m : Module) (u : UpdHdr) (cycle : Cycle) :
    m.takeCommit u cycle =
      if m.upd.session.id == u.session && m.upd.session.phase == .prepared then
        m.setSession (fun x => { x with
          phase := .committed, commitCycle := some cycle, late := !m.clk.onTime (cycle.toNat * 65536)
          commitAt := some (if !m.clk.onTime (cycle.toNat * 65536) then (m.clk.cycle.toNat + 1) * 65536
            else cycle.toNat * 65536) })
      else if m.upd.session.id == u.session && (m.upd.session.phase == .committed || m.upd.session.phase == .trial ||
          m.upd.session.phase == .confirmed || m.upd.session.phase == .unwound) then m
      else m.replyCtl u 7 0x0E (u40 0 ++ rsv 3) := rfl

theorem takeCommit_commits {m : Module} {u : UpdHdr} {cycle : Cycle} (h : m.upd.session.id = u.session)
    (hp : m.upd.session.phase = .prepared) :
    m.takeCommit u cycle = m.setSession (fun x => { x with
      phase := .committed, commitCycle := some cycle, late := !m.clk.onTime (cycle.toNat * 65536)
      commitAt := some (if m.clk.onTime (cycle.toNat * 65536) then cycle.toNat * 65536
        else (m.clk.cycle.toNat + 1) * 65536) }) := by
  rw [takeCommit_eq, if_pos (by rw [h, hp]; exact Bool.and_eq_true_iff.mpr ⟨beq_self_eq_true _, rfl⟩)]
  cases m.clk.onTime (cycle.toNat * 65536) <;> rfl

theorem takeCommit_again {m : Module} {u : UpdHdr} {cycle : Cycle} (h : m.upd.session.id = u.session)
    (hp : m.upd.session.phase = .committed ∨ m.upd.session.phase = .trial ∨ m.upd.session.phase = .confirmed ∨
      m.upd.session.phase = .unwound) : m.takeCommit u cycle = m := by
  rw [takeCommit_eq, h, beq_self_eq_true]
  rcases hp with hp | hp | hp | hp <;> rw [hp] <;> rfl

theorem takeCommit_refuses {m : Module} {u : UpdHdr} {cycle : Cycle}
    (h : m.upd.session.id ≠ u.session ∨ m.upd.session.phase = .idle ∨ m.upd.session.phase = .receiving ∨
      m.upd.session.phase = .assembled ∨ m.upd.session.phase = .aborted) :
    m.takeCommit u cycle = m.replyCtl u 7 0x0E (u40 0 ++ rsv 3) := by
  rw [takeCommit_eq]
  rcases h with h | h | h | h | h
  · rw [beq_false_of_ne h]
    rfl
  all_goals
    rw [h]
    cases m.upd.session.id == u.session <;> rfl

/-! ### The commit instant (R365, R381) -/

/-- COMMIT_INSTANT. -/
def Module.commitInstant (m : Module) : Module :=
  match m.session.commitAt with
  | some c => if m.coresUp && m.session.phase == .committed && decide (c ≤ m.au) then m.commitNow c else m
  | none => m

theorem exec_commitInstant (dt : Nat) (s : State) : exec (.commitInstant dt) s = s.on dt Module.commitInstant := rfl

theorem commitInstant_idle {m : Module} (h : m.upd.session.commitAt = none) : m.commitInstant = m := by
  unfold Module.commitInstant Module.session
  rw [h]

theorem commitInstant_eq {m : Module} {c : Nat} (hu : m.coresUp = true) (hp : m.upd.session.phase = .committed)
    (hc : m.upd.session.commitAt = some c) :
    m.commitInstant = if c ≤ m.clk.cycle.toNat * 65536 + m.clk.angle.toNat then m.commitNow c else m := by
  unfold Module.commitInstant Module.session
  rw [hc, hp, hu]
  exact if_congr decide_eq_true_iff rfl rfl

/-- A module with new images: the banks exchange roles on trial, and the reset is due. -/
theorem commitNow_swaps {m : Module} (c : Nat) (h : m.upd.session.isCurrent = false) :
    (m.commitNow c).upd.swapped = (!m.upd.swapped) ∧ (m.commitNow c).upd.select = 1 ∧
      (m.commitNow c).upd.bootCount = 0 ∧ (m.commitNow c).resetDue = some .trial ∧
      (m.commitNow c).prov = { m.prov with coreFb := true } ∧ (m.commitNow c).upd.bank0 = m.upd.bank0 ∧
      (m.commitNow c).upd.bank1 = m.upd.bank1 ∧ (m.commitNow c).upd.session.commitAt = none := by
  unfold Module.commitNow Module.session
  dsimp only
  rw [h, if_neg Bool.false_ne_true]
  exact ⟨rfl, rfl, rfl, rfl, rfl, rfl, rfl, rfl⟩

/-- A CURRENT module only reports. -/
theorem commitNow_reports {m : Module} (c : Nat) (h : m.upd.session.isCurrent = true) :
    m.commitNow c = (m.setSession (fun (x : Session) => { x with
      commitAt := none
      before := (List.range m.variant.slices).filter (fun n => (m.slice n).loaded)
      phase := .trial
      commitCycle := (if m.upd.session.opener then x.commitCycle
        else some (BitVec.ofNat 40 (c / 65536))) })).reportTrial 0 := by
  refine (if_pos h).trans ?_
  unfold Module.setSession
  dsimp only
  rw [h]
  rfl

/-! ### The trial (R382-R385) -/

/-- TRIAL_PASS. -/
def Module.trialPass (m : Module) : Module :=
  if m.session.phase == .committed && m.upd.select == 1 && m.ringReady then m.judgeTrial else m

theorem exec_trialPass (dt : Nat) (s : State) : exec (.trialPass dt) s = s.on dt Module.trialPass := rfl

theorem trialPass_judges {m : Module} (hp : m.upd.session.phase = .committed) (hs : m.upd.select = 1)
    (hr : m.ringReady = true) : m.trialPass = m.judgeTrial :=
  if_pos (by simp [Module.session, hp, hs, hr])

theorem trialPass_idle {m : Module} (h : m.upd.session.phase ≠ .committed ∨ m.upd.select ≠ 1 ∨ m.ringReady = false) :
    m.trialPass = m := by
  refine if_neg ?_
  rw [Bool.and_eq_true, Bool.and_eq_true, beq_iff_eq, beq_iff_eq]
  rintro ⟨⟨hp, hs⟩, hr⟩
  rcases h with h | h | h
  · exact h hp
  · exact h hs
  · exact Bool.false_ne_true (h.symm.trans hr)

theorem judgeTrial_passes {m : Module} (hf : m.upd.session.before.any (fun n => (m.slice n).failed) = false)
    (hl : m.upd.session.before.all (fun n => (m.slice n).loaded) = true) (he : m.ent.healthy = true) :
    m.judgeTrial = ({ m with
      upd := { m.upd with
        select := 2
        session := { m.upd.session with phase := .trial } } }).reportTrial 0 := by
  unfold Module.judgeTrial Module.session
  dsimp only
  rw [hf, if_neg Bool.false_ne_true, hl, he]
  rfl

theorem judgeTrial_fails {m : Module} (hf : m.upd.session.before.any (fun n => (m.slice n).failed) = true)
    (hc : m.upd.session.cause ≠ 0x0C) :
    m.judgeTrial = (m.setSession (fun x => { x with cause := 0x0C })).reportTrial 0x0C := by
  unfold Module.judgeTrial Module.session
  dsimp only
  rw [hf]
  exact if_neg hc

/-- TRIAL_DEADLINE. -/
def Module.trialDeadline (m : Module) : Module :=
  match m.session.trialBy with
  | some d => if m.coresUp && !m.clk.onTime d then m.judgeTrials true else m
  | none => m

theorem exec_trialDeadline (dt : Nat) (s : State) : exec (.trialDeadline dt) s = s.on dt Module.trialDeadline := rfl

theorem trialDeadline_eq (m : Module) : m.trialDeadline =
    match m.upd.session.commitCycle with
    | some c => if m.coresUp = true ∧ m.clk.onTime ((c.toNat + 1500) * 65536) = false then m.judgeTrials true else m
    | none => m := by
  unfold Module.trialDeadline Session.trialBy Module.session
  cases m.upd.session.commitCycle with
  | none => rfl
  | some c =>
    refine if_congr ?_ rfl rfl
    rw [Bool.and_eq_true, Bool.not_eq_true']
    push_cast
    rfl

/-- The gateway judges while COMMIT is under way. -/
theorem judgeTrials_eq {m : Module} (d : Bool) (ho : m.upd.session.opener = true)
    (hs : m.upd.session.confirmSent = false) (hu : m.upd.session.unwindDue = false)
    (hp : m.upd.session.phase = .committed ∨ m.upd.session.phase = .trial) :
    m.judgeTrials d = match m.upd.session.lowestFailed d with
      | some f => (m.setSession (fun s => { s with failure := some f })).beginUnwind
      | none => if m.upd.session.allPassed then m.endFinals 0x0705 stOk 0 else m := by
  refine if_pos ?_
  unfold Module.session
  rw [ho, hs, hu]
  rcases hp with hp | hp <;> rw [hp] <;> rfl

/-- Settles O45, operation by operation: the rows through `on_ctl` and the named effects, each outcome by its lemma. -/
theorem commitAndTrial : Obligations.CommitAndTrial := by
  unfold Obligations.CommitAndTrial
  refine ⟨?commitRow, fun m u cycle => ⟨takeCommit_commits, takeCommit_again, takeCommit_refuses⟩, ?instant, ?instantIdle,
    ?pass, ?passIdle, ?resend, ?trialRow, ?deadline, fun m ho hs hu hp d => ⟨fun f hf => ?fails, fun hn ha => ?passes⟩⟩
  case commitRow =>
    rintro s dt hdr u cycle _ rfl
    exact on_ctl fun t => if_congr (Bool.and_eq_true_iff.trans (and_congr Iff.rfl decide_eq_true_iff)) rfl rfl
  case instant =>
    rintro s dt c _ rfl hu hp hc
    rw [exec_commitInstant]
    have row := commitInstant_eq hu hp hc
    exact ⟨fun hle hn => ⟨_, on_next (row.trans (if_pos hle)), commitNow_swaps c hn⟩,
      fun hle hn => on_next ((row.trans (if_pos hle)).trans (commitNow_reports c hn)),
      fun hlt => on_next (row.trans (if_neg (not_le.mpr hlt)))⟩
  case instantIdle =>
    rintro s dt _ rfl h
    exact (exec_commitInstant dt s).trans (on_next (commitInstant_idle h))
  case pass =>
    rintro s dt _ rfl hp hs hr
    exact ⟨(exec_trialPass dt s).trans (on_next (trialPass_judges hp hs hr)), judgeTrial_passes, judgeTrial_fails⟩
  case passIdle =>
    rintro s dt _ rfl h
    exact (exec_trialPass dt s).trans (on_next (trialPass_idle h))
  case resend =>
    rintro s dt _ rfl
    refine on_next (f := fun m => if m.ringUp && m.ringReady && decide (64 ≤ m.upd.wefts) then
      ({ m with upd := { m.upd with wefts := 0 } }).resendStep else m) ?_
    exact if_congr (by simp [and_assoc]) rfl rfl
  case trialRow =>
    rintro s dt hdr u cycle _ rfl
    refine on_ctl fun t => if_congr ?_ rfl rfl
    unfold Module.reportsTo Module.session
    rw [Bool.and_eq_true, Bool.and_eq_true, decide_eq_true_iff, and_assoc]
  case deadline =>
    rintro s dt _ rfl
    exact (exec_trialDeadline dt s).trans (on_next (trialDeadline_eq _))
  case fails => rw [judgeTrials_eq d ho hs hu hp, hf]
  case passes => rw [judgeTrials_eq d ho hs hu hp, hn]; exact if_pos ha

end Sys2Proof.Machine
end

section
/-! PROOFS. Confirm, unwind and abort of an update (`Obligations.ConfirmAndUnwind`). -/

namespace Sys2Proof.Machine
open Sys2Proof

/-! ### CONFIRM at a module (R362, R370, R386) -/

/-- This module's own part of a CONFIRM: a module on trial takes its steps, a confirmed one answers again. -/
def Module.confirmStep (read : Nat) (m : Module) : Module :=
  if m.upd.session.phase = .trial then m.confirmHere read
  else if m.upd.session.phase = .confirmed then m.reportConfirmed
  else m

/-- UPDATE_CTL_CONFIRM: a frame at a roster module, the CONFIRM it has sent at the gateway. -/
def Module.takeConfirm (hdr : RingHdr) (u : UpdHdr) (g : Module → Module) (m : Module) : Module :=
  if m.session.id = u.session then
    if m.session.opener then (if m.coresUp && m.session.confirmSent then g m else m) else m.onCtl hdr g
  else m

theorem exec_confirm (dt read : Nat) (hdr : RingHdr) (u : UpdHdr) (s : State) :
    exec (.updateCtlConfirm dt hdr u read) s = s.on dt (Module.takeConfirm hdr u (Module.confirmStep read)) := by
  have hg : (fun (m : Module) => if m.session.phase == .trial then m.confirmHere read
      else if m.session.phase == .confirmed then m.reportConfirmed else m) = Module.confirmStep read :=
    funext fun m => if_congr beq_iff_eq rfl (if_congr beq_iff_eq rfl rfl)
  exact congrArg (fun g => s.on dt (Module.takeConfirm hdr u g)) hg

theorem takeConfirm_foreign {m : Module} {hdr : RingHdr} {u : UpdHdr} {g : Module → Module}
    (h : m.upd.session.id ≠ u.session) : m.takeConfirm hdr u g = m :=
  if_neg h

theorem takeConfirm_gateway {m : Module} {hdr : RingHdr} {u : UpdHdr} {g : Module → Module}
    (h : m.upd.session.id = u.session) (ho : m.upd.session.opener = true) :
    m.takeConfirm hdr u g = if m.coresUp = true ∧ m.upd.session.confirmSent = true then g m else m :=
  ((if_pos h).trans (if_pos ho)).trans (if_congr Bool.and_eq_true_iff rfl rfl)

theorem takeConfirm_member {m : Module} {hdr : RingHdr} {u : UpdHdr} {g : Module → Module}
    (h : m.upd.session.id = u.session) (ho : m.upd.session.opener = false) :
    m.takeConfirm hdr u g = m.onCtl hdr g :=
  (if_pos h).trans (if_neg (by unfold Module.session; rw [ho]; exact Bool.false_ne_true))

/-- The update state that a CONFIRM leaves, its session apart. -/
def Module.confirmedUpd (m : Module) (read : Nat) : Update :=
  { m.upd with
    fuses := max m.upd.fuses (min read m.fuseTarget), select := 0, bootCount := 0
    session := { m.upd.session with
      phase := .confirmed
      cause := if max m.upd.fuses (min read m.fuseTarget) < m.fuseTarget then 0x10 else m.upd.session.cause } }

/-- A member's CONFIRMED report goes to the gateway and changes nothing of the session. -/
theorem reportConfirmed_upd {m : Module} (h : m.upd.session.opener = false) : m.reportConfirmed.upd = m.upd := by
  unfold Module.reportConfirmed Module.session
  dsimp only
  rw [h, if_neg Bool.false_ne_true]
  exact (talk_sendCtl m _ _ _ _ _).upd

theorem confirmHere_eq (m : Module) (read : Nat) : ∃ t : Module, m.confirmHere read = t.reportConfirmed ∧
    t.upd = m.confirmedUpd read := by
  refine ⟨_, rfl, ?_⟩
  dsimp only
  split <;> rfl

theorem confirmHere_upd {m : Module} (read : Nat) (h : m.upd.session.opener = false) :
    (m.confirmHere read).upd = m.confirmedUpd read := by
  obtain ⟨t, ht, hu⟩ := confirmHere_eq m read
  rw [ht, reportConfirmed_upd (by rw [hu]; exact h), hu]

/-! ### Deadlines, UNWIND and ABORT (R386, R387, R389) -/

theorem reportsTo_iff (m : Module) (u : UpdHdr) (src : Byte) : m.reportsTo u src = true ↔
    m.upd.session.opener = true ∧ m.upd.session.id = u.session ∧
      m.upd.session.roster.contains src.toNat = true := by
  unfold Module.reportsTo Module.session
  rw [Bool.and_eq_true, Bool.and_eq_true, decide_eq_true_iff, and_assoc]

/-- CONFIRM_DEADLINE. -/
def Module.confirmDeadline (m : Module) : Module :=
  match m.session.confirmBy with
  | some d =>
    if m.coresUp && m.session.opener && !m.clk.onTime d then
      (m.setSession (fun s => { s with confirmBy := none })).endFinals 0x0706 stDomainAbort
        (BitVec.ofNat 16 (m.session.unconfirmed.headD 0))
    else m
  | none => m

theorem exec_confirmDeadline (dt : Nat) (s : State) : exec (.confirmDeadline dt) s = s.on dt Module.confirmDeadline := rfl

theorem confirmDeadline_eq (m : Module) : m.confirmDeadline =
    match m.upd.session.confirmBy with
    | some d => if m.coresUp = true ∧ m.upd.session.opener = true ∧ m.clk.onTime d = false then
        (m.setSession (fun x => { x with confirmBy := none })).endFinals 0x0706 stDomainAbort
          (BitVec.ofNat 16 (m.upd.session.unconfirmed.headD 0))
      else m
    | none => m := by
  unfold Module.confirmDeadline Module.session
  cases m.upd.session.confirmBy with
  | none => rfl
  | some d => exact if_congr (by simp [and_assoc]) rfl rfl

/-- A committed module unwinds through a reset: the banks go back where it runs the new ones. -/
theorem unwindHere_resets {m : Module} (hp : m.upd.session.phase = .committed ∨ m.upd.session.phase = .trial)
    (hc : m.upd.session.isCurrent = false) :
    m.unwindHere.resetDue = some .unwind ∧ m.unwindHere.prov = { m.prov with coreFb := true } ∧
      m.unwindHere.upd.session.phase = .unwound ∧ m.unwindHere.upd.select = 0 ∧
      m.unwindHere.upd.swapped = (if m.upd.select = 0 then m.upd.swapped else !m.upd.swapped) := by
  have hr : ((m.session.phase == .committed || m.session.phase == .trial) && !m.session.isCurrent) = true := by
    unfold Module.session
    rw [hc]
    rcases hp with hp | hp <;> rw [hp] <;> rfl
  unfold Module.unwindHere
  dsimp only
  rw [if_pos hr]
  split
  next h => exact ⟨rfl, rfl, rfl, h, rfl⟩
  next h => exact ⟨rfl, rfl, rfl, rfl, rfl⟩

theorem mayAbort_iff (p : Phase) : p.mayAbort = true ↔ p = .receiving ∨ p = .assembled ∨ p = .prepared := by
  cases p <;> simp [Phase.mayAbort]

/-- Settles O46, row by row, with each operation's outcome by its lemma. -/
theorem confirmAndUnwind : Obligations.ConfirmAndUnwind := by
  unfold Obligations.ConfirmAndUnwind
  refine ⟨?confirmRow, fun m read h => ?burns, ?reports, ?deadline, ?unwindRow, fun m => unwindHere_resets, ?abortRow⟩
  case confirmRow =>
    rintro s dt read hdr u _ _ rfl rfl
    rw [exec_confirm]
    exact ⟨fun h => on_next (takeConfirm_foreign h), fun h ho => on_next (takeConfirm_gateway h ho),
      fun h ho => on_next (takeConfirm_member h ho)⟩
  case burns =>
    rw [confirmHere_upd read h]
    exact ⟨rfl, rfl, rfl, rfl, rfl⟩
  case reports =>
    rintro s dt hdr u _ rfl
    exact ⟨on_ctl fun t => if_congr (reportsTo_iff t u hdr.src) rfl rfl,
      on_ctl fun t => if_congr (reportsTo_iff t u hdr.src) rfl rfl⟩
  case deadline =>
    rintro s dt _ rfl
    exact (exec_confirmDeadline dt s).trans (on_next (confirmDeadline_eq _))
  case unwindRow =>
    rintro s dt hdr u _ rfl
    refine on_ctl fun t => if_congr ?_ rfl rfl
    rw [Bool.and_eq_true, decide_eq_true_iff, Bool.not_eq_true']
    rfl
  case abortRow =>
    rintro s dt hdr u _ rfl
    refine on_ctl fun t => if_congr ?_ rfl rfl
    rw [Bool.and_eq_true, Bool.and_eq_true, decide_eq_true_iff, Bool.not_eq_true', mayAbort_iff, and_assoc]
    rfl

end Sys2Proof.Machine
end

section
/-! PROOFS. The entropy unit (`Obligations.EntropyUnit`). -/

namespace Sys2Proof.Machine
open Sys2Proof

/-! ### Requests and events leave the unit's own state (R400, R401) -/

theorem failRequest_ent (detail : Word16) (m : Module) (r : EntReq) : (m.failRequest detail r).ent = m.ent := by
  unfold Module.failRequest
  split
  · exact setSpan_ent m _ _
  · exact setSpan_ent m _ _
  · exact (talk_complete m _ _ _ _ _ _).ent
  · rfl

theorem entropyEvent_ent (m : Module) (cause failed : Nat) : (m.entropyEvent cause failed).ent = m.ent :=
  (talk_event m _ _).ent

/-! ### Health tests (R392, R396, R397) -/

/-- The unit with a failed health test counted, and noted where a start-up test runs. -/
def Entropy.noteFail (e : Entropy) (test : HealthTest) : Entropy :=
  { e.countFail test with failing := if e.testing then e.failing.or (some test) else e.failing }

theorem healthFails_off {m : Module} {test : HealthTest} (h : m.coresUp = false ∨ test = .kat) :
    m.healthFails test = m := by
  refine if_neg ?_
  unfold Module.entropyRuns
  rcases h with h | h
  · rw [h]
    exact Bool.false_ne_true
  · rw [h, bne_self_eq_false, Bool.and_false]
    exact Bool.false_ne_true

theorem healthFails_eq {m : Module} {test : HealthTest} (hu : m.coresUp = true) (ht : test ≠ .kat) :
    m.healthFails test =
      if m.ent.healthy then
        ((reqOrder m.ent.waiting).foldl (fun (t : Module) r => t.failRequest 1 r)
          { m with ent := (m.ent.noteFail test).stop m.now }).entropyEvent (HealthTest_code test) m.ent.waiting.length
      else { m with ent := m.ent.noteFail test } := by
  refine if_pos ?_
  unfold Module.entropyRuns
  rw [hu, Bool.true_and]
  exact bne_iff_ne.mpr ht

theorem healthFails_counts {m : Module} {test : HealthTest} (hu : m.coresUp = true) (ht : test ≠ .kat)
    (hs : m.ent.state ≠ 1) : m.healthFails test = { m with ent := m.ent.noteFail test } := by
  rw [healthFails_eq hu ht]
  exact if_neg (by unfold Entropy.healthy; rw [beq_false_of_ne hs]; exact Bool.false_ne_true)

theorem healthFails_stops {m : Module} {test : HealthTest} (hu : m.coresUp = true) (ht : test ≠ .kat)
    (hs : m.ent.state = 1) : (m.healthFails test).ent = (m.ent.noteFail test).stop m.now := by
  have hh : m.ent.healthy = true := beq_iff_eq.mpr hs
  rw [healthFails_eq hu ht, if_pos hh, entropyEvent_ent]
  exact foldl_keeps (fun t => t.ent) (fun t r => t.failRequest 1 r) (fun t r => failRequest_ent 1 t r) _ _

theorem countFail_counts (e : Entropy) (test : HealthTest) :
    (e.countFail test).rct = (if test = .rct then satInc e.rct else e.rct) ∧
      (e.countFail test).apt = (if test = .apt then satInc e.apt else e.apt) ∧
      (e.countFail test).restarts = e.restarts := by
  cases test <;> exact ⟨rfl, rfl, rfl⟩

/-! ### Restart and start-up test (R393, R395, R396, R398) -/

theorem entropyRestart_due {m : Module} {t : Nat} (h : m.ent.restartAt = some t) :
    m.entropyRestart = if m.coresUp = true ∧ m.ent.state = 2 ∧ t ≤ m.clk.tick.toNat then
        { m with ent := { m.ent with
          restartAt := none, testing := true, failing := none, poolAt := m.clk.tick.toNat } }
      else m := by
  unfold Module.entropyRestart Module.entropyRuns
  rw [h]
  refine if_congr ?_ rfl rfl
  simp only [Bool.and_eq_true, beq_iff_eq, decide_eq_true_eq, and_assoc]
  rfl

theorem entropyRestart_none {m : Module} (h : m.ent.restartAt = none) : m.entropyRestart = m := by
  unfold Module.entropyRestart
  rw [h]

/-- The unit as its start-up test found it: a failure told only at the end is counted then. -/
def Entropy.tested (e : Entropy) (failure : Option HealthTest) : Entropy :=
  match e.failing, failure with | none, some x => e.countFail x | _, _ => e

theorem tested_restarts (e : Entropy) (failure : Option HealthTest) : (e.tested failure).restarts = e.restarts := by
  unfold Entropy.tested
  split
  · exact (countFail_counts e _).2.2
  · rfl

theorem startupDone_off {m : Module} {fail : Option HealthTest} (h : m.coresUp = false ∨ m.ent.testing = false) :
    m.startupDone fail = m :=
  if_neg (by unfold Module.entropyRuns; rcases h with h | h <;> simp [h])

theorem startupDone_ent {m : Module} (fail : Option HealthTest) (hu : m.coresUp = true) (ht : m.ent.testing = true) :
    (m.startupDone fail).ent =
      { (m.ent.tested fail).afterTest m.now (m.ent.failing.or fail) with failing := none } := by
  unfold Module.startupDone Module.entropyRuns
  rw [hu, ht]
  exact entropyEvent_ent _ _ _

theorem afterTest_fails (e : Entropy) (now : Nat) {failure : Option HealthTest} (h : failure ≠ none) :
    e.afterTest now failure =
      if 3 ≤ e.restarts + 1 then
        { e with state := 3, restarts := 3, drbg := false, pool := 0, testing := false, restartAt := none }
      else { e with
        state := 2, restarts := e.restarts + 1, drbg := false, pool := 0, testing := false
        restartAt := some (now + 100000000) } := by
  cases failure with
  | none => exact absurd rfl h
  | some t => rfl

theorem startupDone_passes {m : Module} {fail : Option HealthTest} (hu : m.coresUp = true) (ht : m.ent.testing = true)
    (hf : m.ent.failing = none) (hn : fail = none) :
    (m.startupDone fail).ent = { m.ent with
      state := 1, restarts := 0, drbg := true, generated := 0, reseedAt := m.clk.tick.toNat, pool := 0
      poolAt := m.clk.tick.toNat, testing := false, restartAt := none } := by
  rw [startupDone_ent fail hu ht, hn]
  unfold Entropy.tested Entropy.afterTest
  simp only [hf, Option.or_none]
  rfl

theorem startupDone_fails {m : Module} {fail : Option HealthTest} (hu : m.coresUp = true) (ht : m.ent.testing = true)
    (hf : m.ent.failing ≠ none ∨ fail ≠ none) :
    (2 ≤ m.ent.restarts → (m.startupDone fail).ent = { m.ent.tested fail with
      state := 3, restarts := 3, drbg := false, pool := 0, testing := false, failing := none, restartAt := none }) ∧
    (m.ent.restarts < 2 → (m.startupDone fail).ent = { m.ent.tested fail with
      state := 2, restarts := m.ent.restarts + 1, drbg := false, pool := 0, testing := false, failing := none
      restartAt := some (m.clk.tick.toNat + 100000000) }) := by
  have hor : m.ent.failing.or fail ≠ none := by
    rw [ne_eq, Option.or_eq_none_iff, not_and_or]
    exact hf
  rw [startupDone_ent fail hu ht, afterTest_fails _ _ hor, tested_restarts]
  refine ⟨fun h => ?_, fun h => ?_⟩
  · rw [if_pos (Nat.succ_le_succ h)]
  · rw [if_neg (by omega)]
    rfl

/-! ### Reseeds and deadlines (R395, R401, R402) -/

theorem reseed_eq (m : Module) (e : Entropy) (he : e = m.ent.fill m.clk.tick.toNat) :
    m.reseed = if m.coresUp = true ∧ e.state = 1 ∧ e.reseedDue m.clk.tick.toNat = true ∧ 1 ≤ e.pool then
        (reqOrder (e.waiting.filter (fun r => decide (m.clk.tick.toNat ≤ r.deadline)))).foldl
          (fun m r => m.serveOrKeep r)
          { m with ent := { e with
              pool := e.pool - 1
              generated := 0
              reseedAt := m.clk.tick.toNat
              waiting := e.waiting.filter (fun r => !decide (m.clk.tick.toNat ≤ r.deadline)) } }
      else m := by
  subst he
  refine if_congr ?_ rfl rfl
  simp only [Entropy.healthy, Bool.and_eq_true, beq_iff_eq, decide_eq_true_eq, and_assoc]
  rfl

/-- Settles O47, operation by operation: an event, a failed request and an answer leave the unit's own state. -/
theorem entropyUnit : Obligations.EntropyUnit := by
  unfold Obligations.EntropyUnit
  refine ⟨?health, ?healthOff, ?restart, ?restartNone, ?startup, ?reseed, ?deadline⟩
  case health =>
    rintro s dt test _ rfl hu ht
    have row : exec (.healthTestFail dt test) s = .next { s with m := (s.m.elapse dt).healthFails test } := rfl
    generalize s.m.elapse dt = m at row hu
    refine ⟨fun hs => row.trans (by rw [healthFails_counts hu ht hs]; rfl), fun hs => ⟨_, row, ?_⟩⟩
    obtain ⟨hr, ha, hn⟩ := countFail_counts m.ent test
    rw [healthFails_stops hu ht hs]
    exact ⟨rfl, rfl, rfl, rfl, rfl, hr, ha, hn⟩
  case healthOff =>
    rintro s dt _ rfl
    exact ⟨fun hu test => on_next (f := fun m => m.healthFails test) (healthFails_off (.inl hu)),
      on_next (f := fun m => m.healthFails .kat) (healthFails_off (.inr rfl))⟩
  case restart =>
    rintro s dt t _ rfl h
    exact on_next (f := fun m => m.entropyRestart) (entropyRestart_due h)
  case restartNone =>
    rintro s dt _ rfl h
    exact on_next (f := fun m => m.entropyRestart) (entropyRestart_none h)
  case startup =>
    rintro s dt fail _ rfl
    have row : exec (.startupTestDone dt fail) s = .next { s with m := (s.m.elapse dt).startupDone fail } := rfl
    refine ⟨fun h => row.trans (by rw [startupDone_off h]), fun e hu ht he => ⟨_, row, fun hf hn =>
      startupDone_passes hu ht hf hn, fun hf hr => ?latches, fun hf hr => ?restarts⟩⟩
    case latches =>
      rw [he]
      exact (startupDone_fails hu ht hf).1 hr
    case restarts =>
      rw [he]
      exact (startupDone_fails hu ht hf).2 hr
  case reseed =>
    rintro s dt _ e rfl he
    exact on_next (f := fun m => m.reseed) (reseed_eq _ e he)
  case deadline =>
    rintro s dt _ rfl
    rfl

end Sys2Proof.Machine
end

section
/-! PROOFS. Characters at the serial ports (`Obligations.SerialCharacters`). -/

namespace Sys2Proof.Machine
open Sys2Proof

/-! ### Frames and their deadline (R147, R148, R420) -/

theorem expire_early {u : Uart} {d now : Nat} (h : u.deadline = some d) (hn : now ≤ d) : u.expire now = u := by
  unfold Uart.expire
  rw [h]
  exact if_neg (not_lt.mpr hn)

theorem expire_late {u : Uart} {d now : Nat} (h : u.deadline = some d) (hn : d < now) : u.expire now = u.interrupt := by
  unfold Uart.expire
  rw [h]
  exact if_pos hn

theorem interrupt_frame {u : Uart} (h : u.frame.isSome = true) :
    u.interrupt = { u.between with discarded := satInc u.discarded } := if_pos h

theorem interrupt_idle {u : Uart} (h : u.frame = none) : u.interrupt = u :=
  if_neg (by rw [h]; exact Bool.false_ne_true)

theorem closeFrame_eq {m : Module} {port : Port} {bs : List Byte} (stamp : Nat) (he : (m.port port).escaped = false)
    (hb : (m.port port).badEscape = false) (hf : (m.port port).frame = some bs) (hl : 1 ≤ bs.length) :
    m.closeFrame port stamp =
      if bs.length < 32 ∨ 65536 < bs.length then
        m.setPort port (fun u => { u.between with discarded := satInc u.discarded })
      else (m.setPort port (fun u =>
        { u.between with
          full := u.full + 1
          crcBad := if wellFormedBytes bs then u.crcBad else satInc u.crcBad })).arrive
            (readPacket (portPath port) bs) stamp (wellFormedBytes bs) := by
  unfold Module.closeFrame
  dsimp only
  rw [hf, he, hb]
  have hne : bs.isEmpty = false := List.isEmpty_eq_false_iff.mpr (List.ne_nil_of_length_pos hl)
  refine (if_neg (by simp only [Option.getD_some, hne]; exact Bool.false_ne_true)).trans (if_congr ?_ rfl rfl)
  rw [Bool.or_self, Bool.false_or, Bool.or_eq_true, decide_eq_true_iff, decide_eq_true_iff]
  rfl

/-! ### The holding register and addresses (R419, R429) -/

theorem hold_cases (m : Module) (port : Port) (c : BitVec 9) :
    ((m.port port).holding.isSome = true → m.hold port c = m.setPort port (fun u => { u with ovr := satInc u.ovr })) ∧
    ((m.port port).holding = none → 2 ≤ (m.port port).full →
      m.hold port c = m.setPort port (fun u => { u with holding := some (c, m.clk.tick.toNat) })) ∧
    ((m.port port).holding = none → (m.port port).full < 2 →
      m.hold port c = m.passChar port c m.clk.tick.toNat) := by
  have empty : (m.port port).holding = none → ¬ (m.port port).holding.isSome = true := fun h => by
    rw [h]
    exact Bool.false_ne_true
  exact ⟨fun h => if_pos h, fun h hf => (if_neg (empty h)).trans (if_pos hf),
    fun h hf => (if_neg (empty h)).trans (if_neg (not_le.mpr hf))⟩

theorem address9_idle {u : Uart} (c : BitVec 9) (clean : Bool) (t : Nat) (h : u.frame = none) :
    u.address9 c clean t = if clean = true ∧ u.matches c = true
      then { u with selected := true, frame := some [], deadline := some (t + u.timeout) }
      else { u with selected := false } := by
  unfold Uart.address9
  rw [interrupt_idle h]
  exact if_congr Bool.and_eq_true_iff rfl rfl

/-! ### A decided character (R417-R421, R428, R429) -/

/-- A character on a port whose receive deadline has been looked at. -/
def Module.decided (f : Module) (port : Port) (c : BitVec 9) (startOne stopOne noisy : Bool) : Module :=
  let u := f.port port
  let address := port == .drop && c.getLsbD 8
  let looped := u.loopback || u.echo
  if startOne then f.setPort port (fun u => { u with noise := satInc u.noise })
  else if port == .drop && !address && !u.selected && !looped then f
  else
    let space := !stopOne && c == 0
    let m := f.setPort port (fun u => u.judge stopOne noisy space)
    if space then m
    else if u.echo then m.put (.echoChar port c)
    else if u.loopback then m
    else if address && !u.holding.isSome then m.setPort port (fun u => u.address9 c (stopOne && !noisy) m.now)
    else m.hold port c

theorem receive_eq (m : Module) (port : Port) (c : BitVec 9) (startOne stopOne noisy : Bool) :
    m.receive port c startOne stopOne noisy =
      (m.setPort port (fun u => u.expire m.now)).decided port (charBits port c) startOne stopOne noisy := rfl

theorem decided_noise (f : Module) (port : Port) (c : BitVec 9) (stopOne noisy : Bool) :
    f.decided port c true stopOne noisy = f.setPort port (fun u => { u with noise := satInc u.noise }) := rfl

/-- DROP takes no data character while it is not selected. -/
theorem decided_unselected {f : Module} {c : BitVec 9} {stopOne noisy : Bool} (hc : c.getLsbD 8 = false)
    (hs : (f.port .drop).selected = false) (hl : (f.port .drop).loopback = false) (he : (f.port .drop).echo = false) :
    f.decided .drop c false stopOne noisy = f := by
  unfold Module.decided
  dsimp only
  rw [hc, hs, hl, he]
  rfl

/-- A character that is the port's to take: its noise and framing are judged, and it goes on. -/
theorem decided_judged {f : Module} {port : Port} {c : BitVec 9} {stopOne noisy : Bool}
    (h : port = .drop → c.getLsbD 8 = true ∨ (f.port port).selected = true) :
    f.decided port c false stopOne noisy = (fun (m : Module) =>
      if (!stopOne && c == 0) = true then m
      else if (f.port port).echo then m.put (.echoChar port c)
      else if (f.port port).loopback then m
      else if (port == .drop && c.getLsbD 8 && !(f.port port).holding.isSome) = true then
        m.setPort port (fun u => u.address9 c (stopOne && !noisy) m.now)
      else m.hold port c) (f.setPort port (fun u => u.judge stopOne noisy (!stopOne && c == 0))) := by
  unfold Module.decided
  dsimp only
  rw [if_neg Bool.false_ne_true, if_neg]
  cases port with
  | maint => exact Bool.false_ne_true
  | drop =>
    rcases h rfl with h | h
    · simp [h]
    · simp [h]

theorem decided_space {f : Module} {port : Port} {c : BitVec 9} {noisy : Bool} (hc : c = 0)
    (h : port = .drop → (f.port port).selected = true) :
    f.decided port c false false noisy = f.setPort port (fun u => u.judge false noisy true) := by
  subst hc
  exact (decided_judged fun hp => .inr (h hp)).trans (if_pos rfl)

/-- A data character goes on to the holding register. -/
theorem decided_data {f : Module} {port : Port} {c : BitVec 9} {stopOne noisy : Bool}
    (hs : port = .drop → (f.port port).selected = true) (hc : ¬ (stopOne = false ∧ c = 0))
    (he : (f.port port).echo = false) (hl : (f.port port).loopback = false) (ha : port = .drop → c.getLsbD 8 = false) :
    f.decided port c false stopOne noisy =
      (f.setPort port (fun u => u.judge stopOne noisy false)).hold port c := by
  have space : (!stopOne && c == 0) = false := by
    rw [← Bool.not_eq_true, Bool.and_eq_true, Bool.not_eq_true', beq_iff_eq]
    exact hc
  have address : (port == .drop && c.getLsbD 8) = false := by
    cases port with
    | maint => rfl
    | drop => exact ha rfl
  rw [decided_judged fun hp => .inr (hs hp), space, he, hl, address]
  rfl

/-- An address character on DROP selects or deselects. -/
theorem decided_address {f : Module} {c : BitVec 9} {stopOne noisy : Bool} (hc : c.getLsbD 8 = true)
    (he : (f.port .drop).echo = false) (hl : (f.port .drop).loopback = false) (hh : (f.port .drop).holding = none) :
    f.decided .drop c false stopOne noisy =
      (f.setPort .drop (fun u => u.judge stopOne noisy false)).setPort .drop
        (fun u => u.address9 c (stopOne && !noisy) f.now) := by
  have space : (!stopOne && c == 0) = false := by
    have hne : c ≠ 0 := fun h => by simp [h] at hc
    rw [beq_false_of_ne hne, Bool.and_false]
  rw [decided_judged fun _ => .inl hc, space, he, hl, hh, hc]
  rfl

/-- CHARACTER: what the port hears is received. -/
theorem character_heard {m : Module} {port : Port} {c : BitVec 9} {startOne stopOne noisy : Bool}
    (h : m.hears port = true) :
    m.character port c startOne stopOne noisy = m.receive port c startOne stopOne noisy := if_pos h

theorem character_unheard {m : Module} {port : Port} {c : BitVec 9} {startOne stopOne noisy : Bool}
    (h : m.hears port = false) (hd : port = .maint ∨ m.coresUp = false ∨ m.dropAsleep = false) :
    m.character port c startOne stopOne noisy = m := by
  refine (if_neg (by rw [h]; exact Bool.false_ne_true)).trans (if_neg ?_)
  rcases hd with hd | hd | hd <;> simp [hd]

/-- Settles O48: every clause on a character goes through `decided`, the receiver once its deadline has been looked
at. -/
theorem serialCharacters : Obligations.SerialCharacters := by
  unfold Obligations.SerialCharacters
  refine ⟨?row, ?data, ?address, fun u c clean t h => address9_idle c clean t h, hold_cases, ?close, ?timeout, ?expire,
    fun u => rfl⟩
  case row =>
    rintro s dt port c startOne stopOne noisy _ rfl
    exact ⟨fun h => on_next (f := fun m => m.character port c startOne stopOne noisy) (character_heard h),
      fun h hd => on_next (f := fun m => m.character port c startOne stopOne noisy) (character_unheard h hd)⟩
  case data =>
    intro m port c startOne stopOne noisy u f hu hf
    have hp : f.port port = u := by rw [hf, hu, port_setPort]
    have hr : m.receive port c startOne stopOne noisy =
        f.decided port (charBits port c) startOne stopOne noisy := by rw [hf]; exact receive_eq _ _ _ _ _ _
    rw [hr, ← hp]
    refine ⟨fun h => ?_, fun h hd hc hs hl he => ?_, fun h hs hc hd => ?_, fun h hs hc he hl ha => ?_⟩
    · rw [h, decided_noise]
    · subst hd
      rw [h]
      exact decided_unselected hc hs hl he
    · rw [h, hs]
      exact decided_space hc hd
    · rw [h]
      exact decided_data hs hc he hl fun hd => by rw [hd]; exact ha hd
  case address =>
    intro m c startOne stopOne noisy u f hu hf h hc he hl hh
    have hp : f.port .drop = u := by rw [hf, hu, port_setPort]
    rw [← hp] at he hl hh
    rw [receive_eq, h]
    have hd := decided_address (stopOne := stopOne) (noisy := noisy) hc he hl hh
    rw [hf] at hd ⊢
    exact hd
  case close =>
    intro m port stamp bs he hb hf
    refine ⟨fun h hl => ?_, fun h hl => ?_⟩
    · rw [closeFrame_eq stamp he hb hf h, if_pos hl]
    · rw [closeFrame_eq stamp he hb hf (by omega), if_neg (by omega)]
  case timeout =>
    rintro s dt port _ rfl
    rfl
  case expire =>
    intro u d now h
    refine ⟨fun hn => expire_early h hn, fun hn hf => ?_, fun hn hf => ?_⟩
    · rw [expire_late h hn, interrupt_frame hf]
    · rw [expire_late h hn, interrupt_idle hf]

end Sys2Proof.Machine
end

section
/-! PROOFS. Breaks, wakes, jobs of the ports and self-tests (`Obligations.PortsAndTests`). -/

namespace Sys2Proof.Machine
open Sys2Proof

/-! ### Received breaks (R426, R427) -/

/-- A port after a break of `bits` bit times and `lpo` LPO ticks: `u` as the break interrupted it, `breaks` counted. -/
def Uart.broken (u : Uart) (breaks : Word32) (bits lpo : Nat) : Uart :=
  { u with
    selected := false, breaks := satInc breaks, lastBits := BitVec.ofNat 16 (min bits 65535)
    lastLpo := BitVec.ofNat 32 (min lpo 4294967295) }

theorem setPort_const (m : Module) (port : Port) (f : Uart → Uart) :
    m.setPort port f = m.setPort port (fun _ => f (m.port port)) := by
  cases port <;> rfl

theorem breakHeard_deaf {m : Module} {port : Port} {bits lpo : Nat} (h : m.hears port = false) :
    m.breakHeard port bits lpo = m := if_neg (by rw [h]; exact Bool.false_ne_true)

/-- What a port that hears a break is left with; MAINT's settings return after a long one. -/
theorem breakHeard_eq {m : Module} {port : Port} (bits lpo : Nat) (h : m.hears port = true) :
    m.breakHeard port bits lpo = (fun (t : Module) =>
      if port == .maint && decide (7680 ≤ lpo) then t.setPort .maint (fun u => u.change 16 26 0 0 0 0) else t)
      (m.setPort port (fun _ =>
        (((m.port port).expire m.clk.tick.toNat).interrupt).broken (m.port port).breaks bits lpo)) := by
  refine (if_pos h).trans ?_
  rw [setPort_const]
  rfl

/-- New settings interrupt a frame and keep the counts. -/
theorem change_keeps (u : Uart) (o d mode : Nat) (a k : Byte) (sleep : Nat) :
    (u.change o d mode a k sleep).breaks = u.breaks ∧ (u.change o d mode a k sleep).lastBits = u.lastBits ∧
      (u.change o d mode a k sleep).lastLpo = u.lastLpo ∧
      (u.selected = false → (u.change o d mode a k sleep).selected = false) := by
  unfold Uart.change Uart.interrupt
  split
  · exact ⟨rfl, rfl, rfl, fun _ => rfl⟩
  · exact ⟨rfl, rfl, rfl, id⟩

theorem breakHeard_short {m : Module} {port : Port} {bits lpo : Nat} (h : m.hears port = true)
    (hs : port = .drop ∨ lpo < 7680) : m.breakHeard port bits lpo = m.setPort port (fun _ =>
      (((m.port port).expire m.clk.tick.toNat).interrupt).broken (m.port port).breaks bits lpo) := by
  rw [breakHeard_eq bits lpo h]
  refine if_neg ?_
  rw [Bool.and_eq_true, beq_iff_eq, decide_eq_true_iff]
  rintro ⟨rfl, hl⟩
  rcases hs with hs | hs
  · cases hs
  · omega

/-- The counts of a break, which a change of settings after it keeps. -/
theorem breakHeard_counts {m : Module} {port : Port} (bits lpo : Nat) (h : m.hears port = true) :
    ((m.breakHeard port bits lpo).port port).breaks = satInc (m.port port).breaks ∧
      ((m.breakHeard port bits lpo).port port).lastBits = BitVec.ofNat 16 (min bits 65535) ∧
      ((m.breakHeard port bits lpo).port port).lastLpo = BitVec.ofNat 32 (min lpo 4294967295) ∧
      ((m.breakHeard port bits lpo).port port).selected = false := by
  rw [breakHeard_eq bits lpo h]
  dsimp only
  split
  next hl =>
    obtain ⟨hp, -⟩ := Bool.and_eq_true_iff.mp hl
    rw [beq_iff_eq] at hp
    subst hp
    rw [port_setPort, port_setPort]
    obtain ⟨hb, hi, hp, hs⟩ := change_keeps
      ((((m.port .maint).expire m.clk.tick.toNat).interrupt).broken (m.port .maint).breaks bits lpo) 16 26 0 0 0 0
    exact ⟨hb, hi, hp, hs rfl⟩
  · rw [port_setPort]
    exact ⟨rfl, rfl, rfl, rfl⟩

/-- A long break returns MAINT to its default settings. -/
theorem breakHeard_long {m : Module} {port : Port} (bits : Nat) {lpo : Nat} (h : m.hears port = true) (hp : port = .maint)
    (hl : 7680 ≤ lpo) : ((m.breakHeard port bits lpo).port port).oversample = 16 ∧
      ((m.breakHeard port bits lpo).port port).divider = 26 ∧
      ((m.breakHeard port bits lpo).port port).loopback = false ∧
      ((m.breakHeard port bits lpo).port port).echo = false := by
  subst hp
  rw [breakHeard_eq bits lpo h]
  dsimp only
  rw [if_pos (by rw [decide_eq_true hl]; rfl), port_setPort]
  exact ⟨rfl, rfl, rfl, rfl⟩

/-! ### The sleep receiver (R426, R431) -/

theorem sleepChar_idle {m : Module} {c : BitVec 9} {stopOne noisy : Bool}
    (h : m.stage ≠ .standby ∨ m.drop.sleep = 0 ∨ (stopOne = false ∧ c = 0)) : m.sleepChar c stopOne noisy = m := by
  refine if_neg ?_
  rcases h with h | h | ⟨h, hc⟩
  · simp [h]
  · simp [h]
  · simp [h, hc]

/-- A character that is no break, in standby with a sleep rate: judged, and a clean matching one wakes. -/
theorem sleepChar_eq {m : Module} {c : BitVec 9} {stopOne noisy : Bool} (hs : m.stage = .standby)
    (hr : m.drop.sleep ≠ 0) (hc : stopOne = true ∨ c ≠ 0) :
    m.sleepChar c stopOne noisy =
      if stopOne && !noisy && m.drop.matches c then (m.setPort .drop (fun u => u.judge stopOne noisy false)).wake 7
      else m.setPort .drop (fun u => u.judge stopOne noisy false) := by
  refine if_pos ?_
  rw [Bool.and_eq_true, Bool.and_eq_true, Bool.or_eq_true, beq_iff_eq, bne_iff_ne, bne_iff_ne]
  exact ⟨⟨hs, hr⟩, hc⟩

theorem sleepChar_wakes {m : Module} {c : BitVec 9} (hs : m.stage = .standby) (hr : m.drop.sleep ≠ 0)
    (hm : m.drop.matches c = true) : m.sleepChar c true false = m.wake 7 := by
  rw [sleepChar_eq hs hr (.inl rfl), hm]
  rfl

theorem sleepChar_judges {m : Module} {c : BitVec 9} {stopOne noisy : Bool} (hs : m.stage = .standby)
    (hr : m.drop.sleep ≠ 0) (hc : stopOne = true ∨ c ≠ 0)
    (hd : stopOne = false ∨ noisy = true ∨ m.drop.matches c = false) :
    m.sleepChar c stopOne noisy = m.setPort .drop (fun u => u.judge stopOne noisy false) := by
  rw [sleepChar_eq hs hr hc]
  refine if_neg ?_
  rcases hd with hd | hd | hd <;> simp [hd]

/-! ### Replies that have gone (R181, R423) -/

theorem replySent_idle {m : Module} {port : Port}
    (h : m.portRuns port = false ∨ (m.port port).brk.isSome = true ∨ (m.port port).txq = []) : m.replySent port = m := by
  unfold Module.replySent
  dsimp only
  rcases h with h | h | h
  · rw [h, Bool.false_and, if_neg Bool.false_ne_true]
  · rw [Option.isNone_eq_false_iff.mpr h, Bool.and_false, if_neg Bool.false_ne_true]
  · rw [h]
    exact ite_self m

theorem replySent_goes {m : Module} {port : Port} {r : Reply} {rest : List Reply} (hr : m.portRuns port = true)
    (hb : (m.port port).brk = none) (hq : (m.port port).txq = r :: rest) (hl : (m.port port).loopback = false) :
    m.replySent port = (((m.put (.serial port (frameChars r.bytes))).setPort port (fun u => { u with
      txq := rest
      jobs := u.jobs.map (fun (j : Nat × PortJob) => (j.1 - 1, j.2)) })).portJobs
        port).resetStep.standbyStep.prbsStep := by
  unfold Module.replySent
  dsimp only
  rw [hr, hb, hq, hl]
  rfl

/-! ### Self-tests (R433, R437, R441) -/

theorem testDone_none {m : Module} {found : BistFound} (h : m.diag.bist = none) : m.testDone found = m := by
  unfold Module.testDone
  rw [h]

theorem testDone_memory {m : Module} {found : BistFound} {f : FinalRef} {select : Word16}
    (h : m.diag.bist = some (f, 4, select)) :
    m.testDone found = if m.stage = .vault then m.fullDdrDone found else m := by
  unfold Module.testDone
  rw [h]
  rfl

/-- A test other than FULL_DDR ends once it has run. -/
theorem testDone_eq {m : Module} {found : BistFound} {f : FinalRef} {target : Nat} {select : Word16}
    (h : m.diag.bist = some (f, target, select)) (ht : target ≠ 4) :
    m.testDone found =
      if m.coresUp && m.testRan target select then (fun (x : Module) =>
        if target = 2 then
          x.each ((m.memFaults target select found).map (fun f => f.slice)).eraseDups (fun n m => m.sliceReset n true)
        else x)
        ((({ m with diag := { m.diag with bist := none }, free := m.free + 38 * m.variant.slices }).afterTest
          target select).final f stOk 0 (m.bistPayload target select found))
      else m := by
  unfold Module.testDone
  rw [h]
  exact if_neg ht

theorem testDone_ends {m : Module} {found : BistFound} {f : FinalRef} {target : Nat} {select : Word16}
    (h : m.diag.bist = some (f, target, select)) (ht : target ≠ 4) (hu : m.coresUp = true)
    (hr : m.testRan target select = true) :
    m.testDone found = (fun (x : Module) =>
      if target = 2 then
        x.each ((m.memFaults target select found).map (fun f => f.slice)).eraseDups (fun n m => m.sliceReset n true)
      else x)
      ((({ m with diag := { m.diag with bist := none }, free := m.free + 38 * m.variant.slices }).afterTest
        target select).final f stOk 0 (m.bistPayload target select found)) := by
  rw [testDone_eq h ht, hu, hr]
  rfl

theorem testDone_waits {m : Module} {found : BistFound} {f : FinalRef} {target : Nat} {select : Word16}
    (h : m.diag.bist = some (f, target, select)) (ht : target ≠ 4)
    (hd : m.coresUp = false ∨ m.testRan target select = false) : m.testDone found = m := by
  rw [testDone_eq h ht]
  exact if_neg (by rcases hd with hd | hd <;> simp [hd])

/-- Settles O49, row by row with a lemma for each outcome. -/
theorem portsAndTests : Obligations.PortsAndTests := by
  unfold Obligations.PortsAndTests
  refine ⟨?breaks, ?wake, ?resume, ?reply, ?breakEnd, ?bist, fun m select => rfl, ?scrub⟩
  case breaks =>
    rintro s dt port bits lpo _ _ rfl rfl
    have row : exec (.serialBreak dt port bits lpo) s =
      .next { s with m := (s.m.elapse dt).breakHeard port bits lpo } := rfl
    refine ⟨fun h => row.trans (by rw [breakHeard_deaf h]), fun h => ⟨_, row, ?_⟩⟩
    obtain ⟨hb, hi, hp, hs⟩ := breakHeard_counts bits lpo h
    exact ⟨hb, hi, hp, hs, breakHeard_long bits h, breakHeard_short h⟩
  case wake =>
    rintro s dt c stopOne noisy _ rfl
    refine ⟨fun h => on_next (f := fun m => m.sleepChar c stopOne noisy) (sleepChar_idle h), fun hs hr h1 h2 hm => ?_,
      fun hs hr hc hd => on_next (f := fun m => m.sleepChar c stopOne noisy) (sleepChar_judges hs hr hc hd)⟩
    rw [h1, h2]
    exact on_next (f := fun m => m.sleepChar c true false) (sleepChar_wakes hs hr hm)
  case resume =>
    rintro s dt _ rfl
    rfl
  case reply =>
    rintro s dt port _ rfl
    exact ⟨fun h => on_next (f := fun m => m.replySent port) (replySent_idle h),
      fun r rest hr hb hq hl => on_next (f := fun m => m.replySent port) (replySent_goes hr hb hq hl)⟩
  case breakEnd =>
    rintro s dt port _ rfl
    rfl
  case bist =>
    rintro s dt found _ rfl
    refine ⟨fun h => on_next (f := fun m => m.testDone found) (testDone_none h), fun f target select x h ht hu hr hx => ?_,
      fun f target select h ht hd => on_next (f := fun m => m.testDone found) (testDone_waits h ht hd),
      fun f select h => on_next (f := fun m => m.testDone found) (testDone_memory h)⟩
    rw [hx]
    exact on_next (f := fun m => m.testDone found) (testDone_ends h ht hu hr)
  case scrub =>
    rintro s dt _ rfl
    rfl

end Sys2Proof.Machine
end

section
/-! PROOFS. Where the commands of the rows take effect (`Obligations.CommandsTakeEffect`). -/

namespace Sys2Proof.Machine
open Sys2Proof

/-! ### The tracker and the boundaries without a measured period (R77, R79, R84, R270) -/

theorem setLen_tracker (c : Clock) (len : Word32) : (c.setLen len).tracker = c.tracker := by rw [setLen_leaves]

theorem flywheel_flies {m : Module} (ht : m.clk.tracker = .locking ∨ m.clk.tracker = .locked)
    (hp : 4096 < m.clk.sincePrediction.toNat) (hr : m.clk.lastRef = none) :
    m.flywheel.clk.tracker = .flywheel ∧ m.flywheel.clk.flyFrom = m.clk.turn := by
  have hk : (m.clk.tracker == .locking || m.clk.tracker == .locked) = true := by
    rcases ht with h | h <;> rw [h] <;> rfl
  unfold Module.flywheel
  dsimp only
  rw [hr, hk, decide_eq_true hp]
  dsimp only
  rw [if_pos (by rfl), setLen_leaves]
  exact ⟨rfl, rfl⟩

theorem setLen_halfDone (c : Clock) (len : Word32) : (c.setLen len).halfDone = c.halfDone := by rw [setLen_leaves]

theorem setLen_headerGap (c : Clock) (len : Word32) : (c.setLen len).headerGap = c.headerGap := by rw [setLen_leaves]

/-- The tracker's move at a boundary leaves the counts of boundaries and of weft times. -/
theorem synthetic_counts (m : Module) : m.synthetic.clk.halfDone = m.clk.halfDone ∧
    m.synthetic.clk.headerGap = m.clk.headerGap ∧ m.synthetic.upd = m.upd := by
  unfold Module.synthetic
  refine ⟨?_, ?_, ?_⟩ <;>
    simp only [apply_ite Module.clk, apply_ite Clock.halfDone, apply_ite Clock.headerGap, apply_ite Module.upd,
      setLen_halfDone, setLen_headerGap, ite_self]

theorem busesJudged_counts (m : Module) (means : List Int) :
    (m.busesJudged means).clk.halfDone = m.clk.turn / 32768 ∧
      (m.busesJudged means).clk.headerGap = m.clk.headerGap ∧ (m.busesJudged means).upd = m.upd := by
  have h := Serves.foldl _ (fun m n => serves_busHalf m n (means.getD n 0)) (List.range m.variant.slices)
    { m with clk := { m.clk with halfDone := m.clk.turn / 32768 } }
  obtain ⟨h1, h2, h3⟩ := synthetic_counts ((List.range m.variant.slices).foldl
    (fun (x : Module) n => x.busHalf n (means.getD n 0)) { m with clk := { m.clk with halfDone := m.clk.turn / 32768 } })
  exact ⟨h1.trans (by rw [h.clk]), h2.trans (by rw [h.clk]), h3.trans (by rw [h.same])⟩

/-! ### Persistence passes (R340) -/

theorem passPeriod_due {m : Module} (hu : m.coresUp = true)
    (h : (if m.pow.ledger ≠ 0 ∨ m.hubHeat < 0 then 2048 else 256) ≤ m.meter.sincePass) :
    (if m.coresUp && decide (m.passPeriod ≤ m.meter.sincePass) then m.pass else m) = m.pass :=
  if_pos (by rw [hu]; exact decide_eq_true h)

/-! ### Overcurrent (R186) -/

theorem overcurrent_opens {m : Module} {ch peak : Nat} (hw : Tbl.wf Chan.reset m.lamps.chans = true)
    (hc : (m.chan ch).closed = true) (hi : (m.chan ch).inrush = none) (hp : 8000 < peak) (hr : (m.chan ch).tripRun < 2) :
    ((m.overcurrent ch peak).chan ch).closed = false ∧ ((m.overcurrent ch peak).chan ch).tripOpen = true ∧
      ((m.overcurrent ch peak).chan ch).tripRun = (m.chan ch).tripRun + 1 := by
  have hl : m.tripLevel ch < peak := by
    rw [tripLevel_closed (fun t h => absurd (hi.symm.trans h) (by simp))]
    exact hp
  rw [(overcurrent_trips hc hl).1 hr, chan_setChan hw, if_pos rfl]
  exact ⟨openAt_closed _ _ _, rfl, rfl⟩

/-- Settles O60: each row by the obligation that states it in full, and the rows told here under fewer conditions by
the lemmas above. -/
theorem commandsTakeEffect : Obligations.CommandsTakeEffect := by
  unfold Obligations.CommandsTakeEffect
  rintro s dt _ rfl
  refine ⟨⟨?px, ?pending, ?wr, ?rd, ?hello⟩, ?frames,
    ⟨?plans, ?timeout, ?flash, ?dim, ?fallback, ?vital, ?overcurrent, ?cut, ?inrush⟩, ⟨?learn, ?learnt, ?wire⟩,
    ⟨?fly, ?alternate, ?primary, ?hold, ?cycle, ?checkpoint, ?boundary⟩, ⟨?supplies, ?heat, ?standby, ?asleep⟩, ?meter,
    ⟨?up, ?loss, ?unwrap, ?echo, ?reply, ?told⟩⟩
  case px =>
    rintro x first count expect new seq rfl hu hw hf hc hd ht hall
    obtain ⟨granted, -⟩ := passbookExchange
    obtain ⟨w, he, -, hcode⟩ := granted s dt first count expect new seq _ rfl hu hw hf hc hd ht
      (fun k h1 h2 => (hall k h1 h2).1) (fun k h1 h2 => (hall k h1 h2).2)
    exact ⟨_, he, rfl, rfl, fun k h1 h2 => (hcode k).trans (if_pos ⟨h1, h2⟩)⟩
  case pending =>
    intro first data hu hw
    obtain ⟨-, -, -, -, -, clears⟩ := windowAccess
    obtain ⟨l, he, hl⟩ := clears s dt first data _ rfl hu hw
    refine ⟨l, he, fun i hi hb => ?_⟩
    rw [hl, hb, decide_eq_true hi]
    exact Bool.and_false _
  case wr =>
    rintro x offset data rfl hu hmem h0 hp hw hpage hcode
    obtain ⟨⟨owned, -⟩, -⟩ := windowAccess
    obtain ⟨w, he, hsame, hread⟩ := owned s dt offset data _ rfl hu hmem h0 hp hw hpage hcode
    refine ⟨w, he, by rw [hsame], fun i hi => ?_⟩
    rw [hread, if_pos ⟨Nat.le_add_right _ _, Nat.add_lt_add_left hi _⟩, Nat.add_sub_cancel_left]
  case rd =>
    rintro x tag offset len rfl hu h0 hp hw hpage hcode hecc
    obtain ⟨-, reads, -⟩ := windowAccess
    exact reads s dt tag offset len _ rfl hu h0 hp hw hpage hcode hecc
  case hello =>
    obtain ⟨-, -, -, -, hello, -⟩ := windowAccess
    exact hello s dt _ rfl
  case frames =>
    intro n stamp hdr rising pos x hn h1 h2 hf hg he h0 hw hx
    have acted : ∀ f, (s.m.elapse dt).fromSlice n hdr f = f x := fun f => by
      rw [hx]
      exact fromSlice_ok h1 h2 hf hg he h0 hw f
    have hclk : x.clk = (s.m.elapse dt).clk := by
      rw [hx]
      exact (serves_setFrames _ n _).clk
    have xing : exec (.xing dt n hdr rising stamp) s =
        .next { s with m := x.cross n rising ((s.m.elapse dt).clk.tick.toNat - stamp) } :=
      onSlice_to (f := fun m => m.fromSlice n hdr (fun x => x.cross n rising (x.clk.tick.toNat - stamp))) hn
        ((acted _).trans (by rw [hclk]))
    refine ⟨onSlice_to hn (acted id), xing, fun hr hc => xing.trans ?_⟩
    rw [← hclk] at hr hc ⊢
    rw [cross_unchained hr hc]
  case plans =>
    intro id e h
    obtain ⟨sends, -, acts, -⟩ := planEntries
    refine ⟨fun hs => ?_, fun hf ht hd hall => ?_⟩
    · obtain ⟨t, he, hl, -⟩ := sends s dt id _ e rfl h hs
      exact ⟨t, he, hl⟩
    · have ha := acts s dt id _ e rfl h hf hd hall
      rw [ht] at ha
      exact ha
  case timeout =>
    intro ch x from_ hc hz he hw hd h0 hb
    obtain ⟨-, -, -, -, -, late, -⟩ := planEntries
    obtain ⟨t, hrow, hzc, -, -, hcmd, -⟩ := late s dt ch x from_ _ rfl hc hz he hw hd
    exact ⟨t, hrow, hzc, hcmd h0 hb⟩
  case flash =>
    intro h
    exact ⟨_, on_next rfl, (flashBoundary_moves h).1⟩
  case dim =>
    intro ch hc hp hd hn hm hw
    exact ⟨_, onChannel_to hc ((dimStep_moves hp hd).trans (by rw [hn])), moveSwitch_closes hw hm⟩
  case fallback =>
    intro n hn hs hx hd
    exact onSlice_to hn (fallbackPoint_applies hs hx hd)
  case vital =>
    intro ht hc hh hl hu hx
    obtain ⟨resumes, -⟩ := vitalOk
    obtain ⟨t, he, hp, -⟩ := resumes s dt _ rfl ht hc hh hl hu hx
    exact ⟨t, he, by rw [hp], by rw [hp]⟩
  case overcurrent =>
    intro ch peak hc hcl hi hp hr hw
    exact ⟨_, onChannel_to hc rfl, overcurrent_opens hw hcl hi hp hr⟩
  case cut =>
    intro n ch hn hch hw ho
    obtain ⟨hopen, -⟩ := thermalCut_opens n hw ho
    exact ⟨_, onSlice_to hn rfl, hopen ch hch⟩
  case inrush =>
    intro ch t0 hc hi hd
    rw [exec_inrushWindowEnd]
    exact onChannel_to hc ((inrushEnds_some hi).trans (if_pos hd))
  case learn =>
    intro ch
    obtain ⟨begins, -⟩ := learningAndWires
    exact begins s dt ch _ rfl
  case learnt =>
    intro ch cycles sums bins hc hl hn hs hb hr
    obtain ⟨-, ends, -⟩ := learningAndWires
    have he := ends s dt ch cycles _ sums bins rfl hc hl hn hs hb
    rw [hr, if_pos rfl] at he
    exact he
  case wire =>
    intro ch up down hc hw h1 h2 hle
    obtain ⟨-, -, -, tested, -⟩ := learningAndWires
    exact (tested s dt ch up down _ rfl hc hw h1 h2).2 hle
  case fly =>
    intro ht hp hr
    exact ⟨_, on_next rfl, flywheel_flies ht hp hr⟩
  case alternate => exact fun ht hf hn hs => on_next (alternate_takes ht hf hn hs)
  case primary =>
    exact fun stamp ha hs h64 ht hq => on_next (f := fun m => m.primaryReturn stamp) (primaryReturn_takes ha hs h64 ht hq)
  case hold =>
    intro ht hg
    refine ⟨_, on_next (if_pos ?_), setLen_tracker _ _, ?_, ?_⟩
    · rw [ht, decide_eq_true hg]
      rfl
    · dsimp only
      rw [setLen_leaves]
    · dsimp only
      rw [setLen_leaves]
  case cycle =>
    exact fun ha hf hu => on_next (f := fun m => m.cycleStart) (cycleStart_wraps (wrapDue_of ha hf) hu)
  case checkpoint => exact fun hu => on_next (if_pos hu)
  case boundary =>
    intro means h1 h2 hh hb
    obtain ⟨-, -, -, -, -, boundary, -⟩ := cyclesAndBoundaries
    obtain ⟨a, b, he, ha, hclk, hwefts, -⟩ := boundary s dt means _ rfl h1 h2 hh hb
    obtain ⟨hdone, hgap, hupd⟩ := busesJudged_counts (s.m.elapse dt) means
    have hj : a = (s.m.elapse dt).busesJudged means := ha
    rw [← hj] at hdone hgap hupd
    refine ⟨b, he, ?_, ?_, ?_⟩
    · rw [hclk, hdone]
    · rw [hclk, hgap]
    · rw [hwefts, hupd]
  case supplies =>
    intro h1 h2
    obtain ⟨mainsIn, -, mainsOut, -, backupIn, backupOut, -, toMains, -⟩ := supplyChanges
    obtain ⟨⟨integrate, -, checkpoint, refill, -, reserve, -⟩, -⟩ := accountsAndHeat
    refine ⟨fun dv hs hm => (mainsIn s dt dv _ rfl h1 h2 hm).trans ?_,
      fun dv hm hb => (mainsOut s dt dv _ _ rfl h1 h2 hm rfl).trans ?_,
      fun cv hb hm hd => (backupIn s dt cv _ _ rfl h1 h2 hb rfl).trans ?_,
      fun cv hb hm => (backupOut s dt cv _ _ rfl h1 h2 hb rfl).trans ?_, toMains s dt _ rfl h1 h2,
      fun groats hb hlt hu => (integrate s dt groats _ _ rfl h1 h2 hb rfl).2.trans ?_, checkpoint s dt _ rfl h1 h2,
      refill s dt _ rfl h1 h2, fun groats => ?_⟩
    · dsimp only
      rw [if_neg hs]
    · rw [if_pos hb]
    · rw [if_pos ⟨hm, hd⟩]
    · rw [if_pos hm]
    · rw [if_pos hu, if_pos hlt]
    · obtain ⟨t, he, -, -, hh, ha⟩ := reserve s dt groats _ rfl h1 h2
      exact ⟨t, he, hh, ha⟩
  case heat =>
    intro n hub hn hu hl hm hw
    obtain ⟨-, model, -⟩ := accountsAndHeat
    obtain ⟨t, he, hp, -, hat, -, -, hs, -⟩ := model s dt n hub _ rfl hn hu hl hm hw
    exact ⟨t, he, by rw [hp], hat, hs⟩
  case standby =>
    intro hu hl hd
    obtain ⟨-, -, counts, -⟩ := holdupAndStandby
    have row := counts s dt _ rfl hu hl hd
    refine ⟨fun hb hm => row.trans (by rw [if_pos ⟨hb, hm⟩]), fun h => row.trans ?_⟩
    rw [if_neg]
    rintro ⟨hb, hm⟩
    rcases h with h | h
    · exact Bool.false_ne_true (h.symm.trans hb)
    · exact Bool.false_ne_true (hm.symm.trans h)
  case asleep => exact fun h => on_next (if_pos (beq_iff_eq.mpr h))
  case meter =>
    intro hu
    refine ⟨fun b ticks tariff he hb => ?_, fun h => on_next (passPeriod_due hu h), fun t c fl hv h => ?_,
      fun t c x hv h => ?_⟩
    · obtain ⟨commits, -⟩ := halfCycleCommits
      obtain ⟨t, hrow, -, hc, ht, hn, -⟩ := commits s dt b ticks tariff _ rfl hu he hb
      exact ⟨t, hrow, hc, ht, hn⟩
    · obtain ⟨closes, -⟩ := demandAndTariffs
      exact closes s dt _ t c fl rfl hu hv h
    · obtain ⟨u, hm, hcount, -⟩ := tariffChange_applies hv h
      exact ⟨u, on_next ((if_pos hu).trans hm), hcount⟩
  case up =>
    intro l fec side hl hu hf hs h2 h3 h4 hi
    exact onLane_to hl (laneUp_ring hu hf hs ⟨h2, h3, h4⟩ (.inl hi))
  case loss => exact fun l hl h1 h2 h0 h4 => onLane_to hl (laneDown_goes (alive_of h1 h2) h0 h4)
  case unwrap =>
    intro side hv hs hb hu hp ha
    obtain ⟨-, -, -, -, -, -, restores, -⟩ := linkFrames.1
    obtain ⟨t, he, hbr, -⟩ := restores s dt side (otherSide side) _ rfl (by cases side <;> decide) hv hs hb hu hp ha
    exact ⟨t, he, hbr⟩
  case echo => exact fun l tick hl hu hs hne => onLane_to hl (answerEcho_answers hu hs hne)
  case reply =>
    intro l side tick turn hl hu hs hside hd h7 h8
    obtain ⟨⟨-, -, -, -, -, -, -, -, -, reply⟩, -⟩ := linkFrames
    exact (reply s dt l side tick turn _ rfl hl hu hs hside hd).2.1 h7 h8
  case told =>
    rintro hdr side f hu hs h2 hf
    obtain ⟨-, notice, ack⟩ := linkFrames
    refine ⟨fun weft slot loop hn => ?_, ?_⟩
    · exact (notice s dt hdr weft slot loop side _ f rfl hu hs h2 hf).1
        (fun w h => absurd (hn.symm.trans h) (by simp))
    · obtain ⟨t, he, hE, hW, -⟩ := (ack s dt hdr f.revision side _ f rfl hu hs h2 hf).2 rfl
      exact ⟨t, he, fun h => (hE h).1, fun h => (hW h).1⟩

end Sys2Proof.Machine
end
